-- ==== Sys2Proof/Word.lean ====
section
/-! DEFINITION. The word types of the LX9 (00 R5, 04 R90, 05 R106) and the sparse map type that tables and register
files are held in: a list of (key, value) pairs, keys rising, an unlisted key standing for the map's default. -/

namespace Sys2Proof

/-- A 64-bit register or memory word (00 R5). -/
abbrev Word := BitVec 64

/-- One byte of memory. -/
abbrev Byte := BitVec 8

/-- A vector register, 2,048 bits (05 R106). -/
abbrev VReg := BitVec 2048

/-- A mask register, 256 bits (05 R106). -/
abbrev MReg := BitVec 256

/-- A sparse map from Nat keys: (key, value) pairs, keys strictly rising. -/
abbrev SMap (α : Type) := List (Nat × α)

end Sys2Proof
end

