-- ==== Sys2Proof/Machine/Numbers.lean ====
section
/-! DEFINITION. The number formats of the LX9 and the one rounding step (03): exact values, decoding of every floating
format, rounding in the seven modes, the stochastic generator, exact arithmetic, conversions and the pair primitives. -/

namespace Sys2Proof.Machine

/-- The rounding modes of Table 3-3; DYN is resolved before an operation runs (03 R61). -/
inductive Rm where
  | rne | rtz | rdn | rup | rna | rto | sr
  deriving DecidableEq, Repr

/-- The mode of a 3-bit rm code; `none` is DYN. -/
def Rm.ofCode (c : Nat) : Option Rm :=
  match c with
  | 0 => some .rne | 1 => some .rtz | 2 => some .rdn | 3 => some .rup
  | 4 => some .rna | 5 => some .rto | 6 => some .sr | _ => none

/-- The flags of FSR[6:0]: nv, dz, of, uf, nx, px, sat from bit 0 (03 Table 3-6a). -/
abbrev Flags := BitVec 7
abbrev fNone : Flags := 0#7
abbrev fNV : Flags := 1#7
abbrev fDZ : Flags := 2#7
abbrev fOF : Flags := 4#7
abbrev fUF : Flags := 8#7
abbrev fNX : Flags := 16#7
abbrev fPX : Flags := 32#7
abbrev fSAT : Flags := 64#7

/-- `f` when `b` holds, no flag otherwise. -/
def flagIf (b : Bool) (f : Flags) : Flags := if b then f else fNone

/-- A floating format of Table 3-1. `fp8` marks E4M3 and E5M2, which saturate (Table 3-6); `e4m3` marks the format
without infinities (03 R58). -/
structure Fmt where
  width : Nat
  ebits : Nat
  fbits : Nat
  bias : Nat
  fp8 : Bool
  e4m3 : Bool
  deriving DecidableEq, Repr

def fp64 : Fmt := { width := 64, ebits := 11, fbits := 52, bias := 1023, fp8 := false, e4m3 := false }
def fp32 : Fmt := { width := 32, ebits := 8, fbits := 23, bias := 127, fp8 := false, e4m3 := false }
def bf16 : Fmt := { width := 16, ebits := 8, fbits := 7, bias := 127, fp8 := false, e4m3 := false }
def fp16 : Fmt := { width := 16, ebits := 5, fbits := 10, bias := 15, fp8 := false, e4m3 := false }
def e4m3 : Fmt := { width := 8, ebits := 4, fbits := 3, bias := 7, fp8 := true, e4m3 := true }
def e5m2 : Fmt := { width := 8, ebits := 5, fbits := 2, bias := 15, fp8 := true, e4m3 := false }

/-- An exact value: a NaN (signalling or not), an infinity, or (−1)^neg · m · 2^e; a zero keeps its sign (03 R56). -/
inductive FVal where
  | nan (signalling : Bool)
  | inf (neg : Bool)
  | fin (neg : Bool) (m : Nat) (e : Int)
  deriving DecidableEq, Repr

def FVal.zero : FVal := .fin false 0 0

/-- Exponent of the smallest normal value. -/
def Fmt.emin (f : Fmt) : Int := 1 - (f.bias : Int)

/-- Exponent of the largest finite value (8 for E4M3, whose exponent 1111 holds finite values, 03 R58). -/
def Fmt.emax (f : Fmt) : Int := if f.e4m3 then 8 else (f.bias : Int)

/-- Significand of the largest finite value, as an integer of fbits + 1 bits. -/
def Fmt.maxMant (f : Fmt) : Nat := if f.e4m3 then 14 else 2 ^ (f.fbits + 1) - 1

/-- Canonical NaN of Table 3-2. -/
def Fmt.nanBits (f : Fmt) : Nat :=
  if f.e4m3 then 0x7F else (2 ^ f.ebits - 1) * 2 ^ f.fbits + 2 ^ (f.fbits - 1)

def Fmt.signBit (f : Fmt) (neg : Bool) : Nat := if neg then 2 ^ (f.width - 1) else 0

/-- Infinity of the format; E4M3 has none and gives its NaN (Table 3-6). -/
def Fmt.infBits (f : Fmt) (neg : Bool) : Nat :=
  if f.e4m3 then f.nanBits else f.signBit neg + (2 ^ f.ebits - 1) * 2 ^ f.fbits

/-- Largest finite magnitude with a sign. -/
def Fmt.maxBits (f : Fmt) (neg : Bool) : Nat :=
  f.signBit neg + (if f.e4m3 then 0x7E else (2 ^ f.ebits - 2) * 2 ^ f.fbits + (2 ^ f.fbits - 1))

/-- The exact value that a bit pattern of the format stands for (03 R54–R58). -/
def Fmt.decode (f : Fmt) (bits : Nat) : FVal :=
  let b := bits % 2 ^ f.width
  let neg := decide (2 ^ (f.width - 1) ≤ b)
  let x := (b / 2 ^ f.fbits) % 2 ^ f.ebits
  let fr := b % 2 ^ f.fbits
  if f.e4m3 then
    if x = 15 && fr = 7 then .nan false
    else if x = 0 then .fin neg fr (f.emin - (f.fbits : Int))
    else .fin neg (fr + 2 ^ f.fbits) ((x : Int) - (f.bias : Int) - (f.fbits : Int))
  else if x = 2 ^ f.ebits - 1 then
    if fr = 0 then .inf neg else .nan (decide (fr < 2 ^ (f.fbits - 1)))
  else if x = 0 then .fin neg fr (f.emin - (f.fbits : Int))
  else .fin neg (fr + 2 ^ f.fbits) ((x : Int) - (f.bias : Int) - (f.fbits : Int))

/-- Does the magnitude round away from zero? `r / 2^s` is the dropped fraction, `sticky` says that more was dropped
below it, `u` is the 24-bit draw of a stochastic rounding (03 Table 3-3, R66). -/
def roundsUp (rm : Rm) (neg : Bool) (q r s : Nat) (sticky : Bool) (u : Nat) : Bool :=
  let inexact := r != 0 || sticky
  match rm with
  | .rne => decide (2 ^ s < 2 * r) || (2 * r == 2 ^ s && (sticky || q % 2 == 1))
  | .rtz => false
  | .rto => false
  | .rdn => neg && inexact
  | .rup => !neg && inexact
  | .rna => decide (2 ^ s ≤ 2 * r)
  | .sr => decide (u < r * 2 ^ 24 / 2 ^ s)

/-- The magnitude m · 2^e rounded once to a multiple of 2^q: the multiple, and whether it is inexact. -/
def roundMag (rm : Rm) (u : Nat) (neg : Bool) (m : Nat) (e : Int) (sticky : Bool) (q : Int) : Nat × Bool :=
  let s := (q - e).toNat
  let m' := m * 2 ^ (e - q).toNat
  let k := m' / 2 ^ s
  let r := m' % 2 ^ s
  let inexact := r != 0 || sticky
  let k' := if roundsUp rm neg k r s sticky u then k + 1
            else if rm = .rto && inexact then k ||| 1 else k
  (k', inexact)

/-- The overflow result of Table 3-4, or the saturated FP8 value (Table 3-6). -/
def Fmt.overflowBits (f : Fmt) (rm : Rm) (neg : Bool) : Nat :=
  if f.fp8 then f.maxBits neg
  else match rm with
    | .rne | .rna | .sr => f.infBits neg
    | .rtz | .rto => f.maxBits neg
    | .rdn => if neg then f.infBits true else f.maxBits false
    | .rup => if neg then f.maxBits true else f.infBits false

/-- A finite magnitude m · 2^e (plus less than one unit of 2^e when `sticky`) rounded once into the format: the bits and the flags
of, uf, nx (03 R62, R64, R65). -/
def Fmt.roundFin (f : Fmt) (rm : Rm) (u : Nat) (neg : Bool) (m : Nat) (e : Int) (sticky : Bool) : Nat × Flags :=
  if m = 0 && !sticky then (f.signBit neg, fNone)
  else
    let top : Int := (Nat.log2 m : Int) + e
    let qU := top - (f.fbits : Int)
    let q := max qU (f.emin - (f.fbits : Int))
    let (k, inexact) := roundMag rm u neg m e sticky q
    let kU := (roundMag rm u neg m e sticky qU).1
    let tiny := decide ((Nat.log2 kU : Int) + qU < f.emin)
    let lk := Nat.log2 k
    let isOver := k != 0 && (decide (f.emax < (lk : Int) + q) ||
      (decide ((lk : Int) + q = f.emax) && decide (f.maxMant * 2 ^ lk < k * 2 ^ f.fbits)))
    if isOver then (f.overflowBits rm neg, fOF ||| fNX)
    else
      let bits :=
        if k < 2 ^ f.fbits then f.signBit neg + k
        else
          let frac := (if lk = f.fbits then k else k / 2) - 2 ^ f.fbits
          f.signBit neg + ((lk : Int) + q + (f.bias : Int)).toNat * 2 ^ f.fbits + frac
      (bits, flagIf inexact fNX ||| flagIf (tiny && inexact) fUF)

/-- Round any exact value into the format. A NaN gives the canonical NaN; a signalling one sets nv (03 R57). An infinity
into E4M3 gives the NaN with nv (Table 3-6). -/
def Fmt.round (f : Fmt) (rm : Rm) (u : Nat) (x : FVal) : Nat × Flags :=
  match x with
  | .nan sg => (f.nanBits, flagIf sg fNV)
  | .inf neg => (f.infBits neg, flagIf f.e4m3 fNV)
  | .fin neg m e => f.roundFin rm u neg m e false

/-- `mix64` of 03 R68. -/
def mix64 (z0 : Word) : Word :=
  let z1 := z0 ^^^ (z0 >>> 30)
  let z2 := z1 * 0xBF58476D1CE4E5B9#64
  let z3 := z2 ^^^ (z2 >>> 27)
  let z4 := z3 * 0x94D049BB133111EB#64
  z4 ^^^ (z4 >>> 31)

/-- The generator output of 03 R68. -/
def rndWord (seed w1 w2 : Word) : Word :=
  mix64 (seed ^^^ mix64 (w1 ^^^ mix64 (w2 + 0x9E3779B97F4A7C15#64)))

/-- The 24-bit draw u = rnd[63:40] for key words with tag and index (03 R66, R67). -/
def drawOf (seed w1 : Word) (tag index : Nat) : Nat :=
  (rndWord seed w1 (BitVec.ofNat 64 (tag % 256 * 65536 + index % 65536))).toNat / 2 ^ 40

/-! ### Exact arithmetic -/

def FVal.isNan : FVal → Bool
  | .nan _ => true
  | _ => false

def FVal.isInf : FVal → Bool
  | .inf _ => true
  | _ => false

def FVal.isFin : FVal → Bool
  | .fin _ _ _ => true
  | _ => false

def FVal.isZero : FVal → Bool
  | .fin _ 0 _ => true
  | _ => false

def FVal.signalling : FVal → Bool
  | .nan sg => sg
  | _ => false

def FVal.isNeg : FVal → Bool
  | .nan _ => false
  | .inf n => n
  | .fin n _ _ => n

def FVal.neg : FVal → FVal
  | .nan sg => .nan sg
  | .inf n => .inf (!n)
  | .fin n m e => .fin (!n) m e

def FVal.abs : FVal → FVal
  | .nan sg => .nan sg
  | .inf _ => .inf false
  | .fin _ m e => .fin false m e

/-- x · 2^k, exact. -/
def FVal.scale (k : Int) : FVal → FVal
  | .fin n m e => .fin n m (e + k)
  | x => x

/-- Signed integer of a finite magnitude at exponent `e0 ≤ e`. -/
def FVal.intAt (neg : Bool) (m : Nat) (e e0 : Int) : Int :=
  let v : Int := (m * 2 ^ (e - e0).toNat : Nat)
  if neg then -v else v

/-- An exact finite sum: opposite signs that cancel give +0, or −0 when `rdn` (03 R56). -/
def addFin (rdn : Bool) (n1 : Bool) (m1 : Nat) (e1 : Int) (n2 : Bool) (m2 : Nat) (e2 : Int) : FVal :=
  let e0 := min e1 e2
  let v := FVal.intAt n1 m1 e1 e0 + FVal.intAt n2 m2 e2 e0
  if v = 0 then .fin (if n1 = n2 then n1 else rdn) 0 e0
  else .fin (decide (v < 0)) v.natAbs e0

/-- Exact sum of two values, with the nv flag of a signalling NaN or of ∞ − ∞ (03 R57). -/
def addF (rdn : Bool) (a b : FVal) : FVal × Flags :=
  match a, b with
  | .nan s1, .nan s2 => (.nan false, flagIf (s1 || s2) fNV)
  | .nan s1, _ => (.nan false, flagIf s1 fNV)
  | _, .nan s2 => (.nan false, flagIf s2 fNV)
  | .inf n1, .inf n2 => if n1 = n2 then (.inf n1, fNone) else (.nan false, fNV)
  | .inf n1, _ => (.inf n1, fNone)
  | _, .inf n2 => (.inf n2, fNone)
  | .fin n1 m1 e1, .fin n2 m2 e2 => (addFin rdn n1 m1 e1 n2 m2 e2, fNone)

/-- Exact product, with the nv flag of a signalling NaN or of 0 × ∞ (03 R57). -/
def mulF (a b : FVal) : FVal × Flags :=
  match a, b with
  | .nan s1, .nan s2 => (.nan false, flagIf (s1 || s2) fNV)
  | .nan s1, _ => (.nan false, flagIf s1 fNV)
  | _, .nan s2 => (.nan false, flagIf s2 fNV)
  | .inf n1, .inf n2 => (.inf (n1 != n2), fNone)
  | .inf n1, .fin n2 m2 _ => if m2 = 0 then (.nan false, fNV) else (.inf (n1 != n2), fNone)
  | .fin n1 m1 _, .inf n2 => if m1 = 0 then (.nan false, fNV) else (.inf (n1 != n2), fNone)
  | .fin n1 m1 e1, .fin n2 m2 e2 => (.fin (n1 != n2) (m1 * m2) (e1 + e2), fNone)

/-- a · b + c exact, with nv when the product is 0 × ∞ whatever the addend (03 R57). -/
def fmaF (rdn : Bool) (a b c : FVal) : FVal × Flags :=
  let (p, f1) := mulF a b
  let (s, f2) := addF rdn p c
  (s, f1 ||| f2)

/-- Exact order of two values; `none` when one is NaN. −0 equals +0. -/
def cmpF (a b : FVal) : Option Ordering :=
  match a, b with
  | .nan _, _ => none
  | _, .nan _ => none
  | .inf n1, .inf n2 => some (if n1 = n2 then .eq else if n1 then .lt else .gt)
  | .inf n1, _ => some (if n1 then .lt else .gt)
  | _, .inf n2 => some (if n2 then .gt else .lt)
  | .fin n1 m1 e1, .fin n2 m2 e2 =>
    let e0 := min e1 e2
    some (compare (FVal.intAt n1 m1 e1 e0) (FVal.intAt n2 m2 e2 e0))

/-- Quotient of two magnitudes with at least `p` significant bits: (m, e, sticky). -/
def divMag (p m1 : Nat) (e1 : Int) (m2 : Nat) (e2 : Int) : Nat × Int × Bool :=
  let k := p + 2 + Nat.log2 m2 - Nat.log2 m1
  let n := m1 * 2 ^ k
  (n / m2, e1 - e2 - (k : Int), n % m2 != 0)

/-- Integer square root, by bits from the top; `fuel` bounds the bits of the root. -/
def isqrtLoop : Nat → Nat → Nat → Nat
  | 0, _, r => r
  | fuel + 1, n, r =>
    let t := r + 2 ^ fuel
    isqrtLoop fuel n (if t * t ≤ n then t else r)

def isqrt (n : Nat) : Nat := isqrtLoop (Nat.log2 n / 2 + 1) n 0

/-- Square root of a magnitude with at least `p` significant bits: (m, e, sticky). -/
def sqrtMag (p m : Nat) (e : Int) : Nat × Int × Bool :=
  let odd : Nat := (e % 2).toNat
  let m1 := m * 2 ^ odd
  let e1 := e - (odd : Int)
  let k := p + 2
  let n := m1 * 2 ^ (2 * k)
  let r := isqrt n
  (r, e1 / 2 - (k : Int), r * r != n)

/-- Sum of a list of exact values as one exact sum: opposite zeros give +0 (03 R56), ∞ − ∞ and signalling NaNs set nv. -/
def sumF : List FVal → FVal × Flags
  | [] => (.zero, fNone)
  | [x] => (if x.isNan then .nan false else x, flagIf x.signalling fNV)
  | x :: t =>
    let (s, f) := sumF t
    let (r, g) := addF false x s
    (r, f ||| g)

/-! ### Operations of one format -/

/-- Round an exact result and join its flags. -/
def finishF (f : Fmt) (rm : Rm) (u : Nat) (r : FVal × Flags) : Nat × Flags :=
  let (b, g) := f.round rm u r.1
  (b, r.2 ||| g)

def rdnOf (rm : Rm) : Bool := rm == .rdn

/-- The floating arithmetic minors of Table 4-5 that round (0x00–0x05). -/
inductive ArithOp where
  | add | sub | mul | fma | fms | fnma
  deriving DecidableEq, Repr

def fArith (f : Fmt) (op : ArithOp) (rm : Rm) (u : Nat) (a b c : Nat) : Nat × Flags :=
  let x := f.decode a
  let y := f.decode b
  let z := f.decode c
  let r := match op with
    | .add => addF (rdnOf rm) x y
    | .sub => addF (rdnOf rm) x y.neg
    | .mul => mulF x y
    | .fma => fmaF (rdnOf rm) x y z
    | .fms => fmaF (rdnOf rm) x y z.neg
    | .fnma => fmaF (rdnOf rm) x.neg y z
  finishF f rm u r

/-- fdiv: invalid 0/0 and ∞/∞ set nv, a finite nonzero value over zero sets dz (03 R57, Table 3-6a). -/
def fDiv (f : Fmt) (rm : Rm) (a b : Nat) : Nat × Flags :=
  match f.decode a, f.decode b with
  | .nan s1, y => (f.nanBits, flagIf (s1 || y.signalling) fNV)
  | _, .nan s2 => (f.nanBits, flagIf s2 fNV)
  | .inf n1, .inf _ => (f.nanBits, (fun _ => fNV) n1)
  | .inf n1, .fin n2 _ _ => (f.infBits (n1 != n2), fNone)
  | .fin n1 _ _, .inf n2 => (f.signBit (n1 != n2), fNone)
  | .fin n1 m1 e1, .fin n2 m2 e2 =>
    if m2 = 0 then
      if m1 = 0 then (f.nanBits, fNV) else (f.infBits (n1 != n2), fDZ)
    else if m1 = 0 then (f.signBit (n1 != n2), fNone)
    else
      let (m, e, st) := divMag (f.fbits + 4) m1 e1 m2 e2
      f.roundFin rm 0 (n1 != n2) m e st

/-- fsqrt: a negative nonzero operand sets nv; −0 stays −0. -/
def fSqrt (f : Fmt) (rm : Rm) (a : Nat) : Nat × Flags :=
  match f.decode a with
  | .nan sg => (f.nanBits, flagIf sg fNV)
  | .inf n => if n then (f.nanBits, fNV) else (f.infBits false, fNone)
  | .fin n m e =>
    if m = 0 then (f.signBit n, fNone)
    else if n then (f.nanBits, fNV)
    else
      let (r, e', st) := sqrtMag (f.fbits + 4) m e
      f.roundFin rm 0 false r e' st

/-- Is `a` below `b` for fmin and fmax, where −0 < +0 (Table 4-5). -/
def belowNum (x y : FVal) : Bool :=
  match cmpF x y with
  | some .lt => true
  | some .eq => x.isNeg && !y.isNeg
  | _ => false

/-- fmin and fmax: minimumNumber and maximumNumber (Table 4-5). -/
def fMinMax (f : Fmt) (isMax : Bool) (a b : Nat) : Nat × Flags :=
  let x := f.decode a
  let y := f.decode b
  let fl := flagIf (x.signalling || y.signalling) fNV
  if x.isNan && y.isNan then (f.nanBits, fl)
  else if x.isNan then (b % 2 ^ f.width, fl)
  else if y.isNan then (a % 2 ^ f.width, fl)
  else
    let pickA := if isMax then belowNum y x else belowNum x y
    ((if pickA then a else b) % 2 ^ f.width, fl)

/-- fsgnj: the bits of `a` with the sign of `b` (03 R57). -/
def fSgnj (f : Fmt) (a b : Nat) : Nat :=
  a % 2 ^ (f.width - 1) + (b % 2 ^ f.width) / 2 ^ (f.width - 1) * 2 ^ (f.width - 1)

/-- fclass: the one-hot class of Table 4-5. -/
def fClass (f : Fmt) (a : Nat) : Nat :=
  match f.decode a with
  | .inf n => if n then 1 else 2 ^ 7
  | .nan sg => if sg then 2 ^ 8 else 2 ^ 9
  | .fin n m _ =>
    if m = 0 then (if n then 2 ^ 3 else 2 ^ 4)
    else if m < 2 ^ f.fbits then (if n then 2 ^ 2 else 2 ^ 5)
    else (if n then 2 ^ 1 else 2 ^ 6)

/-- feq, flt, fle (Table 4-6a): false on a NaN; feq sets nv on a signalling NaN, flt and fle on any NaN. -/
inductive FCmp where
  | eq | lt | le
  deriving DecidableEq, Repr

def fCompare (f : Fmt) (op : FCmp) (a b : Nat) : Bool × Flags :=
  let x := f.decode a
  let y := f.decode b
  let sg := x.signalling || y.signalling
  let anyNan := x.isNan || y.isNan
  let c := cmpF x y
  match op with
  | .eq => (c == some .eq, flagIf sg fNV)
  | .lt => (c == some .lt, flagIf anyNan fNV)
  | .le => (c == some .lt || c == some .eq, flagIf anyNan fNV)

/-! ### Integers and Q formats -/

/-- Round an exact finite value to an integer: (signed integer, inexact). -/
def roundInt (rm : Rm) (u : Nat) (neg : Bool) (m : Nat) (e : Int) : Int × Bool :=
  let (k, ix) := roundMag rm u neg m e false 0
  (if neg then -(k : Int) else (k : Int), ix)

/-- Limits of a w-bit integer. -/
def intLo (signed : Bool) (w : Nat) : Int := if signed then -(2 ^ (w - 1) : Nat) else 0
def intHi (signed : Bool) (w : Nat) : Int := if signed then (2 ^ (w - 1) : Nat) - 1 else (2 ^ w : Nat) - 1

/-- The w-bit pattern of an integer. -/
def intBits (w : Nat) (v : Int) : Nat := (v % (2 ^ w : Nat)).toNat

/-- The integer that a w-bit pattern holds. -/
def intOf (signed : Bool) (w : Nat) (b : Nat) : Int :=
  let x := b % 2 ^ w
  if signed && decide (2 ^ (w - 1) ≤ x) then (x : Int) - (2 ^ w : Nat) else x

def clampInt (lo hi k : Int) : Int := if k < lo then lo else if hi < k then hi else k

/-- Floating to integer (Table 3-6): NaN gives 0 and nv, out of range gives the nearest limit and nv. -/
def toInt (rm : Rm) (u : Nat) (signed : Bool) (w : Nat) (x : FVal) : Int × Flags :=
  match x with
  | .nan _ => (0, fNV)
  | .inf n => (if n then intLo signed w else intHi signed w, fNV)
  | .fin n m e =>
    let (k, ix) := roundInt rm u n m e
    if k < intLo signed w || intHi signed w < k then (clampInt (intLo signed w) (intHi signed w) k, fNV)
    else (k, flagIf ix fNX)

/-- An integer as an exact value. -/
def ofInt (v : Int) : FVal := .fin (decide (v < 0)) v.natAbs 0

/-- `q_result` of 05 R116 on an exact value: rounding at 2^−f, saturation, flags sat and nx. -/
def qResult (rm : Rm) (u : Nat) (signed : Bool) (w f : Nat) (neg : Bool) (m : Nat) (e : Int) : Int × Flags :=
  let (k, ix) := roundInt rm u neg m (e + (f : Int))
  let c := clampInt (intLo signed w) (intHi signed w) k
  (c, flagIf (c != k) (fSAT ||| fNX) ||| flagIf ix fNX)

/-- Floating to Q (Table 3-6): NaN gives 0 and nv; out of range, infinities included, saturates with sat and nx. -/
def toQ (rm : Rm) (u : Nat) (signed : Bool) (w f : Nat) (x : FVal) : Int × Flags :=
  match x with
  | .nan _ => (0, fNV)
  | .inf n => (if n then intLo signed w else intHi signed w, fSAT ||| fNX)
  | .fin n m e => qResult rm u signed w f n m e

/-! ### Pairs (03 R77–R82) -/

/-- A pair of component values. -/
structure Pair where
  s : FVal
  e : FVal
  deriving DecidableEq, Repr

/-- Round into a component format and read the value back. -/
def rndC (f : Fmt) (x : FVal) : FVal × Flags :=
  let (b, g) := f.round .rne 0 x
  (f.decode b, g)

/-- Flags of a rounded error term: px and nx when inexact, uf when tiny as well (03 R80). -/
def errFlags (g : Flags) : Flags :=
  flagIf (g &&& fNX != 0#7) (fPX ||| fNX) ||| (g &&& fUF)

/-- Finish a primitive whose exact value is `x` with operand flags `g`: s rounded, e the rounded remainder, and whether
e is exact (03 R79–R81). `finite` says that all operands were finite. With s infinite or NaN the error counts as exact (DESIGN CHOICE,
log 66). -/
def pairOf (f : Fmt) (finite : Bool) (x : FVal × Flags) : Pair × Flags × Bool :=
  let (s, _) := rndC f x.1
  if !s.isFin then
    ({ s := s, e := .zero }, x.2 ||| flagIf finite (fOF ||| fNX ||| fPX), true)
  else
    let (r, _) := addF false x.1 s.neg
    let (e, ge) := rndC f r
    ({ s := s, e := e }, x.2 ||| errFlags ge, ge &&& fNX == 0#7)

def twoSum (f : Fmt) (a b : FVal) : Pair × Flags :=
  let (p, g, _) := pairOf f (a.isFin && b.isFin) (addF false a b)
  (p, g)

def twoProd (f : Fmt) (a b : FVal) : Pair × Flags × Bool :=
  pairOf f (a.isFin && b.isFin) (mulF a b)

def fmaPair (f : Fmt) (a b c : FVal) : Pair × Flags × Bool :=
  pairOf f (a.isFin && b.isFin && c.isFin) (fmaF false a b c)

/-- The operand (∞, −∞) has no value (03 R77). -/
def Pair.invalid (p : Pair) : Bool :=
  match p.s, p.e with
  | .inf n1, .inf n2 => n1 != n2
  | _, _ => false

/-- The exact value s + e; an invalid operand stands for a NaN with nv (03 R77). -/
def Pair.value (rdn : Bool) (p : Pair) : FVal × Flags := addF rdn p.s p.e

/-- Round one term in the middle of pair_add: px and nx when inexact. -/
def rndTerm (f : Fmt) (x : FVal × Flags) : FVal × Flags :=
  let (v, g) := rndC f x.1
  (v, x.2 ||| errFlags g)

/-- `pair_add` of 03 R82; finite operands whose result is not finite set of and px, whichever step overflowed (R81). -/
def pairAdd (f : Fmt) (x y : Pair) : Pair × Flags :=
  if x.invalid || y.invalid then ({ s := .nan false, e := .zero }, fNV)
  else
    let (p1, g1) := twoSum f x.s y.s
    let (p2, g2) := twoSum f x.e y.e
    let (t1, g3) := rndTerm f (addF false p1.e p2.s)
    let (p3, g4) := twoSum f p1.s t1
    let (t, g5) := rndTerm f (addF false p3.e p2.e)
    let (r, g6) := twoSum f p3.s t
    let spill := x.s.isFin && x.e.isFin && y.s.isFin && y.e.isFin && !r.s.isFin
    (r, g1 ||| g2 ||| g3 ||| g4 ||| g5 ||| g6 ||| flagIf spill (fOF ||| fNX ||| fPX))

/-- A pair destination of an exact value: s′ := round(x), e′ := round(x − s′), px and nx when e′ is inexact
(Table 3-6, 06 R552). A value that is not finite has e′ = +0. -/
def pairRound (f : Fmt) (x : FVal × Flags) : Pair × Flags :=
  let (p, g, _) := pairOf f x.1.isFin x
  (p, g)

/-- Bits of the two components. -/
def Pair.bits (f : Fmt) (p : Pair) : Nat × Nat := ((f.round .rne 0 p.s).1, (f.round .rne 0 p.e).1)

def Pair.ofBits (f : Fmt) (s e : Nat) : Pair := { s := f.decode s, e := f.decode e }

/-! ### Split mode (03 R83) -/

/-- The pieces h0, h1, h2 of an FP32 value, as BF16 bit patterns, and the nv flag of a signalling NaN. -/
def splitPieces (x : Nat) : Nat × Nat × Nat × Flags :=
  match fp32.decode x with
  | .nan sg => (0x7FC0, 0, 0, flagIf sg fNV)
  | .inf n => (bf16.infBits n, 0, 0, fNone)
  | .fin _ _ _ =>
    let tr (v : FVal) : Nat := (fp32.round .rtz 0 v).1 / 65536
    let h0 := (x % 2 ^ 32) / 65536
    let rem1 := (addF false (fp32.decode x) (bf16.decode h0).neg).1
    let h1 := tr rem1
    let rem2 := (addF false rem1 (bf16.decode h1).neg).1
    let h2 := tr rem2
    (h0, h1, h2, fNone)

end Sys2Proof.Machine
end

