-- ==== Sys2Proof/Config.lean ====
section
/-! DEFINITION. What the specification leaves free: opaque constants that nothing can evaluate, so no statement can rest on
their values (00 R1 and the chapters named). Each is applied to a plain counter of the state or to operands. -/

namespace Sys2Proof

/-- A byte of a range the specification calls undefined (00 R1); applied to the free counter of the state. -/
opaque Config.freeByte : Nat → Byte

/-- A 64-bit value that the specification does not state (00 R1); applied to the free counter. -/
opaque Config.freeWord : Nat → Word

/-- A choice that the specification does not order, such as the thread number an ordinal takes (02 R25); applied to the
free counter. -/
opaque Config.freePick : Nat → Nat

/-- Ed25519 verification (21 R486, R490): key, message, signature. -/
opaque Config.ed25519Ok : List Byte → List Byte → List Byte → Bool

/-- ML-DSA-65 verification (21 R486, R490): key, message, signature. -/
opaque Config.mldsaOk : List Byte → List Byte → List Byte → Bool

/-- SHA-384 of a byte string (21 R486). -/
opaque Config.sha384 : List Byte → List Byte

/-- What a key seed is derived for: a distinct HKDF label each (21 R502, R504). -/
inductive KeyUse where
  | identityEd
  | identityPq
  | attestationEd
  | attestationPq
  deriving DecidableEq, Repr

/-- HKDF-SHA-384 of the device secret with the label of a use, and the image digest for an attestation key: a key seed (21 R502, R504). -/
opaque Config.hkdf : KeyUse → List Byte → List Byte → List Byte

/-- Signatures with the private key of a seed: seed, message (21 R502, R506, R507). -/
opaque Config.ed25519Sign : List Byte → List Byte → List Byte
opaque Config.mldsaSign : List Byte → List Byte → List Byte

/-- The public key of a seed. -/
opaque Config.ed25519Pub : List Byte → List Byte
opaque Config.mldsaPub : List Byte → List Byte

/-- What the specification says of an X.509 v3 certificate (21 R503, R504): the serial of its subject, the subject's public key, the image
digest and svn of an attestation certificate, and the issuer's signature. -/
structure Cert where
  serial : Nat
  key : List Byte
  image : Option (List Byte × Nat)
  sig : List Byte
  deriving DecidableEq, Repr, Inhabited

/-- The signed part of a certificate, and its encoding. -/
opaque Config.certBody : Cert → List Byte
opaque Config.certBytes : Cert → List Byte

/-- The Kelhiorn root and product CA certificates of each kind, and the CA's signature that each identity certificate was issued with (21 R503). -/
opaque Config.rootCert : Cert
opaque Config.rootPqCert : Cert
opaque Config.caCert : Cert
opaque Config.caPqCert : Cert
opaque Config.caSign : List Byte → List Byte
opaque Config.caPqSign : List Byte → List Byte

/-- The SHA-384 digests of the two root keys, which the ROM holds (21 R503). -/
opaque Config.rootDigest : List Byte
opaque Config.rootPqDigest : List Byte

/-- The certificates at the head of a proof stream: the Ed25519 chain, the ML-DSA-65 chain, and the bytes that they take. -/
opaque Config.certsOf : List Byte → Option (List Cert × List Cert × Nat)

/-- The Kelhiorn firmware keys: Ed25519 and ML-DSA-65 (21 R490). -/
opaque Config.firmwareKey : List Byte
opaque Config.firmwarePqKey : List Byte

/-- The Kelhiorn service keys: Ed25519 and ML-DSA-65 (21 R486). -/
opaque Config.serviceKey : List Byte
opaque Config.servicePqKey : List Byte

/-- A byte of a memory whose contents an event left undefined: the event's number and the byte's address (12 R299, 16 R417,
18 R442, 23 R541). -/
opaque Config.lostByte : Nat → Nat → Byte

/-- A measured quantity of the telemetry block (23 Table 23-8), by the refresh tick and the offset of its field: supply voltage and powers,
temperatures. -/
opaque Config.sensor : Nat → Nat → Nat

/-- The measurement of the mask ROM (21 Table 21-10). -/
opaque Config.romDigest : List Byte

end Sys2Proof
end

