-- ==== Sys2Proof/Syntax.lean ====
section
/-! DEFINITION. The commands of the block (spec/opcode_table.json): the operand types and the one inductive `Instr`. -/

namespace Sys2Proof

/-- The processor kinds of THREADID.kind (04 Table 4-8). -/
inductive ProcKind where
  | compute | hamper | sequencer | collective | lamplighter | security
  deriving DecidableEq, Repr

/-- A hardware thread: its processor's kind, the processor's number within its kind, and the thread number (04 Table 4-8). -/
structure ThreadId where
  kind : ProcKind
  core : Fin 2048
  thread : Fin 8
  deriving DecidableEq, Repr

/-- A fabric packet (13 Table 13-5, 15 Table 15-7): the header's fields and the payload. -/
structure Packet where
  dst : BitVec 16
  src : BitVec 16
  job : BitVec 32
  hops : BitVec 8
  sctx : BitVec 6
  op : BitVec 6
  status : BitVec 8
  tag : BitVec 32
  addr : BitVec 48
  aop : BitVec 4
  awidth : BitVec 2
  ord : BitVec 2
  len : BitVec 9
  data : List Byte
  deriving DecidableEq, Repr

/-- The fields of a link frame's header that are not fixed by its type (13 Table 13-3). -/
structure FrameHdr where
  seq : BitVec 12
  ack : BitVec 12
  ackv : Bool
  vc : BitVec 3
  oport : BitVec 4
  oseq : BitVec 12
  deriving DecidableEq, Repr

/-- A Lantern payload beyond its ltype (13 Table 13-8). -/
structure Lantern where
  port : BitVec 8
  flags : BitVec 8
  width : BitVec 8
  device : BitVec 16
  incarnation : BitVec 16
  credit : List (BitVec 16)
  nonce : List Byte
  tag : List Byte
  detect : BitVec 16
  frag : BitVec 16
  data : List Byte
  deriving DecidableEq, Repr

/-- What a collective message says (14 R345, R351-R356, R360, R366, R368; 17 R430; 21 R497). The payloads are defined by the programs of the
firmware image and not by the specification, so a message is named by its content (DEDUCED, log 45). `seq` numbers the collectives of a
group; `live` counts the members live at the sender. -/
inductive CollMsg where
  /-- The values exchanged at the meeting of the seq-th collective (R345), with the GRAD_HANDOVER control words (R351, R357). -/
  | meet (seq op dtype rop nelem epoch crc : Nat) (gnw : Word) (cnt : Nat) (noiseA : Word)
  /-- Elements from a member: a contribution, a block, the root's data, a part or a shard's range (R350, R354, R356, R368). -/
  | bytes (seq live part : Nat) (vals : List Nat)
  /-- An owner says that it has closed these shards over these live ranks (R352): whether a reduction gave an infinity or a NaN (R172), and
  its part of the noise term B as a pair (R357). A member that has seen every shard closed says so of them all when a member is lost (R355). -/
  | closed (seq : Nat) (live shards : List Nat) (bad : Bool) (s e : Word)
  /-- An owner acknowledges that the Hamper has completed each of its shards (R354), names them, and says whether the layer was
  skipped. -/
  | ackOwner (seq : Nat) (shards : List Nat) (skipped : Bool)
  /-- The block of a RING_PASS is visible at the receiver (R368). -/
  | placed (seq : Nat)
  /-- A member asks an owner for a shard, or releases a pin there (R360, UNPIN). -/
  | ask (seq j entry gen lo count : Nat) (pin release deliver : Bool)
  /-- An owner delivers a shard's generation, 0 when it is gone (R360, R361). -/
  | shard (seq j gen : Nat) (vals : List Nat)
  /-- A layout's CRC-32C (R366 step 1). -/
  | layout (seq crc : Nat)
  /-- A moved shard: generation (0 when no partner has one), pins, word 13, weights, remainder, moments, row states (R366, R430). -/
  | moved (seq entry gen pins : Nat) (word13 : Word) (weights rem : List Nat) (moms : List (List Nat)) (rows : List (Nat × Word))
  /-- The new owner of a lost owner's shard says which holder's slot it installed, if any (R430, R432). -/
  | restored (seq entry holder : Nat) (ok : Bool)
  /-- The peer's context was torn down (15 Table 15-11). -/
  | dead (seq : Nat)
  /-- A quad partner whose commit failed asks for this module's committed container (21 R497). -/
  | askImage
  deriving DecidableEq, Repr

/-- One unit of a Blanket copy (17 R423, R426): a row of an embedding layer, or unit 0 of a dense shard: weights, remainder,
moments in order, and the row state. -/
structure BlanketUnit where
  row : Nat
  weights : List Nat
  rem : List Nat
  moms : List (List Nat)
  rowState : Word
  deriving DecidableEq, Repr

/-- A Blanket copy (17 R423, Table 17-2). `rowsAll` counts the rows of an embedding shard. -/
structure BlanketMsg where
  owner : BitVec 16
  job : BitVec 32
  sidx : BitVec 16
  kind : BitVec 4
  nmom : BitVec 4
  nelem : BitVec 40
  gen : BitVec 32
  step : BitVec 32
  word13 : Word
  rowsAll : Nat
  full : Bool
  units : List BlanketUnit
  deriving DecidableEq, Repr

/-- What a memory response finds to be uncorrectable (12 R291): an element of the thread's last load, or a sector that another read of the
thread or of an engine meets, of HBM by pseudo-channel and offset or of the capacity tier. -/
inductive MemError where
  | element (idx : Fin 256)
  | sector (pc : Fin 512) (off : BitVec 31)
  | tier (addr : BitVec 40)
  deriving DecidableEq, Repr

/-- What a memory response brings besides the data: how many errors of HBM (12 R290) and of the capacity tier (11 Table 11-10) the
controllers corrected, and what they could not correct. -/
structure MemAnswer where
  corrected : BitVec 16
  tier : BitVec 16
  bad : Option MemError
  deriving DecidableEq, Repr

/-- A response with nothing to correct. -/
def MemAnswer.clean : MemAnswer := ⟨0, 0, none⟩

/-- A response that reports one uncorrectable error. -/
def MemAnswer.error (e : MemError) : MemAnswer := ⟨0, 0, some e⟩

/-- Who accesses a register (00 R7, R8; 22 R514): the physical function, VF n + 1, or the Lamplighter. -/
inductive Requester where
  | pf
  | vf (n : Fin 63)
  | lamplighter
  deriving DecidableEq, Repr

/-- A partition fault as the partition reports it (16 Table 16-1); a core counts within its partition, and the thread is the one whose
instruction was in the failing stage. -/
inductive PartFault where
  | coreParity (core : Fin 256) (thread : Fin 8)
  | storeEcc (core : Fin 256) (thread : Fin 8)
  | netStop
  | power
  deriving DecidableEq, Repr

/-- The registers of the sleep policy (18 R449): PWR_LAT_TOL and PWR_CTRL. -/
inductive PwrPolicy where
  | latTol
  | ctrl
  deriving DecidableEq, Repr

/-- What makes a conventional reset (22 R532): PERST_N asserted, a Hot Reset, DL_Down. -/
inductive ResetKind where
  | perst
  | hot
  | dlDown
  deriving DecidableEq, Repr

/-- Which MSI-X mask the host clears (22 R529): a table entry's, or a function's Function Mask. -/
inductive MsixMask where
  | entry (fn : Fin 64) (i : Fin 2048)
  | function (fn : Fin 64)
  deriving DecidableEq, Repr

/-- Which read of host memory fails (22 R512, R523): an element of a thread's load, the descriptor of a thread's submission (the word of
the instruction), a host queue's entry, the descriptor of the host command at the head of a queue, a part of a transfer. -/
inductive HostRead where
  | thread (th : ThreadId) (elem : Fin 256)
  | submission (th : ThreadId) (w : Word)
  | entry (ctx : Fin 64) (queue : Fin 4)
  | command (ctx : Fin 64) (queue : Fin 4)
  | part (xfer : Nat) (part : Fin 64)
  deriving DecidableEq, Repr

/-- What a REGISTER_WRITE writes (00 R7; 22 R514, R529): `size` bytes at an offset of BAR0, or the configuration-space controls that
the chapter names: a function's MSI-X Enable and Function Mask, the physical function's VF Enable and NumVFs. -/
inductive RegTarget where
  | bar0 (r : Requester) (off : BitVec 26) (size : BitVec 13)
  | msixControl (fn : Fin 64) (enable mask : Bool)
  | vfEnable (enable : Bool) (num : Fin 64)
  deriving DecidableEq, Repr


/-- The commands of the block: one constructor for each row of the opcode table, with the row's operands. -/
inductive Instr where
  /-- INTEGER_OP (R86): An S-class integer instruction of major 0x01 or 0x02, other than division or remainder, computes d from a and b or an immediate. -/
  | integerOp (th : ThreadId) (w : Word)
  /-- DIV_REM (R93): div, divu, rem or remu runs in the core's divide unit and never traps. -/
  | divRem (th : ThreadId) (w : Word)
  /-- LI_L (R86): li.l loads a sign-extended 40-bit immediate into d. -/
  | liL (th : ThreadId) (w : Word)
  /-- LI_H (R86): li.h replaces bits 63:40 of d and keeps bits 39:0. -/
  | liH (th : ThreadId) (w : Word)
  /-- FP_ARITH (R62): A scalar FP64 or FP32 add, sub, mul, fma, fms or fnma rounds its exact result once in the selected mode. -/
  | fpArith (th : ThreadId) (w : Word)
  /-- FDIV_FSQRT (R63): fdiv or fsqrt runs in the divide unit, and rm = SR on it is an illegal encoding. -/
  | fdivFsqrt (th : ThreadId) (w : Word)
  /-- FMIN_FMAX (R62): fmin or fmax returns the IEEE minimumNumber or maximumNumber of a and b. -/
  | fminFmax (th : ThreadId) (w : Word)
  /-- FSGNJ (R57): fsgnj returns the bits of a with the sign of b, keeps any NaN payload and sets no flag. -/
  | fsgnj (th : ThreadId) (w : Word)
  /-- FCLASS (R86): fclass writes the one-hot class of a. -/
  | fclass (th : ThreadId) (w : Word)
  /-- FADD_P (R79): fadd.p computes two_sum of a and b into a pair. -/
  | faddP (th : ThreadId) (w : Word)
  /-- FMUL_P (R79): fmul.p computes two_prod of a and b into a pair. -/
  | fmulP (th : ThreadId) (w : Word)
  /-- FMA_P (R79): fma.p computes fma_pair of a, b and c. -/
  | fmaP (th : ThreadId) (w : Word)
  /-- PADD (R82): padd adds two pairs with pair_add. -/
  | padd (th : ThreadId) (w : Word)
  /-- PROUND (R94): pround rounds a pair to one value of its component format under rm. -/
  | pround (th : ThreadId) (w : Word)
  /-- CONVERT (R94): A scalar conversion of major 0x06, plain or scaled, converts between the coded formats. -/
  | convert (th : ThreadId) (w : Word)
  /-- INT_COMPARE (R86): An integer compare writes 1 to d when its condition holds, else 0. -/
  | intCompare (th : ThreadId) (w : Word)
  /-- FP_COMPARE (R57): feq, flt or fle compares two floating values and sets nv under the NaN rules. -/
  | fpCompare (th : ThreadId) (w : Word)
  /-- BRANCH (R95): A conditional branch moves IP by 8 times the offset when its condition holds. -/
  | branch (th : ThreadId) (w : Word)
  /-- JAL (R95): jal writes the link address and jumps relative to IP. -/
  | jal (th : ThreadId) (w : Word)
  /-- JALR (R95): jalr writes the link address and jumps to a plus the offset, and traps ALIGN on a misaligned target. -/
  | jalr (th : ThreadId) (w : Word)
  /-- NOP (R104): nop does nothing. -/
  | nop (th : ThreadId) (w : Word)
  /-- HALT (R96): halt ends the thread once all of its memory, M-class and Q-class operations have completed. -/
  | halt (th : ThreadId) (w : Word)
  /-- YIELD (R104): yield moves the thread last in both round-robin orders. -/
  | yield (th : ThreadId) (w : Word)
  /-- PAUSE (R104): pause keeps the thread from issuing for mod+1 cycles. -/
  | pause (th : ThreadId) (w : Word)
  /-- PAUSE_END (R104): The pause count of a thread expires, and the thread may issue again. -/
  | pauseEnd (th : ThreadId)
  /-- TRAP (R101): The trap instruction raises a SOFTWARE trap with TVAL set from mod. -/
  | trap (th : ThreadId) (w : Word)
  /-- TRET (R102): tret returns to TEPC and clears in_trap. -/
  | tret (th : ThreadId) (w : Word)
  /-- SRD (R97): srd reads a status register after earlier S-class and V-class instructions have retired. -/
  | srd (th : ThreadId) (w : Word)
  /-- SWR (R97): swr writes a status register. -/
  | swr (th : ThreadId) (w : Word)
  /-- SSET (R97): sset returns a status register and ORs bits into it. -/
  | sset (th : ThreadId) (w : Word)
  /-- SCLR (R97): sclr returns a status register and clears bits in it. -/
  | sclr (th : ThreadId) (w : Word)
  /-- VINT_OP (R108): A vector integer instruction of major 0x10 operates element by element with wrapping. -/
  | vintOp (th : ThreadId) (w : Word)
  /-- VFIXED_OP (R116): A vector fixed-point instruction forms the exact Q value and passes it through q_result. -/
  | vfixedOp (th : ThreadId) (w : Word)
  /-- VFLOAT_OP (R114): A vector floating instruction of major 0x12 rounds each element once. -/
  | vfloatOp (th : ThreadId) (w : Word)
  /-- VPAIR_OP (R114): A vector pair instruction applies the pair primitives per element, with optional exactness mask bits. -/
  | vpairOp (th : ThreadId) (w : Word)
  /-- VCVT (R117): vcvt converts each element, plainly, scaled, or to or from a Q format. -/
  | vcvt (th : ThreadId) (w : Word)
  /-- VCOMPARE (R112): A vector compare writes mask bits 0 to n-1 and clears the bits above. -/
  | vcompare (th : ThreadId) (w : Word)
  /-- MASK_OP (R112): A mask operation (mand, mor, mxor, mandn, mnot, mlt, mpopc, mfirst) acts on whole masks. -/
  | maskOp (th : ThreadId) (w : Word)
  /-- VBCAST (R108): vbcast copies a scalar into every element. -/
  | vbcast (th : ThreadId) (w : Word)
  /-- VEXT (R108): vext extracts one element into a scalar register. -/
  | vext (th : ThreadId) (w : Word)
  /-- VINS (R108): vins inserts a scalar into one element. -/
  | vins (th : ThreadId) (w : Word)
  /-- VMERGE (R108): vmerge selects elements from va or vb by mask. -/
  | vmerge (th : ThreadId) (w : Word)
  /-- VPERM (R108): vperm permutes the elements of va by indices in vb. -/
  | vperm (th : ThreadId) (w : Word)
  /-- VSLIDEUP (R108): vslideup shifts elements up by sb. -/
  | vslideup (th : ThreadId) (w : Word)
  /-- VSLIDEDN (R108): vslidedn shifts elements down by sb and fills with zero. -/
  | vslidedn (th : ThreadId) (w : Word)
  /-- VREDUCE (R119): vredsum, vredmin, vredmax or vredsum.p combines elements in a fixed tree into element 0. -/
  | vreduce (th : ThreadId) (w : Word)
  /-- VLD (R120): vld loads contiguous elements. -/
  | vld (th : ThreadId) (w : Word)
  /-- VST (R120): vst stores contiguous elements. -/
  | vst (th : ThreadId) (w : Word)
  /-- VLDS (R120): vlds loads strided elements. -/
  | vlds (th : ThreadId) (w : Word)
  /-- VSTS (R120): vsts stores strided elements. -/
  | vsts (th : ThreadId) (w : Word)
  /-- VGATHER (R120): vgather loads elements at indexed addresses. -/
  | vgather (th : ThreadId) (w : Word)
  /-- VSCATTER (R125): vscatter stores elements at indexed addresses. -/
  | vscatter (th : ThreadId) (w : Word)
  /-- MS_LD (R135): ms.ld fills the inactive stationary set from a streamer channel. -/
  | msLd (th : ThreadId) (w : Word)
  /-- MS_SWAP (R136): ms.swap queues an exchange of the active and inactive stationary sets. -/
  | msSwap (th : ThreadId) (w : Word)
  /-- MMA (R128): An mma instruction queues a multiply-accumulate of the active set against a streamed operand into a tile. -/
  | mma (th : ThreadId) (w : Word)
  /-- MMA_SLOT (R130): The lane path enters the next slot of an mma or Q operation, once the latency rule allows. -/
  | mmaSlot (core : Fin 2048)
  /-- SLOT_RESULT_LAND (R137): A slot's result lands in its tile L cycles after the slot entered. -/
  | slotResultLand (core : Fin 2048)
  /-- MST_CFG (R145): mst.cfg loads a channel from a 64-byte streamer descriptor and zeroes its cursors. -/
  | mstCfg (th : ThreadId) (w : Word)
  /-- MST_SEEK (R145): mst.seek sets a channel's column and κ cursors. -/
  | mstSeek (th : ThreadId) (w : Word)
  /-- MACC_ZERO (R140): macc.zero writes +0 to a tile and clears its sticky bits. -/
  | maccZero (th : ThreadId) (w : Word)
  /-- MACC_LD (R140): macc.ld fills a tile from memory with exact widening. -/
  | maccLd (th : ThreadId) (w : Word)
  /-- MACC_DRAIN (R141): macc.drain scales a tile, applies its epilogue, rounds it and stores it to memory. -/
  | maccDrain (th : ThreadId) (w : Word)
  /-- MACC_STAT (R139): macc.stat reads a tile's TILESTAT into a scalar register. -/
  | maccStat (th : ThreadId) (w : Word)
  /-- MWAIT (R152): mwait holds the thread until at most n of its M-class operations have not retired. -/
  | mwait (th : ThreadId) (w : Word)
  /-- M_OP_RETIRE (R152): An M-class or Q-class operation retires and ORs its flags into the issuing thread's FSR. -/
  | mOpRetire (core : Fin 2048)
  /-- Q_CHOL_TILE (R215): q.chol.tile factors a tile in place by Cholesky, flooring pivots below f. -/
  | qCholTile (th : ThreadId) (w : Word)
  /-- Q_TRSM (R214): q.trsm solves a triangular system against a tile. -/
  | qTrsm (th : ThreadId) (w : Word)
  /-- Q_SCHUR (R214): q.schur subtracts a tile product from a tile. -/
  | qSchur (th : ThreadId) (w : Word)
  /-- Q_HH_PANEL (R216): q.hh.panel reduces an m by 32 panel by Householder reflections. -/
  | qHhPanel (th : ThreadId) (w : Word)
  /-- Q_HH_APPLY (R214): q.hh.apply applies stored reflectors to a 32-column target. -/
  | qHhApply (th : ThreadId) (w : Word)
  /-- LD (R281): An X-class load reads memory with the ordering its ord field names. -/
  | ld (th : ThreadId) (w : Word)
  /-- ST (R281): An X-class store writes memory with the ordering its ord field names. -/
  | st (th : ThreadId) (w : Word)
  /-- GLD (R40): A global load reads through a global pointer from the named module. -/
  | gld (th : ThreadId) (w : Word)
  /-- GST (R40): A global store writes through a global pointer to the named module. -/
  | gst (th : ThreadId) (w : Word)
  /-- AMO (R283): amo performs an indivisible atomic at the home slice and returns the old value. -/
  | amo (th : ThreadId) (w : Word)
  /-- RED (R283): red performs an indivisible reduction at the home slice and returns nothing. -/
  | red (th : ThreadId) (w : Word)
  /-- REDV (R285): redv applies one reduction per active element at contiguous addresses. -/
  | redv (th : ThreadId) (w : Word)
  /-- REDVI (R285): redvi applies one reduction per active element at indexed addresses. -/
  | redvi (th : ThreadId) (w : Word)
  /-- X_FENCE (R375): x.fence orders every earlier access of the thread before every later one. -/
  | xFence (th : ThreadId) (w : Word)
  /-- X_XFER (R381): x.xfer submits a transfer descriptor to a transfer queue. -/
  | xXfer (th : ThreadId) (w : Word)
  /-- X_ABORT (R393): x.abort attempts to move a transfer from RUNNING to ABORTED. -/
  | xAbort (th : ThreadId) (w : Word)
  /-- X_LAUNCH (R378): x.launch reads a grid descriptor and queues the grid. -/
  | xLaunch (th : ThreadId) (w : Word)
  /-- X_WAIT (R379): x.wait reads a word with acquire order and holds the thread until the word differs from b. -/
  | xWait (th : ThreadId) (w : Word)
  /-- X_WAIT_RECHECK (R379): A waited word is read again on a write to its sector, or every 256 pilot ticks. -/
  | xWaitRecheck (th : ThreadId)
  /-- X_WAIT_LIMIT (R379): The tick limit of an x.wait expires and the thread continues. -/
  | xWaitLimit (th : ThreadId)
  /-- X_SQSUB (R195): x.sqsub checks a solver submission and enqueues its problems. -/
  | xSqsub (th : ThreadId) (w : Word)
  /-- X_SQADJ (R240): x.sqadj checks an adjoint header and enqueues its entries. -/
  | xSqadj (th : ThreadId) (w : Word)
  /-- X_COLL (R344): x.coll checks a collective descriptor and queues the collective. -/
  | xColl (th : ThreadId) (w : Word)
  /-- MEMORY_RESPONSE (R371): A memory response returns to a core, and the waiting thread may become runnable. -/
  | memoryResponse (th : ThreadId) (answer : MemAnswer)
  /-- CORE_CLOCK_STOP (R47): After 256 idle cycles a core stops its fast clock. -/
  | coreClockStop (core : Fin 2048)
  /-- GRID_ADMIT (R25): A core admits the next grid in launch order when it has T free slots and no thread of another context. -/
  | gridAdmit (core : Fin 2048)
  /-- LEASE (R192): An SQ_LEASE_CMD write with op 0b01 leases a cluster to a context. -/
  | lease (ctx : Fin 64) (part : Fin 8) (cluster : Fin 16)
  /-- RELEASE (R192): An SQ_LEASE_CMD write with op 0b10 releases a cluster. -/
  | release (ctx : Fin 64) (part : Fin 8) (cluster : Fin 16)
  /-- SQ_CUTOFF (R221): A write with fire = 1 makes late every matching cutoff submission of the context. -/
  | sqCutoff (ctx : Fin 64)
  /-- DEADLINE_EXPIRY (R220): PILOT reaches a submission's acceptance tick plus its budget, and the submission becomes late. -/
  | deadlineExpiry (sub : Nat)
  /-- PROBLEM_START (R210): The sequencer starts the next problem or batched group of a context when its cores are free. -/
  | problemStart (ctx : Fin 64)
  /-- SOLVER_STAGE_END (R201): A stage of a problem's iteration ends, and the next stage begins. -/
  | solverStageEnd (prob : Nat)
  /-- PROBLEM_END (R232): A problem writes x, its result record and its shift stamp, and frees its cores. -/
  | problemEnd (prob : Nat)
  /-- ADJOINT_ENTRY_START (R241): An adjoint entry checks its handle and starts on the context's leased cores. -/
  | adjointEntryStart (ctx : Fin 64)
  /-- ADJOINT_ENTRY_END (R243): An adjoint entry writes u and word 3, and releases the handle when rel = 1. -/
  | adjointEntryEnd (entry : Nat)
  /-- SEQ_PROC_FAULT (R194): A sequencer processor faults, its running work stops and source 194 plus k is raised. -/
  | seqProcFault (k : Fin 4)
  /-- SEQ_PROC_RESTART (R194): The Lamplighter restarts a faulted sequencer processor, and stopped problems run again from the start. -/
  | seqProcRestart (k : Fin 4)
  /-- FLASH_SUBMIT (R251): A write to HMP_FLSUB submits one flash command. -/
  | flashSubmit (ctx : Fin 64) (va : BitVec 48)
  /-- FLASH_COMMAND_COMPLETE (R252): A flash command finishes and its completion record is written. -/
  | flashCommandComplete (ctx : Fin 64) (fail : BitVec 64)
  /-- HMP_STEP_WRITE (R256): A write to HMP_STEPn stores a step size in slot step mod 4. -/
  | hmpStepWrite (ctx : Fin 64) (v : Word)
  /-- HANDOVER_RECORD (R259): A hand-over record reaches the Hamper queue. -/
  | handoverRecord
  /-- LAYER_UPDATE_START (R259): The Hamper starts a waiting layer update when its step size, layer and cores are ready. -/
  | layerUpdateStart
  /-- CHUNK_THREAD_START (R260): The engine loads a chunk's buffers into an update core and starts a chunk thread. -/
  | chunkThreadStart (core : Fin 32)
  /-- LAYER_UPDATE_END (R263): The engine writes the statistics record, word 13 and the completion record of a layer. -/
  | layerUpdateEnd
  /-- HMP_RSWIN_WRITE (R265): A write to HMP_RSWINn zeroes every entry of the new window. -/
  | hmpRswinWrite (ctx : Fin 64) (v : Word)
  /-- HMP_RS_DATA_ACCESS (R265): An access to HMP_RS_DATA reads or writes a row-state entry and advances HMP_RS_ADDR. -/
  | hmpRsDataAccess (write : Option Word)
  /-- HMP_RESUME (R269): A write to HMP_RESUME resumes a stopped update-core thread. -/
  | hmpResume (core : Fin 32) (thread : Fin 8)
  /-- HMP_FPTR_TAIL_WRITE (R269): A write of the Hamper fault ring tail frees entries so that waiting fault records can be written. -/
  | hmpFptrTailWrite (v : BitVec 32)
  /-- D2D_RETRAIN (R248): The die-to-die link retrains, holding traffic for at most 20 µs. -/
  | d2dRetrain
  /-- D2D_LINK_LOST (R248): The die-to-die link cannot be recovered, source 229 is raised and the module fails. -/
  | d2dLinkLost
  /-- RETRAIN (R294): MEM_MAINT_CMD with op 0b01 retrains a pseudo-channel. -/
  | retrain (pc : Fin 512)
  /-- REPAIR (R295): MEM_MAINT_CMD with op 0b10 repairs a row by post-package repair. -/
  | repair (pc : Fin 512) (bank : BitVec 6) (row : BitVec 18)
  /-- MAINT_OP_END (R295): A retrain or repair ends, the hold ends and source 162 is raised. -/
  | maintOpEnd (pc : Fin 512) (result : Fin 4)
  /-- SCRUB_ROW (R292): Patrol scrub reads and corrects a row and checks its corrected-error count. -/
  | scrubRow (pc : Fin 512) (bank : BitVec 6) (row : BitVec 18) (corrected : BitVec 16) (bad : Option (BitVec 31))
  /-- MEM_MAINT_MODE_WRITE (R299): A write of MEM_CTRL.maint enters or leaves bring-up mode. -/
  | memMaintModeWrite (v : Bool)
  /-- TEST_PORT_STEP (R300): A MEM_TP_CMD start performs one IEEE 1500 test-port step. -/
  | testPortStep (hold : Bool) (stack : BitVec 4) (len : BitVec 6) (instr : BitVec 32)
  /-- TEST_PORT_STEP_END (R300): A test-port step ends and busy clears. -/
  | testPortStepEnd
  /-- DATA (R312): A DATA frame arrives and is accepted, discarded as a duplicate or NAKed. -/
  | data (p : Fin 16) (h : FrameHdr) (pkt : Packet)
  /-- IDLE (R312): An IDLE frame arrives carrying an ack. -/
  | idle (p : Fin 16) (h : FrameHdr)
  /-- NAK (R313): A NAK arrives and the sender resends from the named frame. -/
  | nak (p : Fin 16) (h : FrameHdr)
  /-- CREDIT (R309): A CREDIT frame updates the sender's cumulative credit counts. -/
  | credit (p : Fin 16) (h : FrameHdr) (counts : List (BitVec 16))
  /-- RESCUE (R317): A RESCUE frame arrives and is delivered unless its oseq was already accepted. -/
  | rescue (p : Fin 16) (h : FrameHdr) (pkt : Packet)
  /-- OOS (R331): An OOS frame arrives and declares its subject lost, or makes this module leave the fabric. -/
  | oos (p : Fin 16) (h : FrameHdr) (w : Word)
  /-- HELLO (R322): A HELLO Lantern frame arrives and is recorded or fails the port. -/
  | hello (p : Fin 16) (l : Lantern)
  /-- PROOF (R323): PROOF fragments complete an identity exchange that verifies or fails. -/
  | proof (p : Fin 16) (l : Lantern)
  /-- DOZE (R333): A DOZE Lantern frame arrives, DOZE_ACK is returned and the port dozes. -/
  | doze (p : Fin 16) (h : FrameHdr) (l : Lantern)
  /-- DOZE_ACK (R333): A DOZE_ACK arrives and the port enters DOZE. -/
  | dozeAck (p : Fin 16) (h : FrameHdr)
  /-- DOZE_TIMEOUT (R333): 100 µs after DOZE was sent without acknowledgement, the port enters DOZE. -/
  | dozeTimeout (p : Fin 16)
  /-- REPLAY_TIMEOUT (R313): 10 µs without ack progress makes the sender resend from the oldest unacknowledged frame. -/
  | replayTimeout (p : Fin 16)
  /-- KEEPALIVE_SEND (R314): The keepalive interval expires and the port sends an IDLE frame. -/
  | keepaliveSend (p : Fin 16)
  /-- ACK_SEND (R312): Within 1 µs of accepting frames with nothing else to send, the receiver sends an IDLE with the ack. -/
  | ackSend (p : Fin 16)
  /-- CREDIT_SEND (R309): The receiver sends a CREDIT frame after freeing units or once per keepalive interval. -/
  | creditSend (p : Fin 16)
  /-- NAK_HOLDOFF_EXPIRY (R312): 10 µs after a NAK without the expected frame, the receiver may NAK again. -/
  | nakHoldoffExpiry (p : Fin 16)
  /-- RECEIVE_SILENCE (R314): No good frame for 20 µs puts the port in RETRAIN. -/
  | receiveSilence (p : Fin 16)
  /-- PORT_RETRAIN_END (R315): A port retrain succeeds and returns to ACTIVE, or fails and goes down with cause LOST. -/
  | portRetrainEnd (p : Fin 16) (ack : Option (BitVec 12))
  /-- PORT_SIGNAL_DETECT (R320): A DETECT port sees signal on lane 0 and begins TRAIN. -/
  | portSignalDetect (p : Fin 16)
  /-- PORT_TRAIN_END (R304): Lane training ends, agreeing a width, or fails after 3 attempts. -/
  | portTrainEnd (p : Fin 16) (lanes : Option (Fin 3))
  /-- HELLO_SEND (R320): Every 10 µs a HELLO port sends a HELLO frame. -/
  | helloSend (p : Fin 16)
  /-- FAILED_RETRY (R320): 1 s after a TRAIN_FAIL, the port returns to DETECT. -/
  | failedRetry (p : Fin 16)
  /-- HELD_PACKET_SEND (R318): A held packet is sent once a port of its mask is ACTIVE and earlier frames are acknowledged. -/
  | heldPacketSend
  /-- KINDLE_BURST (R336): Every 10 ms a burst of 256 Kindle words is sent to wake a dozing neighbour. -/
  | kindleBurst (p : Fin 16)
  /-- WAKE_NEIGHBOUR_TIMEOUT (R336): No port reaches ACTIVE within 1 s of a wake attempt, and the port fails with TRAIN_FAIL. -/
  | wakeNeighbourTimeout (p : Fin 16)
  /-- KINDLE_DETECT (R334): A detect lane recognizes the Kindle pattern, or light on lane 0 in W3, and wakes the module. -/
  | kindleDetect (p : Fin 16) (light : Bool)
  /-- ALIVE_TOGGLE (R328): Every 25,000 pilot ticks ALIVE_Oj toggles while its conditions hold. -/
  | aliveToggle
  /-- ALIVE_SILENCE (R328): ALIVE_Ij shows no edge for 125,000 ticks, and the partner conclusion is drawn. -/
  | aliveSilence (j : Fin 3)
  /-- LAMPLIGHTER_BEAT (R328): A write of FAB_QUAD.beat records the Lamplighter heartbeat. -/
  | lamplighterBeat
  /-- FAB_DECLARE (R331): A write with go = 1 declares a device lost with cause 2. -/
  | fabDeclare (dev : BitVec 16) (inc : BitVec 16)
  /-- FAB_RT_DATA_ACCESS (R325): An access to FAB_RT_DATA reads or writes a route entry and advances FAB_RT_ADDR. -/
  | fabRtDataAccess (write : Option Word)
  /-- PORT_RETRAIN_REQUEST (R320): A write of FAB_PSTATp.retrain sends a FAILED port to DETECT or an ACTIVE port to RETRAIN. -/
  | portRetrainRequest (p : Fin 16)
  /-- FAB_DEVID_WRITE (R324): A write of FAB_DEVID changes the device ID only while no port is in VERIFY or ACTIVE. -/
  | fabDevidWrite (v : Word)
  /-- ALLREDUCE (R350): An ALLREDUCE runs once all members have met and reduces in a fixed tree. -/
  | allreduce (coll : Nat)
  /-- REDUCE_SCATTER (R350): A REDUCE_SCATTER reduces and sends part j to live index j. -/
  | reduceScatter (coll : Nat)
  /-- ALLGATHER (R345): An ALLGATHER places every member's block in rank order. -/
  | allgather (coll : Nat)
  /-- BROADCAST (R345): A BROADCAST copies the root's src to every member. -/
  | broadcast (coll : Nat)
  /-- ALLTOALL (R345): An ALLTOALL exchanges one block between each pair of members. -/
  | alltoall (coll : Nat)
  /-- BARRIER (R345): A BARRIER completes when every live member has submitted. -/
  | barrier (coll : Nat)
  /-- GRAD_HANDOVER (R351): A GRAD_HANDOVER reduces a layer gradient to its shard owners and hands it to their Hamper. -/
  | gradHandover (coll : Nat)
  /-- SHARD_POST (R353): An owner posts a shard's hand-over once pins on its target buffer are released. -/
  | shardPost (coll : Nat) (j : Nat)
  /-- SHARD_GATHER (R360): A SHARD_GATHER collects a layer's BF16 shards from their owners. -/
  | shardGather (coll : Nat)
  /-- UNPIN (R360): An UNPIN releases one pin of the named generation of each shard. -/
  | unpin (coll : Nat)
  /-- PERMUTE (R366): A PERMUTE moves shards to the layout of the next epoch. -/
  | permute (coll : Nat)
  /-- RING_PASS (R368): A RING_PASS sends src to the next live index and receives from the previous one. -/
  | ringPass (coll : Nat)
  /-- COLLECTIVE_MESSAGE (R345): A collective message arrives and advances a running collective. -/
  | collectiveMessage (src : BitVec 16) (job : BitVec 32) (group : List Nat) (msg : CollMsg)
  /-- COLLECTIVE_TIMEOUT (R347): A collective that has waited FAB_CP_TMO ticks on a live member completes TIMED_OUT. -/
  | collectiveTimeout (coll : Nat)
  /-- COLLECTIVE_COMPLETE (R348): A collective writes its result block and completion record. -/
  | collectiveComplete (coll : Nat)
  /-- DRAIN_BOUND_EXPIRY (R367): A drain bound of FAB_CP_DRAIN ticks expires, the affected hand-overs end EPOCH_STALE and source 129 is raised. -/
  | drainBoundExpiry (coll : Nat)
  /-- CPROC_FAULT (R341): A collective processor faults, its collectives end TIMED_OUT and the Lamplighter restarts it. -/
  | cprocFault (k : Fin 16)
  /-- BLANKET_COPY_ARRIVE (R424): A Blanket copy reaches the holder, which writes its slot and acknowledges. -/
  | blanketCopyArrive (b : BlanketMsg)
  /-- BLANKET_COPY_ACK (R425): The holder's acknowledgement arrives and the new generation becomes the newest generation. -/
  | blanketCopyAck (ctx : Fin 64) (entry : BitVec 16) (gen : BitVec 32) (ok : Bool)
  /-- TRANSFER_START (R382): A transfer starts once every earlier transfer of its queue has completed or been aborted. -/
  | transferStart (ctx : Fin 64) (queue : Fin 16) (window : Nat)
  /-- READ (R389): A READ request arrives at its destination and is answered. -/
  | read
  /-- WRITE (R389): A WRITE request arrives at its destination and is performed and acknowledged. -/
  | write
  /-- ATOMIC (R389): An ATOMIC request is performed in the destination's shared cache and answered. -/
  | atomic
  /-- REDUCE (R389): A REDUCE request is performed at the destination and acknowledged. -/
  | reduce
  /-- READ_RESP (R392): A READ_RESP returns data or a failure status to the requester. -/
  | readResp
  /-- WRITE_ACK (R392): A WRITE_ACK returns the status of a write. -/
  | writeAck
  /-- ATOMIC_RESP (R392): An ATOMIC_RESP returns the old value or a failure status. -/
  | atomicResp
  /-- REDUCE_ACK (R392): A REDUCE_ACK returns the status of a reduction. -/
  | reduceAck
  /-- REQUEST_TIMEOUT (R391): A request with no response 2 s after it was sent is timed out. -/
  | requestTimeout (tag : BitVec 32)
  /-- SNUFF (R397): A SNUFF arrives, new requests toward the sender fail CTX_DEAD and QUIET follows once drained. -/
  | snuff
  /-- QUIET (R398): A QUIET arrives and may complete a teardown. -/
  | quiet
  /-- WATCHDOG_WARN (R400): A context watchdog reaches its period and writes a HANG record. -/
  | watchdogWarn (ctx : Fin 64)
  /-- WATCHDOG_STOP (R401): A context watchdog reaches twice its period with action 1 and stops every thread of the context. -/
  | watchdogStop (ctx : Fin 64)
  /-- UNIT_HANG (R403): A partition unit advances no work for 10 ms and the partition takes a UNIT_HANG fault. -/
  | unitHang (n : Fin 8) (unit : Option (Fin 256 × Fin 8))
  /-- PARTITION_FAULT_DETECT (R411): A partition fault is detected and the partition is isolated. -/
  | partitionFaultDetect (n : Fin 8) (fault : PartFault)
  /-- ESCALATION_CHECK (R417): At step 3 the Lamplighter counts resets in the window and writes the fault records. -/
  | escalationCheck (n : Fin 8)
  /-- PARTITION_RESET_APPLY (R411): The reset is applied, the stacks enter self-refresh and self-test begins. -/
  | partitionResetApply (n : Fin 8)
  /-- PARTITION_HOLD_END (R294): The memory phase of a partition reset ends and held requests are performed. -/
  | partitionHoldEnd (n : Fin 8) (failed : List (Fin 64))
  /-- PARTITION_SELF_TEST_END (R411): Self-test passes, the partition becomes READY and cores return to the pool. -/
  | partitionSelfTestEnd (n : Fin 8)
  /-- RESET_FAILURE (R413): A reset fails by fault, self-test failure or its 30 ms bound, and a new reset starts or the partition fails. -/
  | resetFailure (n : Fin 8) (bound : Bool)
  /-- PART_CMD_RESET (R415): A write of PART_CMD.reset starts a HOST-class reset. -/
  | partCmdReset (n : Fin 8)
  /-- NONPARTITION_FAULT (R404): A hang or uncorrectable error outside the partitions takes the module out of service. -/
  | nonpartitionFault
  /-- WICK_EVALUATE (R444): Each pilot tick the Lamplighter chooses a Wick state and counts refusals. -/
  | wickEvaluate
  /-- WICK_ENTRY_COMMIT (R447): A Wick entry reaches its commit point. -/
  | wickEntryCommit
  /-- WAKE_EVENT (R448): A wake event aborts an entry before its commit point or starts the exit. -/
  | wakeEvent (code : Fin 10) (detail : BitVec 8)
  /-- WICK_EXIT_DONE (R441): The exit reaches W0, submissions are released and PWR_STATE is updated. -/
  | wickExitDone
  /-- PWR_TIMER_EXPIRY (R449): PILOT reaches PWR_TIMER and wakes the module with code 0x06. -/
  | pwrTimerExpiry
  /-- PWR_POLICY_WRITE (R449): A write of PWR_LAT_TOL or PWR_CTRL.max_state that excludes the current state wakes the module. -/
  | pwrPolicyWrite (reg : PwrPolicy) (v : Word)
  /-- AVS_ACK (R450): A rail reports its target voltage reached, and its domains may be ungated. -/
  | avsAck (rail : Fin 13)
  /-- AVS_TIMEOUT (R451): A voltage request goes unacknowledged for 250 µs and is repeated, or the rail fails. -/
  | avsTimeout (rail : Fin 13)
  /-- MARGIN_MONITOR (R452): A partition's margin monitors lead the Lamplighter to trim VDD_Pn. -/
  | marginMonitor (n : Fin 8) (up : Bool)
  /-- THERMAL_THROTTLE (R547): A junction monitor crosses 105 °C or falls below 100 °C, starting or ending wide-port throttling. -/
  | thermalThrottle (hot : Bool)
  /-- THERMAL_TRIP (R547): A junction monitor reaches 115 °C and the main converter shuts down. -/
  | thermalTrip
  /-- MAIN_POWER_LOSS (R541): Main power good is lost without request and main power ends at once. -/
  | mainPowerLoss
  /-- STANDBY_POWER_ON (R488): Standby power is applied and core 0 starts the mask ROM. -/
  | standbyPowerOn
  /-- CONVERTER_START (R540): The ROM enables the main converter once both rails have been in range long enough. -/
  | converterStart (below60 : Bool)
  /-- POWER_UP (R539): Main power good rises, After power-up values load and boot runs. -/
  | powerUp (inQuad : Bool) (qpos : BitVec 2)
  /-- CONVENTIONAL_RESET (R532): PERST_N asserted, a Hot Reset or DL_Down tears down every context and resets the host interface. -/
  | conventionalReset (kind : ResetKind)
  /-- PERST_DEASSERT (R534): PERST_N is deasserted, link training starts and WAKE_N is released. -/
  | perstDeassert
  /-- VF_FLR (R533): An FLR of VF n tears down context n and resets its page and MSI-X table. -/
  | vfFlr (n : Fin 63)
  /-- PF_FLR (R533): An FLR of the PF clears VF Enable and acts as a conventional reset with the link up. -/
  | pfFlr
  /-- EVENT_TIMER_EXPIRY (R457): A source's coalescing timer reaches its time threshold and the source becomes pending. -/
  | eventTimerExpiry (source : Fin 512)
  /-- EVC_CLAIM (R460): A read of EVC_CLAIMi claims the highest-priority pending source. -/
  | evcClaim (r : Requester) (inst : Fin 65)
  /-- EVC_DONE (R461): A write of EVC_DONEi ends service of the source. -/
  | evcDone (r : Requester) (inst : Fin 65) (source : BitVec 9)
  /-- EVC_RAISE (R465): A write of EVC_RAISE raises a software doorbell source. -/
  | evcRaise (r : Requester) (source : BitVec 9)
  /-- EVC_GATE_WRITE (R462): A write of EVC_GATE.closed holds or releases delivery to instances 1–64. -/
  | evcGateWrite (r : Requester) (closed : Bool)
  /-- MSIX_UNMASK (R529): Clearing an MSI-X mask sends a pending message and clears its pending bit. -/
  | msixUnmask (mask : MsixMask)
  /-- PMC_DATA_READ (R474): A read of PMC_DATA returns the selected counter and latches PMC_DATA_HI. -/
  | pmcDataRead (r : Requester)
  /-- PMC_DATA_WRITE (R474): A write of PMC_DATA in the live view replaces the selected counter. -/
  | pmcDataWrite (r : Requester) (v : BitVec 48)
  /-- PMC_SNAP (R478): A write of PMC_CTRL.snap copies every counter into its shadow. -/
  | pmcSnap (r : Requester)
  /-- PMC_SNAP_DONE (R478): A snapshot completes, snap_valid is set and source 334 is raised. -/
  | pmcSnapDone
  /-- PMC_WIN_START (R479): A write of PMC_WIN.start begins a per-port bandwidth window. -/
  | pmcWinStart (r : Requester)
  /-- PMC_WINDOW_END (R479): A window ends, PMC_PBWp is written and source 335 is raised. -/
  | pmcWindowEnd
  /-- FW_STAGE (R492): FW_STAGE verifies a container and loads it into the alternate core and inactive banks. -/
  | fwStage (ok : Bool)
  /-- FW_SWITCH (R493): FW_SWITCH hands management to the alternate core running the staged image. -/
  | fwSwitch
  /-- FW_COMMIT (R496): After a switch, the serving core rereads the container and writes it to flash. -/
  | fwCommit (ok : Bool)
  /-- FW_RECOVER (R497): FW_RECOVER fetches a container from host or partner and commits it. -/
  | fwRecover (partner : Option (List Byte)) (ok : Bool)
  /-- THERMOS_SYNC (R499): THERMOS_SYNC mirrors every Thermos section to flash. -/
  | thermosSync
  /-- RETURN_TO_SERVICE (R419): The signed RETURN_TO_SERVICE clears escalation, resets every partition and enables the ports. -/
  | returnToService
  /-- SET_LIMITS (R486): The signed SET_LIMITS changes LMP_ESC_LIMIT. -/
  | setLimits
  /-- FACTORY_DEFAULTS (R501): The signed FACTORY_DEFAULTS clears the settings and training sections. -/
  | factoryDefaults
  /-- ENROL_OWNER (R487): The signed ENROL_OWNER replaces the owner public keys. -/
  | enrolOwner
  /-- LAMPLIGHTER_TAKEOVER (R483): With no beat for 50,000 ticks, the alternate core resets the serving core and takes over. -/
  | lamplighterTakeover
  /-- THERMOS_MIRROR (R499): A scheduled mirror copies a Thermos section to the older flash copy. -/
  | thermosMirror (sec : Fin 4)
  /-- GET_VERSION (R506): The SPDM responder answers GET_VERSION. -/
  | getVersion
  /-- GET_CAPABILITIES (R506): The SPDM responder answers GET_CAPABILITIES. -/
  | getCapabilities
  /-- NEGOTIATE_ALGORITHMS (R506): The SPDM responder answers NEGOTIATE_ALGORITHMS. -/
  | negotiateAlgorithms
  /-- GET_DIGESTS (R506): The SPDM responder answers GET_DIGESTS. -/
  | getDigests
  /-- GET_CERTIFICATE (R506): The SPDM responder returns portions of the slot 0 Ed25519 chain. -/
  | getCertificate (slot : BitVec 8) (off : BitVec 16) (len : BitVec 16)
  /-- CHALLENGE (R506): The SPDM responder answers CHALLENGE with CHALLENGE_AUTH signed by the attestation key. -/
  | challenge (slot : BitVec 8) (nonce : List Byte)
  /-- GET_MEASUREMENTS (R506): The SPDM responder returns the measurement blocks. -/
  | getMeasurements (index : BitVec 8) (sign : Bool) (nonce : List Byte)
  /-- GET_PQ_CHAIN (R507): The vendor-defined GET_PQ_CHAIN returns portions of the ML-DSA-65 chain. -/
  | getPqChain (off : BitVec 16) (len : BitVec 16)
  /-- GET_PQ_SIG (R507): The vendor-defined GET_PQ_SIG returns the ML-DSA-65 signature of the last signed response. -/
  | getPqSig
  /-- SPDM_UNSUPPORTED (R506): Any other SPDM request is answered with ERROR UnsupportedRequest. -/
  | spdmUnsupported
  /-- HQ_DOORBELL (R520): A write of HIF_HQTAILq rings the queue's doorbell. -/
  | hqDoorbell (r : Requester) (ctx : Fin 64) (queue : Fin 4) (t : BitVec 32)
  /-- HQ_BASE_WRITE (R519): A write of HIF_HQBASEq resets head, tail and err. -/
  | hqBaseWrite (r : Requester) (ctx : Fin 64) (queue : Fin 4) (v : Word)
  /-- NOP_COMMAND (R526): The NOP host command writes a DONE record. -/
  | nopCommand (ctx : Fin 64) (queue : Fin 4)
  /-- CTX_CREATE (R527): CTX_CREATE makes a context live or reconfigures context 0. -/
  | ctxCreate (ctx : Fin 64) (queue : Fin 4)
  /-- CTX_TEARDOWN (R396): CTX_TEARDOWN runs the Snuffer sequence on a context. -/
  | ctxTeardown (ctx : Fin 64) (queue : Fin 4)
  /-- INVALIDATE (R38): INVALIDATE removes stale translations and waits for accesses that used them. -/
  | invalidate (ctx : Fin 64) (queue : Fin 4)
  /-- RESUME (R52): RESUME restarts a stopped thread at its faulting instruction from VIDX. -/
  | resume (ctx : Fin 64) (queue : Fin 4)
  /-- LAUNCH (R378): LAUNCH submits a grid as x.launch would. -/
  | launch (ctx : Fin 64) (queue : Fin 4)
  /-- SOLVE (R195): SOLVE submits a solver submission as x.sqsub would. -/
  | solve (ctx : Fin 64) (queue : Fin 4)
  /-- ADJOINT (R240): ADJOINT submits adjoint entries as x.sqadj would. -/
  | adjoint (ctx : Fin 64) (queue : Fin 4)
  /-- COLLECTIVE (R344): COLLECTIVE submits a collective as x.coll would. -/
  | collective (ctx : Fin 64) (queue : Fin 4)
  /-- XFER (R381): XFER submits a transfer as x.xfer would. -/
  | xfer (ctx : Fin 64) (queue : Fin 4)
  /-- ABORT (R393): ABORT attempts to abort a transfer as x.abort would. -/
  | abort (ctx : Fin 64) (queue : Fin 4)
  /-- FAULT_RING_TAIL_WRITE (R528): A write of HIF_FPTR.tail frees fault-ring entries so that waiting fault records are written. -/
  | faultRingTailWrite (r : Requester) (ctx : Fin 64) (v : BitVec 32)
  /-- BAR2_READ (R516): A BAR2 read is translated in context n and returns memory data. -/
  | bar2Read (fn : Fin 64) (off : BitVec 36) (len : BitVec 13)
  /-- BAR2_WRITE (R516): A BAR2 write is translated in context n and performed. -/
  | bar2Write (fn : Fin 64) (off : BitVec 36) (data : List Byte)
  /-- HOST_READ_FAIL (R512): A module read of host memory fails by error completion or a 50 ms timeout. -/
  | hostReadFail (what : HostRead)
  /-- REGISTER_WRITE (R9): A write to a register with no row of its own changes its fields by their access codes. -/
  | registerWrite (target : RegTarget) (v : Word)
  /-- ILLEGAL_INSTRUCTION (R88): A thread issues a word that is an illegal encoding and takes a trap with cause ILLEGAL. -/
  | illegalInstruction (th : ThreadId) (w : Word)
  /-- FETCH_FAULT (R49): An instruction fetch takes a translation fault, and the thread stops before the instruction with a fault record. -/
  | fetchFault (th : ThreadId)
  /-- FRAME_CRC_ERROR (R312): A frame that fails its CRC, or that has a reserved type, arrives and is discarded, counted and answered with a NAK. -/
  | frameCrcError (p : Fin 16)
  /-- FLIT_REPLAY (R248): A die-to-die flit fails its CRC and is replayed, counted in HMP_D2D.replays. -/
  | flitReplay
  /-- ALIVE_EDGE (R328): An edge arrives on ALIVE_Ij, restarting the silence count and clearing the silent state. -/
  | aliveEdge (j : Fin 3)
  /-- STANDBY_POWER_LOSS (R438): STBY_12V is lost, restarting PILOT, emptying the Thermos SRAM and leaving service ticks to resume from flash. -/
  | standbyPowerLoss
  /-- BAR0_READ_VIOLATION (R8): A BAR0 read of wrong size or alignment, or one to an offset the function may not reach, reads zero and counts a permission violation. -/
  | bar0ReadViolation (r : Requester) (off : BitVec 26) (size : BitVec 13)
  /-- OOS_ACK_TIMEOUT (R331): 1 ms after a module that leaves service sent OOS, it stops ALIVE and takes every port to DARK even without every acknowledgement. -/
  | oosAckTimeout
  /-- LOCAL_TRANSFER_PERFORMED (R384): The last request of a copy, or of a put to the module's own device ID, is performed locally and the transfer completes with its record. -/
  | localTransferPerformed (xfer : Nat)
  deriving DecidableEq, Repr

end Sys2Proof
end

