-- ==== Sys2Proof/Decode.lean ====
section
/-! DEFINITION. The Agquin instruction word (04 R86): its fields, and the one row of the opcode table that a word belongs
to; none for an illegal encoding (04 R88, 05 R110, 06 R158, 09 R214, 12 R286). The opcode table gives no row any bits,
so `decodeTableWord` reads no command from a word. -/

namespace Sys2Proof

/-- The rows of the opcode table that are Agquin instructions. -/
inductive Row where
  | integerOp
  | divRem
  | liL
  | liH
  | fpArith
  | fdivFsqrt
  | fminFmax
  | fsgnj
  | fclass
  | faddP
  | fmulP
  | fmaP
  | padd
  | pround
  | convert
  | intCompare
  | fpCompare
  | branch
  | jal
  | jalr
  | nop
  | halt
  | yield
  | pause
  | trap
  | tret
  | srd
  | swr
  | sset
  | sclr
  | vintOp
  | vfixedOp
  | vfloatOp
  | vpairOp
  | vcvt
  | vcompare
  | maskOp
  | vbcast
  | vext
  | vins
  | vmerge
  | vperm
  | vslideup
  | vslidedn
  | vreduce
  | vld
  | vst
  | vlds
  | vsts
  | vgather
  | vscatter
  | msLd
  | msSwap
  | mma
  | mstCfg
  | mstSeek
  | maccZero
  | maccLd
  | maccDrain
  | maccStat
  | mwait
  | qCholTile
  | qTrsm
  | qSchur
  | qHhPanel
  | qHhApply
  | ld
  | st
  | gld
  | gst
  | amo
  | red
  | redv
  | redvi
  | xFence
  | xXfer
  | xAbort
  | xLaunch
  | xWait
  | xSqsub
  | xSqadj
  | xColl
  deriving DecidableEq, Repr

/-- Bits [hi:lo] of a word. -/
def Word.slice (w : Word) (hi lo : Nat) : Nat := w.toNat / 2 ^ lo % 2 ^ (hi + 1 - lo)

/-- The common fields of Table 4-1. -/
def Word.major (w : Word) : Nat := Word.slice w 63 58
def Word.minor (w : Word) : Nat := Word.slice w 57 52
def Word.rd (w : Word) : Nat := Word.slice w 51 46
def Word.ra (w : Word) : Nat := Word.slice w 45 40
def Word.rb (w : Word) : Nat := Word.slice w 39 34
def Word.rc (w : Word) : Nat := Word.slice w 33 28
def Word.mod28 (w : Word) : Nat := Word.slice w 27 0
def Word.rm (w : Word) : Nat := Word.slice w 27 25
def Word.srtag (w : Word) : Nat := Word.slice w 24 17

/-- A two's complement value of `n` bits. -/
def signedOf (n v : Nat) : Int := if v % 2 ^ n < 2 ^ (n - 1) then ((v % 2 ^ n : Nat) : Int) else ((v % 2 ^ n : Nat) : Int) - (2 ^ n : Nat)

/-- Every register field that is not in use is zero (04 R88). -/
def Word.only (w : Word) (d a b c : Bool) : Bool :=
  (d || w.rd = 0) && (a || w.ra = 0) && (b || w.rb = 0) && (c || w.rc = 0)

/-- Every mod bit outside the mask is zero (04 R88). -/
def Word.modIn (w : Word) (mask : Nat) : Bool := Nat.land w.mod28 mask == w.mod28

/-- rm [27:25] and srtag [24:17]. -/
def mRound : Nat := 0x0FFE0000

/-- `some r` when the conditions hold. -/
def rowIf (ok : Bool) (r : Row) : Option Row := if ok then some r else none

/-- A scalar pair field names a nonzero even register (04 R92). -/
def pairReg (r : Nat) : Bool := r % 2 == 0 && r != 0

/-- The 6-bit fields that name vector registers hold at most 31. -/
def vreg (r : Nat) : Bool := decide (r < 32)

/-- The 6-bit fields that name mask registers hold at most 7 (05 R110). -/
def mregOk (r : Nat) : Bool := decide (r < 8)

/-! ### S class (04 Tables 4-3 to 4-7) -/

def classifyIntReg (w : Word) : Option Row :=
  let n := w.minor
  let unary := n == 0x13 || n == 0x14 || n == 0x15
  let three := n == 0x16 || n == 0x17
  let ok := decide (n ≤ 0x17) && w.only true true (!unary) three && w.mod28 == 0
  if 0x0B ≤ n && n ≤ 0x0E then rowIf ok .divRem else rowIf ok .integerOp

def classifyIntImm (w : Word) : Option Row :=
  let n := w.minor
  let regOnly := n == 0x01 || n == 0x13 || n == 0x14 || n == 0x15 || n == 0x17
  let ok := decide (n ≤ 0x17) && !regOnly && w.only true true false false
    && (n != 0x16 || Word.slice w 27 12 == 0)
  if 0x0B ≤ n && n ≤ 0x0E then rowIf ok .divRem else rowIf ok .integerOp

def classifyLi (w : Word) : Option Row :=
  if w.minor = 0 then rowIf (w.ra == 0) .liL
  else if w.minor = 1 then rowIf (w.ra == 0 && Word.slice w 39 24 == 0) .liH
  else none

/-- Tables 4-5: `dbl` is major 0x04, whose pairs lie in two registers. -/
def classifyFp (dbl : Bool) (w : Word) : Option Row :=
  let n := w.minor
  let notSr := w.rm != 6
  let pd := !dbl || pairReg w.rd
  match n with
  | 0 | 1 | 2 => rowIf (w.only true true true false && w.modIn mRound) .fpArith
  | 3 | 4 | 5 => rowIf (w.only true true true true && w.modIn mRound) .fpArith
  | 6 => rowIf (w.only true true true false && w.modIn mRound && notSr) .fdivFsqrt
  | 7 => rowIf (w.only true true false false && w.modIn mRound && notSr) .fdivFsqrt
  | 8 | 9 => rowIf (w.only true true true false && w.mod28 == 0) .fminFmax
  | 10 => rowIf (w.only true true true false && w.mod28 == 0) .fsgnj
  | 11 => rowIf (w.only true true false false && w.mod28 == 0) .fclass
  | 16 => rowIf (w.only true true true false && w.modIn mRound && notSr && pd) .faddP
  | 17 => rowIf (w.only true true true false && w.modIn mRound && notSr && pd) .fmulP
  | 18 => rowIf (w.only true true true true && w.modIn mRound && notSr && pd) .fmaP
  | 19 => rowIf (w.only true true true false && w.modIn mRound && notSr && pd
      && (!dbl || (pairReg w.ra && pairReg w.rb))) .padd
  | 20 => rowIf (w.only true true false false && w.modIn mRound && notSr && (!dbl || pairReg w.ra)) .pround
  | _ => none

/-- Format codes of Table 4-6; the vector unit's codes are mapped to these. -/
inductive FCode where
  | f64 | f32 | bf16 | f16 | e4m3 | e5m2 | sint | uint
  deriving DecidableEq, Repr

def FCode.ofCode (n : Nat) : FCode :=
  match n with
  | 0 => .f64 | 1 => .f32 | 2 => .bf16 | 3 => .f16 | 4 => .e4m3 | 5 => .e5m2 | 6 => .sint | _ => .uint

def FCode.isInt (c : FCode) : Bool := c == .sint || c == .uint
def FCode.is8 (c : FCode) : Bool := c == .e4m3 || c == .e5m2

/-- The rows of Table 3-6 that are exact. -/
def convExact (dst src : FCode) : Bool :=
  match src, dst with
  | .f32, .f64 | .bf16, .f64 | .f16, .f64 | .bf16, .f32 | .f16, .f32 => true
  | .e4m3, .f16 | .e4m3, .bf16 | .e4m3, .f32 | .e4m3, .f64 => true
  | .e5m2, .f16 | .e5m2, .bf16 | .e5m2, .f32 | .e5m2, .f64 => true
  | _, _ => false

/-- The rows of Table 3-6 between floating formats that round. -/
def convNarrow (dst src : FCode) : Bool :=
  match src, dst with
  | .f64, .f32 | .f64, .bf16 | .f64, .f16 | .f32, .bf16 | .f32, .f16 | .f16, .bf16 | .bf16, .f16 => true
  | .f64, .e4m3 | .f64, .e5m2 | .f32, .e4m3 | .f32, .e5m2 => true
  | .bf16, .e4m3 | .bf16, .e5m2 | .f16, .e4m3 | .f16, .e5m2 => true
  | _, _ => false

/-- Is a conversion a row of Table 3-6 (03 R74), and for a scaled one covered by R75 or R76? FP16 to BF16 and BF16 to FP16 round into a format
that R75 names and count as narrowing (DEDUCED, log 15). -/
def convLegal (scaled : Bool) (dst src : FCode) : Bool :=
  if scaled then
    (convNarrow dst src && (dst == .bf16 || dst == .f16 || dst.is8)) ||
    (convExact dst src && (dst == .f32 || dst == .f64))
  else
    convExact dst src || convNarrow dst src ||
    (dst.isInt && (src == .f64 || src == .f32)) ||
    (src.isInt && (dst == .f64 || dst == .f32 || dst == .bf16 || dst == .f16))

/-- Does a conversion round, so that its form has rm and srtag (04 R89; DEDUCED from the Rounding column of 03 Table 3-6 and R76, log 15)? -/
def convRounds (scaled : Bool) (dst src : FCode) : Bool := !convExact dst src || (scaled && dst == .f32)

def classifyConv (w : Word) : Option Row :=
  let dst := FCode.ofCode (w.minor / 8)
  let src := FCode.ofCode (w.minor % 8)
  let scaled := Word.slice w 15 15 == 1
  let w32 := Word.slice w 16 16 == 1
  rowIf (w.only true true scaled false && w.modIn ((if convRounds scaled dst src then mRound else 0) + 0x18000) && convLegal scaled dst src
    && (!w32 || dst.isInt || src.isInt)) .convert

def classifyCmp (w : Word) : Option Row :=
  let n := w.minor
  let ok := w.only true true true false && w.mod28 == 0
  if n ≤ 5 then rowIf ok .intCompare
  else if (8 ≤ n && n ≤ 0x0A) || (0x0C ≤ n && n ≤ 0x0E) then rowIf ok .fpCompare
  else none

def classifyJump (w : Word) : Option Row :=
  if w.minor = 0 then rowIf (w.ra == 0) .jal
  else if w.minor = 1 then rowIf (w.only true true false false) .jalr
  else none

def classifyCtl (w : Word) : Option Row :=
  let none4 := w.only false false false false
  match w.minor with
  | 0 => rowIf (none4 && w.mod28 == 0) .nop
  | 1 => rowIf (none4 && w.mod28 == 0) .halt
  | 2 => rowIf (none4 && w.mod28 == 0) .yield
  | 3 => rowIf (none4 && w.modIn 0xFFFF) .pause
  | 4 => rowIf none4 .trap
  | 5 => rowIf (none4 && w.mod28 == 0) .tret
  | _ => none

/-- The status register numbers of Table 4-7, and whether one is read-only. -/
def srListed (n : Nat) : Bool := n == 0 || n == 1 || n == 2 || (8 ≤ n && n ≤ 0xC) || n == 0x10 || n == 0x11
def srReadOnly (n : Nat) : Bool := n == 0x10 || n == 0x11

def classifySr (w : Word) : Option Row :=
  let num := Word.slice w 11 0
  let ok := w.modIn 0xFFF && srListed num
  match w.minor with
  | 0 => rowIf (ok && w.only true false false false) .srd
  | 1 => rowIf (ok && !srReadOnly num && w.only false true false false) .swr
  | 2 => rowIf (ok && !srReadOnly num && w.only true true false false) .sset
  | 3 => rowIf (ok && !srReadOnly num && w.only true true false false) .sclr
  | _ => none

/-! ### V class (05 Tables 5-1 to 5-6) -/

/-- Element width of a vector type code (Table 5-1). -/
def vWidth (t : Nat) : Nat :=
  match t with
  | 0 | 4 | 14 | 15 => 8
  | 1 | 5 | 8 | 9 => 16
  | 2 | 6 | 10 | 12 => 32
  | _ => 64

def vtype (w : Word) : Nat := Word.slice w 11 8
def vIsInt (t : Nat) : Bool := decide (t < 8)
def vIsFlt (t : Nat) : Bool := decide (8 ≤ t) && decide (t < 12)
def vIsPair (t : Nat) : Bool := t == 12 || t == 13
def vIsFp8 (t : Nat) : Bool := t == 14 || t == 15

/-- type [11:8], z [4], pm [3], mreg [2:0] of the arithmetic layout (Table 5-3). -/
def mVec : Nat := 0xF1F

def mFrac : Nat := 0x1F000

def vregs (w : Word) (d a b c : Bool) : Bool :=
  (!d || vreg w.rd) && (!a || vreg w.ra) && (!b || vreg w.rb) && (!c || vreg w.rc)

def classifyVint (w : Word) : Option Row :=
  rowIf (decide (w.minor ≤ 0x0B) && vIsInt (vtype w) && w.only true true true false && vregs w true true true false
    && w.modIn mVec) .vintOp

def classifyVfixed (w : Word) : Option Row :=
  let n := w.minor
  let unary := n == 7 || n == 8
  rowIf (decide (n ≤ 8) && vIsInt (vtype w) && vWidth (vtype w) != 64 && w.only true true (!unary) false
    && vregs w true true true false && w.modIn (mVec + mFrac + mRound)
    && decide (Word.slice w 16 12 < vWidth (vtype w))) .vfixedOp

def classifyVfloat (w : Word) : Option Row :=
  let n := w.minor
  let three := n == 3 || n == 4 || n == 5
  let rounds := decide (n ≤ 7)
  rowIf (decide (n ≤ 0x0A) && vIsFlt (vtype w) && w.only true true (n != 7) three && vregs w true true true true
    && w.modIn (mVec + (if rounds then mRound else 0)) && !((n == 6 || n == 7) && w.rm == 6)) .vfloatOp

def classifyVpair (w : Word) : Option Row :=
  let n := w.minor
  let xeForm := n == 1 || n == 2
  let even (r : Nat) : Bool := r % 2 == 0
  rowIf (decide (n ≤ 4) && vIsPair (vtype w) && w.only true true (n != 4) (n == 2) && vregs w true true true true
    && w.modIn (mVec + mRound + (if xeForm then 0xF000 else 0)) && w.rm != 6
    && (n == 4 || even w.rd) && (!(n == 3 || n == 4) || even w.ra) && (n != 3 || even w.rb)) .vpairOp

/-- The floating format code of a vector type, for the rows of Table 3-6. -/
def vFCode (t : Nat) : FCode :=
  match t with
  | 8 => .bf16 | 9 => .f16 | 10 => .f32 | 11 => .f64 | 14 => .e4m3 | 15 => .e5m2
  | 0 | 1 | 2 | 3 => .sint
  | _ => .uint

/-- The pair rows of Table 3-6, as (destination, source) type codes. -/
def vPairRow (dst src : Nat) : Bool :=
  (dst == 13 && src == 11) || (dst == 11 && src == 13) || (dst == 13 && src == 12) ||
  (dst == 12 && src == 13) || (dst == 12 && src == 10) || (dst == 10 && src == 12)

/-- Does a pair row round: not the three exact ones? -/
def vPairRounds (dst src : Nat) : Bool := src == 13 || (dst == 10 && src == 12)

/-- The integer rows of Table 3-6 name int32, int64, uint32 and uint64 only: the 8-bit and 16-bit integer types are no row of it and are
refused (05 R117; DESIGN CHOICE against a wide reading of R118, log 66). -/
def vConvLegal (scaled : Bool) (dst src : Nat) : Bool :=
  convLegal scaled (vFCode dst) (vFCode src) &&
  (!(vIsInt dst) || decide (32 ≤ vWidth dst)) && (!(vIsInt src) || decide (32 ≤ vWidth src))

def classifyVcvt (w : Word) : Option Row :=
  let kind := w.minor / 16
  let src := w.minor % 16
  let dst := vtype w
  let pairSide := vIsPair src || vIsPair dst
  let frac := Word.slice w 16 12
  let rounds := match kind with
    | 0 => if pairSide then vPairRounds dst src else convRounds false (vFCode dst) (vFCode src)
    | 1 => convRounds true (vFCode dst) (vFCode src)
    | _ => true
  let legal :=
    match kind with
    | 0 => if pairSide then vPairRow dst src else vConvLegal false dst src
    | 1 => !pairSide && vConvLegal true dst src
    | 2 => vIsInt dst && vWidth dst != 64 && (src == 10 || src == 11) && decide (frac < vWidth dst)
    | _ => vIsInt src && vWidth src != 64 && (dst == 10 || dst == 11) && decide (frac < vWidth src)
  rowIf (legal && w.only true true (kind == 1) false && vreg w.rd && vreg w.ra
    && w.modIn (mVec + (if rounds then mRound else 0) + (if 2 ≤ kind then mFrac else 0)) && !(pairSide && w.rm == 6)
    && (!vIsPair dst || w.rd % 2 == 0) && (!vIsPair src || w.ra % 2 == 0)) .vcvt

def classifyVcmp (w : Word) : Option Row :=
  let n := w.minor
  let okType := (decide (n ≤ 3) && vIsInt (vtype w)) || (8 ≤ n && n ≤ 0x0A && vIsFlt (vtype w))
  rowIf (okType && w.only true true true false && mregOk w.rd && vreg w.ra && vreg w.rb && w.modIn mVec) .vcompare

def classifyMask (w : Word) : Option Row :=
  let n := w.minor
  let common := decide (n ≤ 7) && !vIsFp8 (vtype w) && w.modIn mVec && Word.slice w 3 3 == 0
  let regs :=
    if n ≤ 3 then w.only true true true false && mregOk w.rd && mregOk w.ra && mregOk w.rb
    else if n == 4 then w.only true true false false && mregOk w.rd && mregOk w.ra
    else if n == 5 then w.only true true false false && mregOk w.rd
    else w.only true true false false && mregOk w.ra
  rowIf (common && regs) .maskOp

def classifyVmove (w : Word) : Option Row :=
  let t := vtype w
  let okT := !vIsPair t && !vIsFp8 t
  let ok2 := okT && w.only true true true false && w.modIn mVec
  match w.minor with
  | 0 => rowIf (okT && w.only true true false false && w.modIn mVec && vreg w.rd) .vbcast
  | 1 => rowIf (ok2 && vreg w.ra) .vext
  | 2 => rowIf (ok2 && vreg w.rd) .vins
  | 3 => rowIf (ok2 && vregs w true true true false && Word.slice w 3 3 == 1) .vmerge
  | 4 => rowIf (ok2 && vregs w true true true false) .vperm
  | 5 => rowIf (ok2 && vreg w.rd && vreg w.ra) .vslideup
  | 6 => rowIf (ok2 && vreg w.rd && vreg w.ra) .vslidedn
  | 8 | 9 | 10 | 11 =>
    let sum := w.minor == 8
    let isI := t == 2 || t == 3 || t == 6 || t == 7
    let isF := t == 10 || t == 11
    let isP := vIsPair t
    let okTy := if w.minor == 11 then isP else isI || isF
    let rounds := (sum && isF) || w.minor == 11
    rowIf (okTy && w.only true true false false && vregs w true true false false
      && w.modIn (mVec + (if rounds then mRound else 0)) && w.rm != 6
      && (!isP || (w.rd % 2 == 0 && w.ra % 2 == 0))) .vreduce
  | _ => none

def classifyVmem (w : Word) : Option Row :=
  let t := vtype w
  let okT := decide (4 ≤ t) && decide (t ≤ 7) && w.modIn 0x0FFFFF1F
  let wide := t == 6 || t == 7
  match w.minor with
  | 0 => rowIf (okT && w.only true true false false && vreg w.rd) .vld
  | 1 => rowIf (okT && w.only true true false false && vreg w.rd) .vst
  | 2 => rowIf (okT && w.only true true true false && vreg w.rd) .vlds
  | 3 => rowIf (okT && w.only true true true false && vreg w.rd) .vsts
  | 4 => rowIf (okT && wide && w.only true true true false && vreg w.rd && vreg w.rb && w.rd != w.rb) .vgather
  | 5 => rowIf (okT && wide && w.only true true true false && vreg w.rd && vreg w.rb) .vscatter
  | _ => none

/-! ### M class (06 Tables 6-1, 6-8, 6-9) -/

/-- Chunks in a stationary set for an mma minor (Table 6-1). -/
def mmaChunks (minor : Nat) : Nat :=
  match minor with
  | 0 | 1 => 4
  | 2 => 8
  | 3 => 16
  | 4 => 32
  | 5 => 16
  | _ => 2

/-- Tiles that an mma minor's tile format occupies (Table 6-1). -/
def mmaTiles (minor : Nat) : Nat :=
  match minor with
  | 3 => 2
  | 4 => 4
  | 5 => 2
  | _ => 1

/-- Tiles of a tfmt code: 0 FP32, 1 FP64, 2 F32P, 3 F64P (Table 6-4). -/
def tfmtTiles (t : Nat) : Nat := match t with | 0 => 1 | 3 => 4 | _ => 2

def tileOk (tiles r : Nat) : Bool := decide (r < 32) && r % tiles == 0

def epiUsesY (e : Nat) : Bool := e == 6 || e == 7 || (8 ≤ e && e ≤ 0xD)

def maccSfmtOk (tfmt sfmt : Nat) : Bool :=
  match tfmt with
  | 0 => sfmt == 1 || sfmt == 2 || sfmt == 3
  | 1 => sfmt == 0 || sfmt == 1
  | 2 => sfmt == 9 || sfmt == 1
  | _ => sfmt == 8 || sfmt == 0

def classifyM (w : Word) : Option Row :=
  let n := w.minor
  let tf := Word.slice w 12 11
  match w.major with
  | 0x20 =>
    if n = 0 then rowIf (w.only false true false false && decide (w.ra < 4) && w.modIn 0x701
      && decide (Word.slice w 10 8 ≤ 3)) .msLd
    else if n = 1 then rowIf (w.only false false false false && w.mod28 == 0) .msSwap
    else none
  | 0x21 =>
    rowIf (decide (n ≤ 7) && w.only true true false false && tileOk (mmaTiles n) w.rd && decide (w.ra < 4)
      && w.modIn 0x1FFFF
      && decide (Word.slice w 11 7 + Word.slice w 6 2 + 1 ≤ mmaChunks n)) .mma
  | 0x22 =>
    if n = 0 then rowIf (w.only true true false false && decide (w.rd < 4) && w.mod28 == 0) .mstCfg
    else if n = 1 then rowIf (w.only true true true false && decide (w.rd < 4) && w.mod28 == 0) .mstSeek
    else none
  | 0x23 =>
    match n with
    | 0 => rowIf (w.only true false false false && tileOk (tfmtTiles tf) w.rd && w.modIn 0x1800) .maccZero
    | 1 => rowIf (w.only true true true false && tileOk (tfmtTiles tf) w.rd && w.modIn 0x1F800
        && maccSfmtOk tf (Word.slice w 16 13)) .maccLd
    | 2 =>
      let dfmt := Word.slice w 16 13
      let epi := Word.slice w 10 7
      rowIf (w.only true true true true && tileOk (tfmtTiles tf) w.rd && w.modIn (mRound + 0x1FFF8)
        && (decide (dfmt ≤ 5) || ((dfmt == 8 || dfmt == 9) && w.rm == 0))
        && (epi == 0 || tf == 0) && decide (epi < 0xE)
        && (Word.slice w 6 5 == 0 || epiUsesY epi)) .maccDrain
    | 3 => rowIf (w.only true true false false && decide (w.ra < 32) && w.mod28 == 0) .maccStat
    | _ => none
  | 0x24 => rowIf (n == 0 && w.only false false false false && w.modIn 0x1F) .mwait
  | _ => none

/-! ### Q class (09 Table 9-8) -/

def classifyQ (w : Word) : Option Row :=
  let n := w.minor
  let cnt := w.modIn 0x3F
  match w.major with
  | 0x28 =>
    if n ≤ 1 then rowIf (w.only true true false false && cnt && tileOk (if n = 0 then 2 else 4) w.rd) .qCholTile
    else none
  | 0x29 =>
    if n ≤ 2 then rowIf (w.only true true false false && w.mod28 == 0 && tileOk 2 w.rd && tileOk 2 w.ra) .qTrsm
    else none
  | 0x2A =>
    if n ≤ 1 then rowIf (w.only true true true false && w.mod28 == 0 && tileOk (if n = 0 then 2 else 4) w.rd
      && tileOk 2 w.ra && tileOk 2 w.rb) .qSchur
    else none
  | 0x2B =>
    if n = 0 then rowIf (w.only true true true true && cnt && tileOk 2 w.rd) .qHhPanel
    else if n = 1 then rowIf (w.only false true true true && w.mod28 == 0) .qHhApply
    else none
  | _ => none

/-! ### X class (12 Table 12-2, 15 Table 15-2, 09 R195, 10 R240, 14 R344) -/

/-- The widths of Table 12-3 for an op. -/
def amoWidthOk (op width : Nat) : Bool :=
  if op ≤ 0xC then width == 0 || width == 1 else if op == 0xD then width == 1 || width == 2 else false

/-- The type codes that redv and redvi accept for an op (12 R285). -/
def redvTypeOk (op t : Nat) : Bool :=
  if 2 ≤ op && op ≤ 9 then t == 2 || t == 3 || t == 6 || t == 7
  else if 0xA ≤ op && op ≤ 0xC then t == 10 || t == 11
  else if op == 0xD then t == 12 || t == 13
  else false

def classifyX (w : Word) : Option Row :=
  let n := w.minor
  let op := n / 4
  let width := n % 4
  match w.major with
  | 0x30 => rowIf (decide (n ≤ 6) && w.only true true false false) .ld
  | 0x31 => rowIf (decide (n ≤ 3) && w.only false true true false) .st
  | 0x32 => rowIf (decide (n ≤ 6) && w.only true true false false) .gld
  | 0x33 => rowIf (decide (n ≤ 3) && w.only false true true false) .gst
  | 0x34 =>
    rowIf (amoWidthOk op width && w.only true true true (op == 1) && w.modIn 0xC000001
      && (width != 2 || (w.rd % 2 == 0 && pairReg w.rb))) .amo
  | 0x36 =>
    rowIf (amoWidthOk op width && decide (2 ≤ op) && w.only false true true false && w.modIn 0xC000001
      && (width != 2 || pairReg w.rb)) .red
  | 0x37 =>
    let form := n / 16
    let op := n % 16
    let t := vtype w
    let common := redvTypeOk op t && w.modIn 0xF0F && vreg w.rb && (!vIsPair t || (w.rb % 2 == 0 && w.rb != 0))
    if form = 0 then rowIf (common && w.only false true true false) .redv
    else if form = 1 then rowIf (common && w.only false true true true && vreg w.rc && w.rc != w.rb) .redvi
    else none
  | 0x38 => rowIf (n == 0 && w.only false false false false && w.mod28 == 0) .xFence
  | 0x39 => rowIf (n == 0 && w.only true true false false && w.mod28 == 0) .xXfer
  | 0x3A => rowIf (n == 0 && w.only true true false false && w.mod28 == 0) .xAbort
  | 0x3B => rowIf (n == 0 && w.only true true false false && w.mod28 == 0) .xLaunch
  | 0x3C => rowIf (n == 0 && w.only true true true true && w.mod28 == 0) .xWait
  | 0x3D => rowIf (n == 0 && w.only true true false false && w.mod28 == 0) .xColl
  | 0x3E =>
    if n = 0 then rowIf (w.only true true false false && w.mod28 == 0) .xSqsub
    else if n = 1 then rowIf (w.only true true false false && w.mod28 == 0) .xSqadj
    else none
  | _ => none

/-- The row of a word; `none` when it is an illegal encoding (04 R88). Major 0x00 is undefined, so the zero word is
illegal. -/
def classify (w : Word) : Option Row :=
  match w.major with
  | 0x01 => classifyIntReg w
  | 0x02 => classifyIntImm w
  | 0x03 => classifyLi w
  | 0x04 => classifyFp true w
  | 0x05 => classifyFp false w
  | 0x06 => classifyConv w
  | 0x07 => classifyCmp w
  | 0x08 => rowIf (w.only false true true false && decide (w.minor ≤ 5)) .branch
  | 0x09 => classifyJump w
  | 0x0A => classifyCtl w
  | 0x0B => classifySr w
  | 0x10 => classifyVint w
  | 0x11 => classifyVfixed w
  | 0x12 => classifyVfloat w
  | 0x13 => classifyVpair w
  | 0x14 => classifyVcvt w
  | 0x15 => classifyVcmp w
  | 0x16 => classifyMask w
  | 0x17 => classifyVmove w
  | 0x18 => classifyVmem w
  | 0x20 | 0x21 | 0x22 | 0x23 | 0x24 => classifyM w
  | 0x28 | 0x29 | 0x2A | 0x2B => classifyQ w
  | 0x30 | 0x31 | 0x32 | 0x33 | 0x34 | 0x36 | 0x37 | 0x38 | 0x39 | 0x3A | 0x3B | 0x3C | 0x3D | 0x3E => classifyX w
  | _ => none

/-- The command that a word spells by the table's bits. The table gives no row any bits. -/
def decodeTableWord (_nbits _w : Nat) : Option Instr := none

end Sys2Proof
end

