-- ==== Sys2Proof/Machine/Regs.lean ====
section
/-! DEFINITION. The registers of BAR0 (00 R5-R9): one constant for each field of the register tables, with its BAR0 offset,
its bits, its access code, its value after power-up and whether that value is retained in the Thermos (00 R12, R13).
A family of registers takes its index as an argument. Per-counter PMC_CFG, PMC_ALO and PMC_AHI (20 R475) are kept
above the BAR0 range, one set for each counter. Values that the spec names without a number ("strap", "fused", "per ROM",
"per image", "random") are 0 here: DESIGN CHOICE, log 3. -/

namespace Sys2Proof.Machine

/-- The access codes of 00 Table 0-3. -/
inductive Acc where
  | rw | ro | wo | w1c | w1s
  deriving DecidableEq, Repr

/-- One field of one register. -/
structure Fld where
  reg : Nat
  hi : Nat
  lo : Nat
  acc : Acc
  rst : Nat
  ret : Bool
  deriving DecidableEq, Repr

/-- The width of a field. -/
def Fld.width (f : Fld) : Nat := f.hi - f.lo + 1

/-- The key of a field in the register store. -/
def Fld.key (f : Fld) : Nat := f.reg * 64 + f.lo

/-! SQ_ID (09 R193) -/

def Reg.SQ_ID.procs : Fld := { reg := 0x400000, hi := 31, lo := 24, acc := .ro, rst := 4, ret := false }
def Reg.SQ_ID.depth : Fld := { reg := 0x400000, hi := 16, lo := 0, acc := .ro, rst := 65536, ret := false }

/-! SQ_CTRL (09 R193) -/

def Reg.SQ_CTRL.accept : Fld := { reg := 0x400008, hi := 0, lo := 0, acc := .rw, rst := 1, ret := true }

/-! SQ_LEASE_CMD (09 R193) -/

def Reg.SQ_LEASE_CMD.context : Fld := { reg := 0x400010, hi := 55, lo := 50, acc := .wo, rst := 0, ret := false }
def Reg.SQ_LEASE_CMD.op : Fld := { reg := 0x400010, hi := 49, lo := 48, acc := .wo, rst := 0, ret := false }
def Reg.SQ_LEASE_CMD.partition : Fld := { reg := 0x400010, hi := 6, lo := 4, acc := .wo, rst := 0, ret := false }
def Reg.SQ_LEASE_CMD.cluster : Fld := { reg := 0x400010, hi := 3, lo := 0, acc := .wo, rst := 0, ret := false }

/-! SQ_LEASE_STAT (09 R193) -/

def Reg.SQ_LEASE_STAT.outcome : Fld := { reg := 0x400018, hi := 7, lo := 0, acc := .ro, rst := 0, ret := false }

/-! SQ_QUEUE (09 R193) -/

def Reg.SQ_QUEUE.queued : Fld := { reg := 0x400020, hi := 48, lo := 32, acc := .ro, rst := 0, ret := false }
def Reg.SQ_QUEUE.free : Fld := { reg := 0x400020, hi := 16, lo := 0, acc := .ro, rst := 65536, ret := false }

/-! SQ_REFUSED (09 R193) -/

def Reg.SQ_REFUSED.count : Fld := { reg := 0x400028, hi := 47, lo := 0, acc := .ro, rst := 0, ret := false }

/-! SQ_LOWN (09 R193), by cluster g = partition * 16 + cluster -/

def Reg.SQ_LOWN.state (g : Nat) : Fld := { reg := 0x400080 + 8 * (g / 8), hi := 8 * (g % 8) + 7, lo := 8 * (g % 8) + 6, acc := .ro, rst := 0, ret := false }
def Reg.SQ_LOWN.owner (g : Nat) : Fld := { reg := 0x400080 + 8 * (g / 8), hi := 8 * (g % 8) + 5, lo := 8 * (g % 8), acc := .ro, rst := 0, ret := false }

/-! SQ_CUTOFF (10 R244) -/

def Reg.SQ_CUTOFF.context : Fld := { reg := 0x400030, hi := 55, lo := 50, acc := .wo, rst := 0, ret := false }
def Reg.SQ_CUTOFF.fire : Fld := { reg := 0x400030, hi := 49, lo := 49, acc := .wo, rst := 0, ret := false }

/-! SQ_DLMISS (10 R244) -/

def Reg.SQ_DLMISS.last_ctx : Fld := { reg := 0x400038, hi := 53, lo := 48, acc := .ro, rst := 0, ret := false }
def Reg.SQ_DLMISS.count : Fld := { reg := 0x400038, hi := 47, lo := 0, acc := .ro, rst := 0, ret := false }

/-! SQ_DLPART (10 R244) -/

def Reg.SQ_DLPART.last_ctx : Fld := { reg := 0x400040, hi := 53, lo := 48, acc := .ro, rst := 0, ret := false }
def Reg.SQ_DLPART.count : Fld := { reg := 0x400040, hi := 47, lo := 0, acc := .ro, rst := 0, ret := false }

/-! SQ_FS_BASE (10 R244) -/

def Reg.SQ_FS_BASE.base : Fld := { reg := 0x400048, hi := 47, lo := 21, acc := .rw, rst := 0, ret := true }

/-! SQ_FS_SIZE (10 R244) -/

def Reg.SQ_FS_SIZE.units : Fld := { reg := 0x400050, hi := 15, lo := 0, acc := .rw, rst := 0, ret := true }

/-! SQ_FS_USE (10 R244) -/

def Reg.SQ_FS_USE.handles : Fld := { reg := 0x400058, hi := 48, lo := 32, acc := .ro, rst := 0, ret := false }
def Reg.SQ_FS_USE.used : Fld := { reg := 0x400058, hi := 15, lo := 0, acc := .ro, rst := 0, ret := false }

/-! SQ_FS_CNT (10 R244) -/

def Reg.SQ_FS_CNT.fail : Fld := { reg := 0x400060, hi := 63, lo := 48, acc := .ro, rst := 0, ret := false }
def Reg.SQ_FS_CNT.evict : Fld := { reg := 0x400060, hi := 47, lo := 32, acc := .ro, rst := 0, ret := false }
def Reg.SQ_FS_CNT.recompute : Fld := { reg := 0x400060, hi := 31, lo := 16, acc := .ro, rst := 0, ret := false }
def Reg.SQ_FS_CNT.bad : Fld := { reg := 0x400060, hi := 15, lo := 0, acc := .ro, rst := 0, ret := false }

/-! HMP_ID (11 R271) -/

def Reg.HMP_ID.cores : Fld := { reg := 0x1800000, hi := 47, lo := 40, acc := .ro, rst := 32, ret := false }
def Reg.HMP_ID.threads : Fld := { reg := 0x1800000, hi := 39, lo := 32, acc := .ro, rst := 8, ret := false }
def Reg.HMP_ID.flash_tib : Fld := { reg := 0x1800000, hi := 31, lo := 24, acc := .ro, rst := 8, ret := false }
def Reg.HMP_ID.rs_entries : Fld := { reg := 0x1800000, hi := 21, lo := 0, acc := .ro, rst := 2097152, ret := false }

/-! HMP_CTRL (11 R271) -/

def Reg.HMP_CTRL.accept : Fld := { reg := 0x1800008, hi := 0, lo := 0, acc := .rw, rst := 1, ret := true }

/-! HMP_STAT (11 R271) -/

def Reg.HMP_STAT.held : Fld := { reg := 0x1800010, hi := 47, lo := 32, acc := .ro, rst := 0, ret := false }
def Reg.HMP_STAT.active : Fld := { reg := 0x1800010, hi := 15, lo := 8, acc := .ro, rst := 0, ret := false }

/-! HMP_CNT (11 R271) -/

def Reg.HMP_CNT.skipped : Fld := { reg := 0x1800018, hi := 63, lo := 32, acc := .ro, rst := 0, ret := false }
def Reg.HMP_CNT.flagged : Fld := { reg := 0x1800018, hi := 31, lo := 0, acc := .ro, rst := 0, ret := false }

/-! HMP_RS_ADDR (11 R271) -/

def Reg.HMP_RS_ADDR.index : Fld := { reg := 0x1800020, hi := 20, lo := 0, acc := .rw, rst := 0, ret := false }

/-! HMP_RS_DATA (11 R271) -/

def Reg.HMP_RS_DATA.entry : Fld := { reg := 0x1800028, hi := 63, lo := 0, acc := .rw, rst := 0, ret := false }

/-! HMP_FRING (11 R271) -/

def Reg.HMP_FRING.base : Fld := { reg := 0x1800030, hi := 47, lo := 12, acc := .rw, rst := 0, ret := false }
def Reg.HMP_FRING.size : Fld := { reg := 0x1800030, hi := 3, lo := 0, acc := .rw, rst := 0, ret := false }

/-! HMP_FPTR (11 R271) -/

def Reg.HMP_FPTR.head : Fld := { reg := 0x1800038, hi := 63, lo := 32, acc := .ro, rst := 0, ret := false }
def Reg.HMP_FPTR.tail : Fld := { reg := 0x1800038, hi := 31, lo := 0, acc := .rw, rst := 0, ret := false }

/-! HMP_RESUME (11 R271) -/

def Reg.HMP_RESUME.core : Fld := { reg := 0x1800040, hi := 12, lo := 8, acc := .wo, rst := 0, ret := false }
def Reg.HMP_RESUME.thread : Fld := { reg := 0x1800040, hi := 2, lo := 0, acc := .wo, rst := 0, ret := false }

/-! HMP_D2D (11 R271) -/

def Reg.HMP_D2D.up : Fld := { reg := 0x1800048, hi := 63, lo := 63, acc := .ro, rst := 0, ret := false }
def Reg.HMP_D2D.retrains : Fld := { reg := 0x1800048, hi := 47, lo := 32, acc := .ro, rst := 0, ret := false }
def Reg.HMP_D2D.replays : Fld := { reg := 0x1800048, hi := 31, lo := 0, acc := .ro, rst := 0, ret := false }

/-! HMP_CT (11 R271) -/

def Reg.HMP_CT.corrected : Fld := { reg := 0x1800050, hi := 63, lo := 32, acc := .ro, rst := 0, ret := false }
def Reg.HMP_CT.uncorrected : Fld := { reg := 0x1800050, hi := 31, lo := 0, acc := .ro, rst := 0, ret := false }

/-! HMP_FLSUB (11 R271) -/

def Reg.HMP_FLSUB.context : Fld := { reg := 0x1800058, hi := 53, lo := 48, acc := .wo, rst := 0, ret := false }
def Reg.HMP_FLSUB.va : Fld := { reg := 0x1800058, hi := 47, lo := 0, acc := .wo, rst := 0, ret := false }

/-! HMP_FLSTAT (11 R271) -/

def Reg.HMP_FLSTAT.outstanding : Fld := { reg := 0x1800060, hi := 47, lo := 32, acc := .ro, rst := 0, ret := false }
def Reg.HMP_FLSTAT.outcome : Fld := { reg := 0x1800060, hi := 7, lo := 0, acc := .ro, rst := 0, ret := false }

/-! HMP_STEP (11 R271) -/

def Reg.HMP_STEP.step (n : Nat) : Fld := { reg := 0x1801000 + 0x8 * n, hi := 63, lo := 32, acc := .rw, rst := 0, ret := false }
def Reg.HMP_STEP.size (n : Nat) : Fld := { reg := 0x1801000 + 0x8 * n, hi := 31, lo := 0, acc := .rw, rst := 0, ret := false }

/-! HMP_LT (11 R271) -/

def Reg.HMP_LT.count_m1 (n : Nat) : Fld := { reg := 0x1801200 + 0x8 * n, hi := 63, lo := 48, acc := .rw, rst := 0, ret := false }
def Reg.HMP_LT.base (n : Nat) : Fld := { reg := 0x1801200 + 0x8 * n, hi := 47, lo := 7, acc := .rw, rst := 0, ret := false }

/-! HMP_RSWIN (11 R271) -/

def Reg.HMP_RSWIN.base (n : Nat) : Fld := { reg := 0x1801400 + 0x8 * n, hi := 52, lo := 32, acc := .rw, rst := 0, ret := false }
def Reg.HMP_RSWIN.count (n : Nat) : Fld := { reg := 0x1801400 + 0x8 * n, hi := 21, lo := 0, acc := .rw, rst := 0, ret := false }

/-! HMP_FLEXT (11 R271) -/

def Reg.HMP_FLEXT.base (n : Nat) : Fld := { reg := 0x1801600 + 0x8 * n, hi := 47, lo := 32, acc := .rw, rst := 0, ret := true }
def Reg.HMP_FLEXT.size (n : Nat) : Fld := { reg := 0x1801600 + 0x8 * n, hi := 15, lo := 0, acc := .rw, rst := 0, ret := true }

/-! MEM_ID (12 R301) -/

def Reg.MEM_ID.stacks : Fld := { reg := 0x800000, hi := 55, lo := 48, acc := .ro, rst := 16, ret := false }
def Reg.MEM_ID.pcs : Fld := { reg := 0x800000, hi := 35, lo := 24, acc := .ro, rst := 512, ret := false }
def Reg.MEM_ID.slices : Fld := { reg := 0x800000, hi := 23, lo := 16, acc := .ro, rst := 64, ret := false }
def Reg.MEM_ID.pc_mib : Fld := { reg := 0x800000, hi := 15, lo := 0, acc := .ro, rst := 1536, ret := false }

/-! MEM_CTRL (12 R301) -/

def Reg.MEM_CTRL.maint : Fld := { reg := 0x800008, hi := 16, lo := 16, acc := .rw, rst := 0, ret := false }
def Reg.MEM_CTRL.ce_thresh : Fld := { reg := 0x800008, hi := 15, lo := 8, acc := .rw, rst := 4, ret := true }
def Reg.MEM_CTRL.scrub : Fld := { reg := 0x800008, hi := 0, lo := 0, acc := .rw, rst := 1, ret := true }

/-! MEM_CARVE (12 R301) -/

def Reg.MEM_CARVE.pending : Fld := { reg := 0x800010, hi := 20, lo := 16, acc := .rw, rst := 4, ret := true }
def Reg.MEM_CARVE.active : Fld := { reg := 0x800010, hi := 4, lo := 0, acc := .ro, rst := 4, ret := true }

/-! MEM_MAINT_CMD (12 R301) -/

def Reg.MEM_MAINT_CMD.op : Fld := { reg := 0x800018, hi := 63, lo := 62, acc := .wo, rst := 0, ret := false }
def Reg.MEM_MAINT_CMD.pc : Fld := { reg := 0x800018, hi := 56, lo := 48, acc := .wo, rst := 0, ret := false }
def Reg.MEM_MAINT_CMD.bank : Fld := { reg := 0x800018, hi := 37, lo := 32, acc := .wo, rst := 0, ret := false }
def Reg.MEM_MAINT_CMD.row : Fld := { reg := 0x800018, hi := 17, lo := 0, acc := .wo, rst := 0, ret := false }

/-! MEM_MAINT_STAT (12 R301) -/

def Reg.MEM_MAINT_STAT.outcome : Fld := { reg := 0x800020, hi := 63, lo := 56, acc := .ro, rst := 0, ret := false }
def Reg.MEM_MAINT_STAT.result : Fld := { reg := 0x800020, hi := 55, lo := 48, acc := .ro, rst := 0, ret := false }
def Reg.MEM_MAINT_STAT.active : Fld := { reg := 0x800020, hi := 47, lo := 40, acc := .ro, rst := 0, ret := false }
def Reg.MEM_MAINT_STAT.done : Fld := { reg := 0x800020, hi := 31, lo := 0, acc := .ro, rst := 0, ret := false }

/-! MEM_ERRLOG (12 R301) -/

def Reg.MEM_ERRLOG.valid : Fld := { reg := 0x800028, hi := 63, lo := 63, acc := .w1c, rst := 0, ret := false }
def Reg.MEM_ERRLOG.pc : Fld := { reg := 0x800028, hi := 62, lo := 54, acc := .ro, rst := 0, ret := false }
def Reg.MEM_ERRLOG.context : Fld := { reg := 0x800028, hi := 53, lo := 48, acc := .ro, rst := 0, ret := false }
def Reg.MEM_ERRLOG.offset : Fld := { reg := 0x800028, hi := 30, lo := 0, acc := .ro, rst := 0, ret := false }

/-! MEM_CELOG (12 R301) -/

def Reg.MEM_CELOG.valid : Fld := { reg := 0x800030, hi := 63, lo := 63, acc := .w1c, rst := 0, ret := false }
def Reg.MEM_CELOG.pc : Fld := { reg := 0x800030, hi := 62, lo := 54, acc := .ro, rst := 0, ret := false }
def Reg.MEM_CELOG.bank : Fld := { reg := 0x800030, hi := 53, lo := 48, acc := .ro, rst := 0, ret := false }
def Reg.MEM_CELOG.row : Fld := { reg := 0x800030, hi := 17, lo := 0, acc := .ro, rst := 0, ret := false }

/-! MEM_ERRCNT (12 R301) -/

def Reg.MEM_ERRCNT.corrected : Fld := { reg := 0x800038, hi := 63, lo := 32, acc := .ro, rst := 0, ret := false }
def Reg.MEM_ERRCNT.uncorrected : Fld := { reg := 0x800038, hi := 31, lo := 0, acc := .ro, rst := 0, ret := false }

/-! MEM_TP_CMD (12 R301) -/

def Reg.MEM_TP_CMD.busy : Fld := { reg := 0x800040, hi := 63, lo := 63, acc := .ro, rst := 0, ret := false }
def Reg.MEM_TP_CMD.start : Fld := { reg := 0x800040, hi := 62, lo := 62, acc := .w1s, rst := 0, ret := false }
def Reg.MEM_TP_CMD.hold : Fld := { reg := 0x800040, hi := 61, lo := 61, acc := .rw, rst := 0, ret := false }
def Reg.MEM_TP_CMD.stack : Fld := { reg := 0x800040, hi := 51, lo := 48, acc := .rw, rst := 0, ret := false }
def Reg.MEM_TP_CMD.len_m1 : Fld := { reg := 0x800040, hi := 37, lo := 32, acc := .rw, rst := 0, ret := false }
def Reg.MEM_TP_CMD.instr : Fld := { reg := 0x800040, hi := 31, lo := 0, acc := .rw, rst := 0, ret := false }

/-! MEM_TP_DATA (12 R301) -/

def Reg.MEM_TP_DATA.data : Fld := { reg := 0x800048, hi := 63, lo := 0, acc := .rw, rst := 0, ret := false }

/-! MEM_HOLD (12 R301) -/

def Reg.MEM_HOLD.held (n : Nat) : Fld := { reg := 0x800100 + 0x8 * n, hi := 63, lo := 0, acc := .ro, rst := 0, ret := false }

/-! MEM_PPR (12 R301) -/

def Reg.MEM_PPR.spares_free (n : Nat) : Fld := { reg := 0x800200 + 0x8 * n, hi := 31, lo := 16, acc := .ro, rst := 0, ret := false }
def Reg.MEM_PPR.repairs (n : Nat) : Fld := { reg := 0x800200 + 0x8 * n, hi := 15, lo := 0, acc := .ro, rst := 0, ret := false }

/-! FAB_ID (13 R338) -/

def Reg.FAB_ID.ports : Fld := { reg := 0x1000000, hi := 47, lo := 40, acc := .ro, rst := 16, ret := false }
def Reg.FAB_ID.lanes : Fld := { reg := 0x1000000, hi := 39, lo := 32, acc := .ro, rst := 4, ret := false }
def Reg.FAB_ID.vcs : Fld := { reg := 0x1000000, hi := 31, lo := 24, acc := .ro, rst := 8, ret := false }
def Reg.FAB_ID.cprocs : Fld := { reg := 0x1000000, hi := 23, lo := 16, acc := .ro, rst := 16, ret := false }

/-! FAB_CTRL (13 R338) -/

def Reg.FAB_CTRL.hop_limit : Fld := { reg := 0x1000008, hi := 15, lo := 8, acc := .rw, rst := 32, ret := true }
def Reg.FAB_CTRL.kindle_en : Fld := { reg := 0x1000008, hi := 1, lo := 1, acc := .rw, rst := 1, ret := true }
def Reg.FAB_CTRL.enable : Fld := { reg := 0x1000008, hi := 0, lo := 0, acc := .rw, rst := 1, ret := true }

/-! FAB_DEVID (13 R338) -/

def Reg.FAB_DEVID.assigned : Fld := { reg := 0x1000010, hi := 63, lo := 63, acc := .rw, rst := 0, ret := true }
def Reg.FAB_DEVID.incarnation : Fld := { reg := 0x1000010, hi := 47, lo := 32, acc := .ro, rst := 1, ret := true }
def Reg.FAB_DEVID.id : Fld := { reg := 0x1000010, hi := 15, lo := 0, acc := .rw, rst := 0, ret := true }

/-! FAB_QUAD (13 R338) -/

def Reg.FAB_QUAD.sb_en : Fld := { reg := 0x1000018, hi := 63, lo := 63, acc := .rw, rst := 1, ret := true }
def Reg.FAB_QUAD.beat : Fld := { reg := 0x1000018, hi := 62, lo := 62, acc := .wo, rst := 0, ret := false }
def Reg.FAB_QUAD.silent : Fld := { reg := 0x1000018, hi := 10, lo := 8, acc := .ro, rst := 0, ret := false }
def Reg.FAB_QUAD.in_quad : Fld := { reg := 0x1000018, hi := 2, lo := 2, acc := .ro, rst := 0, ret := false }
def Reg.FAB_QUAD.qpos : Fld := { reg := 0x1000018, hi := 1, lo := 0, acc := .ro, rst := 0, ret := false }

/-! FAB_RT_ADDR (13 R338) -/

def Reg.FAB_RT_ADDR.index : Fld := { reg := 0x1000020, hi := 15, lo := 0, acc := .rw, rst := 0, ret := false }

/-! FAB_RT_DATA (13 R338) -/

def Reg.FAB_RT_DATA.entry : Fld := { reg := 0x1000028, hi := 63, lo := 0, acc := .rw, rst := 0, ret := false }

/-! FAB_LOST (13 R338) -/

def Reg.FAB_LOST.valid : Fld := { reg := 0x1000030, hi := 63, lo := 63, acc := .w1c, rst := 0, ret := false }
def Reg.FAB_LOST.cause : Fld := { reg := 0x1000030, hi := 55, lo := 48, acc := .ro, rst := 0, ret := false }
def Reg.FAB_LOST.incarnation : Fld := { reg := 0x1000030, hi := 47, lo := 32, acc := .ro, rst := 0, ret := false }
def Reg.FAB_LOST.count : Fld := { reg := 0x1000030, hi := 31, lo := 16, acc := .ro, rst := 0, ret := false }
def Reg.FAB_LOST.device : Fld := { reg := 0x1000030, hi := 15, lo := 0, acc := .ro, rst := 0, ret := false }

/-! FAB_DROP (13 R338) -/

def Reg.FAB_DROP.noroute : Fld := { reg := 0x1000038, hi := 63, lo := 32, acc := .ro, rst := 0, ret := false }
def Reg.FAB_DROP.hop : Fld := { reg := 0x1000038, hi := 31, lo := 16, acc := .ro, rst := 0, ret := false }
def Reg.FAB_DROP.lost : Fld := { reg := 0x1000038, hi := 15, lo := 0, acc := .ro, rst := 0, ret := false }

/-! FAB_DECLARE (13 R338) -/

def Reg.FAB_DECLARE.incarnation : Fld := { reg := 0x1000040, hi := 47, lo := 32, acc := .wo, rst := 0, ret := false }
def Reg.FAB_DECLARE.go : Fld := { reg := 0x1000040, hi := 16, lo := 16, acc := .wo, rst := 0, ret := false }
def Reg.FAB_DECLARE.device : Fld := { reg := 0x1000040, hi := 15, lo := 0, acc := .wo, rst := 0, ret := false }

/-! FAB_PSTAT (13 R338) -/

def Reg.FAB_PSTAT.state (n : Nat) : Fld := { reg := 0x1000100 + 0x8 * n, hi := 63, lo := 60, acc := .ro, rst := 0, ret := false }
def Reg.FAB_PSTAT.cause (n : Nat) : Fld := { reg := 0x1000100 + 0x8 * n, hi := 59, lo := 56, acc := .ro, rst := 0, ret := false }
def Reg.FAB_PSTAT.width (n : Nat) : Fld := { reg := 0x1000100 + 0x8 * n, hi := 50, lo := 48, acc := .ro, rst := 0, ret := false }
def Reg.FAB_PSTAT.retrain (n : Nat) : Fld := { reg := 0x1000100 + 0x8 * n, hi := 1, lo := 1, acc := .w1s, rst := 0, ret := false }
def Reg.FAB_PSTAT.port_en (n : Nat) : Fld := { reg := 0x1000100 + 0x8 * n, hi := 0, lo := 0, acc := .rw, rst := 1, ret := true }

/-! FAB_PERR (13 R338) -/

def Reg.FAB_PERR.crc (n : Nat) : Fld := { reg := 0x1000200 + 0x8 * n, hi := 63, lo := 32, acc := .ro, rst := 0, ret := false }
def Reg.FAB_PERR.replays (n : Nat) : Fld := { reg := 0x1000200 + 0x8 * n, hi := 31, lo := 16, acc := .ro, rst := 0, ret := false }
def Reg.FAB_PERR.retrains (n : Nat) : Fld := { reg := 0x1000200 + 0x8 * n, hi := 15, lo := 0, acc := .ro, rst := 0, ret := false }

/-! FAB_PNBR (13 R338) -/

def Reg.FAB_PNBR.valid (n : Nat) : Fld := { reg := 0x1000300 + 0x8 * n, hi := 63, lo := 63, acc := .ro, rst := 0, ret := false }
def Reg.FAB_PNBR.port (n : Nat) : Fld := { reg := 0x1000300 + 0x8 * n, hi := 55, lo := 52, acc := .ro, rst := 0, ret := false }
def Reg.FAB_PNBR.assigned (n : Nat) : Fld := { reg := 0x1000300 + 0x8 * n, hi := 51, lo := 51, acc := .ro, rst := 0, ret := false }
def Reg.FAB_PNBR.in_quad (n : Nat) : Fld := { reg := 0x1000300 + 0x8 * n, hi := 50, lo := 50, acc := .ro, rst := 0, ret := false }
def Reg.FAB_PNBR.qpos (n : Nat) : Fld := { reg := 0x1000300 + 0x8 * n, hi := 49, lo := 48, acc := .ro, rst := 0, ret := false }
def Reg.FAB_PNBR.incarnation (n : Nat) : Fld := { reg := 0x1000300 + 0x8 * n, hi := 47, lo := 32, acc := .ro, rst := 0, ret := false }
def Reg.FAB_PNBR.device (n : Nat) : Fld := { reg := 0x1000300 + 0x8 * n, hi := 15, lo := 0, acc := .ro, rst := 0, ret := false }

/-! FAB_CP_CTRL (14 R369) -/

def Reg.FAB_CP_CTRL.accept : Fld := { reg := 0x1001000, hi := 0, lo := 0, acc := .rw, rst := 1, ret := true }

/-! FAB_CP_QUEUE (14 R369) -/

def Reg.FAB_CP_QUEUE.queued : Fld := { reg := 0x1001008, hi := 44, lo := 32, acc := .ro, rst := 0, ret := false }
def Reg.FAB_CP_QUEUE.free : Fld := { reg := 0x1001008, hi := 12, lo := 0, acc := .ro, rst := 4096, ret := false }

/-! FAB_CP_TMO (14 R369) -/

def Reg.FAB_CP_TMO.ticks : Fld := { reg := 0x1001010, hi := 31, lo := 0, acc := .rw, rst := 250000000, ret := true }

/-! FAB_CP_DRAIN (14 R369) -/

def Reg.FAB_CP_DRAIN.ticks : Fld := { reg := 0x1001018, hi := 31, lo := 0, acc := .rw, rst := 1250000, ret := true }

/-! FAB_CP_CNT (14 R369) -/

def Reg.FAB_CP_CNT.stale : Fld := { reg := 0x1001020, hi := 63, lo := 48, acc := .ro, rst := 0, ret := false }
def Reg.FAB_CP_CNT.genmis : Fld := { reg := 0x1001020, hi := 47, lo := 32, acc := .ro, rst := 0, ret := false }
def Reg.FAB_CP_CNT.pinwait : Fld := { reg := 0x1001020, hi := 31, lo := 16, acc := .ro, rst := 0, ret := false }
def Reg.FAB_CP_CNT.badrel : Fld := { reg := 0x1001020, hi := 15, lo := 8, acc := .ro, rst := 0, ret := false }
def Reg.FAB_CP_CNT.timedout : Fld := { reg := 0x1001020, hi := 7, lo := 0, acc := .ro, rst := 0, ret := false }

/-! FAB_CP_REFUSED (14 R369) -/

def Reg.FAB_CP_REFUSED.count : Fld := { reg := 0x1001028, hi := 47, lo := 0, acc := .ro, rst := 0, ret := false }

/-! FAB_CP_EP (14 R369) -/

def Reg.FAB_CP_EP.epoch (n : Nat) : Fld := { reg := 0x1001100 + 0x8 * n, hi := 31, lo := 0, acc := .ro, rst := 0, ret := false }

/-! FAB_CP_ST (14 R369). Table 14-3 gives the offsets of FAB_CP_ST0-31 to FAB_CP_EP32-63 as well; an access there reaches FAB_CP_ST (DESIGN
CHOICE, log 53). -/

def Reg.FAB_CP_ST.count_m1 (n : Nat) : Fld := { reg := 0x1001200 + 0x8 * n, hi := 63, lo := 48, acc := .rw, rst := 0, ret := false }
def Reg.FAB_CP_ST.base (n : Nat) : Fld := { reg := 0x1001200 + 0x8 * n, hi := 47, lo := 6, acc := .rw, rst := 0, ret := false }

/-! PART_STAT (16 R420) -/

def Reg.PART_STAT.state (n : Nat) : Fld := { reg := 0x3000000 + 0x100000 * n, hi := 63, lo := 60, acc := .ro, rst := 0, ret := false }
def Reg.PART_STAT.cls (n : Nat) : Fld := { reg := 0x3000000 + 0x100000 * n, hi := 55, lo := 48, acc := .ro, rst := 0, ret := false }
def Reg.PART_STAT.resets (n : Nat) : Fld := { reg := 0x3000000 + 0x100000 * n, hi := 31, lo := 0, acc := .ro, rst := 0, ret := true }

/-! PART_CMD (16 R420) -/

def Reg.PART_CMD.reset (n : Nat) : Fld := { reg := 0x3000008 + 0x100000 * n, hi := 0, lo := 0, acc := .w1s, rst := 0, ret := false }

/-! PART_FLOG0 (16 R420) -/

def Reg.PART_FLOG0.valid (n : Nat) : Fld := { reg := 0x3000010 + 0x100000 * n, hi := 63, lo := 63, acc := .w1c, rst := 0, ret := false }
def Reg.PART_FLOG0.cls (n : Nat) : Fld := { reg := 0x3000010 + 0x100000 * n, hi := 47, lo := 40, acc := .ro, rst := 0, ret := false }
def Reg.PART_FLOG0.named (n : Nat) : Fld := { reg := 0x3000010 + 0x100000 * n, hi := 39, lo := 39, acc := .ro, rst := 0, ret := false }
def Reg.PART_FLOG0.context (n : Nat) : Fld := { reg := 0x3000010 + 0x100000 * n, hi := 37, lo := 32, acc := .ro, rst := 0, ret := false }
def Reg.PART_FLOG0.core (n : Nat) : Fld := { reg := 0x3000010 + 0x100000 * n, hi := 31, lo := 21, acc := .ro, rst := 0, ret := false }
def Reg.PART_FLOG0.thread (n : Nat) : Fld := { reg := 0x3000010 + 0x100000 * n, hi := 20, lo := 18, acc := .ro, rst := 0, ret := false }

/-! PART_FLOG1 (16 R420) -/

def Reg.PART_FLOG1.instruction (n : Nat) : Fld := { reg := 0x3000018 + 0x100000 * n, hi := 47, lo := 0, acc := .ro, rst := 0, ret := false }

/-! PART_FLOG2 (16 R420) -/

def Reg.PART_FLOG2.ticks (n : Nat) : Fld := { reg := 0x3000020 + 0x100000 * n, hi := 63, lo := 0, acc := .ro, rst := 0, ret := false }

/-! LMP_ESC_STAT (16 R420) -/

def Reg.LMP_ESC_STAT.oos : Fld := { reg := 0x2000800, hi := 63, lo := 63, acc := .ro, rst := 0, ret := true }
def Reg.LMP_ESC_STAT.mod_count : Fld := { reg := 0x2000800, hi := 39, lo := 32, acc := .ro, rst := 0, ret := true }
def Reg.LMP_ESC_STAT.part_count : Fld := { reg := 0x2000800, hi := 31, lo := 0, acc := .ro, rst := 0, ret := true }

/-! LMP_ESC_LIMIT (16 R420) -/

def Reg.LMP_ESC_LIMIT.window : Fld := { reg := 0x2000808, hi := 23, lo := 16, acc := .ro, rst := 24, ret := true }
def Reg.LMP_ESC_LIMIT.mod_limit : Fld := { reg := 0x2000808, hi := 15, lo := 8, acc := .ro, rst := 6, ret := true }
def Reg.LMP_ESC_LIMIT.part_limit : Fld := { reg := 0x2000808, hi := 7, lo := 0, acc := .ro, rst := 3, ret := true }

/-! LMP_SVC_TICKS (16 R420) -/

def Reg.LMP_SVC_TICKS.ticks : Fld := { reg := 0x2000810, hi := 63, lo := 0, acc := .ro, rst := 0, ret := true }

/-! LMP_RESET_SEQ (16 R420) -/

def Reg.LMP_RESET_SEQ.seq : Fld := { reg := 0x2000818, hi := 31, lo := 0, acc := .ro, rst := 0, ret := true }

/-! LMP_WDOG (16 R420) -/

def Reg.LMP_WDOG.action (n : Nat) : Fld := { reg := 0x2001000 + 0x8 * n, hi := 63, lo := 62, acc := .rw, rst := 0, ret := false }
def Reg.LMP_WDOG.state (n : Nat) : Fld := { reg := 0x2001000 + 0x8 * n, hi := 61, lo := 60, acc := .ro, rst := 0, ret := false }
def Reg.LMP_WDOG.period (n : Nat) : Fld := { reg := 0x2001000 + 0x8 * n, hi := 31, lo := 0, acc := .rw, rst := 0, ret := false }

/-! HMP_BLK_EN (17 R435) -/

def Reg.HMP_BLK_EN.ctx : Fld := { reg := 0x1800080, hi := 63, lo := 0, acc := .rw, rst := 0, ret := false }

/-! HMP_BLK_RGN (17 R435) -/

def Reg.HMP_BLK_RGN.base : Fld := { reg := 0x1800088, hi := 47, lo := 30, acc := .rw, rst := 0, ret := true }
def Reg.HMP_BLK_RGN.size : Fld := { reg := 0x1800088, hi := 10, lo := 0, acc := .rw, rst := 0, ret := true }

/-! HMP_BLK_USE (17 R435) -/

def Reg.HMP_BLK_USE.slots : Fld := { reg := 0x1800090, hi := 47, lo := 32, acc := .ro, rst := 0, ret := false }
def Reg.HMP_BLK_USE.used : Fld := { reg := 0x1800090, hi := 31, lo := 0, acc := .ro, rst := 0, ret := false }

/-! HMP_BLK_STAT (17 R435) -/

def Reg.HMP_BLK_STAT.hvalid : Fld := { reg := 0x1800098, hi := 63, lo := 63, acc := .ro, rst := 0, ret := false }
def Reg.HMP_BLK_STAT.holder : Fld := { reg := 0x1800098, hi := 47, lo := 32, acc := .ro, rst := 0, ret := false }
def Reg.HMP_BLK_STAT.unprot : Fld := { reg := 0x1800098, hi := 31, lo := 0, acc := .ro, rst := 0, ret := false }

/-! HMP_BLK_CNT (17 R435) -/

def Reg.HMP_BLK_CNT.copies : Fld := { reg := 0x18000A0, hi := 63, lo := 32, acc := .ro, rst := 0, ret := false }
def Reg.HMP_BLK_CNT.failed : Fld := { reg := 0x18000A0, hi := 31, lo := 16, acc := .ro, rst := 0, ret := false }
def Reg.HMP_BLK_CNT.restores : Fld := { reg := 0x18000A0, hi := 15, lo := 0, acc := .ro, rst := 0, ret := false }

/-! PWR_ID (18 R453) -/

def Reg.PWR_ID.domains : Fld := { reg := 0x200000, hi := 39, lo := 32, acc := .ro, rst := 20, ret := false }
def Reg.PWR_ID.states : Fld := { reg := 0x200000, hi := 31, lo := 24, acc := .ro, rst := 5, ret := false }

/-! PWR_CTRL (18 R453) -/

def Reg.PWR_CTRL.debug : Fld := { reg := 0x200008, hi := 8, lo := 8, acc := .rw, rst := 0, ret := false }
def Reg.PWR_CTRL.max_state : Fld := { reg := 0x200008, hi := 2, lo := 0, acc := .rw, rst := 4, ret := true }

/-! PWR_LAT_TOL (18 R453) -/

def Reg.PWR_LAT_TOL.value : Fld := { reg := 0x200010, hi := 31, lo := 0, acc := .rw, rst := 0, ret := true }

/-! PWR_STATE (18 R453) -/

def Reg.PWR_STATE.state : Fld := { reg := 0x200018, hi := 63, lo := 61, acc := .ro, rst := 0, ret := false }
def Reg.PWR_STATE.target : Fld := { reg := 0x200018, hi := 60, lo := 58, acc := .ro, rst := 0, ret := false }
def Reg.PWR_STATE.entering : Fld := { reg := 0x200018, hi := 57, lo := 57, acc := .ro, rst := 0, ret := false }
def Reg.PWR_STATE.last_wake : Fld := { reg := 0x200018, hi := 47, lo := 40, acc := .ro, rst := 0, ret := false }
def Reg.PWR_STATE.last_exit : Fld := { reg := 0x200018, hi := 31, lo := 0, acc := .ro, rst := 0, ret := false }

/-! PWR_DWELL (18 R453) -/

def Reg.PWR_DWELL.w4 : Fld := { reg := 0x200020, hi := 47, lo := 32, acc := .rw, rst := 10, ret := true }
def Reg.PWR_DWELL.w3 : Fld := { reg := 0x200020, hi := 31, lo := 16, acc := .rw, rst := 100, ret := true }
def Reg.PWR_DWELL.w2 : Fld := { reg := 0x200020, hi := 15, lo := 0, acc := .rw, rst := 1000, ret := true }

/-! PWR_TIMER (18 R453) -/

def Reg.PWR_TIMER.atTick : Fld := { reg := 0x200028, hi := 63, lo := 0, acc := .rw, rst := 0, ret := false }

/-! PWR_DOM (18 R453) -/

def Reg.PWR_DOM.on : Fld := { reg := 0x200030, hi := 19, lo := 0, acc := .ro, rst := 524287, ret := false }

/-! PWR_AVS (18 R453) -/

def Reg.PWR_AVS.timeouts : Fld := { reg := 0x200038, hi := 63, lo := 48, acc := .ro, rst := 0, ret := false }
def Reg.PWR_AVS.last_rail : Fld := { reg := 0x200038, hi := 43, lo := 40, acc := .ro, rst := 0, ret := false }
def Reg.PWR_AVS.failed : Fld := { reg := 0x200038, hi := 32, lo := 32, acc := .ro, rst := 0, ret := false }
def Reg.PWR_AVS.requests : Fld := { reg := 0x200038, hi := 31, lo := 0, acc := .ro, rst := 0, ret := false }

/-! PWR_RES (18 R453) -/

def Reg.PWR_RES.ticks (n : Nat) : Fld := { reg := 0x200100 + 0x8 * n, hi := 63, lo := 0, acc := .ro, rst := 0, ret := false }

/-! PWR_REFUSE (18 R453) -/

def Reg.PWR_REFUSE.code (n : Nat) : Fld := { reg := 0x200180 + 0x8 * n, hi := 63, lo := 56, acc := .ro, rst := 0, ret := false }
def Reg.PWR_REFUSE.detail (n : Nat) : Fld := { reg := 0x200180 + 0x8 * n, hi := 55, lo := 48, acc := .ro, rst := 0, ret := false }
def Reg.PWR_REFUSE.count (n : Nat) : Fld := { reg := 0x200180 + 0x8 * n, hi := 47, lo := 0, acc := .ro, rst := 0, ret := false }

/-! PWR_ABORT (18 R453) -/

def Reg.PWR_ABORT.code (n : Nat) : Fld := { reg := 0x2001C0 + 0x8 * n, hi := 63, lo := 56, acc := .ro, rst := 0, ret := false }
def Reg.PWR_ABORT.detail (n : Nat) : Fld := { reg := 0x2001C0 + 0x8 * n, hi := 55, lo := 48, acc := .ro, rst := 0, ret := false }
def Reg.PWR_ABORT.count (n : Nat) : Fld := { reg := 0x2001C0 + 0x8 * n, hi := 47, lo := 0, acc := .ro, rst := 0, ret := false }

/-! PWR_RCNT (18 R453) -/

def Reg.PWR_RCNT.count (n : Nat) : Fld := { reg := 0x200200 + 0x8 * n, hi := 31, lo := 0, acc := .ro, rst := 0, ret := false }

/-! EVC_ID (19 R467) -/

def Reg.EVC_ID.sources : Fld := { reg := 0x100000, hi := 47, lo := 32, acc := .ro, rst := 512, ret := false }
def Reg.EVC_ID.instances : Fld := { reg := 0x100000, hi := 7, lo := 0, acc := .ro, rst := 65, ret := false }

/-! EVC_GATE (19 R467) -/

def Reg.EVC_GATE.lhold : Fld := { reg := 0x100008, hi := 1, lo := 1, acc := .ro, rst := 0, ret := false }
def Reg.EVC_GATE.closed : Fld := { reg := 0x100008, hi := 0, lo := 0, acc := .rw, rst := 0, ret := false }

/-! EVC_STATUS (19 R467) -/

def Reg.EVC_STATUS.bad_done : Fld := { reg := 0x100010, hi := 2, lo := 2, acc := .w1c, rst := 0, ret := false }
def Reg.EVC_STATUS.bad_raise : Fld := { reg := 0x100010, hi := 1, lo := 1, acc := .w1c, rst := 0, ret := false }
def Reg.EVC_STATUS.held : Fld := { reg := 0x100010, hi := 0, lo := 0, acc := .w1c, rst := 0, ret := false }

/-! EVC_RAISE (19 R467) -/

def Reg.EVC_RAISE.source : Fld := { reg := 0x100018, hi := 8, lo := 0, acc := .wo, rst := 0, ret := false }

/-! EVC_PEND (19 R467) -/

def Reg.EVC_PEND.pend (n : Nat) : Fld := { reg := 0x100100 + 0x8 * n, hi := 63, lo := 0, acc := .ro, rst := 0, ret := false }

/-! EVC_CLAIM (19 R467) -/

def Reg.EVC_CLAIM.source (n : Nat) : Fld := { reg := 0x101000 + 0x100 * n, hi := 9, lo := 0, acc := .ro, rst := 1023, ret := false }

/-! EVC_DONE (19 R467) -/

def Reg.EVC_DONE.source (n : Nat) : Fld := { reg := 0x101008 + 0x100 * n, hi := 8, lo := 0, acc := .wo, rst := 0, ret := false }

/-! EVC_CTL (19 R467) -/

def Reg.EVC_CTL.inservice (n : Nat) : Fld := { reg := 0x101010 + 0x100 * n, hi := 63, lo := 63, acc := .ro, rst := 0, ret := false }
def Reg.EVC_CTL.source (n : Nat) : Fld := { reg := 0x101010 + 0x100 * n, hi := 40, lo := 32, acc := .ro, rst := 0, ret := false }
def Reg.EVC_CTL.vector (n : Nat) : Fld := { reg := 0x101010 + 0x100 * n, hi := 10, lo := 0, acc := .rw, rst := 0, ret := true }

/-! EVC_SRC (19 R467) -/

def Reg.EVC_SRC.count (n : Nat) : Fld := { reg := 0x108000 + 0x8 * n, hi := 63, lo := 48, acc := .rw, rst := 1, ret := true }
def Reg.EVC_SRC.time (n : Nat) : Fld := { reg := 0x108000 + 0x8 * n, hi := 47, lo := 16, acc := .rw, rst := 0, ret := true }
def Reg.EVC_SRC.inst (n : Nat) : Fld := { reg := 0x108000 + 0x8 * n, hi := 14, lo := 8, acc := .rw, rst := 1, ret := true }
def Reg.EVC_SRC.enable (n : Nat) : Fld := { reg := 0x108000 + 0x8 * n, hi := 0, lo := 0, acc := .rw, rst := 0, ret := true }

/-! PMC_ID (20 R480) -/

def Reg.PMC_ID.counters : Fld := { reg := 0x300000, hi := 40, lo := 32, acc := .ro, rst := 264, ret := false }
def Reg.PMC_ID.width : Fld := { reg := 0x300000, hi := 7, lo := 0, acc := .ro, rst := 48, ret := false }

/-! PMC_CTRL (20 R480) -/

def Reg.PMC_CTRL.snap : Fld := { reg := 0x300008, hi := 2, lo := 2, acc := .w1s, rst := 0, ret := false }
def Reg.PMC_CTRL.freeze : Fld := { reg := 0x300008, hi := 1, lo := 1, acc := .rw, rst := 0, ret := false }
def Reg.PMC_CTRL.enable : Fld := { reg := 0x300008, hi := 0, lo := 0, acc := .rw, rst := 0, ret := false }

/-! PMC_STAT (20 R480) -/

def Reg.PMC_STAT.snap_busy : Fld := { reg := 0x300010, hi := 1, lo := 1, acc := .ro, rst := 0, ret := false }
def Reg.PMC_STAT.snap_valid : Fld := { reg := 0x300010, hi := 0, lo := 0, acc := .ro, rst := 0, ret := false }

/-! PMC_SEL (20 R480) -/

def Reg.PMC_SEL.view : Fld := { reg := 0x300018, hi := 63, lo := 62, acc := .rw, rst := 0, ret := false }
def Reg.PMC_SEL.index : Fld := { reg := 0x300018, hi := 8, lo := 0, acc := .rw, rst := 0, ret := false }

/-! PMC_DATA (20 R480) -/

def Reg.PMC_DATA.value : Fld := { reg := 0x300020, hi := 47, lo := 0, acc := .rw, rst := 0, ret := false }

/-! PMC_DATA_HI (20 R480) -/

def Reg.PMC_DATA_HI.value : Fld := { reg := 0x300028, hi := 47, lo := 0, acc := .ro, rst := 0, ret := false }

/-! PMC_CFG (20 R480) -/

def Reg.PMC_CFG.en (n : Nat) : Fld := { reg := 0x100000030 + 0x40 * n, hi := 63, lo := 63, acc := .rw, rst := 0, ret := false }
def Reg.PMC_CFG.chain (n : Nat) : Fld := { reg := 0x100000030 + 0x40 * n, hi := 62, lo := 62, acc := .rw, rst := 0, ret := false }
def Reg.PMC_CFG.ovf_ev (n : Nat) : Fld := { reg := 0x100000030 + 0x40 * n, hi := 61, lo := 61, acc := .rw, rst := 0, ret := false }
def Reg.PMC_CFG.ovf_frz (n : Nat) : Fld := { reg := 0x100000030 + 0x40 * n, hi := 60, lo := 60, acc := .rw, rst := 0, ret := false }
def Reg.PMC_CFG.priv (n : Nat) : Fld := { reg := 0x100000030 + 0x40 * n, hi := 59, lo := 58, acc := .rw, rst := 0, ret := false }
def Reg.PMC_CFG.ctx (n : Nat) : Fld := { reg := 0x100000030 + 0x40 * n, hi := 57, lo := 52, acc := .rw, rst := 0, ret := false }
def Reg.PMC_CFG.mmask (n : Nat) : Fld := { reg := 0x100000030 + 0x40 * n, hi := 51, lo := 44, acc := .rw, rst := 0, ret := false }
def Reg.PMC_CFG.arange (n : Nat) : Fld := { reg := 0x100000030 + 0x40 * n, hi := 43, lo := 43, acc := .rw, rst := 0, ret := false }
def Reg.PMC_CFG.cmask (n : Nat) : Fld := { reg := 0x100000030 + 0x40 * n, hi := 39, lo := 32, acc := .rw, rst := 0, ret := false }
def Reg.PMC_CFG.umask (n : Nat) : Fld := { reg := 0x100000030 + 0x40 * n, hi := 31, lo := 16, acc := .rw, rst := 0, ret := false }
def Reg.PMC_CFG.event (n : Nat) : Fld := { reg := 0x100000030 + 0x40 * n, hi := 7, lo := 0, acc := .rw, rst := 0, ret := false }

/-! PMC_ALO (20 R480) -/

def Reg.PMC_ALO.lo (n : Nat) : Fld := { reg := 0x100000038 + 0x40 * n, hi := 47, lo := 8, acc := .rw, rst := 0, ret := false }

/-! PMC_AHI (20 R480) -/

def Reg.PMC_AHI.space (n : Nat) : Fld := { reg := 0x100000040 + 0x40 * n, hi := 63, lo := 62, acc := .rw, rst := 0, ret := false }
def Reg.PMC_AHI.partition (n : Nat) : Fld := { reg := 0x100000040 + 0x40 * n, hi := 61, lo := 59, acc := .rw, rst := 0, ret := false }
def Reg.PMC_AHI.hi (n : Nat) : Fld := { reg := 0x100000040 + 0x40 * n, hi := 47, lo := 8, acc := .rw, rst := 0, ret := false }

/-! PMC_WIN (20 R480) -/

def Reg.PMC_WIN.start : Fld := { reg := 0x300048, hi := 63, lo := 63, acc := .w1s, rst := 0, ret := false }
def Reg.PMC_WIN.rep : Fld := { reg := 0x300048, hi := 62, lo := 62, acc := .rw, rst := 0, ret := false }
def Reg.PMC_WIN.active : Fld := { reg := 0x300048, hi := 61, lo := 61, acc := .ro, rst := 0, ret := false }
def Reg.PMC_WIN.ticks : Fld := { reg := 0x300048, hi := 26, lo := 0, acc := .rw, rst := 0, ret := false }

/-! PMC_SNAPT (20 R480) -/

def Reg.PMC_SNAPT.tick : Fld := { reg := 0x300050, hi := 63, lo := 0, acc := .ro, rst := 0, ret := false }

/-! PMC_OVF (20 R480) -/

def Reg.PMC_OVF.ovf (n : Nat) : Fld := { reg := 0x300100 + 0x8 * n, hi := 63, lo := 0, acc := .w1c, rst := 0, ret := false }

/-! PMC_PBW (20 R480) -/

def Reg.PMC_PBW.tx (n : Nat) : Fld := { reg := 0x300200 + 0x8 * n, hi := 63, lo := 32, acc := .ro, rst := 0, ret := false }
def Reg.PMC_PBW.rx (n : Nat) : Fld := { reg := 0x300200 + 0x8 * n, hi := 31, lo := 0, acc := .ro, rst := 0, ret := false }

/-! LMP_ID (21 R509) -/

def Reg.LMP_ID.rom : Fld := { reg := 0x2000000, hi := 47, lo := 32, acc := .ro, rst := 0, ret := false }
def Reg.LMP_ID.fabric_level : Fld := { reg := 0x2000000, hi := 31, lo := 0, acc := .ro, rst := 0, ret := false }

/-! LMP_CORE (21 R509) -/

def Reg.LMP_CORE.took_over : Fld := { reg := 0x2000008, hi := 2, lo := 2, acc := .w1c, rst := 0, ret := false }
def Reg.LMP_CORE.alt_ready : Fld := { reg := 0x2000008, hi := 1, lo := 1, acc := .ro, rst := 0, ret := false }
def Reg.LMP_CORE.serving : Fld := { reg := 0x2000008, hi := 0, lo := 0, acc := .ro, rst := 0, ret := false }

/-! LMP_MBX_CMD (21 R509) -/

def Reg.LMP_MBX_CMD.go : Fld := { reg := 0x2000010, hi := 63, lo := 63, acc := .w1s, rst := 0, ret := false }
def Reg.LMP_MBX_CMD.op : Fld := { reg := 0x2000010, hi := 55, lo := 48, acc := .rw, rst := 0, ret := false }
def Reg.LMP_MBX_CMD.arg : Fld := { reg := 0x2000010, hi := 47, lo := 0, acc := .rw, rst := 0, ret := false }

/-! LMP_MBX_ADDR (21 R509) -/

def Reg.LMP_MBX_ADDR.addr : Fld := { reg := 0x2000018, hi := 63, lo := 0, acc := .rw, rst := 0, ret := false }

/-! LMP_MBX_LEN (21 R509) -/

def Reg.LMP_MBX_LEN.len : Fld := { reg := 0x2000020, hi := 26, lo := 0, acc := .rw, rst := 0, ret := false }

/-! LMP_MBX_STAT (21 R509) -/

def Reg.LMP_MBX_STAT.busy : Fld := { reg := 0x2000028, hi := 63, lo := 63, acc := .ro, rst := 0, ret := false }
def Reg.LMP_MBX_STAT.status : Fld := { reg := 0x2000028, hi := 55, lo := 48, acc := .ro, rst := 0, ret := false }
def Reg.LMP_MBX_STAT.detail : Fld := { reg := 0x2000028, hi := 47, lo := 40, acc := .ro, rst := 0, ret := false }
def Reg.LMP_MBX_STAT.op : Fld := { reg := 0x2000028, hi := 39, lo := 32, acc := .ro, rst := 0, ret := false }
def Reg.LMP_MBX_STAT.count : Fld := { reg := 0x2000028, hi := 31, lo := 0, acc := .ro, rst := 0, ret := false }

/-! LMP_AUTH_NONCE (21 R509) -/

def Reg.LMP_AUTH_NONCE.nonce : Fld := { reg := 0x2000030, hi := 63, lo := 0, acc := .ro, rst := 0, ret := false }

/-! LMP_FW_STAT (21 R509) -/

def Reg.LMP_FW_STAT.state : Fld := { reg := 0x2000038, hi := 63, lo := 60, acc := .ro, rst := 0, ret := false }
def Reg.LMP_FW_STAT.commit : Fld := { reg := 0x2000038, hi := 59, lo := 58, acc := .ro, rst := 0, ret := false }
def Reg.LMP_FW_STAT.svn : Fld := { reg := 0x2000038, hi := 31, lo := 16, acc := .ro, rst := 0, ret := false }
def Reg.LMP_FW_STAT.staged_svn : Fld := { reg := 0x2000038, hi := 15, lo := 0, acc := .ro, rst := 0, ret := false }

/-! LMP_THERMOS (21 R509) -/

def Reg.LMP_THERMOS.pending : Fld := { reg := 0x2000040, hi := 63, lo := 63, acc := .ro, rst := 0, ret := false }
def Reg.LMP_THERMOS.source : Fld := { reg := 0x2000040, hi := 55, lo := 48, acc := .ro, rst := 0, ret := false }
def Reg.LMP_THERMOS.mirrors : Fld := { reg := 0x2000040, hi := 31, lo := 0, acc := .ro, rst := 0, ret := false }

/-! LMP_FW_VER (21 R509) -/

def Reg.LMP_FW_VER.version : Fld := { reg := 0x2000048, hi := 63, lo := 0, acc := .ro, rst := 0, ret := false }

/-! SEC_ID (21 R509) -/

def Reg.SEC_ID.asym : Fld := { reg := 0x2800000, hi := 47, lo := 40, acc := .ro, rst := 3, ret := false }
def Reg.SEC_ID.spdm : Fld := { reg := 0x2800000, hi := 39, lo := 32, acc := .ro, rst := 19, ret := false }

/-! SEC_DEVSN (21 R509) -/

def Reg.SEC_DEVSN.serial : Fld := { reg := 0x2800008, hi := 63, lo := 0, acc := .ro, rst := 0, ret := false }

/-! SEC_SVN (21 R509) -/

def Reg.SEC_SVN.floor : Fld := { reg := 0x2800010, hi := 5, lo := 0, acc := .ro, rst := 0, ret := false }

/-! SEC_STAT (21 R509) -/

def Reg.SEC_STAT.owner : Fld := { reg := 0x2800018, hi := 63, lo := 63, acc := .ro, rst := 0, ret := true }
def Reg.SEC_STAT.owner_id : Fld := { reg := 0x2800018, hi := 47, lo := 0, acc := .ro, rst := 0, ret := true }

/-! SEC_VIOL (21 R509) -/

def Reg.SEC_VIOL.fw_fail : Fld := { reg := 0x2800020, hi := 63, lo := 32, acc := .ro, rst := 0, ret := false }
def Reg.SEC_VIOL.auth_fail : Fld := { reg := 0x2800020, hi := 31, lo := 0, acc := .ro, rst := 0, ret := false }

/-! HIF_ID (22 R535) -/

def Reg.HIF_ID.vfs : Fld := { reg := 0x0, hi := 47, lo := 40, acc := .ro, rst := 63, ret := false }
def Reg.HIF_ID.hqs : Fld := { reg := 0x0, hi := 39, lo := 32, acc := .ro, rst := 4, ret := false }
def Reg.HIF_ID.speed_max : Fld := { reg := 0x0, hi := 31, lo := 24, acc := .ro, rst := 7, ret := false }
def Reg.HIF_ID.width_max : Fld := { reg := 0x0, hi := 23, lo := 16, acc := .ro, rst := 16, ret := false }

/-! HIF_LINK (22 R535) -/

def Reg.HIF_LINK.state : Fld := { reg := 0x8, hi := 63, lo := 60, acc := .ro, rst := 0, ret := false }
def Reg.HIF_LINK.speed : Fld := { reg := 0x8, hi := 59, lo := 56, acc := .ro, rst := 0, ret := false }
def Reg.HIF_LINK.width : Fld := { reg := 0x8, hi := 55, lo := 48, acc := .ro, rst := 0, ret := false }
def Reg.HIF_LINK.resets : Fld := { reg := 0x8, hi := 31, lo := 16, acc := .ro, rst := 0, ret := false }
def Reg.HIF_LINK.sdown : Fld := { reg := 0x8, hi := 15, lo := 0, acc := .ro, rst := 0, ret := false }

/-! HIF_RVIOL (22 R535) -/

def Reg.HIF_RVIOL.count : Fld := { reg := 0x10, hi := 47, lo := 0, acc := .ro, rst := 0, ret := false }

/-! HIF_RVLOG (22 R535) -/

def Reg.HIF_RVLOG.device : Fld := { reg := 0x18, hi := 63, lo := 48, acc := .ro, rst := 0, ret := false }
def Reg.HIF_RVLOG.job : Fld := { reg := 0x18, hi := 31, lo := 0, acc := .ro, rst := 0, ret := false }

/-! HIF_CTXSTAT (22 R535) -/

def Reg.HIF_CTXSTAT.state (n : Nat) : Fld := { reg := 0x10000 + 0x1000 * n, hi := 63, lo := 62, acc := .ro, rst := if n = 0 then 1 else 0, ret := false }
def Reg.HIF_CTXSTAT.job (n : Nat) : Fld := { reg := 0x10000 + 0x1000 * n, hi := 31, lo := 0, acc := .ro, rst := 0, ret := false }

/-! HIF_FRING (22 R535) -/

def Reg.HIF_FRING.base (n : Nat) : Fld := { reg := 0x10008 + 0x1000 * n, hi := 63, lo := 12, acc := .ro, rst := 0, ret := false }
def Reg.HIF_FRING.size (n : Nat) : Fld := { reg := 0x10008 + 0x1000 * n, hi := 3, lo := 0, acc := .ro, rst := 0, ret := false }

/-! HIF_FPTR (22 R535) -/

def Reg.HIF_FPTR.head (n : Nat) : Fld := { reg := 0x10010 + 0x1000 * n, hi := 63, lo := 32, acc := .ro, rst := 0, ret := false }
def Reg.HIF_FPTR.tail (n : Nat) : Fld := { reg := 0x10010 + 0x1000 * n, hi := 31, lo := 0, acc := .rw, rst := 0, ret := false }

/-! HIF_B2BASE (22 R535) -/

def Reg.HIF_B2BASE.base (n : Nat) : Fld := { reg := 0x10018 + 0x1000 * n, hi := 47, lo := 30, acc := .rw, rst := 0, ret := false }

/-! HIF_B2ERR (22 R535) -/

def Reg.HIF_B2ERR.count (n : Nat) : Fld := { reg := 0x10020 + 0x1000 * n, hi := 63, lo := 48, acc := .ro, rst := 0, ret := false }
def Reg.HIF_B2ERR.va (n : Nat) : Fld := { reg := 0x10020 + 0x1000 * n, hi := 47, lo := 0, acc := .ro, rst := 0, ret := false }

/-! HIF_VIOL (22 R535) -/

def Reg.HIF_VIOL.count (n : Nat) : Fld := { reg := 0x10028 + 0x1000 * n, hi := 47, lo := 0, acc := .ro, rst := 0, ret := false }

/-! HIF_VLOG (22 R535) -/

def Reg.HIF_VLOG.unit (n : Nat) : Fld := { reg := 0x10030 + 0x1000 * n, hi := 63, lo := 56, acc := .ro, rst := 0, ret := false }
def Reg.HIF_VLOG.address (n : Nat) : Fld := { reg := 0x10030 + 0x1000 * n, hi := 47, lo := 0, acc := .ro, rst := 0, ret := false }

/-! HIF_HQBASE (22 R535) -/

def Reg.HIF_HQBASE.base (n q : Nat) : Fld := { reg := 0x10100 + 0x1000 * n + 0x20 * q, hi := 63, lo := 12, acc := .rw, rst := 0, ret := false }
def Reg.HIF_HQBASE.k (n q : Nat) : Fld := { reg := 0x10100 + 0x1000 * n + 0x20 * q, hi := 4, lo := 0, acc := .rw, rst := 0, ret := false }

/-! HIF_HQCQ (22 R535) -/

def Reg.HIF_HQCQ.base (n q : Nat) : Fld := { reg := 0x10108 + 0x1000 * n + 0x20 * q, hi := 63, lo := 12, acc := .rw, rst := 0, ret := false }

/-! HIF_HQTAIL (22 R535) -/

def Reg.HIF_HQTAIL.tail (n q : Nat) : Fld := { reg := 0x10110 + 0x1000 * n + 0x20 * q, hi := 31, lo := 0, acc := .rw, rst := 0, ret := false }

/-! HIF_HQSTAT (22 R535) -/

def Reg.HIF_HQSTAT.err (n q : Nat) : Fld := { reg := 0x10118 + 0x1000 * n + 0x20 * q, hi := 63, lo := 63, acc := .ro, rst := 0, ret := false }
def Reg.HIF_HQSTAT.busy (n q : Nat) : Fld := { reg := 0x10118 + 0x1000 * n + 0x20 * q, hi := 62, lo := 62, acc := .ro, rst := 0, ret := false }
def Reg.HIF_HQSTAT.head (n q : Nat) : Fld := { reg := 0x10118 + 0x1000 * n + 0x20 * q, hi := 31, lo := 0, acc := .ro, rst := 0, ret := false }

/-- A register, or a family of registers at equal strides (of equal strides in two dimensions for host queues). -/
structure RegDef where
  base : Nat
  stride : Nat
  count : Nat
  stride2 : Nat := 0
  count2 : Nat := 1
  flds : Nat → List Fld

/-- The index of an offset in a family, when the offset is one of its registers. -/
def RegDef.index (d : RegDef) (off : Nat) : Option Nat :=
  if off < d.base then none
  else
    let x := off - d.base
    let j := if d.stride2 = 0 then 0 else x / d.stride2
    let y := x - j * d.stride2
    if y % d.stride = 0 && y / d.stride < d.count && j < d.count2 then some (j * d.count + y / d.stride) else none

def regTable0 : List RegDef := [
  { base := 0x400000, stride := 8, count := 1, flds := fun _ => [Reg.SQ_ID.procs, Reg.SQ_ID.depth] },
  { base := 0x400008, stride := 8, count := 1, flds := fun _ => [Reg.SQ_CTRL.accept] },
  { base := 0x400010, stride := 8, count := 1, flds := fun _ => [Reg.SQ_LEASE_CMD.context, Reg.SQ_LEASE_CMD.op, Reg.SQ_LEASE_CMD.partition, Reg.SQ_LEASE_CMD.cluster] },
  { base := 0x400018, stride := 8, count := 1, flds := fun _ => [Reg.SQ_LEASE_STAT.outcome] },
  { base := 0x400020, stride := 8, count := 1, flds := fun _ => [Reg.SQ_QUEUE.queued, Reg.SQ_QUEUE.free] },
  { base := 0x400028, stride := 8, count := 1, flds := fun _ => [Reg.SQ_REFUSED.count] },
  { base := 0x400080, stride := 8, count := 16, flds := fun k => (List.range 8).flatMap (fun i => [Reg.SQ_LOWN.state (8 * k + i), Reg.SQ_LOWN.owner (8 * k + i)]) },
  { base := 0x400030, stride := 8, count := 1, flds := fun _ => [Reg.SQ_CUTOFF.context, Reg.SQ_CUTOFF.fire] },
  { base := 0x400038, stride := 8, count := 1, flds := fun _ => [Reg.SQ_DLMISS.last_ctx, Reg.SQ_DLMISS.count] },
  { base := 0x400040, stride := 8, count := 1, flds := fun _ => [Reg.SQ_DLPART.last_ctx, Reg.SQ_DLPART.count] },
  { base := 0x400048, stride := 8, count := 1, flds := fun _ => [Reg.SQ_FS_BASE.base] },
  { base := 0x400050, stride := 8, count := 1, flds := fun _ => [Reg.SQ_FS_SIZE.units] }]

def regTable1 : List RegDef := [
  { base := 0x400058, stride := 8, count := 1, flds := fun _ => [Reg.SQ_FS_USE.handles, Reg.SQ_FS_USE.used] },
  { base := 0x400060, stride := 8, count := 1, flds := fun _ => [Reg.SQ_FS_CNT.fail, Reg.SQ_FS_CNT.evict, Reg.SQ_FS_CNT.recompute, Reg.SQ_FS_CNT.bad] },
  { base := 0x1800000, stride := 8, count := 1, flds := fun _ => [Reg.HMP_ID.cores, Reg.HMP_ID.threads, Reg.HMP_ID.flash_tib, Reg.HMP_ID.rs_entries] },
  { base := 0x1800008, stride := 8, count := 1, flds := fun _ => [Reg.HMP_CTRL.accept] },
  { base := 0x1800010, stride := 8, count := 1, flds := fun _ => [Reg.HMP_STAT.held, Reg.HMP_STAT.active] },
  { base := 0x1800018, stride := 8, count := 1, flds := fun _ => [Reg.HMP_CNT.skipped, Reg.HMP_CNT.flagged] },
  { base := 0x1800020, stride := 8, count := 1, flds := fun _ => [Reg.HMP_RS_ADDR.index] },
  { base := 0x1800028, stride := 8, count := 1, flds := fun _ => [Reg.HMP_RS_DATA.entry] },
  { base := 0x1800030, stride := 8, count := 1, flds := fun _ => [Reg.HMP_FRING.base, Reg.HMP_FRING.size] },
  { base := 0x1800038, stride := 8, count := 1, flds := fun _ => [Reg.HMP_FPTR.head, Reg.HMP_FPTR.tail] },
  { base := 0x1800040, stride := 8, count := 1, flds := fun _ => [Reg.HMP_RESUME.core, Reg.HMP_RESUME.thread] },
  { base := 0x1800048, stride := 8, count := 1, flds := fun _ => [Reg.HMP_D2D.up, Reg.HMP_D2D.retrains, Reg.HMP_D2D.replays] }]

def regTable2 : List RegDef := [
  { base := 0x1800050, stride := 8, count := 1, flds := fun _ => [Reg.HMP_CT.corrected, Reg.HMP_CT.uncorrected] },
  { base := 0x1800058, stride := 8, count := 1, flds := fun _ => [Reg.HMP_FLSUB.context, Reg.HMP_FLSUB.va] },
  { base := 0x1800060, stride := 8, count := 1, flds := fun _ => [Reg.HMP_FLSTAT.outstanding, Reg.HMP_FLSTAT.outcome] },
  { base := 0x1801000, stride := 0x8, count := 64, flds := fun i => [Reg.HMP_STEP.step i, Reg.HMP_STEP.size i] },
  { base := 0x1801200, stride := 0x8, count := 64, flds := fun i => [Reg.HMP_LT.count_m1 i, Reg.HMP_LT.base i] },
  { base := 0x1801400, stride := 0x8, count := 64, flds := fun i => [Reg.HMP_RSWIN.base i, Reg.HMP_RSWIN.count i] },
  { base := 0x1801600, stride := 0x8, count := 64, flds := fun i => [Reg.HMP_FLEXT.base i, Reg.HMP_FLEXT.size i] },
  { base := 0x800000, stride := 8, count := 1, flds := fun _ => [Reg.MEM_ID.stacks, Reg.MEM_ID.pcs, Reg.MEM_ID.slices, Reg.MEM_ID.pc_mib] },
  { base := 0x800008, stride := 8, count := 1, flds := fun _ => [Reg.MEM_CTRL.maint, Reg.MEM_CTRL.ce_thresh, Reg.MEM_CTRL.scrub] },
  { base := 0x800010, stride := 8, count := 1, flds := fun _ => [Reg.MEM_CARVE.pending, Reg.MEM_CARVE.active] },
  { base := 0x800018, stride := 8, count := 1, flds := fun _ => [Reg.MEM_MAINT_CMD.op, Reg.MEM_MAINT_CMD.pc, Reg.MEM_MAINT_CMD.bank, Reg.MEM_MAINT_CMD.row] },
  { base := 0x800020, stride := 8, count := 1, flds := fun _ => [Reg.MEM_MAINT_STAT.outcome, Reg.MEM_MAINT_STAT.result, Reg.MEM_MAINT_STAT.active, Reg.MEM_MAINT_STAT.done] }]

def regTable3 : List RegDef := [
  { base := 0x800028, stride := 8, count := 1, flds := fun _ => [Reg.MEM_ERRLOG.valid, Reg.MEM_ERRLOG.pc, Reg.MEM_ERRLOG.context, Reg.MEM_ERRLOG.offset] },
  { base := 0x800030, stride := 8, count := 1, flds := fun _ => [Reg.MEM_CELOG.valid, Reg.MEM_CELOG.pc, Reg.MEM_CELOG.bank, Reg.MEM_CELOG.row] },
  { base := 0x800038, stride := 8, count := 1, flds := fun _ => [Reg.MEM_ERRCNT.corrected, Reg.MEM_ERRCNT.uncorrected] },
  { base := 0x800040, stride := 8, count := 1, flds := fun _ => [Reg.MEM_TP_CMD.busy, Reg.MEM_TP_CMD.start, Reg.MEM_TP_CMD.hold, Reg.MEM_TP_CMD.stack, Reg.MEM_TP_CMD.len_m1, Reg.MEM_TP_CMD.instr] },
  { base := 0x800048, stride := 8, count := 1, flds := fun _ => [Reg.MEM_TP_DATA.data] },
  { base := 0x800100, stride := 0x8, count := 8, flds := fun i => [Reg.MEM_HOLD.held i] },
  { base := 0x800200, stride := 0x8, count := 16, flds := fun i => [Reg.MEM_PPR.spares_free i, Reg.MEM_PPR.repairs i] },
  { base := 0x1000000, stride := 8, count := 1, flds := fun _ => [Reg.FAB_ID.ports, Reg.FAB_ID.lanes, Reg.FAB_ID.vcs, Reg.FAB_ID.cprocs] },
  { base := 0x1000008, stride := 8, count := 1, flds := fun _ => [Reg.FAB_CTRL.hop_limit, Reg.FAB_CTRL.kindle_en, Reg.FAB_CTRL.enable] },
  { base := 0x1000010, stride := 8, count := 1, flds := fun _ => [Reg.FAB_DEVID.assigned, Reg.FAB_DEVID.incarnation, Reg.FAB_DEVID.id] },
  { base := 0x1000018, stride := 8, count := 1, flds := fun _ => [Reg.FAB_QUAD.sb_en, Reg.FAB_QUAD.beat, Reg.FAB_QUAD.silent, Reg.FAB_QUAD.in_quad, Reg.FAB_QUAD.qpos] },
  { base := 0x1000020, stride := 8, count := 1, flds := fun _ => [Reg.FAB_RT_ADDR.index] }]

def regTable4 : List RegDef := [
  { base := 0x1000028, stride := 8, count := 1, flds := fun _ => [Reg.FAB_RT_DATA.entry] },
  { base := 0x1000030, stride := 8, count := 1, flds := fun _ => [Reg.FAB_LOST.valid, Reg.FAB_LOST.cause, Reg.FAB_LOST.incarnation, Reg.FAB_LOST.count, Reg.FAB_LOST.device] },
  { base := 0x1000038, stride := 8, count := 1, flds := fun _ => [Reg.FAB_DROP.noroute, Reg.FAB_DROP.hop, Reg.FAB_DROP.lost] },
  { base := 0x1000040, stride := 8, count := 1, flds := fun _ => [Reg.FAB_DECLARE.incarnation, Reg.FAB_DECLARE.go, Reg.FAB_DECLARE.device] },
  { base := 0x1000100, stride := 0x8, count := 16, flds := fun i => [Reg.FAB_PSTAT.state i, Reg.FAB_PSTAT.cause i, Reg.FAB_PSTAT.width i, Reg.FAB_PSTAT.retrain i, Reg.FAB_PSTAT.port_en i] },
  { base := 0x1000200, stride := 0x8, count := 16, flds := fun i => [Reg.FAB_PERR.crc i, Reg.FAB_PERR.replays i, Reg.FAB_PERR.retrains i] },
  { base := 0x1000300, stride := 0x8, count := 16, flds := fun i => [Reg.FAB_PNBR.valid i, Reg.FAB_PNBR.port i, Reg.FAB_PNBR.assigned i, Reg.FAB_PNBR.in_quad i, Reg.FAB_PNBR.qpos i, Reg.FAB_PNBR.incarnation i, Reg.FAB_PNBR.device i] },
  { base := 0x1001000, stride := 8, count := 1, flds := fun _ => [Reg.FAB_CP_CTRL.accept] },
  { base := 0x1001008, stride := 8, count := 1, flds := fun _ => [Reg.FAB_CP_QUEUE.queued, Reg.FAB_CP_QUEUE.free] },
  { base := 0x1001010, stride := 8, count := 1, flds := fun _ => [Reg.FAB_CP_TMO.ticks] },
  { base := 0x1001018, stride := 8, count := 1, flds := fun _ => [Reg.FAB_CP_DRAIN.ticks] },
  { base := 0x1001020, stride := 8, count := 1, flds := fun _ => [Reg.FAB_CP_CNT.stale, Reg.FAB_CP_CNT.genmis, Reg.FAB_CP_CNT.pinwait, Reg.FAB_CP_CNT.badrel, Reg.FAB_CP_CNT.timedout] }]

def regTable5 : List RegDef := [
  { base := 0x1001028, stride := 8, count := 1, flds := fun _ => [Reg.FAB_CP_REFUSED.count] },
  { base := 0x1001200, stride := 0x8, count := 64, flds := fun i => [Reg.FAB_CP_ST.count_m1 i, Reg.FAB_CP_ST.base i] },
  { base := 0x1001100, stride := 0x8, count := 64, flds := fun i => [Reg.FAB_CP_EP.epoch i] },
  { base := 0x3000000, stride := 0x100000, count := 8, flds := fun i => [Reg.PART_STAT.state i, Reg.PART_STAT.cls i, Reg.PART_STAT.resets i] },
  { base := 0x3000008, stride := 0x100000, count := 8, flds := fun i => [Reg.PART_CMD.reset i] },
  { base := 0x3000010, stride := 0x100000, count := 8, flds := fun i => [Reg.PART_FLOG0.valid i, Reg.PART_FLOG0.cls i, Reg.PART_FLOG0.named i, Reg.PART_FLOG0.context i, Reg.PART_FLOG0.core i, Reg.PART_FLOG0.thread i] },
  { base := 0x3000018, stride := 0x100000, count := 8, flds := fun i => [Reg.PART_FLOG1.instruction i] },
  { base := 0x3000020, stride := 0x100000, count := 8, flds := fun i => [Reg.PART_FLOG2.ticks i] },
  { base := 0x2000800, stride := 8, count := 1, flds := fun _ => [Reg.LMP_ESC_STAT.oos, Reg.LMP_ESC_STAT.mod_count, Reg.LMP_ESC_STAT.part_count] },
  { base := 0x2000808, stride := 8, count := 1, flds := fun _ => [Reg.LMP_ESC_LIMIT.window, Reg.LMP_ESC_LIMIT.mod_limit, Reg.LMP_ESC_LIMIT.part_limit] },
  { base := 0x2000810, stride := 8, count := 1, flds := fun _ => [Reg.LMP_SVC_TICKS.ticks] },
  { base := 0x2000818, stride := 8, count := 1, flds := fun _ => [Reg.LMP_RESET_SEQ.seq] }]

def regTable6 : List RegDef := [
  { base := 0x2001000, stride := 0x8, count := 64, flds := fun i => [Reg.LMP_WDOG.action i, Reg.LMP_WDOG.state i, Reg.LMP_WDOG.period i] },
  { base := 0x1800080, stride := 8, count := 1, flds := fun _ => [Reg.HMP_BLK_EN.ctx] },
  { base := 0x1800088, stride := 8, count := 1, flds := fun _ => [Reg.HMP_BLK_RGN.base, Reg.HMP_BLK_RGN.size] },
  { base := 0x1800090, stride := 8, count := 1, flds := fun _ => [Reg.HMP_BLK_USE.slots, Reg.HMP_BLK_USE.used] },
  { base := 0x1800098, stride := 8, count := 1, flds := fun _ => [Reg.HMP_BLK_STAT.hvalid, Reg.HMP_BLK_STAT.holder, Reg.HMP_BLK_STAT.unprot] },
  { base := 0x18000A0, stride := 8, count := 1, flds := fun _ => [Reg.HMP_BLK_CNT.copies, Reg.HMP_BLK_CNT.failed, Reg.HMP_BLK_CNT.restores] },
  { base := 0x200000, stride := 8, count := 1, flds := fun _ => [Reg.PWR_ID.domains, Reg.PWR_ID.states] },
  { base := 0x200008, stride := 8, count := 1, flds := fun _ => [Reg.PWR_CTRL.debug, Reg.PWR_CTRL.max_state] },
  { base := 0x200010, stride := 8, count := 1, flds := fun _ => [Reg.PWR_LAT_TOL.value] },
  { base := 0x200018, stride := 8, count := 1, flds := fun _ => [Reg.PWR_STATE.state, Reg.PWR_STATE.target, Reg.PWR_STATE.entering, Reg.PWR_STATE.last_wake, Reg.PWR_STATE.last_exit] },
  { base := 0x200020, stride := 8, count := 1, flds := fun _ => [Reg.PWR_DWELL.w4, Reg.PWR_DWELL.w3, Reg.PWR_DWELL.w2] },
  { base := 0x200028, stride := 8, count := 1, flds := fun _ => [Reg.PWR_TIMER.atTick] }]

def regTable7 : List RegDef := [
  { base := 0x200030, stride := 8, count := 1, flds := fun _ => [Reg.PWR_DOM.on] },
  { base := 0x200038, stride := 8, count := 1, flds := fun _ => [Reg.PWR_AVS.timeouts, Reg.PWR_AVS.last_rail, Reg.PWR_AVS.failed, Reg.PWR_AVS.requests] },
  { base := 0x200100, stride := 0x8, count := 5, flds := fun i => [Reg.PWR_RES.ticks i] },
  { base := 0x200188, stride := 0x8, count := 4, flds := fun i => [Reg.PWR_REFUSE.code (i + 1), Reg.PWR_REFUSE.detail (i + 1), Reg.PWR_REFUSE.count (i + 1)] },
  { base := 0x2001C8, stride := 0x8, count := 4, flds := fun i => [Reg.PWR_ABORT.code (i + 1), Reg.PWR_ABORT.detail (i + 1), Reg.PWR_ABORT.count (i + 1)] },
  { base := 0x200208, stride := 0x8, count := 14, flds := fun i => [Reg.PWR_RCNT.count (i + 1)] },
  { base := 0x100000, stride := 8, count := 1, flds := fun _ => [Reg.EVC_ID.sources, Reg.EVC_ID.instances] },
  { base := 0x100008, stride := 8, count := 1, flds := fun _ => [Reg.EVC_GATE.lhold, Reg.EVC_GATE.closed] },
  { base := 0x100010, stride := 8, count := 1, flds := fun _ => [Reg.EVC_STATUS.bad_done, Reg.EVC_STATUS.bad_raise, Reg.EVC_STATUS.held] },
  { base := 0x100018, stride := 8, count := 1, flds := fun _ => [Reg.EVC_RAISE.source] },
  { base := 0x100100, stride := 0x8, count := 8, flds := fun i => [Reg.EVC_PEND.pend i] },
  { base := 0x101000, stride := 0x100, count := 65, flds := fun i => [Reg.EVC_CLAIM.source i] }]

def regTable8 : List RegDef := [
  { base := 0x101008, stride := 0x100, count := 65, flds := fun i => [Reg.EVC_DONE.source i] },
  { base := 0x101010, stride := 0x100, count := 65, flds := fun i => [Reg.EVC_CTL.inservice i, Reg.EVC_CTL.source i, Reg.EVC_CTL.vector i] },
  { base := 0x108000, stride := 0x8, count := 512, flds := fun i => [Reg.EVC_SRC.count i, Reg.EVC_SRC.time i, Reg.EVC_SRC.inst i, Reg.EVC_SRC.enable i] },
  { base := 0x300000, stride := 8, count := 1, flds := fun _ => [Reg.PMC_ID.counters, Reg.PMC_ID.width] },
  { base := 0x300008, stride := 8, count := 1, flds := fun _ => [Reg.PMC_CTRL.snap, Reg.PMC_CTRL.freeze, Reg.PMC_CTRL.enable] },
  { base := 0x300010, stride := 8, count := 1, flds := fun _ => [Reg.PMC_STAT.snap_busy, Reg.PMC_STAT.snap_valid] },
  { base := 0x300018, stride := 8, count := 1, flds := fun _ => [Reg.PMC_SEL.view, Reg.PMC_SEL.index] },
  { base := 0x300020, stride := 8, count := 1, flds := fun _ => [Reg.PMC_DATA.value] },
  { base := 0x300028, stride := 8, count := 1, flds := fun _ => [Reg.PMC_DATA_HI.value] },
  { base := 0x100000030, stride := 0x40, count := 264, flds := fun i => [Reg.PMC_CFG.en i, Reg.PMC_CFG.chain i, Reg.PMC_CFG.ovf_ev i, Reg.PMC_CFG.ovf_frz i, Reg.PMC_CFG.priv i, Reg.PMC_CFG.ctx i, Reg.PMC_CFG.mmask i, Reg.PMC_CFG.arange i, Reg.PMC_CFG.cmask i, Reg.PMC_CFG.umask i, Reg.PMC_CFG.event i] },
  { base := 0x100000038, stride := 0x40, count := 264, flds := fun i => [Reg.PMC_ALO.lo i] },
  { base := 0x100000040, stride := 0x40, count := 264, flds := fun i => [Reg.PMC_AHI.space i, Reg.PMC_AHI.partition i, Reg.PMC_AHI.hi i] }]

def regTable9 : List RegDef := [
  { base := 0x300048, stride := 8, count := 1, flds := fun _ => [Reg.PMC_WIN.start, Reg.PMC_WIN.rep, Reg.PMC_WIN.active, Reg.PMC_WIN.ticks] },
  { base := 0x300050, stride := 8, count := 1, flds := fun _ => [Reg.PMC_SNAPT.tick] },
  { base := 0x300100, stride := 0x8, count := 5, flds := fun i => [Reg.PMC_OVF.ovf i] },
  { base := 0x300200, stride := 0x8, count := 16, flds := fun i => [Reg.PMC_PBW.tx i, Reg.PMC_PBW.rx i] },
  { base := 0x2000000, stride := 8, count := 1, flds := fun _ => [Reg.LMP_ID.rom, Reg.LMP_ID.fabric_level] },
  { base := 0x2000008, stride := 8, count := 1, flds := fun _ => [Reg.LMP_CORE.took_over, Reg.LMP_CORE.alt_ready, Reg.LMP_CORE.serving] },
  { base := 0x2000010, stride := 8, count := 1, flds := fun _ => [Reg.LMP_MBX_CMD.go, Reg.LMP_MBX_CMD.op, Reg.LMP_MBX_CMD.arg] },
  { base := 0x2000018, stride := 8, count := 1, flds := fun _ => [Reg.LMP_MBX_ADDR.addr] },
  { base := 0x2000020, stride := 8, count := 1, flds := fun _ => [Reg.LMP_MBX_LEN.len] },
  { base := 0x2000028, stride := 8, count := 1, flds := fun _ => [Reg.LMP_MBX_STAT.busy, Reg.LMP_MBX_STAT.status, Reg.LMP_MBX_STAT.detail, Reg.LMP_MBX_STAT.op, Reg.LMP_MBX_STAT.count] },
  { base := 0x2000030, stride := 8, count := 1, flds := fun _ => [Reg.LMP_AUTH_NONCE.nonce] },
  { base := 0x2000038, stride := 8, count := 1, flds := fun _ => [Reg.LMP_FW_STAT.state, Reg.LMP_FW_STAT.commit, Reg.LMP_FW_STAT.svn, Reg.LMP_FW_STAT.staged_svn] }]

def regTable10 : List RegDef := [
  { base := 0x2000040, stride := 8, count := 1, flds := fun _ => [Reg.LMP_THERMOS.pending, Reg.LMP_THERMOS.source, Reg.LMP_THERMOS.mirrors] },
  { base := 0x2000048, stride := 8, count := 1, flds := fun _ => [Reg.LMP_FW_VER.version] },
  { base := 0x2800000, stride := 8, count := 1, flds := fun _ => [Reg.SEC_ID.asym, Reg.SEC_ID.spdm] },
  { base := 0x2800008, stride := 8, count := 1, flds := fun _ => [Reg.SEC_DEVSN.serial] },
  { base := 0x2800010, stride := 8, count := 1, flds := fun _ => [Reg.SEC_SVN.floor] },
  { base := 0x2800018, stride := 8, count := 1, flds := fun _ => [Reg.SEC_STAT.owner, Reg.SEC_STAT.owner_id] },
  { base := 0x2800020, stride := 8, count := 1, flds := fun _ => [Reg.SEC_VIOL.fw_fail, Reg.SEC_VIOL.auth_fail] },
  { base := 0x0, stride := 8, count := 1, flds := fun _ => [Reg.HIF_ID.vfs, Reg.HIF_ID.hqs, Reg.HIF_ID.speed_max, Reg.HIF_ID.width_max] },
  { base := 0x8, stride := 8, count := 1, flds := fun _ => [Reg.HIF_LINK.state, Reg.HIF_LINK.speed, Reg.HIF_LINK.width, Reg.HIF_LINK.resets, Reg.HIF_LINK.sdown] },
  { base := 0x10, stride := 8, count := 1, flds := fun _ => [Reg.HIF_RVIOL.count] },
  { base := 0x18, stride := 8, count := 1, flds := fun _ => [Reg.HIF_RVLOG.device, Reg.HIF_RVLOG.job] },
  { base := 0x10000, stride := 0x1000, count := 64, flds := fun i => [Reg.HIF_CTXSTAT.state i, Reg.HIF_CTXSTAT.job i] }]

def regTable11 : List RegDef := [
  { base := 0x10008, stride := 0x1000, count := 64, flds := fun i => [Reg.HIF_FRING.base i, Reg.HIF_FRING.size i] },
  { base := 0x10010, stride := 0x1000, count := 64, flds := fun i => [Reg.HIF_FPTR.head i, Reg.HIF_FPTR.tail i] },
  { base := 0x10018, stride := 0x1000, count := 64, flds := fun i => [Reg.HIF_B2BASE.base i] },
  { base := 0x10020, stride := 0x1000, count := 64, flds := fun i => [Reg.HIF_B2ERR.count i, Reg.HIF_B2ERR.va i] },
  { base := 0x10028, stride := 0x1000, count := 64, flds := fun i => [Reg.HIF_VIOL.count i] },
  { base := 0x10030, stride := 0x1000, count := 64, flds := fun i => [Reg.HIF_VLOG.unit i, Reg.HIF_VLOG.address i] },
  { base := 0x10100, stride := 0x20, count := 4, stride2 := 0x1000, count2 := 64, flds := fun i => [Reg.HIF_HQBASE.base (i / 4) (i % 4), Reg.HIF_HQBASE.k (i / 4) (i % 4)] },
  { base := 0x10108, stride := 0x20, count := 4, stride2 := 0x1000, count2 := 64, flds := fun i => [Reg.HIF_HQCQ.base (i / 4) (i % 4)] },
  { base := 0x10110, stride := 0x20, count := 4, stride2 := 0x1000, count2 := 64, flds := fun i => [Reg.HIF_HQTAIL.tail (i / 4) (i % 4)] },
  { base := 0x10118, stride := 0x20, count := 4, stride2 := 0x1000, count2 := 64, flds := fun i => [Reg.HIF_HQSTAT.err (i / 4) (i % 4), Reg.HIF_HQSTAT.busy (i / 4) (i % 4), Reg.HIF_HQSTAT.head (i / 4) (i % 4)] }]

/-- Every register of the register tables. -/
def regTable : List RegDef :=
  regTable0 ++ regTable1 ++ regTable2 ++ regTable3 ++ regTable4 ++ regTable5 ++ regTable6 ++ regTable7 ++ regTable8 ++ regTable9 ++ regTable10 ++ regTable11

/-- The fields of the first register of a list of families that lies at an offset. -/
def regFieldsIn : List RegDef → Nat → List Fld
  | [], _ => []
  | d :: t, off =>
    match d.index off with
    | some i => d.flds i
    | none => regFieldsIn t off

/-- The fields of the register at a BAR0 offset; none where no register table lists one (00 R6). -/
def regFieldsAt (off : Nat) : List Fld := regFieldsIn regTable off


end Sys2Proof.Machine
end

