-- ==== Sys2Proof/Machine/State.lean ====
section
/-! DEFINITION. The state of the block as plain data: the queue of waiting commands and the module with every register,
memory, queue, table and mode that the specification gives it; the reasons a step can refuse; the state after power-up. -/

namespace Sys2Proof.Machine

/-- The block raises no fault: every failure the specification describes is a next state (02 R49-R53, 04 R100, 16 R405).
Its one constructor is never answered; it would be safe. -/
inductive Fault where
  /-- Raised by nothing. Safe. -/
  | none
  deriving DecidableEq, Repr

/-- Why a command has no meaning. -/
inductive Refusal where
  /-- Raised by the dispatcher for a row without a meaning. Safe. -/
  | notModelled (mnemonic : String)
  /-- Raised by a meaning whose command carries a word that belongs to another row of the table, or an out-of-range
  operand: no such command exists. Safe. -/
  | illFormed
  deriving DecidableEq, Repr

/-! ### Places and accesses -/

/-- Where a byte lives (02 R33, R35; 12 R275): an HBM pseudo-channel and offset, a capacity-tier address, a host address,
a core store of a compute core or of an update core. -/
inductive Place where
  | hbm (pc off : Nat)
  | ctier (a : Nat)
  | host (a : Nat)
  | store (core off : Nat)
  | hstore (core off : Nat)
  deriving DecidableEq, Repr

/-- A value captured for a destination register: a scalar register, or one element of a vector register; `src` is the
place it was read from, and `va` its address (02 R51, 12 R291, 22 R512); `viol` that it is the zero of a permission violation that has
not been counted yet, because a lower element can still fail (05 R121, R124). -/
structure Got where
  idx : Nat
  vec : Bool
  reg : Nat
  width : Nat
  val : Nat
  src : Option Place
  va : Nat
  viol : Bool
  deriving DecidableEq, Repr

/-- What one element access does when it is performed. `got` names the destination of a load; a record is a completion record, which is
written by its virtual address (15 R385). -/
inductive ElemAct where
  | load (vec : Bool) (reg idx width : Nat) (signedBits : Nat)
  | store (data : Nat)
  | amo (op width b c d : Nat)
  | red (op width b : Nat)
  | record (status kind count parts : Nat)
  deriving DecidableEq, Repr

/-- An access of a thread that has been issued and has not returned (15 R371, R374, R392). `left` counts the element
accesses not yet performed; `cause` is the fault that the response carried; `vec` says that a V-class instruction made it (04 R99). -/
structure Outst where
  id : Nat
  ip : Word
  isLoad : Bool
  acq : Bool
  dstS : List Nat
  dstV : List Nat
  got : List Got
  left : Nat
  cause : Nat
  addr : Nat
  device : Nat
  tag : Option Nat
  vec : Bool
  deriving DecidableEq, Repr

/-- A failed store response that a later instruction must take (15 R392). -/
structure Deferred where
  cause : Nat
  addr : Nat
  device : Nat
  deriving DecidableEq, Repr

/-- An access that waits for the end of a channel hold (12 R293): of a thread's element, or, with `eng`, the write of an engine, by its
`master`; `tag` is 1 + q for the record of a transfer of queue q, and 0 else (15 R382). `lc` is the
class of its page (12 R287); `lead` says that it is the first element of its sector request, and `whole` that the request's elements
cover the sector (05 R126, 12 R279, R291). -/
structure Waiting where
  pc : Nat
  thread : Nat
  outst : Nat
  place : Place
  va : Nat
  size : Nat
  act : ElemAct
  ctx : Nat
  eng : Bool
  master : Nat
  tag : Nat
  lc : Bool
  lead : Bool
  whole : Bool
  deriving DecidableEq, Repr

/-! ### Threads and cores -/

/-- What a thread is doing (02 R24, R50; 04 R96, R104; 06 R152; 15 R379, R393). A wait on a word keeps its place with the class of its page,
and the last value read, which differs from `cmp` once the wait is satisfied. -/
inductive Run where
  | free
  | running
  | stopped
  | paused
  | waitWord (va : Nat) (place : Option (Place × Bool)) (cmp last : Word) (limit : Option Nat) (d : Nat) (readAt : Nat)
  | waitAbort (completion d : Nat)
  deriving DecidableEq, Repr

/-- The work a thread belongs to: a grid and ordinal (02 R27), a residual program of a problem (09 R199), a Hamper chunk
(11 R260). -/
inductive Work where
  | none
  | grid (id : Nat)
  | stage (prob : Nat)
  | chunk (upd : Nat) (chunk : Nat)
  deriving DecidableEq, Repr

/-- A hardware thread (04 R90, R97; 03 R69, R70). Registers not listed hold zero (02 R24). -/
structure Thread where
  run : Run
  ctx : Nat
  gen : Nat
  ip : Word
  s : SMap Word
  v : SMap VReg
  m : SMap MReg
  frm : BitVec 3
  flags : BitVec 7
  srctr : Word
  vidx : BitVec 8
  tvec : Word
  tepc : BitVec 48
  tcause : BitVec 8
  tval : Word
  inTrap : Bool
  work : Work
  outst : List Outst
  deferred : List Deferred
  issued : Nat
  retiredAt : Nat
  deriving DecidableEq, Repr

/-- A thread slot that holds no thread. -/
def Thread.empty : Thread :=
  { run := .free, ctx := 0, gen := 0, ip := 0, s := [], v := [], m := [], frm := 0, flags := 0, srctr := 0, vidx := 0,
    tvec := 0, tepc := 0, tcause := 0, tval := 0, inTrap := false, work := .none, outst := [], deferred := [],
    issued := 0, retiredAt := 0 }

/-- A streamer descriptor's words and cursors (06 R145); `configured` is false until mst.cfg (06 R148). -/
structure Chan where
  configured : Bool
  words : List Word
  col : Nat
  kap : Nat
  deriving DecidableEq, Repr

def Chan.empty : Chan := { configured := false, words := [], col := 0, kap := 0 }

/-- An entry of the matrix queue (06 R150). The scalar operands are captured at issue. `slots` counts the slots entered,
`landed` those landed; `done` says that the operation's effect is complete; `blocked` that its translation faulted
(06 R154), `dst` the outstanding entry of its scalar destination, if it has one. -/
structure MOp where
  id : Nat
  thread : Nat
  word : Word
  ip : Word
  a : Word
  b : Word
  c : Word
  rm : Nat
  slots : Nat
  landed : Nat
  flags : BitVec 7
  done : Bool
  blocked : Bool
  started : Bool
  dst : Option Nat
  deriving DecidableEq, Repr

/-- A slot result that has not landed (06 R137): the operation, the tile, the column (32 for a Q operation that lands whole) and
the 32 element values, and flags; `stat` says that the flags belong to the tile's status: not those of a slot before a zi = 1 (06 R139,
R151). -/
structure Inflight where
  op : Nat
  tile : Nat
  ntiles : Nat
  col : Nat
  vals : List Nat
  flags : BitVec 7
  stat : Bool
  deriving DecidableEq, Repr

/-- A cached translation (02 R38): a leaf entry and its level, or a fault cause. -/
inductive Walk where
  | page (pte : Word) (big : Bool)
  | fault (cause : Nat)
  deriving DecidableEq, Repr

/-- A compute core (01), beyond its threads. `last` is the context and creation that last ran (02 R26). -/
structure Core where
  clockOn : Bool
  last : Option (Nat × Nat)
  acc : SMap (BitVec 32)
  tstat : SMap Word
  set0 : SMap Byte
  set1 : SMap Byte
  active : Bool
  chans : SMap Chan
  mq : List MOp
  nextOp : Nat
  inflight : List Inflight
  grids : List Nat
  tlb : SMap (Option Walk)
  lastScalar : Nat
  lastWide : Nat
  deriving DecidableEq, Repr

def Core.empty : Core :=
  { clockOn := true, last := none, acc := [], tstat := [], set0 := [], set1 := [], active := false, chans := [], mq := [],
    nextOp := 0, inflight := [], grids := [], tlb := [], lastScalar := 0, lastWide := 0 }

/-! ### Contexts, grids and transfers -/

/-- A fault record (02 R51): its four words. -/
structure FaultRec where
  w0 : Word
  w1 : Word
  w2 : Word
  w3 : Word
  deriving DecidableEq, Repr

/-- A teardown in progress (15 R396-R398): the devices asked and those that answered, the host queue that waits for
the record, whether the drain is complete, so that leases, handles and pins are free, and the devices declared lost meanwhile (R398). -/
structure Teardown where
  asked : List Nat
  quiet : List Nat
  queue : Option (Nat × Nat)
  drained : Bool
  gone : List Nat
  deriving DecidableEq, Repr

/-- What the specification keeps per context beyond its HIF page (02 R26, 03 R67, 15 R395, 16 R399, 22 R527). -/
structure Context where
  gen : Nat
  root : Nat
  seed : Word
  touched : List Nat
  waitRecs : List FaultRec
  teardown : Option Teardown
  wdSince : Nat
  wdHold : Option Nat
  deriving DecidableEq, Repr

def Context.empty : Context :=
  { gen := 0, root := 0, seed := 0, touched := [], waitRecs := [], teardown := none, wdSince := 0, wdHold := none }

/-- A grid that is queued or running (02 R22-R29): its descriptor, its used cores in rank order, the cores that have not
admitted it, its running threads, and the partitions that lost threads. -/
structure Grid where
  id : Nat
  ctx : Nat
  entry : Nat
  arg : Nat
  threads : Nat
  cores : List Nat
  waiting : List Nat
  live : Nat
  lost : Nat
  completion : Nat
  deriving DecidableEq, Repr

/-- A transfer (15 R380-R384, R393). `state` is 0 queued, 1 running, 2 aborted; `next` is its next request and
`window` the requests that it keeps outstanding, `openTags` lists the tags that have no response with their requests, `failed` the
failed parts; `lost`, `dead` and `timedOut` say why requests failed. -/
structure Transfer where
  id : Nat
  ctx : Nat
  queue : Nat
  op : Nat
  vc : Nat
  completion : Nat
  src : Nat
  dst : Nat
  length : Nat
  state : Nat
  next : Nat
  window : Nat
  openTags : List (Nat × Nat)
  failed : List Nat
  lost : Bool
  dead : Bool
  timedOut : Bool
  deriving DecidableEq, Repr

/-! ### Memory system (12) -/

/-- A line of a shared-cache slice (12 R279): the line's number (offset / 256 in its pseudo-channel), its pseudo-channel,
the valid and the dirty sectors. -/
structure Line where
  pc : Nat
  line : Nat
  valid : Nat
  dirty : Nat
  deriving DecidableEq, Repr

/-- A maintenance operation: op 1 retrain, 2 repair; `running` is false while it is deferred behind a reset (12 R296). -/
structure MaintOp where
  op : Nat
  pc : Nat
  bank : Nat
  row : Nat
  running : Bool
  deriving DecidableEq, Repr

/-- The IEEE 1500 wrapper of a stack, as the test port drives it (12 R300): the instruction register, the bits shifted into the selected data
register since its last update, first shifted first, and the bits of the last update. -/
structure TestPort where
  instr : Nat
  shift : List Bool
  data : List Bool
  deriving DecidableEq, Repr

def TestPort.empty : TestPort := { instr := 0, shift := [], data := [] }

/-- The memories and the memory system. `scr` and `ctScr` count the events that left the contents of HBM and of the capacity tier
undefined (12 R299; 16 R417; 18 R442; 23 R541): after one, the bytes that nothing has written since are free values. -/
structure MemSys where
  hbm : List Host.Cell
  ctier : List Host.Cell
  host : List Host.Cell
  flash : List Host.Cell
  store : List Host.Cell
  hstore : List Host.Cell
  poison : SMap Bool
  ctPoison : SMap Bool
  sets : SMap (List Line)
  ops : List MaintOp
  waiting : List Waiting
  failed : List Nat
  ceRow : SMap Nat
  tpOut : Word
  tp : SMap TestPort
  scr : Nat
  ctScr : Nat
  deriving DecidableEq, Repr

/-! ### Event controller and counters (19, 20) -/

/-- A source's raise count, the tick its timer started, and its pending state (19 R457). -/
structure Source where
  count : Nat
  start : Nat
  pending : Bool
  deriving DecidableEq, Repr

/-- The event controller: sources; for each instance whether its message has been sent since its last done (19 R463); and the instances
that a done leaves to be evaluated in the next pilot tick (R461). -/
structure Evc where
  src : SMap Source
  sent : SMap Bool
  due : List Nat
  deriving DecidableEq, Repr

/-- The counters, their shadows, the snapshot in progress, the window's bytes and end, the tick in which hardware last set
PMC_CTRL.freeze, and by how much writes of this pilot tick changed each counter, modulo 2^48 (20; R478). -/
structure Pmc where
  live : SMap Nat
  shadow : SMap Nat
  snapAt : Option Nat
  winEnd : Nat
  tx : SMap Nat
  rx : SMap Nat
  frzAt : Option Nat
  wrote : SMap Nat
  deriving DecidableEq, Repr

/-! ### Fabric (13, 15) -/

/-- A link frame by its type (13 Table 13-4). -/
inductive FrameBody where
  | idle
  | data (vc : Nat) (p : Packet)
  | nak
  | credit (counts : List Nat)
  | rescue (vc oport oseq : Nat) (p : Packet)
  | lantern (ltype : Nat) (l : Lantern)
  | oos (w : Word)
  deriving DecidableEq, Repr

/-- A sequenced frame in a replay buffer (13 R311). -/
structure Sent where
  seq : Nat
  body : FrameBody
  deriving DecidableEq, Repr

/-- A port beyond its registers (13). `replay` holds the unacknowledged frames, oldest first; `txq` the packets that wait
for credit or replay space; `units`, `got`, `init`, `freed` the credit counts of R309; `downSeq` the last number accepted on
a port that is down (R317); `joining` that earlier frames to the neighbour must be acknowledged first (R318). `seen` says that FAB_PNBR holds a neighbour's HELLO, also one from
before the last DETECT. -/
structure Port where
  nextSeq : Nat
  expect : Nat
  replay : List Sent
  txq : List FrameBody
  resends : Nat
  progressAt : Nat
  lastGood : Nat
  lastSent : Nat
  nakAt : Option Nat
  ackDue : Option Nat
  init : List Nat
  got : List Nat
  units : List Nat
  freed : List Nat
  downSeq : Option Nat
  joining : Bool
  tries : Nat
  failedAt : Nat
  helloOut : Option Lantern
  helloIn : Option Lantern
  proofIn : List (Nat × List Byte)
  tag : List Byte
  tagFor : Option (Nat × Nat × Nat)
  dozeSent : Option (Nat × Bool)
  nbrKindle : Bool
  nbrDetect : Nat
  wakeAt : Option Nat
  seen : Bool
  deriving DecidableEq, Repr

def Port.empty : Port :=
  { nextSeq := 0, expect := 0, replay := [], txq := [], resends := 0, progressAt := 0, lastGood := 0, lastSent := 0,
    nakAt := none, ackDue := none, init := [], got := [], units := [], freed := [], downSeq := none,
    joining := false, tries := 0, failedAt := 0, helloOut := none, helloIn := none, proofIn := [],
    tag := [], tagFor := none, dozeSent := none, nbrKindle := false, nbrDetect := 0, wakeAt := none,
    seen := false }

/-- What a request belongs to: a thread's access, a request of a transfer. -/
inductive Origin where
  | thread (key outst : Nat) (isLoad : Bool) (addr : Nat)
  | xfer (id idx : Nat)
  deriving DecidableEq, Repr

/-- A request that has no response (15 R389-R391). `width` is the width of an atomic, or 1 for a load that sign-extends; `b` is the
operand of an atomic. -/
structure Req where
  tag : Nat
  dev : Nat
  vc : Nat
  ctx : Nat
  job : Nat
  op : Nat
  aop : Nat
  width : Nat
  b : Nat
  sentAt : Nat
  origin : Origin
  deriving DecidableEq, Repr

/-- The fabric beyond its registers: ports, routes, held packets, packets delivered here and not yet handled, outstanding
requests, devices that snuffed a job and those owed a QUIET (R397), the ALIVE signals and the heartbeat (R328), and the tick
at which this module announced its own exit (R331). `blkWatch` lists the quad devices that were ever ACTIVE. -/
structure Fab where
  ports : SMap Port
  routes : SMap Word
  held : List (Nat × Packet)
  inbox : List (Nat × Packet)
  reqs : List Req
  nextTag : Nat
  snuffed : List (Nat × Nat)
  quietDue : List (Nat × Nat)
  beatAt : Nat
  edgeAt : SMap Nat
  toggledAt : Nat
  level : SMap Bool
  aliveOn : Bool
  exitAt : Option Nat
  /-- The ports on which the module's exit was sent and that have not acknowledged it (13 R331). -/
  exitOwed : List Nat
  noData : Bool
  deriving DecidableEq, Repr

/-! ### Power and host interface (18, 22, 23) -/

/-- A regulated rail (18 R450-R452): whether a request is in flight, its unacknowledged attempts, whether the rail has failed, whether
it is lowered or off, whether the request trims it up, the tick of the last attempt, and the voltages in mV that the rail last reported and
that it was last asked for; none is the nominal of Table 18-7. -/
structure Rail where
  pending : Bool
  attempts : Nat
  failed : Bool
  lowered : Bool
  trimUp : Bool
  since : Nat
  mv : Option Nat
  target : Option Nat
  deriving DecidableEq, Repr

/-- Power control: `idleSince` starts the idle period (18 R444), `refused` lists the states refused in it (18 R446),
`wake` is the wake event of an exit under way: code, detail, tick (18 R448). The module draws main power while `mainGood` (23 R539); `perst` is PERST_N asserted, `wakeN` WAKE_N asserted, `tripped` a thermal trip since
the last power-up, `lostAt` the tick of an unrequested loss of main power after which the converter has not restarted (23 R541), `softAt` the tick at
which the converter was enabled (23 R540), `telem` the telemetry block of the last refresh (23 R549). -/
structure Pwr where
  rails : SMap Rail
  idleSince : Nat
  refused : List Nat
  dozeSent : Option Nat
  wake : Option (Nat × Nat × Nat)
  throttled : Bool
  mainGood : Bool
  standby : Bool
  converter : Bool
  perst : Bool
  wakeN : Bool
  tripped : Bool
  lostAt : Option Nat
  softAt : Nat
  telem : List Byte
  deriving DecidableEq, Repr

/-- An MSI-X table entry (22 R529). -/
structure MsixEntry where
  addr : Word
  data : BitVec 32
  masked : Bool
  deriving DecidableEq, Repr

def Rail.empty : Rail :=
  { pending := false, attempts := 0, failed := false, lowered := false, trimUp := false, since := 0, mv := none, target := none }

def MsixEntry.empty : MsixEntry := { addr := 0, data := 0, masked := true }

/-- The host interface beyond its registers: MSI-X tables and pending bits keyed function × 2048 + entry, MSI-X Enable and
Function Mask of each function, VF Enable and NumVFs, and the entry each host queue is running, keyed context × 4 + queue. -/
structure Hif where
  msix : SMap MsixEntry
  pba : SMap Bool
  msixEn : SMap Bool
  fnMask : SMap Bool
  vfEn : Bool
  numVfs : Nat
  running : SMap (List Word)
  deriving DecidableEq, Repr

/-! ### Solver sequencer (09, 10) -/

/-- An accepted submission of problems or adjoint entries (09 R196, 10 R220, R240): acceptance tick, budget, cutoff bit, lateness,
completion record, how many it has, how many have not ended, the partitions that lost one, and whether sources 200 and 201 have
been raised for it (10 R226). -/
structure Submission where
  id : Nat
  ctx : Nat
  accept : Nat
  budget : Nat
  cutoff : Bool
  late : Bool
  completion : Nat
  isAdj : Bool
  count : Nat
  left : Nat
  lostParts : Nat
  missed : Bool
  parted : Bool
  deriving DecidableEq, Repr

/-- How a problem ended (09 Table 9-7, 10 R232): x when it is written, the words of its result record, the final lam of its
stamp, and whether it was lost. -/
structure Ending where
  x : Option (List Nat)
  record : List Nat
  lam : Nat
  lost : Bool
  deriving DecidableEq, Repr

/-- A problem accepted and not yet finished (09 Table 9-4): the descriptor's words, the observation list and words 5-7 of its
shift descriptor as they were checked (09 R196, 10 R234), its group's leader (09 R209); `phase` 0 queued, 1 running, 2 ending. -/
structure Problem where
  id : Nat
  sub : Nat
  ctx : Nat
  words : List Nat
  obs : List Nat
  ohash : Nat
  shift : List Nat
  group : Nat
  phase : Nat
  fin : Option Ending
  deriving DecidableEq, Repr

/-- A point block of the normal equations (09 R210): V, its g, and for each observation its pose and W. -/
structure PtBlock where
  v : List (List Nat)
  g : List Nat
  obs : List (Nat × List (List Nat))
  deriving DecidableEq, Repr

/-- The system of an iterate (09 R201): the lower rows of A, g, the points, and for QR the columns of J and r. -/
structure NormEq where
  a : List (List Nat)
  g : List Nat
  pts : List PtBlock
  cols : List (List Nat)
  r : List Nat
  deriving DecidableEq, Repr

/-- A factorization under way (09 R204-R216): the damped matrix, the working matrix, the carried column, the floor, the factored
points, and the floored count. -/
structure Factor where
  m : List (List Nat)
  w : List (List Nat)
  rcol : List Nat
  floor : Nat
  pts : List PtBlock
  cnt : Nat
  deriving DecidableEq, Repr

/-- One problem of a run (09 R201, 10 R224, R237): xa, xt, lam, ca, the system at xa, the factorization, the step, floored counts,
and the two slots of the factor store with the retained one. -/
structure Lane where
  prob : Nat
  xa : List Nat
  xt : List Nat
  lam : Nat
  ca : Nat
  sys : NormEq
  fac : Factor
  delta : List Nat
  flTotal : Nat
  flLast : Nat
  nonfinite : Bool
  warmRej : Bool
  slots : List Nat
  kept : Option Nat
  deriving DecidableEq, Repr

/-- A running problem or batched group (09 R209, R210): its processor, its cores, the stage (1 evaluation, 2 formation,
3 factorization, 4 solve, 5 step), completed iterations, the panel, whether an evaluation has been done. -/
structure SolverRun where
  id : Nat
  ctx : Nat
  proc : Nat
  cores : List Nat
  stage : Nat
  it : Nat
  panel : Nat
  first : Bool
  lanes : List Lane
  bank : Bool
  deriving DecidableEq, Repr

/-- A factor handle's slot (10 R236, R237): `matrix` and `factor` as lists of rows, the floor, the sizes of its parts in bytes,
whether the factor part is held, the tick of its last use, and how many runs and entries use it (10 R238). -/
structure Handle where
  slot : Nat
  gen : Nat
  ctx : Nat
  kind : Nat
  n : Nat
  pair : Bool
  qr : Bool
  floor : Nat
  matrix : List (List Nat)
  factor : List (List Nat)
  matrixBytes : Nat
  factorBytes : Nat
  held : Bool
  used : Nat
  busy : Nat
  deriving DecidableEq, Repr

/-- An adjoint entry (10 Table 10-5): its address, its words, its cores; `phase` 0 queued, 1 running, 2 ending; what it will
write. -/
structure AdjEntry where
  id : Nat
  sub : Nat
  ctx : Nat
  va : Nat
  words : List Nat
  phase : Nat
  proc : Nat
  cores : List Nat
  u : Option (List Nat)
  word3 : Nat
  bank : Bool
  deriving DecidableEq, Repr

/-- The sequencer: submissions, problems, runs, adjoint entries, handles, slots by the order they were freed, generations, the
processors that do not serve (09 R194), and the clusters whose release waits (02 R46). -/
structure Sq where
  subs : List Submission
  probs : List Problem
  runs : List SolverRun
  entries : List AdjEntry
  nextId : Nat
  handles : List Handle
  nextSlot : Nat
  freed : List Nat
  slotGen : SMap Nat
  clock : Nat
  down : List Nat
  releasing : List Nat
  deriving DecidableEq, Repr

/-! ### Hamper (11, 17) -/

/-- A hand-over record: its eight words (11 Table 11-4), the collective and shard-table entry that posted it, and the buffer that it
updates with the newest generation at the posting (14 R353). -/
structure HandOver where
  words : List Nat
  coll : Nat
  shard : Nat
  bufY : Bool
  gen : Nat
  deriving DecidableEq, Repr

/-- A chunk that runs (11 R260): its number, its thread, its row of an embedding layer, the row's update count, and the weight
and remainder bits read when the chunk was loaded. -/
structure ChunkRun where
  chunk : Nat
  thread : Nat
  row : Nat
  count : Nat
  old : List (Nat × Nat)
  deriving DecidableEq, Repr

/-- An element that the final pass updated, for the statistics (11 R267, 08 R186): w, r, x, w′, r′, and whether r′ saturated. -/
structure ElemStat where
  w : Nat
  r : Nat
  x : Nat
  w' : Nat
  r' : Nat
  sat : Bool
  deriving DecidableEq, Repr

/-- A running layer update (11 R259-R263): the descriptor's words, its cores, its pass and next chunk, the rows of an
embedding layer, the chunks that run, the elements updated by chunk; `media` says that a chunk met an uncorrectable error
(11 R270). -/
structure Upd where
  id : Nat
  ctx : Nat
  gen : Nat
  layer : Nat
  hand : HandOver
  desc : List Nat
  rowlist : List Nat
  cores : List Nat
  stepSize : Nat
  pass : Nat
  next : Nat
  running : List ChunkRun
  stats : List (Nat × List ElemStat)
  media : Bool
  deriving DecidableEq, Repr

/-- A flash command: its context and descriptor words (11 Table 11-2). -/
structure FlashCmd where
  ctx : Nat
  words : List Nat
  deriving DecidableEq, Repr

/-- The two slots of a shard in the holder's region, keyed by owner, job and shard-table entry (17 R424): `size` is the space that
they take; each slot is its header's words and its units. The data behind a header have a layout of the firmware's, so they are
kept here and not as bytes of the capacity tier (DESIGN CHOICE, log 46). -/
structure BlanketSlot where
  owner : Nat
  job : Nat
  sidx : Nat
  size : Nat
  even : Option (List Nat × List BlanketUnit)
  odd : Option (List Nat × List BlanketUnit)
  deriving DecidableEq, Repr

/-- A Blanket copy in flight to the holder (17 R425): the collective, the shard-table entry, its generation and the buffer that it is in. -/
structure BlanketCopy where
  ctx : Nat
  coll : Nat
  entry : Nat
  gen : Nat
  bufY : Bool
  holder : Nat
  bank : Bool
  deriving DecidableEq, Repr

/-- How a shard's copies stand (17 R426): copies that must still be full, and the rows of its previous copied update. -/
structure BlanketShard where
  ctx : Nat
  entry : Nat
  fulls : Nat
  prev : List Nat
  deriving DecidableEq, Repr

/-- The Hamper: hand-overs on the die-to-die link, hand-over queue, running updates, step slots keyed context × 4 + step mod 4, row
state, flash queue, fault records that wait for its ring, Blanket slots, copies, shards, and the shards without a copy. -/
structure Hmp where
  posted : List HandOver
  queue : List HandOver
  upd : List Upd
  nextUpd : Nat
  steps : SMap (Option (Nat × Nat))
  rowState : SMap Word
  flq : List FlashCmd
  waitRecs : List FaultRec
  slots : List BlanketSlot
  copies : List BlanketCopy
  shards : List BlanketShard
  unprot : List (Nat × Nat)
  d2dUp : Bool
  deriving DecidableEq, Repr

/-! ### Collectives (14) -/

/-- A shard of a GRAD_HANDOVER (14 R352-R354) that this module owns: its number, its entry, whether it is closed, has waited on pins,
is posted, whether the Hamper has completed it, its part of B as a pair (R357), and whether it holds an infinity or a NaN. -/
structure ShardRun where
  j : Nat
  entry : Nat
  closed : Bool
  waited : Bool
  posted : Bool
  done : Bool
  noise : Nat
  bad : Bool
  deriving DecidableEq, Repr

/-- A collective accepted and not complete (14 R344-R368): the descriptor's words, the member list, its number on the group, its
processor, the ranks live at its start, the tick since which it waits, whether the members have met, the live ranks for which its
data were sent, its shards, the generations delivered or, of a GRAD_HANDOVER, the contributors included, the shards installed or reported, and
the status once it is decided. `among` holds the live ranks over which shards are reduced; once every shard of the layer is closed (`asked`),
`bads` says whether one holds an infinity or a NaN, and `noise` is the pair of B (R351, R357). `owners` are the devices asked for shards.
`heard` holds the tick of each device's last message. `asked` says that its requests or moves were sent; `skipped` that the Hamper skipped
the layer; `lostAt` is the tick at which a drain bound began: an owner was lost (R356), or the wait of PERMUTE's step 2 (R367). -/
structure Coll where
  id : Nat
  ctx : Nat
  words : List Nat
  group : List Nat
  seq : Nat
  proc : Nat
  started : Bool
  live0 : List Nat
  waitFrom : Nat
  heard : List (Nat × Nat)
  met : Bool
  sentFor : Option (List Nat)
  among : List Nat
  bads : Bool
  noise : Nat
  owners : List Nat
  shards : List ShardRun
  gens : List Nat
  moved : List Nat
  restored : List Nat
  asked : Bool
  acked : Bool
  skipped : Bool
  missing : Bool
  lostAt : Option Nat
  layout : List Nat
  status : Option Nat
  bank : Bool
  deriving DecidableEq, Repr

/-- A collective message received and kept for its collective: the sender, the job, the group. -/
structure CollBox where
  src : Nat
  job : Nat
  group : List Nat
  msg : CollMsg
  deriving DecidableEq, Repr

/-- A context's layout (14 R364): the descriptor's words and the devices of the ranks. -/
structure Layout where
  words : List Nat
  group : List Nat
  deriving DecidableEq, Repr

/-- The collective processors: accepted collectives in acceptance order, the count of each context and group, received messages,
the layouts, and the 16 memories of 1 MiB (14 R340), which only the image's programs use. -/
structure Cp where
  colls : List Coll
  nextId : Nat
  seqs : List (Nat × List Nat × Nat)
  box : List CollBox
  layouts : SMap (Option Layout)
  sram : List Host.Cell
  deriving DecidableEq, Repr

/-! ### Partition resets and escalation (16) -/

/-- A partition reset under way (16 R411): the partition, the class, the tick of detection, the core, thread and instruction that it
names, the faulting context, the affected contexts, whether it follows a failed one (R413), VIDX at the fault (R408), the tick from which it
waits for a retrain or repair, and the length of the waits that ended (R411). -/
structure PReset where
  part : Nat
  cls : Nat
  since : Nat
  named : Bool
  core : Nat
  thread : Nat
  instr : Nat
  fctx : Option Nat
  affected : List Nat
  second : Bool
  vidx : Nat
  waitFrom : Option Nat
  wait : Nat
  deriving DecidableEq, Repr

/-- Resets under way, partitions whose channels a reset holds (12 R294), counted resets as (partition, service tick) with the newest
last (16 R416), and partitions that failed (R413). -/
structure Esc where
  resets : List PReset
  holds : List Nat
  entries : List (Nat × Nat)
  failed : List Nat
  deriving DecidableEq, Repr

/-! ### Lamplighter (21) -/

/-- A firmware image (21 Table 21-5): the fields of its header, the digest of its payload, and bytes 0-87. -/
structure Image where
  version : Nat
  svn : Nat
  floor : Nat
  level : Nat
  length : Nat
  digest : List Byte
  hdr : List Byte
  deriving DecidableEq, Repr

/-- One mirror copy of a Thermos section in flash (21 R499): its sequence number, the retained fields (of the training section the training
values), the escalation entries, the owner keys, and the CRC-32C that it carries (21 R498). -/
structure Mirror where
  seq : Nat
  flds : SMap Nat
  entries : List (Nat × Nat)
  keys : Option (List Byte × List Byte)
  crc : Nat
  deriving DecidableEq, Repr

/-- The Lamplighter and the security block beyond their registers: the running and the staged image with the host buffers that they
came from, the mailbox command in progress (op, argument, address, length), the owner keys, the Thermos sections whose SRAM copy is
valid (0 settings, 1 training, 2 service, 3 security), the settings and the training values in SRAM, the sequence number of each section there,
the two flash mirrors of each section, the sections that
changed since their last mirror, the message of the last signed SPDM response while GET_PQ_SIG may still follow it (R507), the bank that the
processors start work on, the image whose programs the other bank holds (R492, R494), and the 2 MiB RAM of each of the two cores, core 0
first, which only the programs of the image use. `secret` is the fused 256-bit device secret (21 R502), which no register reads; the identity and
attestation keys are derived from it and kept nowhere else (21 R504, R505). -/
structure Lmp where
  image : Image
  source : Option (Nat × Nat)
  staged : Option Image
  stagedSource : Nat × Nat
  mbx : Option (Nat × Nat × Nat × Nat)
  owner : Option (List Byte × List Byte)
  sram : List Nat
  settings : SMap Nat
  training : SMap Nat
  seqs : SMap Nat
  mirA : SMap (Option Mirror)
  mirB : SMap (Option Mirror)
  dirty : List Nat
  pair : Option (List Byte)
  bank : Bool
  other : Option Image
  ram : List Host.Cell
  secret : BitVec 256
  deriving DecidableEq, Repr

/-! ### The module -/

/-- The capabilities of 21 Table 21-9: the certificate slots, and what is not supported. -/
structure SpdmCaps where
  certificates : Bool
  challenge : Bool
  signedMeasurements : Bool
  slots : List Nat
  keyExchange : Bool
  pskExchange : Bool
  mutualAuth : Bool
  setCertificate : Bool
  csr : Bool
  deriving DecidableEq, Repr

/-- The algorithms and the measurement specification of 21 Table 21-9. -/
inductive SpdmAlg where
  | eddsaEd25519
  | sha384
  | dmtf
  deriving DecidableEq, Repr

/-- An SPDM response, named by its content; the manual leaves its encoding to SPDM 1.3. -/
inductive SpdmResp where
  | version (v : Nat)
  | capabilities (c : SpdmCaps)
  | algorithms (asym hash measHash measSpec : SpdmAlg)
  | digests (d : List Byte)
  | certificate (portion : List Byte) (rest : Nat)
  | challengeAuth (msg sig : List Byte)
  | measurements (blocks : List (Nat × List Byte)) (sig : Option (List Byte))
  | pqChain (portion : List Byte) (rest : Nat)
  | pqSig (sig : List Byte)
  | error (unsupported : Bool)
  deriving DecidableEq, Repr

/-- What the last command sent outside the block. -/
inductive Output where
  /-- An MSI-X message of function `fn` with its table entry: the entry's data at its address (19 R463, 22 R529). -/
  | msix (fn entry : Nat) (addr : Word) (data : BitVec 32)
  /-- An AVSBus write of a rail's target voltage, in mV (18 R450). -/
  | avs (rail mv : Nat)
  /-- The data of a BAR0 or BAR2 read. -/
  | readData (v : Nat)
  /-- A link frame sent on a port, with its sequence number (zero for an unsequenced frame), the ack that it carries, and its 8-byte words:
  header, payload and trailer (13 R306). -/
  | sent (port seq ack : Nat) (body : FrameBody) (words : List Nat)
  /-- A burst of 256 Kindle words on a port (13 R336). -/
  | kindle (port : Nat)
  /-- A collective message to a device, on a virtual channel (14 R344; DEDUCED, log 45). -/
  | coll (vc dev job : Nat) (group : List Nat) (msg : CollMsg)
  /-- A Blanket copy to the holder, and the holder's acknowledgement to the owner: its shard-table entry and generation, and whether the slot
  was written (17 R424, R425). -/
  | blanket (holder : Nat) (copy : BlanketMsg)
  | blanketAck (owner job sidx gen : Nat) (ok : Bool)
  /-- The committed container, sent to a quad partner whose commit failed (21 R497). -/
  | image (dev : Nat) (container : List Byte)
  /-- An SPDM response (21 R506, R507). -/
  | spdm (r : SpdmResp)
  deriving DecidableEq, Repr

/-- Everything the specification gives the module. `free` counts the free values drawn; `out` is what the last command
sent; `retry` says that the command under way must be given again. These are the model's own. -/
structure Module where
  pilot : Nat
  fields : SMap Nat
  threads : SMap Thread
  cores : SMap Core
  ctxs : SMap Context
  grids : List Grid
  nextGrid : Nat
  transfers : List Transfer
  nextXfer : Nat
  ms : MemSys
  evc : Evc
  pmc : Pmc
  fab : Fab
  pwr : Pwr
  hif : Hif
  sq : Sq
  hmp : Hmp
  cp : Cp
  esc : Esc
  lmp : Lmp
  capture : SMap (Option Word)
  retry : Bool
  free : Nat
  out : List Output
  deriving DecidableEq, Repr

/-- The block: its queue of waiting commands, first in first out, and the module. -/
structure State where
  pending : List Instr
  m : Module
  deriving DecidableEq, Repr

def MemSys.reset : MemSys :=
  { hbm := [], ctier := [], host := [], flash := [], store := [], hstore := [], poison := [], ctPoison := [], sets := [],
    ops := [], waiting := [], failed := [], ceRow := [], tpOut := 0, tp := [], scr := 0, ctScr := 0 }

/-- The module after power-up: every register at its After power-up value (00 R12), context 0 live (22 R527). -/
def Module.reset : Module :=
  { pilot := 0, fields := [], threads := [], cores := [], ctxs := [], grids := [], nextGrid := 0, transfers := [],
    nextXfer := 0, ms := MemSys.reset, evc := { src := [], sent := [], due := [] },
    pmc := { live := [], shadow := [], snapAt := none, winEnd := 0, tx := [], rx := [], frzAt := none, wrote := [] },
    fab := { ports := [], routes := [], held := [], inbox := [], reqs := [], nextTag := 0, snuffed := [], quietDue := [],
             beatAt := 0, edgeAt := [], toggledAt := 0, level := [], aliveOn := true, exitAt := none, exitOwed := [], noData := false },
    pwr := { rails := [], idleSince := 0, refused := [], dozeSent := none, wake := none, throttled := false,
             mainGood := true, standby := true, converter := true, perst := true, wakeN := false, tripped := false, lostAt := none, softAt := 0,
             telem := List.replicate 32 0#8 },
    hif := { msix := [], pba := [], msixEn := [], fnMask := [], vfEn := false, numVfs := 0, running := [] },
    sq := { subs := [], probs := [], runs := [], entries := [], nextId := 0, handles := [], nextSlot := 0, freed := [],
            slotGen := [], clock := 0, down := [], releasing := [] },
    hmp := { posted := [], queue := [], upd := [], nextUpd := 0, steps := [], rowState := [], flq := [], waitRecs := [],
             slots := [], copies := [], shards := [], unprot := [], d2dUp := true },
    cp := { colls := [], nextId := 1, seqs := [], box := [], layouts := [], sram := [] },
    esc := { resets := [], holds := [], entries := [], failed := [] },
    lmp := { image := { version := 0, svn := 0, floor := 0, level := 0, length := 0, digest := [], hdr := [] }, source := none,
             staged := none, stagedSource := (0, 0), mbx := none, owner := none, sram := [0, 1, 2, 3], settings := [], training := [], seqs := [],
             mirA := [], mirB := [], dirty := [], pair := none, bank := false, other := none, ram := [], secret := 0 },
    capture := [], retry := false, free := 0, out := [] }

/-- The block after reset: nothing waits. -/
def State.reset : State := { pending := [], m := Module.reset }

end Sys2Proof.Machine
end

