-- ==== Sys2Proof/Machine/Ops.lean ====
section
/-! DEFINITION. The named operations that every meaning is made of: register fields, memory, the address maps, translation,
events, counters, violations and fault records. -/

namespace Sys2Proof.Machine

/-! ### Register fields (00 R5-R13) -/

/-- The value of a field, in its width; its After power-up value when nothing has written it. -/
def Module.getF (m : Module) (f : Fld) : Nat := SMap.get f.rst m.fields f.key % 2 ^ f.width

/-- Write a field, truncated to its width. -/
def Module.setF (m : Module) (f : Fld) (v : Nat) : Module :=
  { m with fields := SMap.set f.rst m.fields f.key (v % 2 ^ f.width) }

/-- Add to a counter field, which wraps. -/
def Module.addF (m : Module) (f : Fld) (n : Nat) : Module := m.setF f (m.getF f + n)

/-- Is a one-bit field set? -/
def Module.bit (m : Module) (f : Fld) : Bool := m.getF f != 0

/-- Apply `f` to every element in order. -/
def Module.each {α : Type} (m : Module) (l : List α) (f : Module → α → Module) : Module := l.foldl f m

def Module.emit (m : Module) (o : Output) : Module := { m with out := m.out ++ [o] }

/-- Draw a free value (00 R1). -/
def Module.freeWord (m : Module) : Module × Word := ({ m with free := m.free + 1 }, Config.freeWord m.free)

def Module.freePick (m : Module) : Module × Nat := ({ m with free := m.free + 1 }, Config.freePick m.free)

/-! ### Bytes (00 Table 0-2: little-endian, DEDUCED, log 9) -/

/-- The byte at an address; an unlisted address reads 0 (DESIGN CHOICE, log 5). -/
def Memory.get (mem : List Host.Cell) (a : Nat) : Byte := SMap.get 0#8 mem a

/-- Write one byte, keeping the canonical form. -/
def Memory.set (mem : List Host.Cell) (a : Nat) (b : Byte) : List Host.Cell := SMap.set 0#8 mem a b

/-- The canonical form of a memory: addresses strictly rising, no entry equal to what an unlisted address reads as. -/
def Memory.wf (mem : List Host.Cell) : Bool := SMap.wf 0#8 mem

/-- Read `n` bytes as a little-endian number. -/
def Memory.read (mem : List Host.Cell) (a : Nat) : Nat → Nat
  | 0 => 0
  | n + 1 => (Memory.get mem a).toNat + 256 * Memory.read mem (a + 1) n

/-- Write the low `n` bytes of a number, little-endian. -/
def Memory.write (mem : List Host.Cell) (a : Nat) : Nat → Nat → List Host.Cell
  | 0, _ => mem
  | n + 1, v => Memory.write (Memory.set mem a (BitVec.ofNat 8 v)) (a + 1) n (v / 256)

/-- The little-endian bytes of a number. -/
def leBytes : Nat → Nat → List Byte
  | 0, _ => []
  | n + 1, v => BitVec.ofNat 8 v :: leBytes n (v / 256)

/-- The number that little-endian bytes hold. -/
def leVal : List Byte → Nat
  | [] => 0
  | b :: t => b.toNat + 256 * leVal t

/-! ### The two HBM spaces (12 R273-R275) -/

/-- Bytes of a pseudo-channel. -/
def pcBytes : Nat := 1536 * 2 ^ 20

/-- The spread share of a pseudo-channel, with carve-out L (12 R273). -/
def spreadShare (l : Nat) : Nat := pcBytes - l * (64 * 2 ^ 20)

def Module.carveL (m : Module) : Nat := m.getF Reg.MEM_CARVE.active

/-- Bytes of the spread space. -/
def Module.spreadBytes (m : Module) : Nat := 512 * spreadShare m.carveL

/-- Bytes of a partition's local space. -/
def Module.localBytes (m : Module) : Nat := 64 * (pcBytes - spreadShare m.carveL)

/-- `spread` of 12 R275: the pseudo-channel and the offset. -/
def spreadMap (pa : Nat) : Nat × Nat :=
  let g := pa / 256
  let pc := Nat.xor (Nat.xor (Nat.xor (g % 512) (g / 2 ^ 9 % 512)) (g / 2 ^ 18 % 512)) (g / 2 ^ 27 % 512)
  (pc, g / 512 * 256 + pa % 256)

/-- `local` of 12 R275, with spread share `s` and partition `n`. -/
def localMap (s pa n : Nat) : Nat × Nat :=
  let g := pa / 256
  let q := Nat.xor (Nat.xor (Nat.xor (Nat.xor (g % 64) (g / 2 ^ 6 % 64)) (g / 2 ^ 12 % 64)) (g / 2 ^ 18 % 64)) (g / 2 ^ 24 % 64)
  (64 * n + q, s + (g / 64 * 256 + pa % 256))

/-- The key of an HBM byte in `MemSys.hbm`. -/
def hbmKey (pc off : Nat) : Nat := pc * pcBytes + off

/-- The space and the physical address that map to a pseudo-channel and an offset (12 R275 read backwards), with spread share `s`: the
space code of PMC_AHI, the partition and the address. -/
def physAt (s pc off : Nat) : Nat × Nat × Nat :=
  if off < s then
    let h := off / 256
    let l := Nat.xor (Nat.xor (Nat.xor pc (h % 512)) (h / 2 ^ 9 % 512)) (h / 2 ^ 18 % 512)
    (0, 0, (h * 512 + l) * 256 + off % 256)
  else
    let h := (off - s) / 256
    let l := Nat.xor (Nat.xor (Nat.xor (Nat.xor (pc % 64) (h % 64)) (h / 2 ^ 6 % 64)) (h / 2 ^ 12 % 64)) (h / 2 ^ 18 % 64)
    (1, pc / 64, (h * 64 + l) * 256 + (off - s) % 256)

def Place.spread (pa : Nat) : Place := .hbm (spreadMap pa).1 (spreadMap pa).2

/-- Bytes of a core store (02 R33, 11 R246). -/
def storeBytes : Nat := 2 ^ 19

/-! ### Reading and writing places (15 R371) -/

def Module.setMs (m : Module) (x : MemSys) : Module := { m with ms := x }

/-- Is the host link able to carry a TLP (22 R512)? L0, L0p and L1; while it trains, a TLP waits for L0, which a pilot tick brings (the spec
gives no time: DESIGN CHOICE, log 58). -/
def Module.linkUp (m : Module) : Bool :=
  let s := m.getF Reg.HIF_LINK.state
  decide (1 ≤ s) && decide (s ≤ 4)

/-- The free bytes of a memory after event number `e` left its contents undefined, as a number of `n` bytes; nothing before the first
such event. -/
def lostMask (e k : Nat) : Nat → Nat
  | 0 => 0
  | n + 1 => if e = 0 then 0 else (Config.lostByte e k).toNat + 256 * lostMask e (k + 1) n

/-- A memory is kept as the difference from its free bytes, so that a byte that nothing has written since reads as its free value. -/
def lostRead (e : Nat) (mem : List Host.Cell) (k n : Nat) : Nat := Nat.xor (Memory.read mem k n) (lostMask e k n)

def lostWrite (e : Nat) (mem : List Host.Cell) (k n v : Nat) : List Host.Cell :=
  Memory.write mem k n (Nat.xor v (lostMask e k n))

/-- Read `n` bytes at a place. -/
def Module.readPlace (m : Module) (p : Place) (n : Nat) : Nat :=
  match p with
  | .hbm pc off => lostRead m.ms.scr m.ms.hbm (hbmKey pc off) n
  | .ctier a => lostRead m.ms.ctScr m.ms.ctier a n
  | .host a => Memory.read m.ms.host a n
  | .store c off => Memory.read m.ms.store (c * storeBytes + off) n
  | .hstore c off => Memory.read m.ms.hstore (c * storeBytes + off) n

/-- The poison marks after a write of `n` bytes at byte key `k`: a write that covers a whole 32-byte sector clears its mark
(12 R291). -/
def clearPoison (p : SMap Bool) (k n : Nat) : SMap Bool :=
  if k % 32 = 0 && n % 32 = 0 then (List.range (n / 32)).foldl (fun q i => SMap.set false q (k / 32 + i) false) p else p

/-- Write the low `n` bytes of `v` at a place. A write to host memory while the link is down is discarded (22 R512). -/
def Module.writePlace (m : Module) (p : Place) (n v : Nat) : Module :=
  match p with
  | .hbm pc off =>
    m.setMs { m.ms with hbm := lostWrite m.ms.scr m.ms.hbm (hbmKey pc off) n v, poison := clearPoison m.ms.poison (hbmKey pc off) n }
  | .ctier a => m.setMs { m.ms with ctier := lostWrite m.ms.ctScr m.ms.ctier a n v, ctPoison := clearPoison m.ms.ctPoison a n }
  | .host a => if m.linkUp then m.setMs { m.ms with host := Memory.write m.ms.host a n v } else m
  | .store c off => m.setMs { m.ms with store := Memory.write m.ms.store (c * storeBytes + off) n v }
  | .hstore c off => m.setMs { m.ms with hstore := Memory.write m.ms.hstore (c * storeBytes + off) n v }

/-- Is any sector of an access poisoned or its channel failed, or is the host unreachable (12 R291, R298; 22 R512)? -/
def Module.badPlace (m : Module) (p : Place) (n : Nat) : Bool :=
  match p with
  | .hbm pc off =>
    let k := hbmKey pc off
    m.ms.failed.contains pc || (List.range ((k % 32 + n + 31) / 32)).any (fun i => SMap.get false m.ms.poison (k / 32 + i))
  | .ctier a => (List.range ((a % 32 + n + 31) / 32)).any (fun i => SMap.get false m.ms.ctPoison (a / 32 + i))
  | .host _ => !m.linkUp
  | _ => false

/-- Write free bytes over a range (00 R1): an undefined range. -/
def Module.freeBytes (m : Module) (p : Nat → Place) : Nat → Module
  | 0 => m
  | n + 1 =>
    let m' := Module.freeBytes m p n
    ({ m' with free := m'.free + 1 }).writePlace (p n) 1 (Config.freeByte m'.free).toNat

/-- Has the module left service (16 R417)? -/
def Module.oos (m : Module) : Bool := m.bit Reg.LMP_ESC_STAT.oos

/-! ### Wake events (18 R448, R449) -/

/-- The states that a wake code wakes from (18 Table 18-5). -/
def wakesFrom (code s : Nat) : Bool :=
  match code with
  | 1 => s == 1 || s == 2 || s == 3
  | 2 => s == 4
  | 3 => s == 1 || s == 2
  | 4 => s == 3 || s == 4
  | 5 => s == 1 || s == 2
  | 6 => 1 ≤ s && s ≤ 4
  | 7 => s == 1 || s == 2 || s == 3
  | 8 => 1 ≤ s && s ≤ 4
  | 9 => s == 1 || s == 2 || s == 3
  | _ => false

/-- The nominal voltage of a rail in mV, and the range within which it may be set (18 Table 18-7). -/
def railNominal (r : Nat) : Nat := if r = 9 then 900 else if r = 11 then 500 else if r = 12 then 1100 else 750

def railRange (r : Nat) : Nat × Nat :=
  if r < 8 then (650, 850) else if r = 8 || r = 10 then (700, 800) else (railNominal r, railNominal r)

/-- The voltage at a rail of its record's entry: none is the nominal. -/
def railMv (r : Nat) (v : Option Nat) : Nat := v.getD (railNominal r)

/-- An exit requests the nominal voltage of every rail that an entry lowered or turned off (18 Table 18-6, R450). -/
def raiseRails (t : Nat) (r : SMap Rail) : SMap Rail :=
  SMap.mapAll Rail.empty r (fun _ x =>
    if x.lowered && !x.failed then { x with pending := true, attempts := 0, since := t, target := none } else x)

/-- The AVSBus writes of an exit's requests (18 R450). -/
def Module.raiseWrites (m : Module) : Module :=
  m.each (m.pwr.rails.filter (fun e => e.2.lowered && !e.2.failed)) (fun m e => m.emit (.avs e.1 (railNominal e.1)))

/-- The ports that this module took to DOZE leave it and begin TRAIN; no event source is raised for that (13 R339). -/
def Module.dozedTrain (m : Module) : Module :=
  m.each (List.range 16) (fun m p =>
    if m.getF (Reg.FAB_PSTAT.state p) = 7 && (SMap.get Port.empty m.fab.ports p).dozeSent.isSome then
      m.setF (Reg.FAB_PSTAT.state p) 2
    else m)

/-- An entry before its commit point is aborted by a wake event and counted; from a state below W0 the exit starts as well, since W0 is
reached in both cases (18 R448). -/
def Module.abortEntry (m : Module) (code detail : Nat) : Module :=
  let s := m.getF Reg.PWR_STATE.state
  let t := m.getF Reg.PWR_STATE.target
  let m1 := ((m.setF Reg.PWR_STATE.entering 0).setF Reg.PWR_STATE.target s).dozedTrain
  let m2 := ((m1.addF (Reg.PWR_ABORT.count t) 1).setF (Reg.PWR_ABORT.code t) code).setF (Reg.PWR_ABORT.detail t) detail
  if s = 0 then { m2 with pwr := { m2.pwr with dozeSent := none } }
  else { m2 with pwr := { m2.pwr with dozeSent := none, wake := some (code, detail, m.pilot),
                                      rails := raiseRails m.pilot m.pwr.rails } }.raiseWrites

/-- A wake event: aborts an entry, or starts the exit (18 R448). A wake from W4 other than code 2 asserts WAKE_N (18 R449),
and an exit from W4 holds delivery until its registers are restored (19 R462). -/
def Module.wake (m : Module) (code detail : Nat) : Module :=
  let s := m.getF Reg.PWR_STATE.state
  if m.bit Reg.PWR_STATE.entering then
    if wakesFrom code (m.getF Reg.PWR_STATE.target) || wakesFrom code s then m.abortEntry code detail else m
  else if wakesFrom code s && m.pwr.wake.isNone then
    let m1 := if s = 4 then m.setF Reg.EVC_GATE.lhold 1 else m
    { m1 with pwr := { m.pwr with wake := some (code, detail, m.pilot), wakeN := m.pwr.wakeN || (s == 4 && code != 2),
                                  rails := raiseRails m.pilot m.pwr.rails } }.raiseWrites
  else m

/-! ### Event controller (19) -/

def Source.empty : Source := { count := 0, start := 0, pending := false }

def Module.source (m : Module) (s : Nat) : Source := SMap.get Source.empty m.evc.src s

def Module.setSource (m : Module) (s : Nat) (x : Source) : Module :=
  { m with evc := { m.evc with src := SMap.set Source.empty m.evc.src s x } }

/-- The count threshold; 0 acts as 1 (19 R457). -/
def Module.threshold (m : Module) (s : Nat) : Nat := max 1 (m.getF (Reg.EVC_SRC.count s))

/-- Has the source's time threshold run out (19 R457)? -/
def Module.timeUp (m : Module) (s : Nat) (x : Source) : Bool :=
  let t := m.getF (Reg.EVC_SRC.time s)
  t != 0 && decide (x.start + t ≤ m.pilot)

/-- Is the source's pending condition met (19 R457)? -/
def Module.dueSource (m : Module) (s : Nat) (x : Source) : Bool :=
  x.count != 0 && (decide (m.threshold s ≤ x.count) || m.timeUp s x)

/-- Is delivery to instances 1-64 held (19 R462)? -/
def Module.evcHeld (m : Module) : Bool := m.bit Reg.EVC_GATE.closed || m.bit Reg.EVC_GATE.lhold

/-- Is a source in service at any instance (19 R458)? -/
def Module.inService (m : Module) (s : Nat) : Bool :=
  (List.range 65).any (fun i => m.bit (Reg.EVC_CTL.inservice i) && m.getF (Reg.EVC_CTL.source i) == s)

/-- The enabled pending sources routed to an instance that are not in service anywhere, lowest first (19 R458, R459). -/
def Module.eligible (m : Module) (i : Nat) : List Nat :=
  (m.evc.src.filter (fun e => e.2.pending && m.bit (Reg.EVC_SRC.enable e.1) && m.getF (Reg.EVC_SRC.inst e.1) == i
    && !m.inService e.1)).map (fun e => e.1)

/-- The request line of an instance (19 R459); after a done it is low until the next pilot tick (R461). -/
def Module.line (m : Module) (i : Nat) : Bool :=
  !m.bit (Reg.EVC_CTL.inservice i) && !m.evc.due.contains i && !(m.eligible i).isEmpty && (i == 0 || !m.evcHeld)

/-- Is virtual function n enabled (PCI Express: VF Enable and NumVFs)? Function 0 always is. -/
def Module.vfOn (m : Module) (n : Nat) : Bool := n == 0 || (m.hif.vfEn && decide (n ≤ m.hif.numVfs))

/-- Send one MSI-X message of function `fn`, or set its pending bit, or discard it (22 R529): as a write to host memory it needs the link
(R512), and its function. -/
def Module.sendMsix (m : Module) (fn entry : Nat) : Module :=
  if !SMap.get false m.hif.msixEn fn then m
  else
    let e := SMap.get MsixEntry.empty m.hif.msix (fn * 2048 + entry)
    if e.masked || SMap.get false m.hif.fnMask fn then
      { m with hif := { m.hif with pba := SMap.set false m.hif.pba (fn * 2048 + entry) true } }
    else if m.linkUp && m.vfOn fn then m.emit (.msix fn entry e.addr e.data)
    else m

/-- When the line of an instance is high and its message has not been sent since its last done, the line rises: instance
1 + n sends its MSI-X message (19 R463); in ROM recovery none is sent (21 R489). -/
def Module.evalInst (m : Module) (i : Nat) : Module :=
  if m.line i && !SMap.get false m.evc.sent i && m.getF Reg.LMP_FW_STAT.state != 5 then
    let m1 := { m with evc := { m.evc with sent := SMap.set false m.evc.sent i true } }
    if i = 0 then m1 else m1.sendMsix (i - 1) (m.getF (Reg.EVC_CTL.vector i))
  else m

/-- Evaluate every instance that a pending source is routed to (19 R459). -/
def Module.evalLines (m : Module) : Module :=
  m.each ((m.evc.src.filter (fun e => e.2.pending)).map (fun e => m.getF (Reg.EVC_SRC.inst e.1))) Module.evalInst

/-- Store a source after its count changed; a source that becomes pending while delivery is held sets EVC_STATUS.held
(19 R457, R462). -/
def Module.updateSource (m : Module) (s : Nat) (x : Source) : Module :=
  let p := x.pending || m.dueSource s x
  let m1 := m.setSource s { x with pending := p }
  let m2 := if p && !x.pending && m.evcHeld then m1.setF Reg.EVC_STATUS.held 1 else m1
  m2.evalLines

/-- Raise a source without waking the module: the DOZE raise that 18 R449 exempts. -/
def Module.raiseQuiet (m : Module) (s : Nat) : Module :=
  let x := m.source s
  m.updateSource s { x with count := min 65535 (x.count + 1), start := if x.count = 0 then m.pilot else x.start }

/-- The partition, port or context that an event source belongs to (19 Table 19-1), which PWR_ABORT.detail names; zero otherwise. -/
def eventDetail (s : Nat) : Nat :=
  if 32 ≤ s ∧ s < 96 then (s - 32) / 8 else if 96 ≤ s ∧ s < 112 then s - 96 else if 256 ≤ s ∧ s < 320 then s - 256 else 0

/-- Raise an event source (19 R457): counted, made pending, delivered, and it wakes the module with code 7. -/
def Module.raise (m : Module) (s : Nat) : Module := (m.raiseQuiet s).wake 7 (eventDetail s)

/-! ### Counters (20) -/

/-- What the filters of Table 20-3 look at. `master` is the processor kind, 6 for the host interface, 7 for the engines; `cls` lists the
classes or channels of what is counted. -/
structure Ev where
  ctx : Option Nat
  master : Option Nat
  unit : Option Nat
  cls : List Nat
  phys : Option (Nat × Nat × Nat)
  deriving DecidableEq, Repr

def Ev.none : Ev := { ctx := Option.none, master := Option.none, unit := Option.none, cls := [], phys := Option.none }

/-- The counter groups of Table 20-1: first counter, count, overflow source. -/
def pmcPart (n : Nat) : Nat × Nat × Nat := (16 * n, 16, 320 + n)
def pmcMem : Nat × Nat × Nat := (128, 64, 328)
def pmcFab : Nat × Nat × Nat := (192, 32, 329)
def pmcHmp : Nat × Nat × Nat := (224, 16, 330)
def pmcSq : Nat × Nat × Nat := (240, 8, 331)
def pmcColl : Nat × Nat × Nat := (248, 8, 332)
def pmcHost : Nat × Nat × Nat := (256, 8, 333)

/-- Does an event pass the filters of a counter (20 R470, R471)? The address filter is one of the memory and host groups only. -/
def Module.pmcPass (m : Module) (k : Nat) (e : Ev) : Bool :=
  let priv := m.getF (Reg.PMC_CFG.priv k)
  let mm := m.getF (Reg.PMC_CFG.mmask k)
  let um := m.getF (Reg.PMC_CFG.umask k)
  let cm := m.getF (Reg.PMC_CFG.cmask k)
  let okPriv :=
    match priv, e.ctx with
    | 0, _ => true
    | _, Option.none => false
    | 1, some c => c == 0
    | 2, some c => c != 0
    | _, some c => c == m.getF (Reg.PMC_CFG.ctx k)
  let okBit (mask : Nat) (b : Option Nat) : Bool :=
    mask == 0 || (match b with | Option.none => true | some i => Nat.testBit mask i)
  let okAddr :=
    !m.bit (Reg.PMC_CFG.arange k) || k < 128 || (decide (192 ≤ k) && decide (k < 256)) ||
    (match e.phys with
     | Option.none => false
     | some (sp, part, a) =>
       sp == m.getF (Reg.PMC_AHI.space k) && (sp != 1 || part == m.getF (Reg.PMC_AHI.partition k)) &&
       decide (m.getF (Reg.PMC_ALO.lo k) ≤ a / 256) && decide (a / 256 ≤ m.getF (Reg.PMC_AHI.hi k)))
  okPriv && okBit mm e.master && okBit um e.unit && (cm == 0 || e.cls.isEmpty || e.cls.any (Nat.testBit cm)) && okAddr

/-- Add to one counter, with wrapping, chaining and overflow (20 R472, R473). `fuel` bounds the chain. -/
def Module.pmcBump (m : Module) (src k n : Nat) : Nat → Module
  | 0 => m
  | fuel + 1 =>
    let v := SMap.get 0 m.pmc.live k + n
    let m1 := { m with pmc := { m.pmc with live := SMap.set 0 m.pmc.live k (v % 2 ^ 48) } }
    if v < 2 ^ 48 then m1
    else if k % 2 = 0 && m.bit (Reg.PMC_CFG.chain (k + 1)) then
      if m.bit (Reg.PMC_CFG.en (k + 1)) then Module.pmcBump m1 src (k + 1) (v / 2 ^ 48) fuel else m1
    else
      let f := Reg.PMC_OVF.ovf (k / 64)
      let m2 := m1.setF f (Nat.lor (m1.getF f) (2 ^ (k % 64)))
      let m3 := if m.bit (Reg.PMC_CFG.ovf_ev k) then m2.raise src else m2
      if m.bit (Reg.PMC_CFG.ovf_frz k) then { m3 with pmc := { m3.pmc with frzAt := some m3.pilot } }.setF Reg.PMC_CTRL.freeze 1 else m3

/-- Is the power domain that holds a group of counters on, with its clock running (20 R468; 18 Tables 18-1, 18-2)? A partition's clock stops
in W1; the memory system and the collective processors lie in PD08, the ports in PD11, the Hamper in PD16, the sequencer in PD10 and the
host interface in PD15 (the place of the collective processors is DEDUCED, log 33). -/
def Module.groupOn (m : Module) (g : Nat × Nat × Nat) : Bool :=
  let on (k : Nat) : Bool := Nat.testBit (m.getF Reg.PWR_DOM.on) k
  if g.1 < 128 then on (g.1 / 16) && m.getF Reg.PWR_STATE.state == 0
  else match g.1 with
    | 192 => on 11
    | 224 => on 16
    | 240 => on 10
    | 256 => on 15
    | _ => on 8

/-- Count `n` occurrences of an event of a group (20 R468, R469, R477). -/
def Module.count (m : Module) (g : Nat × Nat × Nat) (code n : Nat) (e : Ev) : Module :=
  if !m.bit Reg.PMC_CTRL.enable || m.bit Reg.PMC_CTRL.freeze || n = 0 || !m.groupOn g then m
  else
    m.each (List.range g.2.1) (fun m i =>
      let k := g.1 + i
      if m.bit (Reg.PMC_CFG.en k) && m.getF (Reg.PMC_CFG.event k) == code && !(k % 2 == 1 && m.bit (Reg.PMC_CFG.chain k))
          && m.pmcPass k e then m.pmcBump g.2.2 k n 2 else m)

/-! ### The pilot clock (18 R438) -/

/-- The processor kind of a thread's key in `Module.threads`. -/
def keyKind (k : Nat) : Nat := k / 16384

/-- The pseudo-channels that are held. -/
def Module.heldCount (m : Module) : Nat :=
  (List.range 512).foldl (fun n pc => if Nat.testBit (m.getF (Reg.MEM_HOLD.held (pc / 64))) (pc % 64) then n + 1 else n) 0

/-! Frames and credit (13 R308, R309), which a counter looks at. -/

/-- Payload units of a packet: the 32-byte header and its data. -/
def packetUnits (p : Packet) : Nat := 1 + (p.data.length + 31) / 32

/-- The virtual channel of a frame, or the order that the OOS frames keep beside the channels (13 R310). -/
def FrameBody.vc : FrameBody → Nat
  | .data v _ => v
  | .rescue v _ _ _ => v
  | .oos _ => 8
  | _ => 0

def FrameBody.units : FrameBody → Nat
  | .data _ p => packetUnits p
  | .rescue _ _ _ p => packetUnits p
  | _ => 0

/-- The sender's credit on a VC (13 R309), modulo 2¹⁶. -/
def Port.credit (x : Port) (v : Nat) : Nat :=
  (x.init.getD v 0 + x.got.getD v 0 + 2 ^ 16 - x.units.getD v 0 % 2 ^ 16) % 2 ^ 16

/-- The compute cores that hold threads, each with its context (02 R26). -/
def Module.heldCores (m : Module) : List (Nat × Nat) :=
  m.threads.foldl (fun l e => if e.1 < 16384 && e.2.run != .free && !l.any (fun x => x.1 == e.1 / 8) then (e.1 / 8, e.2.ctx) :: l
    else l) []

/-- The core cycles of `d` pilot ticks, 40 to a tick (18 Table 18-1): with the fast clock running, and with the matrix queue full. A core
that holds threads counts for their context, and any other for none. -/
def Module.countCycles (m : Module) (d : Nat) : Module :=
  let ev (g : Nat) (c : Option Nat) : Ev := { Ev.none with ctx := c, master := some 0, unit := some (g % 16) }
  let powered (c : Nat) : Bool := m.groupOn (pmcPart (c / 256))
  let runs (c : Nat) : Bool := powered c && (SMap.get Core.empty m.cores c).clockOn
  let busy := m.heldCores.filter (fun x => runs x.1)
  let m1 := m.each (List.range 128) (fun m g =>
    let idle := 16 - ((m.cores.filter (fun e => e.1 / 16 == g && !e.2.clockOn)).length + (busy.filter (fun x => x.1 / 16 == g)).length)
    if powered (16 * g) then m.count (pmcPart (g / 16)) 1 (40 * d * idle) (ev g Option.none) else m)
  let m2 := m1.each busy (fun m x => m.count (pmcPart (x.1 / 256)) 1 (40 * d) (ev (x.1 / 16) (some x.2)))
  m2.each (m.cores.filter (fun e => 16 ≤ e.2.mq.length && runs e.1)) (fun m e =>
    m.count (pmcPart (e.1 / 256)) 6 (40 * d) (ev (e.1 / 16) ((busy.find? (fun x => x.1 == e.1)).map (fun x => x.2))))

/-- The events that are counted by the tick (20 Table 20-2): core cycles, held channels, ports with a frame that waits for credit, a problem
running. -/
def Module.countSpan (m : Module) (d : Nat) : Module :=
  let short (x : Port) : List Nat := (x.txq.filter (fun b => x.credit b.vc < b.units)).map FrameBody.vc
  let m1 := m.countCycles d
  let m2 := m1.count pmcMem 7 (d * m.heldCount) Ev.none
  let m3 := m2.each (m.fab.ports.filter (fun e => !(short e.2).isEmpty)) (fun m e =>
    m.count pmcFab 4 d { Ev.none with unit := some e.1, cls := short e.2 })
  if m.sq.runs.isEmpty then m3 else m3.count pmcSq 3 d Ev.none

/-- The least number of ticks in (lo, hi] whose counting freezes the counters, when that of `hi` does: the interval is halved. -/
def Module.freezeAt (m : Module) (lo hi : Nat) : Nat → Nat
  | 0 => hi
  | fuel + 1 =>
    if hi ≤ lo + 1 then hi
    else
      let mid := (lo + hi) / 2
      if (m.countSpan mid).bit Reg.PMC_CTRL.freeze then m.freezeAt lo mid fuel else m.freezeAt mid hi fuel

/-- The events of `d` ticks. An overflow that freezes the counters stops all of them in the tick in which it comes (R477): the ticks before
it are counted for every counter, then that one. -/
def Module.countTicks (m : Module) (d : Nat) : Module :=
  if !m.bit Reg.PMC_CTRL.enable || m.bit Reg.PMC_CTRL.freeze then m
  else
    let all := m.countSpan d
    if all.bit Reg.PMC_CTRL.freeze then (m.countSpan (m.freezeAt 0 d 64 - 1)).countSpan 1 else all

/-- The registers' bits of access W1S (00 Table 0-3). -/
def w1sFlds : List Fld :=
  [Reg.MEM_TP_CMD.start, Reg.PMC_CTRL.snap, Reg.PMC_WIN.start, Reg.LMP_MBX_CMD.go] ++ (List.range 16).map Reg.FAB_PSTAT.retrain ++
  (List.range 8).map Reg.PART_CMD.reset

/-- Hardware clears the W1S bits at the first pilot tick after the write that set them (00 R9, R11; the tables give no time: DESIGN CHOICE,
log 74). -/
def Module.clearStarts (m : Module) : Module :=
  let ks := w1sFlds.map (fun f => f.key)
  if m.fields.any (fun e => ks.contains e.1) then { m with fields := SMap.keep m.fields (fun k => !ks.contains k) } else m

/-! ### Telemetry (23 R547-R549) -/

/-- The conditions under which ALIVE_Oj toggles: a module that is out of service toggles it only until its exit ends (13 R328, R331). -/
def Module.aliveRuns (m : Module) : Bool :=
  m.bit Reg.FAB_QUAD.in_quad && m.bit Reg.FAB_QUAD.sb_en && m.pwr.standby && m.fab.aliveOn && (!m.oos || m.fab.exitAt.isSome) &&
    decide (m.pilot ≤ m.fab.beatAt + 100000)

/-- Main power good (23 R539): the main converter regulates. Entry to W4 stops it, by request, and a wake starts it again. -/
def Module.mainOn (m : Module) : Bool := m.pwr.mainGood && !(m.getF Reg.PWR_STATE.state == 4 && m.pwr.wake.isNone)

/-- The flags byte of the telemetry block. -/
def Module.telemetryFlags (m : Module) : Nat :=
  (if m.mainOn then 1 else 0) + (if m.pwr.throttled then 2 else 0) + (if m.pwr.tripped then 4 else 0) +
  (if m.oos then 8 else 0) + (if m.aliveRuns then 16 else 0)

/-- The state byte of the telemetry block. -/
def Module.telemetryState (m : Module) : Nat := if m.mainOn then m.getF Reg.PWR_STATE.state else 0xFF

/-- MGMT_ALERT_N is driven low while any of the flags 1-3 is set. -/
def Module.alertN (m : Module) : Bool := m.telemetryFlags / 2 % 8 == 0

/-- The block of Table 23-8; what the monitors measure is free. -/
def Module.telemetry (m : Module) : List Byte :=
  let x (off n : Nat) : List Byte := leBytes n (Config.sensor m.pilot off)
  leBytes 8 (m.getF Reg.SEC_DEVSN.serial) ++ leBytes 1 (m.getF Reg.HMP_ID.flash_tib) ++ leBytes 1 m.telemetryState ++
  x 0x0A 2 ++ x 0x0C 2 ++ x 0x0E 2 ++ x 0x10 1 ++ x 0x11 1 ++ leBytes 1 m.telemetryFlags ++ List.replicate 13 0#8

/-- The block is refreshed every 25,000 ticks: `t` is PILOT before the ticks that have passed. -/
def Module.refresh (m : Module) (t : Nat) : Module :=
  if t / 25000 = m.pilot / 25000 then m else { m with pwr := { m.pwr with telem := m.telemetry } }

/-! ### A pilot tick -/

/-- Can a thread run: not free, stopped or waiting (02 R47, 15 R379)? -/
def Thread.runnable (t : Thread) : Bool := t.run == .running || t.run == .paused

/-- Does the module do what restarts its idle period (18 R444): a compute thread is runnable, or a problem runs (log 43)? -/
def Module.active (m : Module) : Bool := m.threads.any (fun e => keyKind e.1 == 0 && e.2.runnable) || !m.sq.runs.isEmpty

/-- The idle period starts now, and every state may count a refusal again (18 R446). -/
def Module.idleFrom (m : Module) : Module := { m with pwr := { m.pwr with idleSince := m.pilot, refused := [] } }

/-- Are submissions held: during an entry of W3 or W4, and until its exit ends (18 R447, Table 18-6)? -/
def Module.subHeld (m : Module) : Bool :=
  (m.bit Reg.PWR_STATE.entering && decide (3 ≤ m.getF Reg.PWR_STATE.target)) || decide (3 ≤ m.getF Reg.PWR_STATE.state)

/-- The writes of counters in this pilot tick are past (20 R478). -/
def Module.noWrites (m : Module) : Module := if m.pmc.wrote.isEmpty then m else { m with pmc := { m.pmc with wrote := [] } }

/-- The instances that a done left to this tick are evaluated (19 R461). -/
def Module.evalDue (m : Module) : Module :=
  if m.evc.due.isEmpty then m else { m with evc := { m.evc with due := [] } }.each m.evc.due Module.evalInst

/-- A link that trains is in L0 by the next pilot tick (22 R532; the spec gives no time: DESIGN CHOICE, log 58). -/
def Module.linkTrained (m : Module) : Module := if m.getF Reg.HIF_LINK.state = 1 then m.setF Reg.HIF_LINK.state 2 else m

/-- `d` pilot ticks pass: PILOT, the service ticks (16 R416), telemetry, and with main power the counters, the time in the Wick state, the idle period
and the instances that wait for a tick. -/
def Module.pass (m : Module) (d : Nat) : Module :=
  if d = 0 then m
  else if !m.pwr.mainGood then ({ m with pilot := m.pilot + d }.addF Reg.LMP_SVC_TICKS.ticks d).refresh m.pilot
  else
    let m1 := (((m.countTicks d).clearStarts).noWrites).linkTrained
    let m2 := ({ m1 with pilot := m1.pilot + d }.addF Reg.LMP_SVC_TICKS.ticks d).addF (Reg.PWR_RES.ticks (m.getF Reg.PWR_STATE.state)) d
    ((if m.active then m2.idleFrom else m2).refresh m.pilot).evalDue

/-- Advance PILOT to a due tick (04 Table 4-8, 18 R438); it never runs backwards. -/
def Module.toTick (m : Module) (t : Nat) : Module := m.pass (t - m.pilot)

/-! ### Violations (22 R530) -/

/-- Charge one permission violation to a context; `unit` as in HIF_VLOG. -/
def Module.violate (m : Module) (ctx unit addr : Nat) : Module :=
  ((m.addF (Reg.HIF_VIOL.count ctx) 1).setF (Reg.HIF_VLOG.unit ctx) unit).setF (Reg.HIF_VLOG.address ctx) addr

/-- Charge `n` violations at one address. -/
def Module.violateN (m : Module) (ctx unit addr n : Nat) : Module :=
  if n = 0 then m else
  ((m.addF (Reg.HIF_VIOL.count ctx) n).setF (Reg.HIF_VLOG.unit ctx) unit).setF (Reg.HIF_VLOG.address ctx) addr

/-! ### Contexts -/

def Module.ctx (m : Module) (n : Nat) : Context := SMap.get Context.empty m.ctxs n

def Module.setCtx (m : Module) (n : Nat) (c : Context) : Module := { m with ctxs := SMap.set Context.empty m.ctxs n c }

/-- HIF_CTXSTAT.state: 0 free, 1 live, 2 dying (22 Table 22-8). -/
def Module.ctxState (m : Module) (n : Nat) : Nat := m.getF (Reg.HIF_CTXSTAT.state n)

def Module.ctxLive (m : Module) (n : Nat) : Bool := m.ctxState n == 1

/-- The live context that holds a job ID (02 R31, R40). -/
def Module.jobCtx (m : Module) (job : Nat) : Option Nat :=
  (List.range 64).find? (fun n => m.ctxState n != 0 && m.getF (Reg.HIF_CTXSTAT.job n) == job)

/-- The context makes progress (16 R399): its watchdog count restarts and the watchdog is ARMED again (16 R401). There are 64 watchdogs. -/
def Module.progress (m : Module) (n : Nat) : Module :=
  let c := m.ctx n
  let m1 := m.setCtx n { c with wdSince := m.pilot }
  if m.getF (Reg.LMP_WDOG.state (n % 64)) < 2 then m1 else m1.setF (Reg.LMP_WDOG.state (n % 64)) 1

/-! ### Cache (12 R279) -/

/-- Who makes an access, for the counters and the request class (12 R287, 20 R470). -/
structure Who where
  ctx : Nat
  master : Nat
  lc : Bool
  deriving DecidableEq, Repr

/-- The originating processor of an access for the counters; none (8) for a request from another device (20 R471). The engines of the
Hamper die (9) are engines of the module (7) as the filters see them. -/
def Who.origin (w : Who) : Option Nat := if w.master < 8 then some w.master else if w.master = 9 then some 7 else Option.none

/-- Does the access come from the Hamper die: from an update core or from an engine there (11 R248)? -/
def Who.onHamper (w : Who) : Bool := w.master == 1 || w.master == 9

/-- The set of a line in its slice: 1,024 sets of 16 ways (12 R279); the index is the model's (DESIGN CHOICE, log 10). -/
def cacheSet (pc line : Nat) : Nat := pc / 8 * 1024 + (line * 8 + pc % 8) % 1024

/-- Does the sector hit in its home slice? -/
def Module.cacheHit (m : Module) (pc off : Nat) : Bool :=
  (SMap.get [] m.ms.sets (cacheSet pc (off / 256))).any
    (fun l => l.pc == pc && l.line == off / 256 && Nat.testBit l.valid (off % 256 / 32))

/-- Bits set in a sector mask. -/
def sectorCount (x : Nat) : Nat := ((List.range 8).filter (fun i => Nat.testBit x i)).length

/-- The counter event of a request to HBM: who makes it, its class (12 R287: a read of class LC, or bulk) and its physical address. -/
def Module.memEv (m : Module) (w : Who) (pc off : Nat) (write : Bool) : Ev :=
  { ctx := some w.ctx, master := w.origin, unit := Option.none, cls := [if w.lc && !write then 0 else 1],
    phys := some (physAt (spreadShare m.carveL) pc off) }

/-- The dirty sectors of lines are written back, of the bulk class and for no context (12 R279, R287; 20 R471). -/
def Module.writeBacks (m : Module) (ls : List Line) : Module :=
  m.each ls (fun m l => m.count pmcMem 2 (sectorCount l.dirty)
    { Ev.none with cls := [1], phys := some (physAt (spreadShare m.carveL) l.pc (l.line * 256)) })

/-- One lookup of a sector: the line becomes the most recent of its set, the least recent is evicted beyond 16 ways and
its dirty sectors are written back (12 R279); the lookup and the sector traffic are counted (20 Table 20-2). -/
def Module.cacheTouch (m : Module) (w : Who) (pc off : Nat) (write whole : Bool) : Module :=
  let line := off / 256
  let bit := 2 ^ (off % 256 / 32)
  let key := cacheSet pc line
  let set := SMap.get [] m.ms.sets key
  let hit := m.cacheHit pc off
  let old := (set.find? (fun l => l.pc == pc && l.line == line)).getD { pc := pc, line := line, valid := 0, dirty := 0 }
  let rest := set.filter (fun l => !(l.pc == pc && l.line == line))
  let new : Line := { old with valid := Nat.lor old.valid bit, dirty := if write then Nat.lor old.dirty bit else old.dirty }
  let kept := (new :: rest).take 16
  let ev := m.memEv w pc off write
  let m1 := m.setMs { m.ms with sets := SMap.set [] m.ms.sets key kept }
  let m2 := m1.count pmcMem (if hit then 3 else 4) 1 ev
  let m3 := if hit || whole then m2 else m2.count pmcMem 1 1 ev
  m3.writeBacks ((new :: rest).drop 16)

/-- Is a pseudo-channel held (12 R293)? -/
def Module.held (m : Module) (pc : Nat) : Bool := Nat.testBit (m.getF (Reg.MEM_HOLD.held (pc / 64))) (pc % 64)

def Module.setHeld (m : Module) (pc : Nat) (h : Bool) : Module :=
  let f := Reg.MEM_HOLD.held (pc / 64)
  let v := m.getF f
  if Nat.testBit v (pc % 64) = h then m else m.setF f (Nat.xor v (2 ^ (pc % 64)))

/-- Does an earlier request to the sector wait already (12 R289)? -/
def Module.sectorWaits (m : Module) (pc off : Nat) : Bool :=
  m.ms.waiting.any (fun e => match e.place with | .hbm q o => q == pc && o / 32 == off / 32 | _ => false)

/-- Must an access wait for a hold: its channel is held, and it misses in the slice or follows a request to the sector that waits
(12 R280, R289, R293)? -/
def Module.mustWait (m : Module) (p : Place) : Bool :=
  match p with
  | .hbm pc off => m.held pc && (!m.cacheHit pc off || m.sectorWaits pc off)
  | _ => false

/-- Count the bytes of an access of HBM that cross the die-to-die link: those of the Hamper die. -/
def Module.far (m : Module) (w : Who) (n : Nat) (write : Bool) : Module :=
  if w.onHamper then m.count pmcHmp (if write then 4 else 3) n { Ev.none with ctx := some w.ctx, master := w.origin } else m

/-- Count an access of `n` bytes at a place (20 Table 20-2): the slice lookups, the host memory bytes, the capacity-tier bytes, and the
bytes that cross the die-to-die link, on whose far side the Hamper and the capacity tier stand. -/
def Module.touch (m : Module) (w : Who) (p : Place) (n : Nat) (write : Bool) : Module :=
  let ev : Ev := { Ev.none with ctx := some w.ctx, master := w.origin }
  match p with
  | .hbm pc off =>
    (m.each (List.range ((off % 32 + n + 31) / 32))
      (fun m i => m.cacheTouch w pc (off / 32 * 32 + 32 * i) write (off % 32 == 0 && n % 32 == 0))).far w n write
  | .host a => (if m.linkUp then m.count pmcHost (if write then 2 else 1) n { ev with phys := some (2, 0, a) } else m).far w n write
  | .ctier _ =>
    let m1 := m.count pmcHmp 5 n ev
    if w.onHamper then m1 else m1.count pmcHmp (if write then 3 else 4) n ev
  | _ => m

/-! ### Sector requests (05 R126; 12 R279, R291) -/

/-- Distinct values of a list, in the order of their first places. -/
def distinct (l : List Nat) : List Nat := l.foldl (fun r x => if r.contains x then r else r ++ [x]) []

/-- The place `i` bytes further on in the same memory. -/
def Place.plus (p : Place) (i : Nat) : Place :=
  match p with
  | .hbm pc off => .hbm pc (off + i)
  | .ctier a => .ctier (a + i)
  | .host a => .host (a + i)
  | .store c off => .store c (off + i)
  | .hstore c off => .hstore c (off + i)

/-- The 32-byte sector that a place outside core store lies in, by number, and the place's byte in it. -/
def Place.sector : Place → Option (Nat × Nat)
  | .hbm pc off => some (hbmKey pc off / 32, off % 32)
  | .ctier a => some (512 * pcBytes / 32 + a / 32, a % 32)
  | .host a => some (2 ^ 50 + a / 32, a % 32)
  | _ => none

/-- Has a sector been requested already in an access, whose requested sectors are listed; and the list with it. -/
def Place.request (p : Place) (asked : List Nat) : Bool × List Nat :=
  match p.sector with
  | some s => if asked.contains s.1 then (false, asked) else (true, s.1 :: asked)
  | none => (true, asked)

/-- The bytes that a list of pieces covers, by sector, as masks. Each piece is a place and a size and lies in one sector. -/
def coverOf (l : List (Place × Nat)) : SMap Nat :=
  l.foldl (fun c x =>
    match x.1.sector with
    | some s => SMap.set 0 c s.1 (Nat.lor (SMap.get 0 c s.1) ((2 ^ x.2 - 1) * 2 ^ s.2))
    | none => c) []

/-- Do the pieces cover the whole sector of a place? -/
def coversAll (c : SMap Nat) (p : Place) : Bool :=
  match p.sector with
  | some s => SMap.get 0 c s.1 % 2 ^ 32 == 2 ^ 32 - 1
  | none => false

/-- The poison mark of a place's sector is cleared. -/
def Module.clearMark (m : Module) (p : Place) : Module :=
  match p with
  | .hbm pc off => m.setMs { m.ms with poison := SMap.set false m.ms.poison (hbmKey pc off / 32) false }
  | .ctier a => m.setMs { m.ms with ctPoison := SMap.set false m.ms.ctPoison (a / 32) false }
  | _ => m

/-- Count one piece of an access: only the first piece of a sector request looks the sector up. -/
def Module.askPiece (m : Module) (w : Who) (p : Place) (n : Nat) (write lead whole : Bool) : Module :=
  match p with
  | .hbm pc off => (if lead then m.cacheTouch w pc off write whole else m).far w n write
  | _ => m.touch w p n write

/-- Write one piece of an access; `whole` says that its pieces cover the sector. -/
def Module.putPiece (m : Module) (w : Who) (p : Place) (n v : Nat) (lead whole : Bool) : Module :=
  let m1 := (m.askPiece w p n true lead whole).writePlace p n v
  if whole then m1.clearMark p else m1

/-- Write the pieces of one access in order, with one request for each sector (05 R126). -/
def Module.putPieces (m : Module) (w : Who) (l : List (Place × Nat × Nat)) : Module :=
  let c := coverOf (l.map (fun x => (x.1, x.2.1)))
  (l.foldl (fun (r : Module × List Nat) x =>
    let q := x.1.request r.2
    (r.1.putPiece w x.1 x.2.1 x.2.2 q.1 (coversAll c x.1), q.2)) (m, [])).1

/-- Count the pieces of one read, with one request for each sector. -/
def Module.askPieces (m : Module) (w : Who) (l : List (Place × Nat)) : Module :=
  (l.foldl (fun (r : Module × List Nat) x =>
    let q := x.1.request r.2
    (r.1.askPiece w x.1 x.2 false q.1 false, q.2)) (m, [])).1

/-! ### Translation (02 R32-R37, R551) -/

/-- Kinds of access (02 R37). -/
inductive Access where
  | load | store | fetch | atomic
  deriving DecidableEq, Repr

/-- What translation answers: a place and its lc bit, a permission violation, or a fault cause (02 Table 2-4). -/
inductive Xlat where
  | ok (p : Place) (lc : Bool)
  | viol
  | fault (cause : Nat)
  deriving DecidableEq, Repr

def cNotMapped : Nat := 1
def cBadPte : Nat := 2
def cNonCanonical : Nat := 3
def cMedia : Nat := 6

/-- Does a leaf entry fit its page size and its space (02 R36, 12 R276)? -/
def Module.leafOk (m : Module) (e : Nat) (big : Bool) : Bool :=
  let frame := e % 2 ^ 48 / 2 ^ 21 * 2 ^ 21
  let size := if big then 2 ^ 30 else 2 ^ 21
  let target := e / 2 ^ 57 % 4
  let inter := e / 2 ^ 56 % 2
  let part := e / 2 ^ 53 % 8
  e / 2 ^ 48 % 16 == 0 && e % 2 ^ 21 == 0 && target != 3 && (!big || frame % 2 ^ 30 == 0) &&
  (match target with
   | 0 => decide (frame + size ≤ (if inter = 1 then m.localBytes else m.spreadBytes))
   | 1 => inter == 0 && part == 0 && decide (frame + size ≤ 2 ^ 40)
   | _ => true)

/-- Walk the two-level table of a context for a 48-bit address (02 R34-R36, R551). -/
def Module.walk (m : Module) (ctx va : Nat) : Walk :=
  let root := (m.ctx ctx).root
  if root = 0 then .fault cNotMapped
  else
    let p1 := Place.spread (root + va / 2 ^ 30 * 8)
    if m.badPlace p1 8 then .fault cMedia
    else
      let e := m.readPlace p1 8
      if e / 2 ^ 63 = 0 then .fault cNotMapped
      else if e / 2 ^ 62 % 2 = 1 then
        if m.leafOk e true then .page (BitVec.ofNat 64 e) true else .fault cBadPte
      else
        let table := e % 2 ^ 48 / 2 ^ 12 * 2 ^ 12
        if e / 2 ^ 48 % 16 != 0 || e % 2 ^ 12 != 0 || decide (m.spreadBytes < table + 4096) then .fault cBadPte
        else
          let p2 := Place.spread (table + va / 2 ^ 21 % 512 * 8)
          if m.badPlace p2 8 then .fault cMedia
          else
            let e2 := m.readPlace p2 8
            if e2 / 2 ^ 63 = 0 then .fault cNotMapped
            else if e2 / 2 ^ 62 % 2 = 0 then .fault cBadPte
            else if m.leafOk e2 false then .page (BitVec.ofNat 64 e2) false else .fault cBadPte

/-- The page-table entries that a walk reads, in order (02 R34). -/
def Module.walkPlaces (m : Module) (ctx va : Nat) : List Place :=
  let root := (m.ctx ctx).root
  if root = 0 then []
  else
    let p1 := Place.spread (root + va / 2 ^ 30 * 8)
    let e := m.readPlace p1 8
    let table := e % 2 ^ 48 / 2 ^ 12 * 2 ^ 12
    if m.badPlace p1 8 || e / 2 ^ 63 = 0 || e / 2 ^ 62 % 2 = 1 || e / 2 ^ 48 % 16 != 0 || e % 2 ^ 12 != 0 ||
      decide (m.spreadBytes < table + 4096) then [p1]
    else [p1, Place.spread (table + va / 2 ^ 21 % 512 * 8)]

/-- The place of an address under a leaf entry, when the entry permits the access (02 R35, R37). -/
def Module.pagePlace (m : Module) (pte : Word) (big : Bool) (va : Nat) (acc : Access) : Xlat :=
  let e := pte.toNat
  let rd := e / 2 ^ 61 % 2 == 1
  let wr := e / 2 ^ 60 % 2 == 1
  let ex := e / 2 ^ 59 % 2 == 1
  let ok := match acc with
    | .load => rd
    | .store => wr
    | .fetch => ex
    | .atomic => rd && wr
  if !ok then .viol
  else
    let frame := e % 2 ^ 48 / 2 ^ 21 * 2 ^ 21
    let pa := frame + (if big then va % 2 ^ 30 else va % 2 ^ 21)
    let lc := e / 2 ^ 52 % 2 == 1
    match e / 2 ^ 57 % 4 with
    | 0 =>
      if e / 2 ^ 56 % 2 = 0 then .ok (.spread pa) lc
      else
        let r := localMap (spreadShare m.carveL) pa (e / 2 ^ 53 % 8)
        .ok (.hbm r.1 r.2) lc
    | 1 => .ok (.ctier pa) false
    | _ => .ok (.host pa) false

/-- The start of the core-local window (02 R33). -/
def windowBase : Nat := 0xFFFFC0000000

/-- Translate an address for an engine acting in a context: no core store lies behind it (02 R33), nor behind a global access, also one of a
thread to its own device (DESIGN CHOICE, log 37). -/
def Module.ctxXlat (m : Module) (ctx va : Nat) (acc : Access) : Xlat :=
  if windowBase ≤ va then .viol
  else match m.walk ctx va with
    | .fault c => .fault c
    | .page pte big => m.pagePlace pte big va acc

/-! ### Threads and cores by number -/

def ProcKind.num : ProcKind → Nat
  | .compute => 0 | .hamper => 1 | .sequencer => 2 | .collective => 3 | .lamplighter => 4 | .security => 5

/-- The key of a thread in `Module.threads`. -/
def ThreadId.key (t : ThreadId) : Nat := (ProcKind.num t.kind * 2048 + t.core.val) * 8 + t.thread.val

def keyCore (k : Nat) : Nat := k / 8 % 2048
def keyThread (k : Nat) : Nat := k % 8

def Module.th (m : Module) (k : Nat) : Thread := SMap.get Thread.empty m.threads k

def Module.setTh (m : Module) (k : Nat) (t : Thread) : Module := { m with threads := SMap.set Thread.empty m.threads k t }

/-- The key of a core: kind × 2048 + number. -/
def Module.core (m : Module) (c : Nat) : Core := SMap.get Core.empty m.cores c

def Module.setCore (m : Module) (c : Nat) (x : Core) : Module := { m with cores := SMap.set Core.empty m.cores c x }

/-- The partition of a global core number (01 Table 1-2). -/
def partOf (core : Nat) : Nat := core / 256

/-- Does the walk of a thread's access wait for a held channel (12 R293)? -/
def Module.walkHeld (m : Module) (k va : Nat) : Bool :=
  decide (va < windowBase) && (SMap.get none (m.core (k / 8)).tlb (va / 2 ^ 21)).isNone &&
  (m.walkPlaces (m.th k).ctx va).any m.mustWait

/-- Translate for a thread: canonical check, core-local window, then the core's cached translations (02 R32, R33, R38); a walk looks up
the sectors of the entries that it reads (12 R279). -/
def Module.thXlat (m : Module) (k va : Nat) (acc : Access) : Module × Xlat :=
  if 2 ^ 48 ≤ va then (m, .fault cNonCanonical)
  else if windowBase ≤ va then
    let off := va - windowBase
    if off < storeBytes && keyKind k == 0 then (m, .ok (.store (keyCore k) off) false)
    else if off < storeBytes && keyKind k == 1 then (m, .ok (.hstore (keyCore k) off) false)
    else (m, .viol)
  else
    let ck := k / 8
    let c := m.core ck
    let w := (SMap.get none c.tlb (va / 2 ^ 21)).getD (m.walk (m.th k).ctx va)
    let keep := match w with | .fault 6 => none | x => some x
    let m0 := if (SMap.get none c.tlb (va / 2 ^ 21)).isSome then m
      else m.askPieces { ctx := (m.th k).ctx, master := keyKind k, lc := false } ((m.walkPlaces (m.th k).ctx va).map (fun p => (p, 8)))
    let m1 := m0.setCore ck { c with tlb := SMap.set none c.tlb (va / 2 ^ 21) keep }
    match w with
    | .fault cause => (m1, .fault cause)
    | .page pte big => (m1, m.pagePlace pte big va acc)

/-! ### Fault records (02 R50-R53, 22 R528) -/

/-- Records in context n's ring, and its capacity; a base of zero leaves it always full (22 R528). -/
def Module.ringFull (m : Module) (n : Nat) : Bool :=
  m.getF (Reg.HIF_FRING.base n) == 0 ||
  (m.getF (Reg.HIF_FPTR.head n) + 2 ^ 32 - m.getF (Reg.HIF_FPTR.tail n)) % 2 ^ 32 == 2 ^ (m.getF (Reg.HIF_FRING.size n) + 4)

/-- Write one record at the head of context n's ring and raise its source (22 R528). -/
def Module.putRecord (m : Module) (n : Nat) (r : FaultRec) : Module :=
  let a := m.getF (Reg.HIF_FRING.base n) * 4096 + m.getF (Reg.HIF_FPTR.head n) % 2 ^ (m.getF (Reg.HIF_FRING.size n) + 4) * 32
  let m1 := ((((m.writePlace (.host a) 8 r.w0.toNat).writePlace (.host (a + 8)) 8 r.w1.toNat).writePlace (.host (a + 16)) 8
    r.w2.toNat).writePlace (.host (a + 24)) 8 r.w3.toNat).touch { ctx := n, master := 6, lc := false } (.host a) 32 true
  (m1.addF (Reg.HIF_FPTR.head n) 1).raise (256 + n)

/-- A fault record of context n: written, or kept until the ring has room (02 R53); a dead context writes none
(15 R396). -/
def Module.faultRecord (m : Module) (n : Nat) (r : FaultRec) : Module :=
  if !m.ctxLive n then m
  else if m.ringFull n then
    let c := m.ctx n
    m.setCtx n { c with waitRecs := c.waitRecs ++ [r] }
  else m.putRecord n r

/-- Write waiting records while the ring has room (02 R53). `fuel` is the number that wait. -/
def Module.drainRecords (m : Module) (n : Nat) : Nat → Module
  | 0 => m
  | fuel + 1 =>
    match (m.ctx n).waitRecs with
    | [] => m
    | r :: t =>
      if m.ringFull n then m
      else Module.drainRecords ((m.setCtx n { m.ctx n with waitRecs := t }).putRecord n r) n fuel

/-- The record of Table 2-4: the device only for the causes 0x04 and 0x05. -/
def mkRecord (addr cause ctx core thread vidx instr device : Nat) : FaultRec :=
  { w0 := BitVec.ofNat 64 (addr % 2 ^ 48),
    w1 := BitVec.ofNat 64 (cause % 256 * 2 ^ 56 + ctx % 64 * 2 ^ 50 + core % 2048 * 2 ^ 39 + thread % 8 * 2 ^ 36 + vidx % 256),
    w2 := BitVec.ofNat 64 (instr % 2 ^ 48),
    w3 := BitVec.ofNat 64 (if cause = 4 || cause = 5 then device % 2 ^ 16 else 0) }

/-- The Hamper fault ring (11 R269): full, and one record. -/
def Module.hmpRingFull (m : Module) : Bool :=
  (m.getF Reg.HMP_FPTR.head + 2 ^ 32 - m.getF Reg.HMP_FPTR.tail) % 2 ^ 32 == 2 ^ (m.getF Reg.HMP_FRING.size + 4)

/-- Write one record, in one write of a sector. The capacity tier has no byte beyond its 1 TiB, and a record there is lost (11 R249;
DESIGN CHOICE, log 64). -/
def Module.putHmpRecord (m : Module) (r : FaultRec) : Module :=
  let a := m.getF Reg.HMP_FRING.base * 4096 + m.getF Reg.HMP_FPTR.head % 2 ^ (m.getF Reg.HMP_FRING.size + 4) * 32
  let m1 := if 2 ^ 40 < a + 32 then m
    else ((((m.writePlace (.ctier a) 8 r.w0.toNat).writePlace (.ctier (a + 8)) 8 r.w1.toNat).writePlace (.ctier (a + 16)) 8
      r.w2.toNat).writePlace (.ctier (a + 24)) 8 r.w3.toNat).clearMark (.ctier a)
  (m1.addF Reg.HMP_FPTR.head 1).raise 226

/-! ### Engine reads and writes in a context -/

/-- What a unit that reads memory in a context met: values, a translation failure or poisoned sector, violations. -/
structure EngRead where
  words : List Nat
  bad : Bool
  viols : Nat
  deriving DecidableEq, Repr

/-- Read one word of `n` bytes in a context: a denied page reads zero and counts (02 R49); a translation failure, a
poisoned sector or an unreachable host is bad (02 R551, 12 R291, 22 R512). -/
def Module.engWord (m : Module) (ctx va n : Nat) : Nat × Bool × Nat :=
  match m.ctxXlat ctx va .load with
  | .fault _ => (0, true, 0)
  | .viol => (0, false, 1)
  | .ok p _ => if m.badPlace p n then (0, true, 0) else (m.readPlace p n, false, 0)

/-- Read `count` words of `n` bytes from consecutive addresses. -/
def Module.engRead (m : Module) (ctx va n count : Nat) : EngRead :=
  (List.range count).foldl (fun r i =>
    let (v, b, x) := m.engWord ctx (va + i * n) n
    { words := r.words ++ [v], bad := r.bad || b, viols := r.viols + x }) { words := [], bad := false, viols := 0 }

/-- A command or an instruction whose engine meets a held channel is not performed now: it is given again (12 R293). -/
def Module.again (m : Module) : Module := { m with retry := true }

/-- No channel is held. -/
def Module.noHolds (m : Module) : Bool := (List.range 8).all (fun n => m.getF (Reg.MEM_HOLD.held n) == 0)

/-- Run what needs memory: nothing of it is performed while one of its accesses waits for a held channel (12 R293; DESIGN CHOICE,
log 67). -/
def Module.whenOpen (m : Module) (f : Module → Module) : Module :=
  if m.noHolds then f m
  else
    let x := f { m with retry := false }
    if x.retry then m else x

/-- Who an engine's access is made by: 2 the sequencer, 3 a collective processor, 6 the host interface, 7 the other engines, 9 those of the
Hamper die, 8 none that Table 20-3 names; `lc` is its class (12 R287). -/
def engWho (ctx master : Nat) (lc : Bool) : Who := { ctx := ctx, master := master, lc := lc }

/-- The page-table reads of a walk: they wait for a held channel, and look their sectors up (12 R279, R293). -/
def Module.lookWalk (m : Module) (w : Who) (va : Nat) : Module :=
  let ps := m.walkPlaces w.ctx va
  if ps.any m.mustWait then m.again else m.askPieces { w with lc := false } (ps.map (fun p => (p, 8)))

/-- The walks of a list of addresses: one for each 2 MiB. -/
def Module.lookWalks (m : Module) (w : Who) (vas : List Nat) : Module :=
  m.each (distinct ((vas.filter (fun a => decide (a < windowBase))).map (fun a => a / 2 ^ 21))) (fun m g => m.lookWalk w (g * 2 ^ 21))

/-- The sectors of a byte range: (address, size). -/
def sectorCuts (va len : Nat) : List (Nat × Nat) :=
  (List.range ((va % 32 + len + 31) / 32)).map (fun i =>
    let lo := max va (va / 32 * 32 + 32 * i)
    (lo, min (va + len) (va / 32 * 32 + 32 * i + 32) - lo))

/-- The lookups of an engine's reads, one request for each sector; a held channel makes the command wait (12 R279, R287, R293). What the
reads give is read by `engWord`. -/
def Module.lookAt (m : Module) (w : Who) (l : List (Nat × Nat)) : Module :=
  let cuts := l.flatMap (fun q => sectorCuts q.1 q.2)
  let xs := cuts.filterMap (fun q => match m.ctxXlat w.ctx q.1 .load with | .ok p _ => some (p, q.2) | _ => none)
  let m1 := m.lookWalks w (cuts.map (fun q => q.1))
  if xs.any (fun x => m.mustWait x.1) then m1.again else m1.askPieces w xs

/-- The lookups of one range. -/
def Module.look (m : Module) (w : Who) (va len : Nat) : Module := m.lookAt w [(va, len)]

/-- Write pieces in a context as an engine, each an address, a size and a value, within one sector: a denied page is counted, a failed
translation ignored, a held channel makes the command wait. -/
def Module.engPut (m : Module) (w : Who) (l : List (Nat × Nat × Nat)) : Module :=
  let xs := l.map (fun q => (q, m.ctxXlat w.ctx q.1 .store))
  let ps := xs.filterMap (fun x => match x.2 with | .ok p _ => some (p, x.1.2) | _ => none)
  let m1 := m.lookWalks w (l.map (fun q => q.1))
  let m2 := if ps.any (fun x => m.mustWait x.1) then m1.again else m1.putPieces w ps
  m2.each (xs.filter (fun x => x.2 == .viol)) (fun m x => m.violate w.ctx 2 x.1.1)

/-- Write elements of `n` bytes at consecutive addresses. -/
def Module.engPutSeq (m : Module) (w : Who) (va n : Nat) (vs : List Nat) : Module :=
  m.engPut w (vs.zipIdx.map (fun x => (va + n * x.2, n, x.1)))

/-- The sequencer and the collective processors store one value in a context. -/
def Module.engStore (m : Module) (ctx master va n v : Nat) : Module := m.engPut (engWho ctx master false) [(va, n, v)]

/-- The sequencer stores a list of 8-byte words. -/
def Module.engStoreWords (m : Module) (ctx va : Nat) (ws : List Nat) : Module :=
  m.engPutSeq (engWho ctx 2 false) va 8 ws

/-! ### Completion records (15 R385-R388) -/

def sDone : Nat := 0
def sPartFailed : Nat := 3
def sCtxDead : Nat := 4
def sEpochStale : Nat := 5
def sGenMismatch : Nat := 6
def sPeerLost : Nat := 7
def sTimedOut : Nat := 8
def sViolation : Nat := 9

/-- The four words of a completion record (15 Table 15-4). -/
def recordWords (pilot status kind count parts : Nat) : List Nat :=
  [2 ^ 63 + status % 256 * 2 ^ 48 + kind % 256 * 2 ^ 40 + count % 2 ^ 40, parts % 2 ^ 64, pilot % 2 ^ 64, 0]

/-- The write of a sector waits in the queue of its held channel (12 R293). -/
def Module.queueWrite (m : Module) (w : Who) (l : List (Place × Nat × Nat)) : Module :=
  let c := coverOf (l.map (fun x => (x.1, x.2.1)))
  m.setMs { m.ms with waiting := m.ms.waiting ++ l.zipIdx.map (fun x =>
    { pc := (match x.1.1 with | .hbm pc _ => pc | _ => 0), thread := 0, outst := 0, place := x.1.1, va := 0, size := x.1.2.1,
      act := .store x.1.2.2, ctx := w.ctx, eng := true, master := w.master, tag := 0, lc := false, lead := x.2 == 0, whole := coversAll c x.1.1 }) }

/-- Who writes a record of a kind (15 Table 15-5): a transfer engine, the sequencer, a collective processor, an engine of the Hamper die, the
host interface, or, for a grid, none that Table 20-3 names. -/
def recordMaster (kind : Nat) : Nat :=
  match kind with
  | 2 => 7
  | 3 | 4 => 2
  | 5 => 3
  | 6 | 7 => 9
  | 8 | 9 => 6
  | _ => 8

/-- The places that writing a record reads and writes, in order: the entries of its walk and the record. -/
def Module.recordPlaces (m : Module) (ctx va : Nat) : List Place :=
  (if va < windowBase then m.walkPlaces ctx va else []) ++ (match m.ctxXlat ctx va .store with | .ok p _ => [p] | _ => [])

/-- Write a completion record at a virtual address of a live context, in one request of a sector (15 R385, R387): a translation failure
writes the fault record RECORD_LOST, a denied page is counted, a dead context writes none (15 R396). A record whose walk or whose own
channel is held waits there for the end of the hold, and is written then (12 R293). -/
def Module.completeAs (m : Module) (tag ctx va status kind count parts : Nat) : Module :=
  let w := engWho ctx (recordMaster kind) false
  if !m.ctxLive ctx then m
  else match (m.recordPlaces ctx va).find? m.mustWait with
    | some q =>
      m.setMs { m.ms with waiting := m.ms.waiting ++ [
        { pc := (match q with | .hbm pc _ => pc | _ => 0), thread := 0, outst := 0, place := q, va := va, size := 32,
          act := .record status kind count parts, ctx := ctx, eng := true, master := w.master, tag := tag, lc := false, lead := true,
          whole := true }] }
    | none =>
      let m1 := if va < windowBase then m.askPieces w ((m.walkPlaces ctx va).map (fun p => (p, 8))) else m
      match m.ctxXlat ctx va .store with
      | .fault _ => m1.faultRecord ctx (mkRecord va 0x0A ctx 0 0 0 0 0)
      | .viol => m1.violate ctx 2 va
      | .ok p _ =>
        (m1.putPieces w ((recordWords m.pilot status kind count parts).zipIdx.map (fun x => (p.plus (8 * x.2), 8, x.1)))).progress ctx

/-- A completion record that no queue orders. -/
def Module.complete (m : Module) (ctx va status kind count parts : Nat) : Module := m.completeAs 0 ctx va status kind count parts

/-! ### The step of a meaning -/

/-- Run a command's effect on everything but the queue (the rule of `exec`): an ill-formed command is refused, and the
outputs of the command before are gone. -/
def State.run (s : State) (ok : Bool) (f : Module → Module) : Host.Outcome State Fault Refusal :=
  if ok then .next { s with m := f { s.m with out := [] } } else .refused .illFormed

/-- Run a command that is well-formed by its operand types. -/
def State.go (s : State) (f : Module → Module) : Host.Outcome State Fault Refusal :=
  .next { s with m := f { s.m with out := [] } }

end Sys2Proof.Machine
end

