-- ==== Sys2Proof/Machine/Operands.lean ====
section
/-! DEFINITION. Every operand form of an Agquin instruction (04 R90-R92, 05 R106-R111, 04 Table 4-3): scalar registers and
pairs, vector elements, masks, immediates, and which registers an instruction waits for (04 R104). -/

namespace Sys2Proof.Machine

/-! ### Scalar registers (04 R90, R92) -/

/-- s0 reads as zero. -/
def Thread.getS (t : Thread) (r : Nat) : Word := if r = 0 then 0 else SMap.get 0 t.s r

/-- A write of s0 is ignored. -/
def Thread.setS (t : Thread) (r : Nat) (v : Word) : Thread := if r = 0 then t else { t with s := SMap.set 0 t.s r v }

def Thread.setSN (t : Thread) (r : Nat) (v : Nat) : Thread := t.setS r (BitVec.ofNat 64 v)

/-- An F64P in s(2k), s(2k+1) (03 R78). -/
def Thread.getPair64 (t : Thread) (r : Nat) : Nat × Nat := ((t.getS r).toNat, (t.getS (r + 1)).toNat)

def Thread.setPair64 (t : Thread) (r : Nat) (s e : Nat) : Thread := (t.setSN r s).setSN (r + 1) e

/-- An F32P in one register (03 R78). -/
def Thread.getPair32 (t : Thread) (r : Nat) : Nat × Nat := ((t.getS r).toNat % 2 ^ 32, (t.getS r).toNat / 2 ^ 32)

def Thread.setPair32 (t : Thread) (r : Nat) (s e : Nat) : Thread := t.setSN r (s % 2 ^ 32 + e % 2 ^ 32 * 2 ^ 32)

/-! ### Vector registers and masks (05 R106) -/

def Thread.getV (t : Thread) (r : Nat) : VReg := SMap.get 0 t.v r
def Thread.setV (t : Thread) (r : Nat) (x : VReg) : Thread := { t with v := SMap.set 0 t.v r x }
def Thread.getM (t : Thread) (r : Nat) : MReg := SMap.get 0 t.m r
def Thread.setM (t : Thread) (r : Nat) (x : MReg) : Thread := { t with m := SMap.set 0 t.m r x }

/-- Element i of width w. -/
def velem (x : VReg) (w i : Nat) : Nat := x.toNat / 2 ^ (w * i) % 2 ^ w

/-- Put an element. -/
def vput (x : VReg) (w i v : Nat) : VReg :=
  BitVec.ofNat 2048 (x.toNat - velem x w i * 2 ^ (w * i) + v % 2 ^ w * 2 ^ (w * i))

/-- Element count of a type code (05 R107). -/
def vCount (t : Nat) : Nat := 2048 / vWidth t

def vSigned (t : Nat) : Bool := decide (t < 4)

/-- The floating format of a type code; pairs name their component (05 Table 5-1). -/
def vFmt (t : Nat) : Fmt :=
  match t with
  | 8 => bf16 | 9 => fp16 | 10 => fp32 | 12 => fp32 | 14 => e4m3 | 15 => e5m2 | _ => fp64

/-- Is element i active under pm and mreg (05 R111)? -/
def Thread.active (t : Thread) (w : Word) (i : Nat) : Bool :=
  Word.slice w 3 3 == 0 || (t.getM (Word.slice w 2 0)).getLsbD i

/-- The elements an instruction performs: active and at or above VIDX (05 R98, R111). -/
def Thread.performs (t : Thread) (w : Word) (i : Nat) : Bool := decide (t.vidx.toNat ≤ i) && t.active w i

/-- Write results of elements into a destination of width `dw`: performed elements take their value, inactive ones at or
above VIDX become zero when z = 1, the rest keep theirs (05 R111). -/
def Thread.mergeV (t : Thread) (w : Word) (d dw n : Nat) (f : Nat → Nat) : VReg :=
  (List.range n).foldl (fun x i =>
    if t.performs w i then vput x dw i (f i)
    else if decide (t.vidx.toNat ≤ i) && Word.slice w 4 4 == 1 && !t.active w i then vput x dw i 0
    else x) (t.getV d)

/-! ### Rounding fields (03 R61, R63) -/

/-- The mode of an instruction: DYN is FSR.rm, which counts as RNE where SR is not accepted (03 R63). -/
def Thread.rmOf (t : Thread) (code : Nat) (srOk : Bool) : Rm :=
  let r := (Rm.ofCode code).getD ((Rm.ofCode t.frm.toNat).getD .rne)
  if r = .sr && !srOk then .rne else r

/-- The draw of an element under SR (03 R66, R67, 05 R114). -/
def Module.draw (m : Module) (t : Thread) (w : Word) (i : Nat) : Nat := drawOf (m.ctx t.ctx).seed t.srctr (Word.srtag w) i

/-- A 28-bit immediate, sign-extended. -/
def imm28 (w : Word) : Word := BitVec.ofInt 64 (signedOf 28 (Word.mod28 w))

/-- The 40-bit immediate [39:0], sign-extended. -/
def imm40 (w : Word) : Word := BitVec.ofInt 64 (signedOf 40 (Word.slice w 39 0))

/-! ### What an instruction waits for (04 R104) -/

/-- The two registers of a pair; s0 names none (04 R90, R92). -/
def pairUses (r : Nat) : List Nat := if r = 0 then [] else [r, r + 1]

/-- Scalar registers of an FP64 pair instruction, by its minor (04 Table 4-5): fadd.f64.p, fmul.f64.p and fma.f64.p have a pair for their
result only, padd.f64 has three pairs, pround.f64 one for its operand. -/
def pairFormS (minor d a b c : Nat) : List Nat :=
  match minor with
  | 0x13 => pairUses d ++ pairUses a ++ pairUses b
  | 0x14 => d :: pairUses a
  | _ => pairUses d ++ [a, b, c]

/-- Scalar registers that an instruction reads or writes. -/
def usesS (w : Word) : List Nat :=
  let mj := Word.major w
  let d := Word.rd w
  let a := Word.ra w
  let b := Word.rb w
  let c := Word.rc w
  match mj with
  | 0x03 => [d]
  | 0x04 => if 0x10 ≤ Word.minor w then pairFormS (Word.minor w) d a b c else [d, a, b, c]
  | 0x09 => if Word.minor w = 0 then [d] else [d, a]
  | 0x10 | 0x11 | 0x12 | 0x13 | 0x15 => []
  | 0x14 => [b]
  | 0x16 => if Word.minor w = 5 then [a] else if 6 ≤ Word.minor w then [d] else []
  | 0x17 => match Word.minor w with
    | 0 => [a]
    | 1 => [d, b]
    | 2 => [a, b]
    | 5 | 6 => [b]
    | _ => []
  | 0x18 => if Word.minor w = 2 || Word.minor w = 3 then [a, b] else [a]
  | 0x21 | 0x20 | 0x24 | 0x29 | 0x2A => []
  | 0x22 => [a, b]
  | 0x23 => if Word.minor w = 3 then [d] else [a, b, c]
  | 0x28 => [a, Word.slice w 5 0]
  | 0x2B => [a, b, c, Word.slice w 5 0]
  | 0x34 | 0x36 => if Word.minor w % 4 = 2 then pairUses d ++ [a] ++ pairUses b else [d, a, b, c]
  | 0x37 => [a]
  | _ => [d, a, b, c]

/-- A vector register, with the next one where it names a pair (05 R107). -/
def vUses (pair : Bool) (r : Nat) : List Nat := if pair then [r, r + 1] else [r]

/-- Vector registers that an instruction reads or writes: those that its form has (05 Table 5-2, Tables 5-5 and 5-6; 12 R285). -/
def usesV (w : Word) : List Nat :=
  let mj := Word.major w
  let d := Word.rd w
  let a := Word.ra w
  let b := Word.rb w
  let c := Word.rc w
  match mj with
  | 0x10 => [d, a, b]
  | 0x11 => if 7 ≤ Word.minor w then [d, a] else [d, a, b]
  | 0x12 => match Word.minor w with
    | 3 | 4 | 5 => [d, a, b, c]
    | 7 => [d, a]
    | _ => [d, a, b]
  | 0x13 => match Word.minor w with
    | 2 => [d, d + 1, a, b, c]
    | 3 => [d, d + 1, a, a + 1, b, b + 1]
    | 4 => [d, a, a + 1]
    | _ => [d, d + 1, a, b]
  | 0x14 => vUses (vIsPair (vtype w)) d ++ vUses (vIsPair (Word.minor w % 16)) a
  | 0x15 => [a, b]
  | 0x17 => match Word.minor w with
    | 0 | 2 => [d]
    | 1 => [a]
    | 5 | 6 => [d, a]
    | 3 | 4 => [d, a, b]
    | 11 => [d, d + 1, a, a + 1]
    | _ => [d, a]
  | 0x18 => if 4 ≤ Word.minor w then [d, b] else [d]
  | 0x37 => vUses (vIsPair (vtype w)) b ++ (if 16 ≤ Word.minor w then [c] else [])
  | _ => []

/-- Is any register that the instruction uses the destination of an access that has not returned? -/
def Thread.blockedBy (t : Thread) (w : Word) : Bool :=
  t.outst.any (fun o => o.dstS.any (fun r => r != 0 && (usesS w).contains r) || o.dstV.any (fun r => (usesV w).contains r))

end Sys2Proof.Machine
end

