-- ==== Sys2Proof/Machine/Flags.lean ====
section
/-! DEFINITION. The flag computations: FSR and the other status registers of a thread (03 R70, 04 R97, R98). -/

namespace Sys2Proof.Machine

/-- OR flags into FSR (03 R71). -/
def Thread.orFlags (t : Thread) (f : Flags) : Thread := { t with flags := t.flags ||| f }

/-- The FSR word (03 Table 3-6a). -/
def Thread.fsr (t : Thread) : Word := BitVec.ofNat 64 (t.frm.toNat * 256 + t.flags.toNat)

/-- THREADID (04 Table 4-8). -/
def Thread.threadId (t : Thread) (k : Nat) : Word :=
  BitVec.ofNat 64 (keyKind k * 2 ^ 20 + t.ctx % 64 * 2 ^ 14 + keyCore k * 8 + keyThread k)

/-- Read a status register by number (04 Table 4-7). -/
def Module.readSr (m : Module) (k : Nat) (num : Nat) : Word :=
  let t := m.th k
  match num with
  | 0x000 => t.fsr
  | 0x001 => t.srctr
  | 0x002 => t.vidx.setWidth 64
  | 0x008 => t.tvec
  | 0x009 => t.tepc.setWidth 64
  | 0x00A => t.tcause.setWidth 64
  | 0x00B => t.tval
  | 0x00C => if t.inTrap then 1 else 0
  | 0x010 => t.threadId k
  | 0x011 => BitVec.ofNat 64 m.pilot
  | _ => 0

/-- Write a status register by number; reserved bits are ignored, and an rm of 0b111 leaves FSR.rm (03 Table 3-6a,
04 Table 4-8). -/
def Thread.writeSr (t : Thread) (num : Nat) (v : Word) : Thread :=
  let x := v.toNat
  match num with
  | 0x000 =>
    let r := x / 256 % 8
    { t with flags := BitVec.ofNat 7 x, frm := if r = 7 then t.frm else BitVec.ofNat 3 r }
  | 0x001 => { t with srctr := v }
  | 0x002 => { t with vidx := BitVec.ofNat 8 x }
  | 0x008 => { t with tvec := BitVec.ofNat 64 (x % 2 ^ 48 / 8 * 8) }
  | 0x009 => { t with tepc := BitVec.ofNat 48 x }
  | 0x00A => { t with tcause := BitVec.ofNat 8 x }
  | 0x00B => { t with tval := v }
  | 0x00C => { t with inTrap := x % 2 == 1 }
  | _ => t

end Sys2Proof.Machine
end

