-- ==== Sys2Proof/Machine/Threads.lean ====
section
/-! DEFINITION. What every instruction of a thread shares: when it can issue (04 R104), taking a trap (04 R100-R103),
stopping on a fault (02 R50), retiring, and the waits of a release (15 R373, R392). -/

namespace Sys2Proof.Machine

/-- Deliver a captured value. -/
def Thread.put (t : Thread) (g : Got) : Thread :=
  if g.vec then t.setV g.reg (vput (t.getV g.reg) g.width g.idx g.val) else t.setSN g.reg g.val

/-- Deliver one returned access to its registers. -/
def Thread.deliver (t : Thread) (o : Outst) : Thread := o.got.foldl Thread.put t

/-- Has an access been performed, with no violation left to count? -/
def Outst.ready (o : Outst) : Bool := o.left == 0 && !o.got.any (fun g => g.viol)

/-- Deliver every access of the thread that has been performed (15 R371). -/
def Module.settle (m : Module) (k : Nat) : Module :=
  let t := m.th k
  let done := t.outst.filter Outst.ready
  if done.isEmpty then m
  else m.setTh k (done.foldl Thread.deliver { t with outst := t.outst.filter (fun o => !o.ready) })

/-- The classes that a processor implements, by major opcode (01 Table 1-6, 04 Table 4-2). -/
def classOk (kind mj : Nat) : Bool :=
  let isS := decide (mj < 0x10)
  let isV := decide (0x10 ≤ mj) && decide (mj < 0x20)
  let isX := decide (0x30 ≤ mj)
  match kind with
  | 0 => true
  | 1 => isS || isV || isX
  | 2 | 3 | 4 => isS || isX
  | _ => isS

/-- The partition of a thread for the counters: none outside the compute die. -/
def keyUnit (k : Nat) : Nat := keyCore k / 16 % 16

/-- The counter event of a thread (20 R470). -/
def Module.thEv (m : Module) (k : Nat) : Ev :=
  { Ev.none with ctx := some (m.th k).ctx, master := some (keyKind k), unit := some (keyUnit k) }

/-- Count a partition event of a compute core's thread. -/
def Module.countPart (m : Module) (k code n : Nat) : Module :=
  if keyKind k = 0 then m.count (pmcPart (partOf (keyCore k))) code n (m.thEv k) else m

/-- Charge a violation of a thread (22 R530, 20 Table 20-2). -/
def Module.thViol (m : Module) (k addr n : Nat) : Module :=
  if n = 0 then m else (m.violateN (m.th k).ctx 1 (addr % 2 ^ 48) n).countPart k 0x0B n

/-- A fault record of a thread: to its context's ring, or to the Hamper ring for an update core (02 R50, 11 R269). -/
def Module.threadRecord (m : Module) (k : Nat) (r : FaultRec) : Module :=
  if keyKind k = 1 then
    if m.hmpRingFull then { m with hmp := { m.hmp with waitRecs := m.hmp.waitRecs ++ [r] } } else m.putHmpRecord r
  else m.faultRecord (m.th k).ctx r

/-- A compute thread no longer runs: the idle period starts anew (18 R444). -/
def Module.rests (m : Module) (k : Nat) : Module := if keyKind k = 0 then m.idleFrom else m

/-- Stop a thread at `ip` with a fault record that names the instruction `instr` (02 R50): cause, address, VIDX and device. -/
def Module.stopNaming (m : Module) (k : Nat) (ip instr : Word) (cause addr vidx device : Nat) : Module :=
  let t := m.th k
  let m1 := (m.setTh k { t with run := .stopped, ip := ip }).rests k
  m1.threadRecord k (mkRecord addr cause t.ctx (keyCore k) (keyThread k) vidx instr.toNat device)

/-- Stop a thread under 02 R50 at the instruction at `ip`, which its record names: counted as a translation fault (20 Table 20-2). -/
def Module.stopAt (m : Module) (k : Nat) (ip : Word) (cause addr vidx device : Nat) : Module :=
  (m.stopNaming k ip ip cause addr vidx device).countPart k 0x0A 1

/-- Stop a thread before its instruction on a translation fault; a vector instruction leaves VIDX at the element
(02 R50). -/
def Module.faultStop (m : Module) (k cause addr device : Nat) : Module := m.stopAt k (m.th k).ip cause addr 0 device

def Module.faultStopV (m : Module) (k cause addr elem : Nat) : Module :=
  let t := m.th k
  (m.setTh k { t with vidx := BitVec.ofNat 8 elem }).stopAt k t.ip cause addr elem 0

def causeIllegal : Nat := 1
def causeClass : Nat := 2
def causeSoftware : Nat := 3
def causeAlign : Nat := 4

/-- The thread issued on its core's wide or scalar port: the port's round-robin position follows it (04 R104). -/
def Module.issuedOn (m : Module) (k : Nat) (wide : Bool) : Module :=
  let c := m.core (k / 8)
  m.setCore (k / 8) (if wide then { c with lastWide := keyThread k } else { c with lastScalar := keyThread k })

/-- Take a trap (04 R101), or stop unhandled (04 R103). SOFTWARE returns to, and stops at, the next instruction; the record names the
trapping one, with VIDX for an instruction that it governs (02 Table 2-4). -/
def Module.trapWith (m : Module) (k cause : Nat) (tval : Word) (wide : Bool) (vidx : Nat) : Module :=
  let t := m.th k
  let back := if cause = causeSoftware then t.ip + 8 else t.ip
  if !t.inTrap && t.tvec != 0 then
    (m.issuedOn k wide).setTh k
      { t with tepc := back.setWidth 48, tcause := BitVec.ofNat 8 cause, tval := tval, inTrap := true, ip := t.tvec }
  else (m.issuedOn k wide).stopNaming k back t.ip (0x10 + cause) (tval.toNat % 2 ^ 48) vidx 0

/-- A trap of an instruction that VIDX does not govern. -/
def Module.trap (m : Module) (k cause : Nat) (tval : Word) : Module := m.trapWith k cause tval false 0

/-- A trap of a vector memory or vector reduction instruction. -/
def Module.trapV (m : Module) (k cause : Nat) (tval : Word) (wide : Bool) : Module :=
  m.trapWith k cause tval wide (m.th k).vidx.toNat

/-- Is a major of the V class, or of a class that issues on the wide port (04 R104)? -/
def majorV (mj : Nat) : Bool := decide (0x10 ≤ mj) && decide (mj < 0x20)
def majorWide (mj : Nat) : Bool := decide (0x10 ≤ mj) && decide (mj < 0x30)

/-- A trap of cause ILLEGAL or CLASS: TVAL is the word, and a V-class major gives the record VIDX. -/
def Module.trapWord (m : Module) (k cause : Nat) (w : Word) : Module :=
  m.trapWith k cause w (majorWide (Word.major w)) (if majorV (Word.major w) then (m.th k).vidx.toNat else 0)

/-- A thread goes on past an instruction that has entered a queue and retires there (06 R152): it is not counted yet. -/
def Module.goOn (m : Module) (k : Nat) (wide : Bool) : Module :=
  let t := m.th k
  (m.setTh k { t with ip := t.ip + 8 }).issuedOn k wide

/-- Advance past the instruction and count its retirement (20 Table 20-2, 16 R400); round-robin positions follow the thread
(04 R104). -/
def Module.advance (m : Module) (k : Nat) (wide : Bool) : Module :=
  let t := m.th k
  let m1 := m.setTh k { t with ip := t.ip + 8, retiredAt := m.pilot }
  let c := m1.core (k / 8)
  let m2 := m1.setCore (k / 8) (if wide then { c with lastWide := keyThread k, clockOn := true }
                                else { c with lastScalar := keyThread k, clockOn := true })
  m2.countPart k (if wide then 3 else 2) 1

/-- Retire an instruction other than pause, yield or x.wait: the context makes progress (16 R399). -/
def Module.retire (m : Module) (k : Nat) (wide : Bool) : Module := (m.advance k wide).progress (m.th k).ctx

/-- Write a scalar result and retire. -/
def Module.retireS (m : Module) (k d : Nat) (v : Word) : Module := (m.setTh k ((m.th k).setS d v)).retire k false

/-- Issue one instruction word of a thread: returned accesses are delivered first; a thread that cannot issue is left as it
is (04 R104), and in W1-W4 no compute core runs (18 Table 18-2); a class that the processor does not implement traps (04 R89). -/
def Module.issue (m : Module) (th : ThreadId) (w : Word) (body : Module → Nat → Module) : Module :=
  let k := ThreadId.key th
  if (m.th k).run != .running || (keyKind k == 0 && m.getF Reg.PWR_STATE.state != 0) then m
  else
    let m1 := m.settle k
    if (m1.th k).blockedBy w then m1
    else if !classOk (keyKind k) (Word.major w) then m1.trapWord k causeClass w
    else body m1 k

/-- Is a queue entry the position of an mwait (06 R150)? -/
def MOp.isMwait (o : MOp) : Bool := Word.major o.word == 0x24

/-- M-class and Q-class operations of a thread that have not retired (06 R152). -/
def Module.mopsOf (m : Module) (k : Nat) : List MOp :=
  (m.core (k / 8)).mq.filter (fun o => o.thread == keyThread k && !o.isMwait)

/-- Has every earlier access and matrix operation of the thread completed (15 R373)? -/
def Module.drained (m : Module) (k : Nat) : Bool := (m.th k).outst.isEmpty && (m.mopsOf k).isEmpty

/-- An instruction that waits for every earlier access (15 R373, R376): it does not issue while one is open; a failed store
response stops the thread here (15 R392). -/
def Module.afterDrain (m : Module) (k : Nat) (body : Module → Module) : Module :=
  if !m.drained k then m
  else
    let t := m.th k
    match t.deferred with
    | [] => body m
    | d :: rest => (m.setTh k { t with deferred := rest }).stopAt k t.ip d.cause d.addr 0 d.device

/-- An earlier acquire that has not been performed holds back a later access (15 R373). -/
def Module.acqPending (m : Module) (k : Nat) : Bool := (m.th k).outst.any (fun o => o.acq)

/-- Has an earlier V-class instruction of the thread not retired: a load or a store with elements that wait (04 R99)? -/
def Module.vecPending (m : Module) (k : Nat) : Bool := (m.th k).outst.any (fun o => o.vec)

/-- Add an outstanding access. -/
def Module.addOutst (m : Module) (k : Nat) (o : Outst) : Module :=
  let t := m.th k
  m.setTh k { t with outst := t.outst ++ [{ o with id := t.issued }], issued := t.issued + 1 }

/-- Apply `f` to an outstanding access by its id. -/
def Module.modOutst (m : Module) (k id : Nat) (f : Outst → Outst) : Module :=
  let t := m.th k
  m.setTh k { t with outst := t.outst.map (fun o => if o.id = id then f o else o) }

end Sys2Proof.Machine
end

