-- ==== Sys2Proof/Machine/Packets.lean ====
section
/-! DEFINITION. Sending on the fabric: port states and their events, the choice of a port (13 R316), credits and sequence
numbers (13 R308, R309, R311), the packet table (13 R327), and the requests of a module (15 R389, R391, R397). -/

namespace Sys2Proof.Machine

/-! ### CRC-32C (10 R229) -/

/-- One byte of a reflected CRC with polynomial 0x82F63B78. -/
def crc32cByte (c b : Nat) : Nat :=
  (List.range 8).foldl (fun x _ => if x % 2 = 1 then Nat.xor (x / 2) 0x82F63B78 else x / 2) (Nat.xor c b)

/-- The CRC-32C of a list of 8-byte entries in list order, each little-endian. -/
def crc32c (l : List Nat) : Nat :=
  Nat.xor ((l.flatMap (fun w => (List.range 8).map (fun i => w / 256 ^ i % 256))).foldl crc32cByte 0xFFFFFFFF) 0xFFFFFFFF

/-! ### The words of a frame (13 R306, R307; 15 R389) -/

/-- The 8-byte words of a byte string, its last one filled with zeros. -/
def wordsOf (l : List Byte) : List Nat := (List.range ((l.length + 7) / 8)).map (fun i => leVal ((l.drop (8 * i)).take 8))

/-- Words filled up to whole units of 32 bytes. -/
def fillUnits (l : List Nat) : List Nat := l ++ List.replicate ((4 - l.length % 4) % 4) 0

/-- The header words of a packet (Tables 13-5, 15-7). -/
def packetHeader (p : Packet) : List Nat :=
  [p.dst.toNat * 2 ^ 48 + p.src.toNat * 2 ^ 32 + p.job.toNat,
   p.hops.toNat * 2 ^ 56 + p.sctx.toNat * 2 ^ 50 + p.op.toNat * 2 ^ 44 + p.status.toNat * 2 ^ 32 + p.tag.toNat,
   p.addr.toNat,
   p.aop.toNat * 2 ^ 60 + p.awidth.toNat * 2 ^ 58 + p.ord.toNat * 2 ^ 56 + p.len.toNat]

/-- The words of a packet: its header, then its data in units of 32 bytes. -/
def packetWords (p : Packet) : List Nat := packetHeader p ++ fillUnits (wordsOf p.data)

/-- A list cut or filled with zeros to `n` bytes. -/
def padBytes (n : Nat) (l : List Byte) : List Byte := l.take n ++ List.replicate (n - l.length) 0#8

/-- The 256 bytes of a Lantern payload (Table 13-8). -/
def lanternBytes (ltype : Nat) (l : Lantern) : List Byte :=
  [BitVec.ofNat 8 ltype, l.port, l.flags, l.width] ++ leBytes 2 l.device.toNat ++ leBytes 2 l.incarnation.toNat ++
  padBytes 16 (l.credit.flatMap (fun c => leBytes 2 c.toNat)) ++ padBytes 32 l.nonce ++ padBytes 16 l.tag ++ leBytes 2 l.detect.toNat ++
  leBytes 2 l.frag.toNat ++ padBytes 180 l.data

/-- The frame types of Table 13-4. -/
def FrameBody.ftype : FrameBody → Nat
  | .idle => 0
  | .data _ _ => 1
  | .nak => 2
  | .credit _ => 3
  | .rescue _ _ _ _ => 4
  | .lantern _ _ => 5
  | .oos _ => 6

/-- The payload of a frame, in words of whole units (Table 13-4). -/
def FrameBody.payload : FrameBody → List Nat
  | .data _ p => packetWords p
  | .rescue _ _ _ p => packetWords p
  | .credit c => [leVal ((c.take 4).flatMap (leBytes 2)), leVal ((c.drop 4).flatMap (leBytes 2)), 0, 0]
  | .lantern t l => wordsOf (lanternBytes t l)
  | .oos w => [w.toNat, 0, 0, 0]
  | _ => []

/-- The header of a frame (Table 13-3): ackv is 1 in every frame that the module sends (R312). -/
def frameHeader (seq ack : Nat) (b : FrameBody) : Nat :=
  b.ftype * 2 ^ 60 + seq % 4096 * 2 ^ 48 + ack % 4096 * 2 ^ 36 + 2 ^ 35 + b.payload.length / 4 * 2 ^ 28 +
  (match b with
   | .data v _ => v % 8 * 2 ^ 32
   | .rescue v o n _ => v % 8 * 2 ^ 32 + o % 16 * 2 ^ 24 + n % 4096 * 2 ^ 12
   | _ => 0)

/-- The words of a frame; its CRC takes each word in little-endian bytes (R306; DEDUCED, log 71). -/
def frameWords (seq ack : Nat) (b : FrameBody) : List Nat :=
  let l := frameHeader seq ack b :: b.payload
  l ++ [crc32c l * 2 ^ 32]

/-- A frame that leaves the module. -/
def Output.frame (port seq ack : Nat) (b : FrameBody) : Output := .sent port seq ack b (frameWords seq ack b)

/-! ### Ports -/

def Module.setFab (m : Module) (x : Fab) : Module := { m with fab := x }

def Module.port (m : Module) (p : Nat) : Port := SMap.get Port.empty m.fab.ports p

def Module.setPort (m : Module) (p : Nat) (x : Port) : Module :=
  m.setFab { m.fab with ports := SMap.set Port.empty m.fab.ports p x }

def Module.pstate (m : Module) (p : Nat) : Nat := m.getF (Reg.FAB_PSTAT.state p)

/-- The states of Table 13-7. -/
def pDark : Nat := 0
def pDetect : Nat := 1
def pTrain : Nat := 2
def pHello : Nat := 3
def pVerify : Nat := 4
def pActive : Nat := 5
def pRetrain : Nat := 6
def pDoze : Nat := 7
def pFailed : Nat := 8

/-- Move a port to a state; its event source is raised when it enters or leaves ACTIVE, or enters DOZE or FAILED
(13 R339), without a wake for DOZE during this module's own entry to W3 or W4 (18 R449). -/
def Module.portTo (m : Module) (p s : Nat) : Module :=
  let old := m.pstate p
  let m1 := m.setF (Reg.FAB_PSTAT.state p) s
  if old = s then m1
  else if s = pDoze && m.bit Reg.PWR_STATE.entering && decide (3 ≤ m.getF Reg.PWR_STATE.target) then m1.raiseQuiet (96 + p)
  else if s = pActive || old = pActive || s = pDoze || s = pFailed then m1.raise (96 + p)
  else m1

/-- Enter TRAIN: its attempts are counted from 0 (Table 13-7). -/
def Module.toTrain (m : Module) (p : Nat) : Module := (m.setPort p { m.port p with tries := 0 }).portTo p pTrain

/-- A port leaves with a cause of Table 13-7a. -/
def Module.portFail (m : Module) (p cause : Nat) : Module :=
  let m1 := m.setF (Reg.FAB_PSTAT.cause p) cause
  let m2 := m1.setPort p { m1.port p with failedAt := m.pilot }
  m2.portTo p pFailed

/-- The ports of a mask in a state, ascending. -/
def Module.portsIn (m : Module) (mask s : Nat) : List Nat :=
  (List.range 16).filter (fun p => Nat.testBit mask p && m.pstate p == s)

def Module.myId (m : Module) : Nat := m.getF Reg.FAB_DEVID.id

/-! ### Routes (13 R325) -/

def Module.route (m : Module) (dev : Nat) : Nat := (SMap.get 0 m.fab.routes dev).toNat

def Module.routeValid (m : Module) (dev : Nat) : Bool := m.route dev / 2 ^ 63 == 1
def Module.routeLost (m : Module) (dev : Nat) : Bool := m.route dev / 2 ^ 62 % 2 == 1
def Module.routeLostInc (m : Module) (dev : Nat) : Nat := m.route dev / 2 ^ 32 % 2 ^ 16
def Module.routePorts (m : Module) (dev : Nat) : Nat := m.route dev % 2 ^ 16

/-! ### Frames out (13 R308-R313) -/

def FrameBody.bytes : FrameBody → Nat
  | .data _ p => p.data.length
  | .rescue _ _ _ p => p.data.length
  | _ => 0

def listAdd (l : List Nat) (i n : Nat) : List Nat :=
  (List.range 8).map (fun j => (l.getD j 0 + if j = i then n else 0) % 2 ^ 16)

/-- Send an unsequenced frame; every frame carries the ack (R312). -/
def Module.sendFree (m : Module) (p : Nat) (b : FrameBody) : Module :=
  let x := m.port p
  (m.setPort p { x with lastSent := m.pilot, ackDue := none }).emit (.frame p 0 x.expect b)

/-- The counter event of a port and VC. -/
def portEv (p v : Nat) : Ev := { Ev.none with unit := some p, cls := [v] }

/-- The context of a packet's job on this module, for the counters. -/
def Module.packetEv (m : Module) (p v : Nat) (b : FrameBody) : Ev :=
  match b with
  | .data _ q => { portEv p v with ctx := m.jobCtx q.job.toNat }
  | .rescue _ _ _ q => { portEv p v with ctx := m.jobCtx q.job.toNat }
  | _ => portEv p v

/-- Send a new sequenced frame: it takes the next sequence number and stays in the replay buffer (R311). -/
def Module.sendSeq (m : Module) (p : Nat) (b : FrameBody) : Module :=
  let x := m.port p
  let y := { x with nextSeq := (x.nextSeq + 1) % 4096, replay := x.replay ++ [{ seq := x.nextSeq, body := b }],
                    units := listAdd x.units b.vc b.units, lastSent := m.pilot, ackDue := none,
                    progressAt := if x.replay.isEmpty then m.pilot else x.progressAt }
  let m1 := (m.setPort p y).emit (.frame p x.nextSeq x.expect b)
  match b with
  | .data v _ =>
    let m2 := m1.count pmcFab 1 b.bytes (m1.packetEv p v b)
    if m2.bit Reg.PMC_WIN.active then { m2 with pmc := { m2.pmc with tx := SMap.modify 0 m2.pmc.tx p (fun n => n + b.bytes) } } else m2
  | .rescue v _ _ _ => m1.count pmcFab 3 1 (portEv p v)
  | _ => m1

/-- The ports whose recorded neighbour is the neighbour of `p`. -/
def Module.bundle (m : Module) (p : Nat) : List Nat :=
  (List.range 16).filter (fun q => m.getF (Reg.FAB_PNBR.device q) == m.getF (Reg.FAB_PNBR.device p)
    && m.bit (Reg.FAB_PNBR.valid q))

/-- Does a port that has joined its bundle still wait for earlier frames to be acknowledged (R318)? -/
def Module.joinWait (m : Module) (p : Nat) : Bool :=
  (m.bundle p).any (fun q => (m.port q).joining) && (m.bundle p).any (fun q => !(m.port q).replay.isEmpty)

/-- May a frame leave now: the port is ACTIVE, its credit covers the frame, its replay buffer has room (R308, R311), and no port that joined
the bundle waits for acknowledgements (R318)? -/
def Module.canSend (m : Module) (p : Nat) (b : FrameBody) : Bool :=
  let x := m.port p
  m.pstate p == pActive && (!m.fab.noData || b.ftype == 6) && decide (b.units ≤ x.credit b.vc) && decide (x.replay.length < 2048) &&
    !m.joinWait p

/-- Send queued frames in order; a frame that cannot leave holds back the later frames of its VC. -/
def Module.pump (m : Module) (p : Nat) : Module :=
  let r := (m.port p).txq.foldl (fun (r : Module × List FrameBody) b =>
      if !r.2.any (fun c => c.vc == b.vc) && r.1.canSend p b then (r.1.sendSeq p b, r.2) else (r.1, r.2 ++ [b]))
    (m.setPort p { m.port p with txq := [] }, [])
  r.1.setPort p { r.1.port p with txq := r.2 }

/-- Queue a sequenced frame on a port and send what can be sent. -/
def Module.queueFrame (m : Module) (p : Nat) (b : FrameBody) : Module :=
  (m.setPort p { m.port p with txq := (m.port p).txq ++ [b] }).pump p

/-- An OOS frame takes no credit (R310). -/
def Module.sendOos (m : Module) (p : Nat) (w : Word) : Module :=
  if m.pstate p = pActive then m.queueFrame p (.oos w) else m

/-! ### The packet table (13 R316, R318, R327, R336) -/

/-- The port index of R316. -/
def portHash (src dst vc k : Nat) : Nat :=
  let h := Nat.xor (Nat.xor src dst) (vc * 2 ^ 13)
  Nat.xor h (h / 2 ^ 7) % 2 ^ 16 % k

def Module.dropPacket (m : Module) (f : Fld) (vc : Nat) : Module :=
  (m.addF f 1).count pmcFab 5 1 { Ev.none with cls := [vc] }

/-- Start waking a dozing neighbour (R336): light goes to TRAIN at once, Kindle bursts follow on KINDLE_BURST. -/
def Module.wakeNeighbour (m : Module) (p : Nat) : Module :=
  let x := m.port p
  if m.pstate p != pDoze then m
  else
    let m1 := m.setPort p { x with wakeAt := some (x.wakeAt.getD m.pilot) }
    if x.nbrKindle then m1 else m1.toTrain p

/-- Do two packets belong to one flow: the same source, destination and VC (R316)? -/
def sameFlow (v : Nat) (p : Packet) (w : Nat) (q : Packet) : Bool := v == w && p.src == q.src && p.dst == q.dst

/-- Is an earlier packet of the same (source, destination, VC) held? -/
def Module.flowHeld (m : Module) (vc : Nat) (p : Packet) : Bool := m.fab.held.any (fun h => sameFlow h.1 h.2 vc p)

/-- The packet of a frame, with its VC. -/
def FrameBody.packet : FrameBody → Option (Nat × Packet)
  | .data v p => some (v, p)
  | .rescue v _ _ p => some (v, p)
  | _ => none

/-- Is an earlier packet of the flow on its way through another port than the one R316 chooses now: queued there, or sent and not
acknowledged (R319)? -/
def Module.flowStuck (m : Module) (out vc : Nat) (p : Packet) : Bool :=
  ((List.range 16).filter (fun q => q != out)).any (fun q =>
    ((m.port q).replay.map (fun s => s.body) ++ (m.port q).txq).any (fun b =>
      match b.packet with
      | some (v, k) => sameFlow v k vc p
      | none => false))

/-- The failed ports of this module that have a RESCUE frame that has not been sent. -/
def Module.rescuing (m : Module) : List Nat :=
  m.fab.ports.flatMap (fun e => e.2.txq.filterMap (fun b => match b with | .rescue _ o _ _ => some o | _ => none))

/-- Did the flow use a failed port whose RESCUE frames have not all been sent (R317): the port that R316 chose while it was ACTIVE? -/
def Module.rescueWait (m : Module) (vc : Nat) (p : Packet) : Bool :=
  let mask := m.routePorts p.dst.toNat
  m.rescuing.any (fun o =>
    let l := (List.range 16).filter (fun q => Nat.testBit mask q && (m.pstate q == pActive || q == o))
    l.getD (portHash p.src.toNat p.dst.toNat vc l.length) 16 == o)

/-- Deliver a packet to this module; its arrival for a local context is wake event 3 (18 R449). -/
def Module.deliverHere (m : Module) (vc : Nat) (p : Packet) : Module :=
  let m1 := m.setFab { m.fab with inbox := m.fab.inbox ++ [(vc, p)] }
  match m.jobCtx p.job.toNat with
  | some c => m1.wake 3 c
  | none => m1

/-- Handle a packet by Table 13-10. `received` tells a forwarded packet from an originated one; `again` a packet taken from
the held list. -/
def Module.handlePacket (m : Module) (received again : Bool) (vc : Nat) (p : Packet) : Module :=
  let dst := p.dst.toNat
  if m.routeLost p.src.toNat then m.dropPacket Reg.FAB_DROP.lost vc
  else if dst = m.myId then m.deliverHere vc p
  else if m.routeLost dst then m.dropPacket Reg.FAB_DROP.lost vc
  else if !m.routeValid dst then m.dropPacket Reg.FAB_DROP.noroute vc
  else if received && p.hops == 0 then m.dropPacket Reg.FAB_DROP.hop vc
  else
    let q := if received then { p with hops := p.hops - 1 } else p
    let act := m.portsIn (m.routePorts dst) pActive
    let doze := m.portsIn (m.routePorts dst) pDoze
    let hold (m : Module) : Module := m.setFab { m.fab with held := m.fab.held ++ [(vc, q)] }
    if !act.isEmpty then
      let out := act.getD (portHash p.src.toNat dst vc act.length) 0
      if (!again && m.flowHeld vc p) || m.joinWait out || m.rescueWait vc p || m.flowStuck out vc p then hold m
      else m.queueFrame out (.data vc q)
    else if !doze.isEmpty then ((hold m).wake 3 (doze.headD 0)).each doze Module.wakeNeighbour
    else if !(m.portsIn (m.routePorts dst) pRetrain).isEmpty then hold m
    else m.dropPacket Reg.FAB_DROP.noroute vc

/-- A held packet is sent, the first one whose flow has no earlier held packet and which a port of its mask can carry (R318). -/
def Module.heldSend (m : Module) : Module :=
  let can (h : Nat × Packet) : Bool :=
    let act := m.portsIn (m.routePorts h.2.dst.toNat) pActive
    let out := act.getD (portHash h.2.src.toNat h.2.dst.toNat h.1 act.length) 0
    !act.isEmpty && !m.joinWait out && !m.rescueWait h.1 h.2 && !m.flowStuck out h.1 h.2
  match m.fab.held.find? can with
  | none => m
  | some h => (m.setFab { m.fab with held := m.fab.held.erase h }).handlePacket false true h.1 h.2

/-- The packets of the DATA frames that wait on ports. -/
def Module.queuedData (m : Module) (ports : List Nat) : List (Nat × Packet) :=
  ports.flatMap (fun p => (m.port p).txq.filterMap (fun b => match b with | .data v q => some (v, q) | _ => none))

/-- DATA frames that wait on ports are handled again, before the later packets of their flows: R316 chooses anew. RESCUE and OOS frames
stay on their ports and leave first. -/
def Module.requeue (m : Module) (ports : List Nat) : Module :=
  let out := m.queuedData ports
  let m1 := m.each ports (fun m p => (m.setPort p { m.port p with txq := (m.port p).txq.filter (fun b => b.ftype != 1) }).pump p)
  let m2 := m1.setFab { m1.fab with held := out ++ m1.fab.held }
  m2.each m2.fab.held (fun m _ => m.heldSend)

/-- Held packets that no port of their mask can carry any more are dropped (R327); one whose neighbour is being woken stays (R336). -/
def Module.recheckHeld (m : Module) : Module :=
  let dead (h : Nat × Packet) : Bool :=
    let mask := m.routePorts h.2.dst.toNat
    ((m.portsIn mask pActive) ++ (m.portsIn mask pDoze) ++ (m.portsIn mask pRetrain)).isEmpty &&
      !(List.range 16).any (fun p => Nat.testBit mask p && (m.port p).wakeAt.isSome)
  let gone := m.fab.held.filter dead
  (m.setFab { m.fab with held := m.fab.held.filter (fun h => !dead h) }).each gone (fun m h => m.handlePacket false true h.1 h.2)

/-- Is a packet held that the port may carry, while no port of its mask is ACTIVE (R336)? -/
def Module.heldFor (m : Module) (p : Nat) : Bool :=
  m.fab.held.any (fun h => Nat.testBit (m.routePorts h.2.dst.toNat) p && (m.portsIn (m.routePorts h.2.dst.toNat) pActive).isEmpty)

/-- Packets that have come to be held for a dozing neighbour wake it, and this module (R336; 18 R449). -/
def Module.heldWake (m : Module) : Module :=
  m.each (m.portsIn 0xFFFF pDoze) (fun m q => if m.heldFor q then (m.wake 3 q).wakeNeighbour q else m)

/-- Packets whose port has stopped are handled anew, before the later packets of their flows (R327): each is sent, held or dropped. -/
def Module.rehold (m : Module) (data : List (Nat × Packet)) : Module :=
  let m1 := (m.setFab { m.fab with held := data ++ m.fab.held }).recheckHeld
  (m1.each data (fun m _ => m.heldSend)).heldWake

/-- Send a packet that this module originates (R326). -/
def Module.sendPacket (m : Module) (vc : Nat) (p : Packet) : Module :=
  m.handlePacket false false vc { p with src := BitVec.ofNat 16 m.myId, hops := BitVec.ofNat 8 (m.getF Reg.FAB_CTRL.hop_limit) }

/-! ### Requests (15 R389-R392, R395, R397) -/

/-- The VC of the response to a request (R308). -/
def responseVc (vc : Nat) : Nat := if vc = 0 || vc = 1 then 4 else if vc = 2 || vc = 3 then 5 else vc

def Packet.blank : Packet :=
  { dst := 0, src := 0, job := 0, hops := 0, sctx := 0, op := 0, status := 0, tag := 0, addr := 0, aop := 0, awidth := 0,
    ord := 0, len := 0, data := [] }

def Module.touchDev (m : Module) (ctx dev : Nat) : Module :=
  let c := m.ctx ctx
  if c.touched.contains dev then m else m.setCtx ctx { c with touched := c.touched ++ [dev] }

def Module.jobOf (m : Module) (ctx : Nat) : Nat := m.getF (Reg.HIF_CTXSTAT.job ctx)

/-- The status with which a new request toward a device ends at once: the device is lost, or it snuffed the job. -/
def Module.refusedAtOnce (m : Module) (ctx dev : Nat) : Option Nat :=
  if m.routeLost dev then some sPeerLost
  else if m.fab.snuffed.contains (m.jobOf ctx, dev) then some sCtxDead
  else none

/-- Send one request, which takes the next tag (R389). For a load, `awidth` 1 says that it sign-extends; the packet does not carry it. -/
def Module.sendRequest (m : Module) (ctx dev vc op addr aop awidth ord len : Nat) (data : List Byte) (o : Origin) : Module :=
  let tag := m.fab.nextTag % 2 ^ 32
  let r : Req := { tag := tag, dev := dev, vc := vc, ctx := ctx, job := m.jobOf ctx, op := op, aop := aop, width := awidth,
                   b := leVal (data.take (4 * 2 ^ awidth)), sentAt := m.pilot, origin := o }
  let m1 := (m.setFab { m.fab with nextTag := (tag + 1) % 2 ^ 32, reqs := m.fab.reqs ++ [r] }).touchDev ctx dev
  m1.sendPacket vc { Packet.blank with dst := BitVec.ofNat 16 dev, job := BitVec.ofNat 32 (m.jobOf ctx),
                                       sctx := BitVec.ofNat 6 ctx, op := BitVec.ofNat 6 op, tag := BitVec.ofNat 32 tag,
                                       addr := BitVec.ofNat 48 addr, aop := BitVec.ofNat 4 aop,
                                       awidth := BitVec.ofNat 2 (if op = 3 || op = 4 then awidth else 0),
                                       ord := BitVec.ofNat 2 ord, len := BitVec.ofNat 9 len, data := data }

/-- The response to a request packet (R389): addressed to its src, with its tag and the context of its job here. -/
def Module.respond (m : Module) (vc : Nat) (q : Packet) (op status : Nat) (data : List Byte) : Module :=
  m.sendPacket (responseVc vc)
    { Packet.blank with dst := q.src, job := q.job, sctx := BitVec.ofNat 6 ((m.jobCtx q.job.toNat).getD 0), op := BitVec.ofNat 6 op,
                        status := BitVec.ofNat 8 status, tag := q.tag, len := BitVec.ofNat 9 data.length, data := data }

/-- Can a packet toward a device leave or wait: its route is valid, the device is not lost, and a port of the mask is ACTIVE, dozes or
retrains (13 Table 13-10)? -/
def Module.reachable (m : Module) (dev : Nat) : Bool :=
  dev == m.myId || (!m.routeLost dev && m.routeValid dev &&
    (List.range 16).any (fun p => Nat.testBit (m.routePorts dev) p && [pActive, pDoze, pRetrain].contains (m.pstate p)))

/-- The packet of a message between the programs of firmware images (R389): its payload is theirs, and one packet without payload bytes
stands for it (DESIGN CHOICE, log 45). -/
def Module.sendMessage (m : Module) (vc dev job : Nat) : Module :=
  m.sendPacket vc { Packet.blank with dst := BitVec.ofNat 16 dev, job := BitVec.ofNat 32 job,
                                      sctx := BitVec.ofNat 6 ((m.jobCtx job).getD 0), op := 0x30#6 }

/-- Remove a request and answer the QUIETs that its end releases (R397): QUIET goes to a device that snuffed the job when no
request of the job toward it is left, or no context of the job is. -/
def Module.sendQuiets (m : Module) : Module :=
  let ready := m.fab.quietDue.filter (fun d =>
    (m.jobCtx d.1).isNone || !m.fab.reqs.any (fun r => r.job == d.1 && r.dev == d.2))
  let m1 := m.setFab { m.fab with quietDue := m.fab.quietDue.filter (fun d => !ready.contains d) }
  m1.each ready (fun m d => m.sendPacket 7 { Packet.blank with dst := BitVec.ofNat 16 d.2, job := BitVec.ofNat 32 d.1,
                                                                sctx := BitVec.ofNat 6 ((m.jobCtx d.1).getD 0), op := 0x21#6 })

def Module.dropReq (m : Module) (tag : Nat) : Module :=
  (m.setFab { m.fab with reqs := m.fab.reqs.filter (fun r => r.tag != tag) }).sendQuiets

end Sys2Proof.Machine
end

