-- ==== Sys2Proof/Machine/Thermos.lean ====
section
/-! DEFINITION. Retained state (00 R13; 21 R498-R500): writing a retained field, the mirrors of the Thermos sections, and which fields each
section holds. -/

namespace Sys2Proof.Machine

/-- The Thermos sections (21 Table 21-8). -/
def secSettings : Nat := 0
def secTraining : Nat := 1
def secService : Nat := 2
def secSecurity : Nat := 3

/-- A section changed in SRAM: a mirror of it is scheduled (21 R499). -/
def Module.touchSection (m : Module) (sec : Nat) : Module :=
  let m1 := m.setF Reg.LMP_THERMOS.pending 1
  { m1 with lmp := { m1.lmp with sram := if m1.lmp.sram.contains sec then m1.lmp.sram else m1.lmp.sram ++ [sec],
                                 dirty := if m1.lmp.dirty.contains sec then m1.lmp.dirty else m1.lmp.dirty ++ [sec] } }

/-- Write a field; a retained one is kept in the settings section as well. -/
def Module.setRet (m : Module) (f : Fld) (v : Nat) : Module :=
  let m1 := m.setF f v
  if !f.ret then m1
  else
    let m2 := m1.touchSection secSettings
    { m2 with lmp := { m2.lmp with settings := SMap.set f.rst m2.lmp.settings f.key (v % 2 ^ f.width) } }

/-- The fields of the service section. -/
def serviceFlds : List Fld :=
  [Reg.LMP_SVC_TICKS.ticks, Reg.LMP_ESC_STAT.oos, Reg.LMP_ESC_STAT.mod_count, Reg.LMP_ESC_STAT.part_count, Reg.LMP_ESC_LIMIT.window,
   Reg.LMP_ESC_LIMIT.mod_limit, Reg.LMP_ESC_LIMIT.part_limit, Reg.LMP_RESET_SEQ.seq, Reg.FAB_DEVID.incarnation] ++
  (List.range 8).map Reg.PART_STAT.resets

/-- The values of fields, as a map. -/
def Module.fieldMap (m : Module) (l : List Fld) : SMap Nat := l.foldl (fun s f => SMap.set f.rst s f.key (m.getF f)) []

/-- Set fields from a map; one that it does not list takes its literal value. -/
def Module.setFields (m : Module) (l : List Fld) (s : SMap Nat) : Module := m.each l (fun m f => m.setF f (SMap.get f.rst s f.key))

def Module.mirrorA (m : Module) (sec : Nat) : Option Mirror := SMap.get none m.lmp.mirA sec
def Module.mirrorB (m : Module) (sec : Nat) : Option Mirror := SMap.get none m.lmp.mirB sec

/-- The bytes that a copy's CRC-32C covers: its contents in the model's own order (DESIGN CHOICE, log 55). -/
def Mirror.bytes (x : Mirror) : List Nat :=
  ([x.seq] ++ x.flds.flatMap (fun e => [e.1, e.2]) ++ x.entries.flatMap (fun e => [e.1, e.2])).flatMap (fun w =>
    (List.range 8).map (fun i => w / 256 ^ i % 256)) ++
  (match x.keys with | none => [] | some k => (k.1 ++ k.2).map BitVec.toNat)

/-- The CRC-32C of a copy's contents (21 R498). -/
def Mirror.sum (x : Mirror) : Nat := Nat.xor (x.bytes.foldl crc32cByte 0xFFFFFFFF) 0xFFFFFFFF

/-- A copy is valid when its CRC matches (21 R500). -/
def validCopy (x : Option Mirror) : Option Mirror := x.filter (fun c => c.crc == c.sum)

/-- A copy's rank among the two of its section: a valid one by its sequence number, after none (DEDUCED, log 55). -/
def mirrorRank (x : Option Mirror) : Nat :=
  match validCopy x with
  | none => 0
  | some c => c.seq + 1

/-- Is B the flash copy with the higher sequence number whose CRC matches? -/
def Module.newerB (m : Module) (sec : Nat) : Bool := decide (mirrorRank (m.mirrorA sec) < mirrorRank (m.mirrorB sec))

/-- The flash copy with the higher sequence number whose CRC matches (21 R500). -/
def Module.newest (m : Module) (sec : Nat) : Option Mirror :=
  validCopy (if m.newerB sec then m.mirrorB sec else m.mirrorA sec)

/-- The sequence number of a new copy of a section: one higher than the newest. -/
def Module.copySeq (m : Module) (sec : Nat) : Nat :=
  match m.newest sec with
  | none => 1
  | some x => x.seq + 1

/-- The contents of a section in SRAM. -/
def Module.section (m : Module) (sec seq : Nat) : Mirror :=
  let x : Mirror :=
    { seq := seq, flds := if sec = secSettings then m.lmp.settings else if sec = secTraining then m.lmp.training
                          else if sec = secService then m.fieldMap serviceFlds else [],
      entries := if sec = secService then m.esc.entries else [], keys := if sec = secSecurity then m.lmp.owner else none, crc := 0 }
  { x with crc := x.sum }

/-- The header section in SRAM: the sequence number and the CRC-32C of each section (21 Table 21-8), which follow the sections. -/
def Module.thermosHeader (m : Module) : List (Nat × Nat) :=
  (List.range 4).map (fun sec =>
    let n := SMap.get 0 m.lmp.seqs sec
    (n, (m.section sec n).crc))

/-- Put a copy of a section over the older flash copy. -/
def Module.putCopy (m : Module) (sec : Nat) (x : Mirror) : Module :=
  let l := m.lmp
  { m with lmp := if m.newerB sec then { l with mirA := SMap.set none l.mirA sec (some x) } else { l with mirB := SMap.set none l.mirB sec (some x) } }

/-- Copy a section to the older flash copy, with a sequence number one above the newer one (21 R499). -/
def Module.mirrorSection (m : Module) (sec : Nat) : Module :=
  let n := m.copySeq sec
  let m1 := m.putCopy sec (m.section sec n)
  let dirty := m1.lmp.dirty.filter (fun s => s != sec)
  let m2 := { m1 with lmp := { m1.lmp with dirty := dirty, seqs := SMap.set 0 m1.lmp.seqs sec n } }
  (m2.addF Reg.LMP_THERMOS.mirrors 1).setF Reg.LMP_THERMOS.pending (if dirty.isEmpty then 0 else 1)

/-- Main power is lost while a scheduled mirror of a section may run: whether one does is left open, and one that is cut leaves the copy that it
wrote with a CRC that does not match (DEDUCED, log 55). -/
def Module.mirrorsCut (m : Module) : Module :=
  m.each m.lmp.dirty (fun m sec =>
    let (m1, k) := m.freePick
    if k % 2 = 0 then m1
    else
      let x := m1.section sec (m1.copySeq sec)
      m1.putCopy sec { x with crc := Nat.xor x.crc 1 })

/-! ### The training section (21 Table 21-8) -/

/-- The units whose training values the section holds: the 512 HBM3E pseudo-channels, the capacity tier, and the four lanes of each port. A
value stands as one word (DESIGN CHOICE, log 55). -/
def memoryUnits : List Nat := List.range 513
def laneUnits (p : Nat) : List Nat := (List.range 4).map (fun i => 1024 + 4 * p + i)

/-- Units train (12 R294, 13 R315): from their retained values where all have one and those serve, which is left open; else from scratch, to
values that the specification does not state, and the section changes. -/
def Module.trained (m : Module) (units : List Nat) : Module :=
  let (m1, k) := m.freePick
  if units.all (fun u => m1.lmp.training.any (fun e => e.1 == u)) && k % 2 == 0 then m1
  else
    let m2 := m1.each units (fun m u =>
      let (m1, w) := m.freeWord
      { m1 with lmp := { m1.lmp with training := SMap.insert u w.toNat (SMap.erase m1.lmp.training u) } })
    m2.touchSection secTraining

/-- Mirror every section. -/
def Module.mirrorAll (m : Module) : Module := m.each (List.range 4) Module.mirrorSection

end Sys2Proof.Machine
end

