-- ==== Sys2Proof/Machine/Firmware.lean ====
section
/-! DEFINITION. Firmware images (21 R489-R491, Table 21-5): reading and checking a container, and starting an image. -/

namespace Sys2Proof.Machine

/-- `n` bytes of a memory. -/
def Memory.bytes (mem : List Host.Cell) (a n : Nat) : List Byte := (List.range n).map (fun i => Memory.get mem (a + i))

/-- Write a byte list. -/
def Memory.put (mem : List Host.Cell) (a : Nat) (l : List Byte) : List Host.Cell :=
  (l.foldl (fun (r : List Host.Cell × Nat) b => (Memory.set r.1 r.2 b, r.2 + 1)) (mem, a)).1

/-- The little-endian number in bytes lo to lo + n - 1. -/
def numAt (l : List Byte) (lo n : Nat) : Nat := leVal ((l.drop lo).take n)

def allZero (l : List Byte) : Bool := l.all (fun b => b == 0#8)

def imageMax : Nat := 64 * 2 ^ 20

/-- The detail of a pair of signature checks (Table 21-2). -/
def sigDetail (ed ml : Bool) : Nat :=
  match ed, ml with
  | true, true => 0
  | false, true => 2
  | true, false => 3
  | false, false => 4

/-- Check a container against the fused floor (R490): the detail of the first failure, 0 when it is valid. A wrong digest, an svn out of
range and an svn_floor above svn count as detail 1 (DEDUCED, log 52). -/
def imageDetail (floor : Nat) (l : List Byte) : Nat :=
  let hdr := l.take 88
  let svn := numAt l 16 2
  let len := numAt l 24 8
  let form := numAt l 0 4 == 0x4C583946 && numAt l 4 4 == 1 && decide (svn ≤ 63) && decide (numAt l 18 2 ≤ svn) && decide (1 ≤ len) &&
    decide (len + 4096 ≤ imageMax) && decide (l.length = 4096 + len) && allZero ((l.drop 80).take 8) && allZero ((l.drop 3461).take 635) &&
    Config.sha384 (l.drop 4096) == (l.drop 32).take 48
  if !form then 1
  else
    let d := Config.sha384 hdr
    let s := sigDetail (Config.ed25519Ok Config.firmwareKey d ((l.drop 88).take 64))
      (Config.mldsaOk Config.firmwarePqKey d ((l.drop 152).take 3309))
    if s != 0 then s else if svn < floor then 6 else 0

/-- The image of a container. -/
def imageOf (l : List Byte) : Image :=
  { version := numAt l 8 8, svn := numAt l 16 2, floor := numAt l 18 2, level := numAt l 20 4, length := numAt l 24 8,
    digest := (l.drop 32).take 48, hdr := l.take 88 }

/-- Where an image lies in the reserved flash (Table 21-6): the image area, and its spare blocks, which a recovery writes (R497). -/
def imageAreas : List Nat := [0, imageMax]

/-- The container at a flash address. -/
def Module.flashImage (m : Module) (base : Nat) : List Byte :=
  let len := Memory.read m.ms.flash (base + 24) 8
  Memory.bytes m.ms.flash base (4096 + min len imageMax)

/-- Does flash hold a valid container at an address (R490)? -/
def Module.imageAt (m : Module) (base : Nat) : Bool := imageDetail (m.getF Reg.SEC_SVN.floor) (m.flashImage base) == 0

/-- The committed container, when flash holds a valid one: in the image area, else in its spare blocks (DEDUCED, log 54). -/
def Module.container (m : Module) : Option (List Byte) := (imageAreas.find? m.imageAt).map m.flashImage

/-- The committed image. -/
def Module.committed (m : Module) : Option Image := m.container.map imageOf

/-- The areas that are read before the committed container is found and hold an invalid container: a header that is not zeros (R490; an
invalidated header is zeros, DEDUCED, log 54). -/
def Module.badAreas (m : Module) : List Nat :=
  (imageAreas.takeWhile (fun a => !m.imageAt a)).filter (fun a => !allZero (Memory.bytes m.ms.flash a 4096))

/-- The image in flash is read and verified: each invalid container that is met counts (R490). -/
def Module.readFlash (m : Module) : Module := m.each m.badAreas (fun m _ => m.addF Reg.SEC_VIOL.fw_fail 1)

/-- Flash with the image header of every area invalidated. -/
def headersGone (flash : List Host.Cell) : List Host.Cell :=
  imageAreas.foldl (fun f a => Memory.put f a (List.replicate 4096 0#8)) flash

/-- Write a container to an image area (R496, steps 2 to 5): every header is invalid until the payload is written. -/
def Module.writeImage (m : Module) (base : Nat) (l : List Byte) : Module :=
  m.setMs { m.ms with flash := Memory.put (Memory.put (headersGone m.ms.flash) (base + 4096) (l.drop 4096)) base (l.take 4096) }

/-- Invalidate the image header. -/
def Module.breakImage (m : Module) : Module := m.setMs { m.ms with flash := headersGone m.ms.flash }

/-- The serving core runs an image. -/
def Module.runImage (m : Module) (x : Image) (source : Option (Nat × Nat)) : Module :=
  let m1 := { m with lmp := { m.lmp with image := x, source := source, pair := none } }
  ((m1.setF Reg.LMP_FW_VER.version x.version).setF Reg.LMP_FW_STAT.svn x.svn).setF Reg.LMP_ID.fabric_level x.level

/-- Power is lost in a commit, before its step 5: no valid image is left (R496). -/
def Module.commitLost (m : Module) : Module := if m.getF Reg.LMP_FW_STAT.commit = 1 then m.breakImage else m

/-- A takeover cuts a commit short: whether the header of the old image was already invalid is left open (R483, R496). -/
def Module.commitCut (m : Module) : Module :=
  if m.getF Reg.LMP_FW_STAT.commit = 1 then
    let (m1, k) := m.freePick
    if k % 2 = 0 then m1.breakImage else m1
  else m

/-- Raise the fused floor once an image is committed (R491). -/
def Module.raiseFloor (m : Module) : Module :=
  if m.getF Reg.SEC_SVN.floor < m.lmp.image.floor then m.setF Reg.SEC_SVN.floor m.lmp.image.floor else m

end Sys2Proof.Machine
end

