-- ==== Sys2Proof/Machine/Remote.lean ====
section
/-! DEFINITION. What a global access does at its destination (02 R40-R43; 12 R283; 15 R389): job lookup, translation in the
context found, reads, writes, and the atomic operations of 12 Table 12-3. -/

namespace Sys2Proof.Machine

/-! ### Atomic operations (12 Table 12-3) -/

/-- Bytes of a width code. -/
def atomicBytes (width : Nat) : Nat := 4 * 2 ^ width

/-- Split a pair in memory into s and e: s lies in the lower half (03 R78). -/
def pairAddBits (f : Fmt) (old b : Nat) : Nat × Flags :=
  let h := 2 ^ f.width
  let r := pairAdd f (Pair.ofBits f (old % h) (old / h)) (Pair.ofBits f (b % h) (b / h))
  let x := r.1.bits f
  (x.1 + x.2 * h, r.2)

/-- The new memory value and the flags of its rounding. -/
def atomicOp (op width old b c : Nat) : Nat × Flags :=
  let bits := 8 * atomicBytes width
  let f := if width = 0 then fp32 else fp64
  let so := intOf true bits old
  let sb := intOf true bits b
  match op with
  | 0x0 => (b, fNone)
  | 0x1 => (if old = c then b else old, fNone)
  | 0x2 => ((old + b) % 2 ^ bits, fNone)
  | 0x3 => (if so ≤ sb then old else b, fNone)
  | 0x4 => (if sb ≤ so then old else b, fNone)
  | 0x5 => (min old b, fNone)
  | 0x6 => (max old b, fNone)
  | 0x7 => (Nat.land old b, fNone)
  | 0x8 => (Nat.lor old b, fNone)
  | 0x9 => (Nat.xor old b, fNone)
  | 0xA => fArith f .add .rne 0 old b 0
  | 0xB => fMinMax f false old b
  | 0xC => fMinMax f true old b
  | _ => pairAddBits (if width = 1 then fp32 else fp64) old b

/-- Perform an atomic at its place: the old value and the flags (12 R283, R284). The lookup is a write of the slice, and the
operation is counted (20 Table 20-2: 5 for amo, 6 for a reduction). -/
def Module.atomicAt (m : Module) (w : Who) (p : Place) (op width b c : Nat) (amo : Bool) : Module × Nat × Flags :=
  let n := atomicBytes width
  let h := 2 ^ (8 * n)
  let old := m.readPlace p n
  let r := atomicOp op width old (b % h) (c % h)
  let m1 := (m.touch w p n true).writePlace p n r.1
  let ev : Ev := match p with
    | .hbm pc off => m.memEv w pc off true
    | _ => { Ev.none with ctx := some w.ctx, master := w.origin }
  (m1.count pmcMem (if amo then 5 else 6) 1 ev, old, r.2)

/-- An uncorrectable detection or a discarded reduction is counted (12 R291). -/
def Module.countUncorrected (m : Module) : Module := m.addF Reg.MEM_ERRCNT.uncorrected 1

/-! ### Ranges -/

/-- Cut a byte range at 8-byte boundaries: (address, size). -/
def pieces (addr len : Nat) : List (Nat × Nat) :=
  (List.range ((addr % 8 + len + 7) / 8)).map (fun i =>
    let lo := max addr (addr / 8 * 8 + 8 * i)
    (lo, min (addr + len) (addr / 8 * 8 + 8 * i + 8) - lo))

/-- Translate every piece of a range for an engine. -/
def Module.xlatRange (m : Module) (ctx addr len : Nat) (acc : Access) : List ((Nat × Nat) × Xlat) :=
  (pieces addr len).map (fun q => (q, m.ctxXlat ctx q.1 acc))

def faultsOf (l : List ((Nat × Nat) × Xlat)) : List Nat :=
  l.filterMap (fun x => match x.2 with | .fault c => some c | _ => none)

def violsIn (l : List ((Nat × Nat) × Xlat)) : Bool := l.any (fun x => x.2 == .viol)

/-- Does any piece lie in a bad sector, or miss in a held channel? -/
def Module.anyBad (m : Module) (l : List ((Nat × Nat) × Xlat)) : Bool :=
  l.any (fun x => match x.2 with | .ok p _ => m.badPlace p x.1.2 | _ => false)

def Module.anyHeld (m : Module) (l : List ((Nat × Nat) × Xlat)) : Bool :=
  l.any (fun x => match x.2 with | .ok p _ => m.mustWait p | _ => false)

/-- The bytes of the pieces, denied pages reading as zero (02 R49). -/
def Module.rangeBytes (m : Module) (l : List ((Nat × Nat) × Xlat)) : List Byte :=
  l.flatMap (fun x => match x.2 with
    | .ok p _ => leBytes x.1.2 (m.readPlace p x.1.2)
    | _ => leBytes x.1.2 0)

/-- The writes of bytes over the pieces, denied pages ignoring theirs. -/
def rangePuts : List ((Nat × Nat) × Xlat) → List Byte → List (Place × Nat × Nat)
  | [], _ => []
  | x :: t, data =>
    (match x.2 with | .ok p _ => [(p, x.1.2, leVal (data.take x.1.2))] | _ => []) ++ rangePuts t (data.drop x.1.2)

/-- Write bytes over the pieces, one request for each sector (12 R279, R291). -/
def Module.writeRange (m : Module) (w : Who) (l : List ((Nat × Nat) × Xlat)) (data : List Byte) : Module :=
  m.putPieces w (rangePuts l data)

/-- Count the reads of the pieces; a core's read from a page with lc = 1 is latency-critical (12 R287). -/
def Module.touchRange (m : Module) (w : Who) (l : List ((Nat × Nat) × Xlat)) : Module :=
  let lc := decide (w.master < 2) && l.any (fun x => match x.2 with | .ok _ lc => lc | _ => false)
  m.askPieces { w with lc := w.lc || lc } (l.filterMap (fun x => match x.2 with | .ok p _ => some (p, x.1.2) | _ => none))

/-- The page-table entries that the walks of a range read, with one walk for each 2 MiB (02 R34). -/
def Module.rangeWalks (m : Module) (ctx addr len : Nat) : List Place :=
  (distinct (((pieces addr len).filter (fun q => decide (q.1 < windowBase))).map (fun q => q.1 / 2 ^ 21))).flatMap
    (fun g => m.walkPlaces ctx (g * 2 ^ 21))

/-- Does an access of a range wait for a held channel: at a walk, or at a piece (12 R293)? -/
def Module.rangeHeld (m : Module) (ctx addr len : Nat) (acc : Access) : Bool :=
  (m.rangeWalks ctx addr len).any m.mustWait || m.anyHeld (m.xlatRange ctx addr len acc)

/-- The lookups of the walks of a range. -/
def Module.askWalks (m : Module) (w : Who) (addr len : Nat) : Module :=
  m.askPieces { w with lc := false } ((m.rangeWalks w.ctx addr len).map (fun p => (p, 8)))

/-- The response status of a walk's fault cause (15 Table 15-7). -/
def walkStatus (cause : Nat) : Nat := if cause = 1 then 0x81 else if cause = 2 then 0x82 else 0x86

/-- What a destination answers: status, data, and whether the access was a violation; `wait` says that it waits for a held
channel (12 R293). -/
structure Dest where
  m : Module
  status : Nat
  data : List Byte
  viol : Bool
  wait : Bool

/-- A read at the destination: status 0x81, 0x82 or 0x86 on a failed walk, 0x86 on a poisoned sector (15 Table 15-8). -/
def Module.destRead (m : Module) (w : Who) (addr len : Nat) : Dest :=
  let l := m.xlatRange w.ctx addr len .load
  let m1 := m.askWalks w addr len
  if m.rangeHeld w.ctx addr len .load then { m := m, status := 0, data := [], viol := false, wait := true }
  else match faultsOf l with
  | c :: _ => { m := m1, status := walkStatus c, data := [], viol := false, wait := false }
  | [] =>
    if m.anyBad l then { m := m1.touchRange w l, status := 0x86, data := [], viol := violsIn l, wait := false }
    else { m := m1.touchRange w l, status := sDone, data := m.rangeBytes l, viol := violsIn l, wait := false }

/-- A write at the destination. A walk that met a poisoned sector discards and counts it (02 R551, 15 Table 15-8). -/
def Module.destWrite (m : Module) (w : Who) (addr : Nat) (data : List Byte) : Dest :=
  let l := m.xlatRange w.ctx addr data.length .store
  let m1 := m.askWalks w addr data.length
  if m.rangeHeld w.ctx addr data.length .store then { m := m, status := 0, data := [], viol := false, wait := true }
  else match faultsOf l with
  | c :: _ =>
    { m := if c = cMedia then m1.countUncorrected else m1, status := walkStatus c, data := [], viol := false, wait := false }
  | [] => { m := m1.writeRange w l data, status := sDone, data := [], viol := violsIn l, wait := false }

/-- An atomic or a reduction at the destination (02 R43, 12 R283): outside HBM it is a violation; on a poisoned sector an
atomic answers 0x86, a reduction is discarded and counted (12 R291). -/
def Module.destAtomic (m : Module) (w : Who) (addr op width b c : Nat) (amo : Bool) : Dest :=
  let n := atomicBytes width
  let zero := if amo then leBytes n 0 else []
  let m1 := m.askWalks w addr n
  if m.rangeHeld w.ctx addr n .atomic then { m := m, status := 0, data := [], viol := false, wait := true }
  else match m.ctxXlat w.ctx addr .atomic with
  | .fault c =>
    { m := if !amo && c == cMedia then m1.countUncorrected else m1, status := walkStatus c, data := [], viol := false, wait := false }
  | .viol => { m := m1, status := sDone, data := zero, viol := true, wait := false }
  | .ok p _ =>
    match p with
    | .hbm _ _ =>
      if m.badPlace p n then
        { m := if amo then m1 else m1.countUncorrected, status := 0x86, data := [], viol := false, wait := false }
      else
        let r := m1.atomicAt w p op width b c amo
        { m := r.1, status := sDone, data := if amo then leBytes n r.2.1 else [], viol := false, wait := false }
    | _ => { m := m1, status := sDone, data := zero, viol := true, wait := false }

/-- A permission violation of a global access from another device (02 R41, 22 R531). -/
def Module.remoteViol (m : Module) (dev job : Nat) : Module :=
  ((m.addF Reg.HIF_RVIOL.count 1).setF Reg.HIF_RVLOG.device dev).setF Reg.HIF_RVLOG.job job

/-- The fault cause of a thread whose global access did not carry DONE (15 Table 15-8). -/
def remoteCause (status : Nat) : Nat :=
  if status = 0x81 then 4 else if status = 0x82 then 5 else if status = 0x86 then 6
  else if status = sPeerLost then 7 else if status = sTimedOut then 8 else 9

end Sys2Proof.Machine
end

