-- ==== Sys2Proof/Machine/HamperCore.lean ====
section
/-! DEFINITION. What a chunk thread of the Hamper needs (11 R255-R262; 08 R173, R183, R184): layer descriptors, effective
weights, loading a chunk's buffers and writing a chunk back. -/

namespace Sys2Proof.Machine

def Module.setHmp (m : Module) (x : Hmp) : Module := { m with hmp := x }

/-! ### Hand-over records (11 Table 11-4) -/

def HandOver.word (h : HandOver) (i : Nat) : Nat := h.words.getD i 0
def HandOver.step (h : HandOver) : Nat := h.word 0 / 2 ^ 32
def HandOver.ctx (h : HandOver) : Nat := h.word 0 / 2 ^ 16 % 64
def HandOver.layer (h : HandOver) : Nat := h.word 0 % 2 ^ 16
def HandOver.gnw (h : HandOver) : Nat := h.word 1
def HandOver.cnt (h : HandOver) : Nat := h.word 2 / 2 ^ 48
def HandOver.grad (h : HandOver) : Nat := h.word 2 % 2 ^ 48
def HandOver.completion (h : HandOver) : Nat := h.word 3 % 2 ^ 48
def HandOver.rowlist (h : HandOver) : Nat := h.word 4 % 2 ^ 48
def HandOver.nrows (h : HandOver) : Nat := h.word 5 % 2 ^ 22

/-- A signed byte. -/
def signed8 (x : Nat) : Int := intOf true 8 x

/-- GNW.k (08 Table 8-1). -/
def gnwK (g : Nat) : Int := signed8 (g / 2 ^ 48)

/-! ### Layer descriptors (11 Table 11-3): a list of 16 words -/

def ldEmbed (d : List Nat) : Bool := d.getD 0 0 / 2 ^ 60 == 1
def ldPasses (d : List Nat) : Nat := d.getD 0 0 / 2 ^ 57 % 8 + 1
def ldCores (d : List Nat) : Nat := d.getD 0 0 / 2 ^ 52 % 32 + 1
def ldNmom (d : List Nat) : Nat := d.getD 0 0 / 2 ^ 48 % 16
def ldProg (d : List Nat) : Nat := d.getD 0 0 % 2 ^ 48
def ldArg (d : List Nat) : Nat := d.getD 1 0 % 2 ^ 48
def ldWeight (d : List Nat) : Nat := d.getD 2 0 % 2 ^ 48
def ldRem (d : List Nat) : Nat := d.getD 3 0 % 2 ^ 48
def ldMom (d : List Nat) (j : Nat) : Nat := d.getD (4 + j) 0 % 2 ^ 48
def ldNelem (d : List Nat) : Nat := d.getD 8 0 % 2 ^ 40
def ldRowLen (d : List Nat) : Nat := d.getD 9 0 / 2 ^ 48
def ldRows (d : List Nat) : Nat := d.getD 9 0 / 2 ^ 22 % 2 ^ 22
def ldRsBase (d : List Nat) : Nat := d.getD 9 0 % 2 ^ 21
def ldStat (d : List Nat) : Nat := d.getD 10 0 % 2 ^ 48
def ldWord13 (d : List Nat) : Nat := d.getD 13 0

/-- The row-state window of a context: base and count; a window beyond the last entry is empty (11 Table 11-10). -/
def Module.rsWindow (m : Module) (ctx : Nat) : Nat × Nat :=
  let b := m.getF (Reg.HMP_RSWIN.base ctx)
  let c := m.getF (Reg.HMP_RSWIN.count ctx)
  if 2097152 < b + c then (b, 0) else (b, c)

/-- Is a layer descriptor valid for its context (11 R255)? -/
def Module.ldValid (m : Module) (ctx : Nat) (d : List Nat) : Bool :=
  let w (i : Nat) : Nat := d.getD i 0
  let nm := ldNmom d
  decide (w 0 / 2 ^ 60 ≤ 1) && decide (nm ≤ 4) && ldProg d % 8 == 0 &&
  (List.range 7).all (fun i => decide (w (i + 1) < 2 ^ 48)) &&
  ldWeight d % 64 == 0 && ldRem d % 64 == 0 && ldStat d % 64 == 0 && decide (w 10 < 2 ^ 48) &&
  (List.range 4).all (fun j => ldMom d j % 64 == 0 && (decide (j < nm) || ldMom d j == 0)) &&
  decide (w 8 < 2 ^ 40) && w 9 / 2 ^ 44 % 16 == 0 && w 9 / 2 ^ 21 % 2 == 0 && w 12 % 2 ^ 8 == 0 &&
  w 13 / 2 % 2 ^ 7 == 0 && w 14 == 0 && w 15 == 0 &&
  (if ldEmbed d then
    ldNelem d == 0 && decide (1 ≤ ldRowLen d) && decide (ldRowLen d ≤ 2048) && decide (1 ≤ ldRows d) &&
    decide (ldRows d ≤ 2097152) && decide (ldRsBase d + ldRows d ≤ (m.rsWindow ctx).2)
   else decide (1 ≤ ldNelem d) && decide (ldNelem d ≤ 2 ^ 27))

/-! ### Chunks (11 R260) -/

/-- Chunks of a pass. -/
def Upd.chunks (u : Upd) : Nat := if ldEmbed u.desc then u.rowlist.length else (ldNelem u.desc + 2047) / 2048

/-- Elements of a chunk. -/
def Upd.chunkLen (u : Upd) (c : Nat) : Nat := if ldEmbed u.desc then ldRowLen u.desc else min 2048 (ldNelem u.desc - 2048 * c)

/-- The row of a chunk. -/
def Upd.row (u : Upd) (c : Nat) : Nat := u.rowlist.getD c 0

/-- The first element of a chunk in the gradient, and in the layer's tensors. -/
def Upd.gradBase (u : Upd) (c : Nat) : Nat := if ldEmbed u.desc then ldRowLen u.desc * c else 2048 * c
def Upd.elemBase (u : Upd) (c : Nat) : Nat := if ldEmbed u.desc then ldRowLen u.desc * u.row c else 2048 * c

def Upd.lastPass (u : Upd) : Bool := u.pass + 1 == ldPasses u.desc

/-! ### Effective weights (08 R183, R184) -/

/-- The exponent of ulp(w) for BF16 bits: the spacing at |w|, 2⁻¹³³ at zero. -/
def bf16Ulp (b : Nat) : Int := (max 1 (b / 2 ^ 7 % 2 ^ 8) : Nat) - 134

/-- w_eff = w + r × ulp(w) × 2⁻⁸ as FP32 bits; r is ignored when w is not finite. -/
def wEff (w r : Nat) : Nat :=
  let x := bf16.decode w
  if !x.isFin then (fp32.round .rne 0 x).1
  else if signed8 r = 0 then (fp32.round .rne 0 x).1
  else
    let d := (ofInt (signed8 r)).scale (bf16Ulp w - 8)
    (fp32.round .rne 0 (addF false x d).1).1

/-- The store of a new value x (FP32 bits): w′, r′ and whether r′ saturated (08 R184; 11 R262 when not finite). `u` is the draw
of the stochastic rounding. -/
def storeWeight (u x : Nat) : Nat × Nat × Bool :=
  let v := fp32.decode x
  let w' := (bf16.round .rne 0 v).1
  let y := bf16.decode w'
  if !v.isFin || !y.isFin then (w', 0, false)
  else
    match ((addF false v y.neg).1).scale (8 - bf16Ulp w') with
    | .fin n mm e =>
      let r := (roundInt .sr u n mm e).1
      if 127 < r then (w', 127, true) else (w', intBits 8 r, false)
    | _ => (w', 0, false)

/-- A delivered gradient element: the FP32 value × 2⁻ᵏ, rounded to nearest below the normal range (08 R173). -/
def deliverGrad (k : Int) (g : Nat) : Nat := (fp32.round .rne 0 ((fp32.decode g).scale (-k))).1

/-! ### The update cores' buffers -/

/-- The offset of a thread's buffers in its core store: gradient, w_eff, x and up to four moments of 8 KiB each (11 Table 11-5;
the place of the buffers is the model's, DESIGN CHOICE, log 19). -/
def bufBase (thread : Nat) : Nat := thread * 2 ^ 16
def bufX (thread : Nat) : Nat := bufBase thread + 2 ^ 14
def bufMom (thread j : Nat) : Nat := bufBase thread + 3 * 2 ^ 13 + j * 2 ^ 13

def Module.hsRead (m : Module) (core off n : Nat) : Nat := m.readPlace (.hstore core off) n
def Module.hsWrite (m : Module) (core off n v : Nat) : Module := m.writePlace (.hstore core off) n v

/-- What the Hamper's engines access in a context. -/
def hmpWho (ctx : Nat) : Who := engWho ctx 9 false

/-- Read `count` elements of `n` bytes from the context: the values, whether a sector was bad, and the violations. -/
def Module.streamIn (m : Module) (ctx va n count : Nat) : EngRead := m.engRead ctx va n count

/-- Write elements of `n` bytes to the context; denied pages ignore theirs and are counted per element (11 R268). -/
def Module.streamOut (m : Module) (ctx va n : Nat) (vs : List Nat) : Module := m.engPutSeq (hmpWho ctx) va n vs

/-! ### Write-back of a chunk (11 R261-R264) -/

/-- The key words of the remainder's stochastic rounding (11 R262). -/
def remDraw (seed : Word) (u : Upd) (c e : Nat) : Nat :=
  let row := u.row c
  let col := if ldEmbed u.desc then row / 32 else c
  let w1 := BitVec.ofNat 64 (u.layer * 2 ^ 48 + col % 2 ^ 16 * 2 ^ 32 + u.hand.step % 2 ^ 32)
  drawOf seed w1 0x80 (if ldEmbed u.desc then row % 32 * 2048 + e else e)

/-- What the final pass stores for each element of a chunk, from the x values the program wrote. -/
def chunkElems (seed : Word) (u : Upd) (c : Nat) (old : List (Nat × Nat)) (xs : List Nat) : List ElemStat :=
  (List.range xs.length).map (fun e =>
    let x := xs.getD e 0
    let o := old.getD e (0, 0)
    let s := storeWeight (remDraw seed u c e) x
    { w := o.1, r := o.2, x := x, w' := s.1, r' := s.2.1, sat := s.2.2 })

/-- Write a chunk back: remainder and moments before the weights (R263), then the row-state entry (R264). -/
def Module.writeBack (m : Module) (u : Upd) (r : ChunkRun) : Module :=
  let core := keyCore r.thread
  let t := keyThread r.thread
  let n := u.chunkLen r.chunk
  let base := u.elemBase r.chunk
  let xs := (List.range n).map (fun e => m.hsRead core (bufX t + 4 * e) 4)
  let es := chunkElems (m.ctx u.ctx).seed u r.chunk r.old xs
  let m1 := m.streamOut u.ctx (ldRem u.desc + base) 1 (es.map (fun e => e.r'))
  let m2 := m1.each (List.range (ldNmom u.desc)) (fun m j =>
    m.streamOut u.ctx (ldMom u.desc j + 4 * base) 4 ((List.range n).map (fun e => m.hsRead core (bufMom t j + 4 * e) 4)))
  let m3 := m2.streamOut u.ctx (ldWeight u.desc + 2 * base) 2 (es.map (fun e => e.w'))
  let m4 := if ldEmbed u.desc then
      let k := (m.rsWindow u.ctx).1 + ldRsBase u.desc + r.row
      m3.setHmp { m3.hmp with rowState := SMap.set 0 m3.hmp.rowState k (BitVec.ofNat 64 (u.hand.step * 2 ^ 32 + r.count % 2 ^ 32)) }
    else m3
  m4.setHmp { m4.hmp with upd := m4.hmp.upd.map (fun x => if x.id = u.id then { x with stats := x.stats ++ [(r.chunk, es)] } else x) }

/-- The thread of a chunk halts: the final pass writes the chunk back; the chunk is done. -/
def Module.chunkDone (m : Module) (upd chunk : Nat) : Module :=
  match m.hmp.upd.find? (fun u => u.id == upd) with
  | none => m
  | some u =>
    let m1 := match u.running.find? (fun r => r.chunk == chunk) with
      | some r => if u.lastPass then m.writeBack u r else m
      | none => m
    m1.setHmp { m1.hmp with upd := m1.hmp.upd.map (fun x =>
      if x.id = upd then { x with running := x.running.filter (fun r => r.chunk != chunk) } else x) }

end Sys2Proof.Machine
end

