-- ==== Sys2Proof/WellFormed.lean ====
section
/-! DEFINITION. Which commands are well formed: a thread instruction carries a word of its own row (04 R86-R88), and
ILLEGAL_INSTRUCTION a word of no row. Every other operand is within its range by its type. -/

namespace Sys2Proof

/-- Does a word belong to a row? -/
def wordIs (r : Row) (w : Word) : Bool := classify w == some r

/-- Is a word an illegal encoding on its own (04 R88)? -/
def wordIllegal (w : Word) : Bool := classify w == none

/-- Is a command well formed? -/
def Instr.wf (i : Instr) : Bool :=
  match i with
  | .integerOp _ w => wordIs .integerOp w
  | .divRem _ w => wordIs .divRem w
  | .liL _ w => wordIs .liL w
  | .liH _ w => wordIs .liH w
  | .fpArith _ w => wordIs .fpArith w
  | .fdivFsqrt _ w => wordIs .fdivFsqrt w
  | .fminFmax _ w => wordIs .fminFmax w
  | .fsgnj _ w => wordIs .fsgnj w
  | .fclass _ w => wordIs .fclass w
  | .faddP _ w => wordIs .faddP w
  | .fmulP _ w => wordIs .fmulP w
  | .fmaP _ w => wordIs .fmaP w
  | .padd _ w => wordIs .padd w
  | .pround _ w => wordIs .pround w
  | .convert _ w => wordIs .convert w
  | .intCompare _ w => wordIs .intCompare w
  | .fpCompare _ w => wordIs .fpCompare w
  | .branch _ w => wordIs .branch w
  | .jal _ w => wordIs .jal w
  | .jalr _ w => wordIs .jalr w
  | .nop _ w => wordIs .nop w
  | .halt _ w => wordIs .halt w
  | .yield _ w => wordIs .yield w
  | .pause _ w => wordIs .pause w
  | .pauseEnd _ => true
  | .trap _ w => wordIs .trap w
  | .tret _ w => wordIs .tret w
  | .srd _ w => wordIs .srd w
  | .swr _ w => wordIs .swr w
  | .sset _ w => wordIs .sset w
  | .sclr _ w => wordIs .sclr w
  | .vintOp _ w => wordIs .vintOp w
  | .vfixedOp _ w => wordIs .vfixedOp w
  | .vfloatOp _ w => wordIs .vfloatOp w
  | .vpairOp _ w => wordIs .vpairOp w
  | .vcvt _ w => wordIs .vcvt w
  | .vcompare _ w => wordIs .vcompare w
  | .maskOp _ w => wordIs .maskOp w
  | .vbcast _ w => wordIs .vbcast w
  | .vext _ w => wordIs .vext w
  | .vins _ w => wordIs .vins w
  | .vmerge _ w => wordIs .vmerge w
  | .vperm _ w => wordIs .vperm w
  | .vslideup _ w => wordIs .vslideup w
  | .vslidedn _ w => wordIs .vslidedn w
  | .vreduce _ w => wordIs .vreduce w
  | .vld _ w => wordIs .vld w
  | .vst _ w => wordIs .vst w
  | .vlds _ w => wordIs .vlds w
  | .vsts _ w => wordIs .vsts w
  | .vgather _ w => wordIs .vgather w
  | .vscatter _ w => wordIs .vscatter w
  | .msLd _ w => wordIs .msLd w
  | .msSwap _ w => wordIs .msSwap w
  | .mma _ w => wordIs .mma w
  | .mmaSlot _ => true
  | .slotResultLand _ => true
  | .mstCfg _ w => wordIs .mstCfg w
  | .mstSeek _ w => wordIs .mstSeek w
  | .maccZero _ w => wordIs .maccZero w
  | .maccLd _ w => wordIs .maccLd w
  | .maccDrain _ w => wordIs .maccDrain w
  | .maccStat _ w => wordIs .maccStat w
  | .mwait _ w => wordIs .mwait w
  | .mOpRetire _ => true
  | .qCholTile _ w => wordIs .qCholTile w
  | .qTrsm _ w => wordIs .qTrsm w
  | .qSchur _ w => wordIs .qSchur w
  | .qHhPanel _ w => wordIs .qHhPanel w
  | .qHhApply _ w => wordIs .qHhApply w
  | .ld _ w => wordIs .ld w
  | .st _ w => wordIs .st w
  | .gld _ w => wordIs .gld w
  | .gst _ w => wordIs .gst w
  | .amo _ w => wordIs .amo w
  | .red _ w => wordIs .red w
  | .redv _ w => wordIs .redv w
  | .redvi _ w => wordIs .redvi w
  | .xFence _ w => wordIs .xFence w
  | .xXfer _ w => wordIs .xXfer w
  | .xAbort _ w => wordIs .xAbort w
  | .xLaunch _ w => wordIs .xLaunch w
  | .xWait _ w => wordIs .xWait w
  | .xWaitRecheck _ => true
  | .xWaitLimit _ => true
  | .xSqsub _ w => wordIs .xSqsub w
  | .xSqadj _ w => wordIs .xSqadj w
  | .xColl _ w => wordIs .xColl w
  | .memoryResponse _ _ => true
  | .coreClockStop _ => true
  | .gridAdmit _ => true
  | .lease _ _ _ => true
  | .release _ _ _ => true
  | .sqCutoff _ => true
  | .deadlineExpiry _ => true
  | .problemStart _ => true
  | .solverStageEnd _ => true
  | .problemEnd _ => true
  | .adjointEntryStart _ => true
  | .adjointEntryEnd _ => true
  | .seqProcFault _ => true
  | .seqProcRestart _ => true
  | .flashSubmit _ _ => true
  | .flashCommandComplete _ _ => true
  | .hmpStepWrite _ _ => true
  | .handoverRecord => true
  | .layerUpdateStart => true
  | .chunkThreadStart _ => true
  | .layerUpdateEnd => true
  | .hmpRswinWrite _ _ => true
  | .hmpRsDataAccess _ => true
  | .hmpResume _ _ => true
  | .hmpFptrTailWrite _ => true
  | .d2dRetrain => true
  | .d2dLinkLost => true
  | .retrain _ => true
  | .repair _ _ _ => true
  | .maintOpEnd _ _ => true
  | .scrubRow _ _ _ _ _ => true
  | .memMaintModeWrite _ => true
  | .testPortStep _ _ _ _ => true
  | .testPortStepEnd => true
  | .data _ _ _ => true
  | .idle _ _ => true
  | .nak _ _ => true
  | .credit _ _ _ => true
  | .rescue _ _ _ => true
  | .oos _ _ _ => true
  | .hello _ _ => true
  | .proof _ _ => true
  | .doze _ _ _ => true
  | .dozeAck _ _ => true
  | .dozeTimeout _ => true
  | .replayTimeout _ => true
  | .keepaliveSend _ => true
  | .ackSend _ => true
  | .creditSend _ => true
  | .nakHoldoffExpiry _ => true
  | .receiveSilence _ => true
  | .portRetrainEnd _ _ => true
  | .portSignalDetect _ => true
  | .portTrainEnd _ _ => true
  | .helloSend _ => true
  | .failedRetry _ => true
  | .heldPacketSend => true
  | .kindleBurst _ => true
  | .wakeNeighbourTimeout _ => true
  | .kindleDetect _ _ => true
  | .aliveToggle => true
  | .aliveSilence _ => true
  | .lamplighterBeat => true
  | .fabDeclare _ _ => true
  | .fabRtDataAccess _ => true
  | .portRetrainRequest _ => true
  | .fabDevidWrite _ => true
  | .allreduce _ => true
  | .reduceScatter _ => true
  | .allgather _ => true
  | .broadcast _ => true
  | .alltoall _ => true
  | .barrier _ => true
  | .gradHandover _ => true
  | .shardPost _ _ => true
  | .shardGather _ => true
  | .unpin _ => true
  | .permute _ => true
  | .ringPass _ => true
  | .collectiveMessage _ _ _ _ => true
  | .collectiveTimeout _ => true
  | .collectiveComplete _ => true
  | .drainBoundExpiry _ => true
  | .cprocFault _ => true
  | .blanketCopyArrive _ => true
  | .blanketCopyAck _ _ _ _ => true
  | .transferStart _ _ _ => true
  | .read => true
  | .write => true
  | .atomic => true
  | .reduce => true
  | .readResp => true
  | .writeAck => true
  | .atomicResp => true
  | .reduceAck => true
  | .requestTimeout _ => true
  | .snuff => true
  | .quiet => true
  | .watchdogWarn _ => true
  | .watchdogStop _ => true
  | .unitHang _ _ => true
  | .partitionFaultDetect _ _ => true
  | .escalationCheck _ => true
  | .partitionResetApply _ => true
  | .partitionHoldEnd _ _ => true
  | .partitionSelfTestEnd _ => true
  | .resetFailure _ _ => true
  | .partCmdReset _ => true
  | .nonpartitionFault => true
  | .wickEvaluate => true
  | .wickEntryCommit => true
  | .wakeEvent _ _ => true
  | .wickExitDone => true
  | .pwrTimerExpiry => true
  | .pwrPolicyWrite _ _ => true
  | .avsAck _ => true
  | .avsTimeout _ => true
  | .marginMonitor _ _ => true
  | .thermalThrottle _ => true
  | .thermalTrip => true
  | .mainPowerLoss => true
  | .standbyPowerOn => true
  | .converterStart _ => true
  | .powerUp _ _ => true
  | .conventionalReset _ => true
  | .perstDeassert => true
  | .vfFlr _ => true
  | .pfFlr => true
  | .eventTimerExpiry _ => true
  | .evcClaim _ _ => true
  | .evcDone _ _ _ => true
  | .evcRaise _ _ => true
  | .evcGateWrite _ _ => true
  | .msixUnmask _ => true
  | .pmcDataRead _ => true
  | .pmcDataWrite _ _ => true
  | .pmcSnap _ => true
  | .pmcSnapDone => true
  | .pmcWinStart _ => true
  | .pmcWindowEnd => true
  | .fwStage _ => true
  | .fwSwitch => true
  | .fwCommit _ => true
  | .fwRecover _ _ => true
  | .thermosSync => true
  | .returnToService => true
  | .setLimits => true
  | .factoryDefaults => true
  | .enrolOwner => true
  | .lamplighterTakeover => true
  | .thermosMirror _ => true
  | .getVersion => true
  | .getCapabilities => true
  | .negotiateAlgorithms => true
  | .getDigests => true
  | .getCertificate _ _ _ => true
  | .challenge _ _ => true
  | .getMeasurements _ _ _ => true
  | .getPqChain _ _ => true
  | .getPqSig => true
  | .spdmUnsupported => true
  | .hqDoorbell _ _ _ _ => true
  | .hqBaseWrite _ _ _ _ => true
  | .nopCommand _ _ => true
  | .ctxCreate _ _ => true
  | .ctxTeardown _ _ => true
  | .invalidate _ _ => true
  | .resume _ _ => true
  | .launch _ _ => true
  | .solve _ _ => true
  | .adjoint _ _ => true
  | .collective _ _ => true
  | .xfer _ _ => true
  | .abort _ _ => true
  | .faultRingTailWrite _ _ _ => true
  | .bar2Read _ _ _ => true
  | .bar2Write _ _ _ => true
  | .hostReadFail _ => true
  | .registerWrite _ _ => true
  | .illegalInstruction _ w => wordIllegal w
  | .fetchFault _ => true
  | .frameCrcError _ => true
  | .flitReplay => true
  | .aliveEdge _ => true
  | .standbyPowerLoss => true
  | .bar0ReadViolation _ _ _ => true
  | .oosAckTimeout => true
  | .localTransferPerformed _ => true

end Sys2Proof
end

