-- ==== Sys2Proof/Machine/Scalar.lean ====
section
/-! DEFINITION. The scalar class (04, 03): integer, floating, pair, conversion, compare, branch, thread control, status
registers and traps. HALT is in Machine/Grids.lean, which ends threads. -/

namespace Sys2Proof.Machine

/-- Run a thread instruction whose word must belong to row `r`. -/
def State.inst (s : State) (r : Row) (th : ThreadId) (w : Word) (body : Module → Nat → Module) :
    Host.Outcome State Fault Refusal :=
  s.run (wordIs r w) (fun m => m.issue th w body)

/-! ### Integer (04 Tables 4-3, 4-4, R93) -/

/-- Leading zeros of a 64-bit word. -/
def clz64 (x : Nat) : Nat := if x = 0 then 64 else 63 - Nat.log2 x

/-- Trailing zeros: the position of the lowest set bit below 64. -/
def ctz64 (x : Nat) : Nat := ((List.range 64).find? (fun i => Nat.testBit x i)).getD 64

def popc (n x : Nat) : Nat := ((List.range n).filter (fun i => Nat.testBit x i)).length

/-- The result of an integer minor; `c` is read by sel and by the register form of bext, whose width comes in `width`. -/
def intResult (minor : Nat) (a b c : Word) (width : Nat) : Word :=
  let sh := b.toNat % 64
  match minor with
  | 0x00 => a + b
  | 0x01 => a - b
  | 0x02 => a &&& b
  | 0x03 => a ||| b
  | 0x04 => a ^^^ b
  | 0x05 => a <<< sh
  | 0x06 => a >>> sh
  | 0x07 => a.sshiftRight sh
  | 0x08 => a * b
  | 0x09 => BitVec.ofInt 64 (a.toInt * b.toInt / (2 ^ 64 : Nat))
  | 0x0A => BitVec.ofNat 64 (a.toNat * b.toNat / 2 ^ 64)
  | 0x0F => if a.toInt ≤ b.toInt then a else b
  | 0x10 => if b.toInt ≤ a.toInt then a else b
  | 0x11 => if a.toNat ≤ b.toNat then a else b
  | 0x12 => if b.toNat ≤ a.toNat then a else b
  | 0x13 => BitVec.ofNat 64 (clz64 a.toNat)
  | 0x14 => BitVec.ofNat 64 (ctz64 a.toNat)
  | 0x15 => BitVec.ofNat 64 (popc 64 a.toNat)
  | 0x16 => BitVec.ofNat 64 (a.toNat / 2 ^ sh % 2 ^ width)
  | _ => if c != 0 then a else b

/-- The second operand of an integer instruction: register b, or the immediate; the immediate bext takes mod[5:0]. -/
def intB (t : Thread) (w : Word) : Word :=
  if Word.major w = 1 then t.getS (Word.rb w)
  else if Word.minor w = 0x16 then BitVec.ofNat 64 (Word.slice w 5 0) else imm28 w

/-- The width of a bext: c[5:0] + 1, or mod[11:6] + 1. -/
def bextWidth (t : Thread) (w : Word) : Nat :=
  if Word.major w = 1 then (t.getS (Word.rc w)).toNat % 64 + 1 else Word.slice w 11 6 + 1

def integerOp (w : Word) (m : Module) (k : Nat) : Module :=
  let t := m.th k
  m.retireS k (Word.rd w)
    (intResult (Word.minor w) (t.getS (Word.ra w)) (intB t w) (if Word.major w = 1 then t.getS (Word.rc w) else 0) (bextWidth t w))

def execIntegerOp (th : ThreadId) (w : Word) (s : State) : Host.Outcome State Fault Refusal :=
  s.inst .integerOp th w (integerOp w)

/-- div, divu, rem, remu (04 R93): a zero divisor gives all ones and a; −2⁶³ / −1 gives −2⁶³ and 0. -/
def divResult (minor : Nat) (a b : Word) : Word :=
  if b = 0 then (if minor = 0x0B || minor = 0x0C then BitVec.ofNat 64 (2 ^ 64 - 1) else a)
  else match minor with
    | 0x0B => BitVec.ofInt 64 (a.toInt.tdiv b.toInt)
    | 0x0C => BitVec.ofNat 64 (a.toNat / b.toNat)
    | 0x0D => BitVec.ofInt 64 (a.toInt.tmod b.toInt)
    | _ => BitVec.ofNat 64 (a.toNat % b.toNat)

def divRem (w : Word) (m : Module) (k : Nat) : Module :=
  let t := m.th k
  m.retireS k (Word.rd w) (divResult (Word.minor w) (t.getS (Word.ra w)) (intB t w))

def execDivRem (th : ThreadId) (w : Word) (s : State) : Host.Outcome State Fault Refusal := s.inst .divRem th w (divRem w)

def liL (w : Word) (m : Module) (k : Nat) : Module := m.retireS k (Word.rd w) (imm40 w)

def execLiL (th : ThreadId) (w : Word) (s : State) : Host.Outcome State Fault Refusal := s.inst .liL th w (liL w)

/-- li.h: d[63:40] := imm40[23:0], d[39:0] kept (04 Table 4-3). -/
def liHValue (old : Word) (w : Word) : Word := BitVec.ofNat 64 (Word.slice w 23 0 * 2 ^ 40 + old.toNat % 2 ^ 40)

def liH (w : Word) (m : Module) (k : Nat) : Module := m.retireS k (Word.rd w) (liHValue ((m.th k).getS (Word.rd w)) w)

def execLiH (th : ThreadId) (w : Word) (s : State) : Host.Outcome State Fault Refusal := s.inst .liH th w (liH w)

/-! ### Floating (04 Table 4-5, 03 R57-R65) -/

/-- The format of majors 0x04 and 0x05. -/
def scalarFmt (w : Word) : Fmt := if Word.major w = 4 then fp64 else fp32

/-- Write a floating result, which clears every higher bit (04 R91), OR its flags, retire. -/
def Module.retireF (m : Module) (k d : Nat) (r : Nat × Flags) : Module :=
  (m.setTh k (((m.th k).orFlags r.2).setSN d r.1)).retire k false

def arithOpOf (minor : Nat) : ArithOp :=
  match minor with
  | 0 => .add | 1 => .sub | 2 => .mul | 3 => .fma | 4 => .fms | _ => .fnma

def fpArith (w : Word) (m : Module) (k : Nat) : Module :=
  let t := m.th k
  m.retireF k (Word.rd w)
    (fArith (scalarFmt w) (arithOpOf (Word.minor w)) (t.rmOf (Word.rm w) true) (m.draw t w 0)
      (t.getS (Word.ra w)).toNat (t.getS (Word.rb w)).toNat (t.getS (Word.rc w)).toNat)

def execFpArith (th : ThreadId) (w : Word) (s : State) : Host.Outcome State Fault Refusal := s.inst .fpArith th w (fpArith w)

def fdivFsqrt (w : Word) (m : Module) (k : Nat) : Module :=
  let t := m.th k
  let rm := t.rmOf (Word.rm w) false
  m.retireF k (Word.rd w)
    (if Word.minor w = 6 then fDiv (scalarFmt w) rm (t.getS (Word.ra w)).toNat (t.getS (Word.rb w)).toNat
     else fSqrt (scalarFmt w) rm (t.getS (Word.ra w)).toNat)

def execFdivFsqrt (th : ThreadId) (w : Word) (s : State) : Host.Outcome State Fault Refusal :=
  s.inst .fdivFsqrt th w (fdivFsqrt w)

def fminFmax (w : Word) (m : Module) (k : Nat) : Module :=
  let t := m.th k
  m.retireF k (Word.rd w)
    (fMinMax (scalarFmt w) (Word.minor w == 9) (t.getS (Word.ra w)).toNat (t.getS (Word.rb w)).toNat)

def execFminFmax (th : ThreadId) (w : Word) (s : State) : Host.Outcome State Fault Refusal :=
  s.inst .fminFmax th w (fminFmax w)

def fsgnjBody (w : Word) (m : Module) (k : Nat) : Module :=
  let t := m.th k
  m.retireF k (Word.rd w) (fSgnj (scalarFmt w) (t.getS (Word.ra w)).toNat (t.getS (Word.rb w)).toNat, fNone)

def execFsgnj (th : ThreadId) (w : Word) (s : State) : Host.Outcome State Fault Refusal := s.inst .fsgnj th w (fsgnjBody w)

def fclassBody (w : Word) (m : Module) (k : Nat) : Module :=
  m.retireF k (Word.rd w) (fClass (scalarFmt w) ((m.th k).getS (Word.ra w)).toNat, fNone)

def execFclass (th : ThreadId) (w : Word) (s : State) : Host.Outcome State Fault Refusal := s.inst .fclass th w (fclassBody w)

/-! ### Pairs (03 R79-R82, 04 R92) -/

/-- Write a pair destination: two registers for FP64, one for FP32. -/
def Module.retireP (m : Module) (k : Nat) (w : Word) (p : Pair) (f : Flags) : Module :=
  let fmt := scalarFmt w
  let b := p.bits fmt
  let t := (m.th k).orFlags f
  (m.setTh k (if Word.major w = 4 then t.setPair64 (Word.rd w) b.1 b.2 else t.setPair32 (Word.rd w) b.1 b.2)).retire k false

/-- A pair operand. -/
def Thread.pairOperand (t : Thread) (w : Word) (r : Nat) : Pair :=
  let x := if Word.major w = 4 then t.getPair64 r else t.getPair32 r
  Pair.ofBits (scalarFmt w) x.1 x.2

def Thread.fval (t : Thread) (w : Word) (r : Nat) : FVal := (scalarFmt w).decode (t.getS r).toNat

def faddP (w : Word) (m : Module) (k : Nat) : Module :=
  let t := m.th k
  let r := twoSum (scalarFmt w) (t.fval w (Word.ra w)) (t.fval w (Word.rb w))
  m.retireP k w r.1 r.2

def execFaddP (th : ThreadId) (w : Word) (s : State) : Host.Outcome State Fault Refusal := s.inst .faddP th w (faddP w)

def fmulP (w : Word) (m : Module) (k : Nat) : Module :=
  let t := m.th k
  let r := twoProd (scalarFmt w) (t.fval w (Word.ra w)) (t.fval w (Word.rb w))
  m.retireP k w r.1 r.2.1

def execFmulP (th : ThreadId) (w : Word) (s : State) : Host.Outcome State Fault Refusal := s.inst .fmulP th w (fmulP w)

def fmaP (w : Word) (m : Module) (k : Nat) : Module :=
  let t := m.th k
  let r := fmaPair (scalarFmt w) (t.fval w (Word.ra w)) (t.fval w (Word.rb w)) (t.fval w (Word.rc w))
  m.retireP k w r.1 r.2.1

def execFmaP (th : ThreadId) (w : Word) (s : State) : Host.Outcome State Fault Refusal := s.inst .fmaP th w (fmaP w)

def paddBody (w : Word) (m : Module) (k : Nat) : Module :=
  let t := m.th k
  let r := pairAdd (scalarFmt w) (t.pairOperand w (Word.ra w)) (t.pairOperand w (Word.rb w))
  m.retireP k w r.1 r.2

def execPadd (th : ThreadId) (w : Word) (s : State) : Host.Outcome State Fault Refusal := s.inst .padd th w (paddBody w)

def proundBody (w : Word) (m : Module) (k : Nat) : Module :=
  let t := m.th k
  let rm := t.rmOf (Word.rm w) false
  m.retireF k (Word.rd w) (finishF (scalarFmt w) rm 0 ((t.pairOperand w (Word.ra w)).value (rdnOf rm)))

def execPround (th : ThreadId) (w : Word) (s : State) : Host.Outcome State Fault Refusal := s.inst .pround th w (proundBody w)

/-! ### Conversions (03 R74-R76, 04 R94) -/

/-- The format of a floating code. -/
def FCode.fmt : FCode → Fmt
  | .f64 => fp64 | .f32 => fp32 | .bf16 => bf16 | .f16 => fp16 | .e4m3 => e4m3 | .e5m2 => e5m2 | _ => fp64

/-- The exact source value of a conversion; `w` is the width of an integer source. -/
def convSource (src : FCode) (w x : Nat) : FVal :=
  match src with
  | .sint => ofInt (intOf true w x)
  | .uint => ofInt (intOf false w x)
  | c => (FCode.fmt c).decode x

/-- One conversion of Table 3-6: an integer result as its `w`-bit pattern. A scaled narrowing multiplies by 2^k, a scaled
widening by 2^−k (03 R75, R76). -/
def convert (dst src : FCode) (rm : Rm) (u w : Nat) (scaled : Bool) (kexp : Int) (x : Nat) : Nat × Flags :=
  let v := convSource src w x
  let v := if scaled then (if convExact dst src then v.scale (-kexp) else v.scale kexp) else v
  match dst with
  | .sint => let r := toInt rm u true w v; (intBits w r.1, r.2)
  | .uint => let r := toInt rm u false w v; (intBits w r.1, r.2)
  | c => (FCode.fmt c).round rm u v

def convertBody (w : Word) (m : Module) (k : Nat) : Module :=
  let t := m.th k
  let dst := FCode.ofCode (Word.minor w / 8)
  let src := FCode.ofCode (Word.minor w % 8)
  let iw := if Word.slice w 16 16 = 1 then 32 else 64
  let r := convert dst src (t.rmOf (Word.rm w) true) (m.draw t w 0) iw (Word.slice w 15 15 == 1)
    (signedOf 8 (t.getS (Word.rb w)).toNat) (t.getS (Word.ra w)).toNat
  let v := if dst = .sint && iw = 32 then intBits 64 (intOf true 32 r.1) else r.1
  m.retireF k (Word.rd w) (v, r.2)

def execConvert (th : ThreadId) (w : Word) (s : State) : Host.Outcome State Fault Refusal := s.inst .convert th w (convertBody w)

/-! ### Compares and branches (04 Table 4-6a, R95) -/

/-- The integer conditions: eq, ne, lt, ge, ltu, geu. -/
def intCond (minor : Nat) (a b : Word) : Bool :=
  match minor with
  | 0 => a == b
  | 1 => a != b
  | 2 => decide (a.toInt < b.toInt)
  | 3 => decide (b.toInt ≤ a.toInt)
  | 4 => decide (a.toNat < b.toNat)
  | _ => decide (b.toNat ≤ a.toNat)

def boolWord (b : Bool) : Word := if b then 1 else 0

def intCompare (w : Word) (m : Module) (k : Nat) : Module :=
  let t := m.th k
  m.retireS k (Word.rd w) (boolWord (intCond (Word.minor w) (t.getS (Word.ra w)) (t.getS (Word.rb w))))

def execIntCompare (th : ThreadId) (w : Word) (s : State) : Host.Outcome State Fault Refusal :=
  s.inst .intCompare th w (intCompare w)

def cmpOf (minor : Nat) : FCmp := match minor % 4 with | 0 => .eq | 1 => .lt | _ => .le

def fpCompare (w : Word) (m : Module) (k : Nat) : Module :=
  let t := m.th k
  let f := if Word.minor w ≤ 0x0A then fp64 else fp32
  let r := fCompare f (cmpOf (Word.minor w)) (t.getS (Word.ra w)).toNat (t.getS (Word.rb w)).toNat
  m.retireF k (Word.rd w) (if r.1 then 1 else 0, r.2)

def execFpCompare (th : ThreadId) (w : Word) (s : State) : Host.Outcome State Fault Refusal :=
  s.inst .fpCompare th w (fpCompare w)

/-- Retire with the next instruction at `target`. -/
def Module.jump (m : Module) (k : Nat) (target : Word) : Module :=
  let m1 := m.retire k false
  m1.setTh k { m1.th k with ip := target }

/-- The branch target: IP + 8 × sext(off28) (04 Table 4-6a). -/
def branchTarget (ip w : Word) : Word := ip + 8 * imm28 w

def branchBody (w : Word) (m : Module) (k : Nat) : Module :=
  let t := m.th k
  m.jump k (if intCond (Word.minor w) (t.getS (Word.ra w)) (t.getS (Word.rb w)) then branchTarget t.ip w else t.ip + 8)

def execBranch (th : ThreadId) (w : Word) (s : State) : Host.Outcome State Fault Refusal := s.inst .branch th w (branchBody w)

def jalBody (w : Word) (m : Module) (k : Nat) : Module :=
  let t := m.th k
  (m.setTh k (t.setS (Word.rd w) (t.ip + 8))).jump k (t.ip + 8 * imm40 w)

def execJal (th : ThreadId) (w : Word) (s : State) : Host.Outcome State Fault Refusal := s.inst .jal th w (jalBody w)

/-- jalr: a misaligned target traps ALIGN with TVAL the target, and d is not written (04 R95, R100). -/
def jalrBody (w : Word) (m : Module) (k : Nat) : Module :=
  let t := m.th k
  let target := t.getS (Word.ra w) + imm28 w
  if target.toNat % 8 != 0 then m.trap k causeAlign target
  else (m.setTh k (t.setS (Word.rd w) (t.ip + 8))).jump k target

def execJalr (th : ThreadId) (w : Word) (s : State) : Host.Outcome State Fault Refusal := s.inst .jalr th w (jalrBody w)

/-! ### Thread control (04 R96, R101-R104) -/

def execNop (th : ThreadId) (w : Word) (s : State) : Host.Outcome State Fault Refusal :=
  s.inst .nop th w (fun m k => m.retire k false)

/-- yield moves the thread last in both round-robin orders (04 R104). -/
def yieldBody (m : Module) (k : Nat) : Module :=
  let m1 := m.advance k false
  m1.setCore (k / 8) { m1.core (k / 8) with lastScalar := keyThread k, lastWide := keyThread k }

def execYield (th : ThreadId) (w : Word) (s : State) : Host.Outcome State Fault Refusal := s.inst .yield th w yieldBody

/-- pause: the thread issues nothing until PAUSE_END (04 Table 4-6a). -/
def pauseBody (m : Module) (k : Nat) : Module :=
  let m1 := m.advance k false
  m1.setTh k { m1.th k with run := .paused }

def execPause (th : ThreadId) (w : Word) (s : State) : Host.Outcome State Fault Refusal := s.inst .pause th w pauseBody

/-- The pause count expires: the thread may issue again (04 R104). -/
def execPauseEnd (th : ThreadId) (s : State) : Host.Outcome State Fault Refusal :=
  s.go (fun m =>
    let t := m.th (ThreadId.key th)
    if t.run = .paused then m.setTh (ThreadId.key th) { t with run := .running } else m)

/-- trap: cause SOFTWARE with TVAL := mod[27:0]; the thread goes on behind it (04 R101). -/
def execTrap (th : ThreadId) (w : Word) (s : State) : Host.Outcome State Fault Refusal :=
  s.inst .trap th w (fun m k => m.trap k causeSoftware (BitVec.ofNat 64 (Word.mod28 w)))

/-- tret (04 R102): illegal outside a trap; a misaligned TEPC traps ALIGN, unhandled because in_trap is 1. -/
def tretBody (w : Word) (m : Module) (k : Nat) : Module :=
  let t := m.th k
  if !t.inTrap then m.trapWord k causeIllegal w
  else if t.tepc.toNat % 8 != 0 then m.trap k causeAlign (t.tepc.setWidth 64)
  else
    let m1 := m.jump k (t.tepc.setWidth 64)
    m1.setTh k { m1.th k with inTrap := false }

def execTret (th : ThreadId) (w : Word) (s : State) : Host.Outcome State Fault Refusal := s.inst .tret th w (tretBody w)

/-- A word that is an illegal encoding traps ILLEGAL with TVAL the word (04 R88, R101), also where the processor lacks its class
(DESIGN CHOICE: R100 names both in one step, log 66). -/
def execIllegalInstruction (th : ThreadId) (w : Word) (s : State) : Host.Outcome State Fault Refusal :=
  s.run (wordIllegal w) (fun m =>
    let k := ThreadId.key th
    if (m.th k).run != .running || (keyKind k == 0 && m.getF Reg.PWR_STATE.state != 0) then m
    else (m.settle k).trapWord k causeIllegal w)

/-! ### Status registers (04 R97, R99) -/

def srNum (w : Word) : Nat := Word.slice w 11 0

/-- A status register instruction issues only after every earlier V-class instruction of the thread has retired (04 R99). -/
def Module.afterVec (m : Module) (k : Nat) (body : Module → Module) : Module := if m.vecPending k then m else body m

def srdBody (w : Word) (m : Module) (k : Nat) : Module :=
  m.afterVec k (fun m => m.retireS k (Word.rd w) (m.readSr k (srNum w)))

def execSrd (th : ThreadId) (w : Word) (s : State) : Host.Outcome State Fault Refusal := s.inst .srd th w (srdBody w)

def swrBody (w : Word) (m : Module) (k : Nat) : Module :=
  m.afterVec k (fun m =>
    let t := m.th k
    (m.setTh k (t.writeSr (srNum w) (t.getS (Word.ra w)))).retire k false)

def execSwr (th : ThreadId) (w : Word) (s : State) : Host.Outcome State Fault Refusal := s.inst .swr th w (swrBody w)

/-- sset and sclr: d gets the old value, `f old a` is written. -/
def srModify (w : Word) (f : Word → Word → Word) (m : Module) (k : Nat) : Module :=
  m.afterVec k (fun m =>
    let t := m.th k
    let old := m.readSr k (srNum w)
    (m.setTh k ((t.writeSr (srNum w) (f old (t.getS (Word.ra w)))).setS (Word.rd w) old)).retire k false)

def execSset (th : ThreadId) (w : Word) (s : State) : Host.Outcome State Fault Refusal :=
  s.inst .sset th w (srModify w (fun old a => old ||| a))

def execSclr (th : ThreadId) (w : Word) (s : State) : Host.Outcome State Fault Refusal :=
  s.inst .sclr th w (srModify w (fun old a => old &&& ~~~a))

end Sys2Proof.Machine
end

