-- ==== Sys2Proof/Machine/Vector.lean ====
section
/-! DEFINITION. The vector class but its memory forms (05): integer, fixed-point, floating, pair, conversion, compare,
mask, move and reduction instructions. -/

namespace Sys2Proof.Machine

/-- Complete a V-class instruction: VIDX becomes zero (05 R98) and the thread retires on the wide port. -/
def Module.retireV (m : Module) (k : Nat) (t : Thread) : Module := (m.setTh k { t with vidx := 0 }).retire k true

/-- The flags of the performed elements (05 R113). -/
def Thread.vflags (t : Thread) (w : Word) (n : Nat) (f : Nat → Flags) : Flags :=
  (List.range n).foldl (fun g i => if t.performs w i then g ||| f i else g) fNone

/-- One element-wise instruction with a plain destination. -/
def Module.vecOp (m : Module) (k : Nat) (w : Word) (dw n : Nat) (f : Nat → Nat × Flags) : Module :=
  let t := m.th k
  let x := t.mergeV w (Word.rd w) dw n (fun i => (f i).1)
  m.retireV k ((t.setV (Word.rd w) x).orFlags (t.vflags w n (fun i => (f i).2)))

/-- Elements of the three sources. -/
def Thread.va (t : Thread) (w : Word) (ew i : Nat) : Nat := velem (t.getV (Word.ra w)) ew i
def Thread.vb (t : Thread) (w : Word) (ew i : Nat) : Nat := velem (t.getV (Word.rb w)) ew i
def Thread.vc (t : Thread) (w : Word) (ew i : Nat) : Nat := velem (t.getV (Word.rc w)) ew i
def Thread.vd (t : Thread) (w : Word) (ew i : Nat) : Nat := velem (t.getV (Word.rd w)) ew i

/-! ### Integer (05 Table 5-2, major 0x10) -/

/-- One element of major 0x10, wrapping; the shift takes the low log2(w) bits. -/
def vintElem (minor : Nat) (signed : Bool) (ew a b : Nat) : Nat :=
  let x := intOf signed ew a
  let y := intOf signed ew b
  let sh := b % ew
  let r : Int :=
    match minor with
    | 0 => (a : Int) + b
    | 1 => (a : Int) - b
    | 2 => (Nat.land a b : Nat)
    | 3 => (Nat.lor a b : Nat)
    | 4 => (Nat.xor a b : Nat)
    | 5 => (a * 2 ^ sh : Nat)
    | 6 => (a / 2 ^ sh : Nat)
    | 7 => intOf true ew a / (2 ^ sh : Nat)
    | 8 => (a * b : Nat)
    | 9 => x * y / (2 ^ ew : Nat)
    | 10 => if x ≤ y then x else y
    | _ => if y ≤ x then x else y
  intBits ew r

def vintOp (w : Word) (m : Module) (k : Nat) : Module :=
  let t := m.th k
  let ty := vtype w
  let ew := vWidth ty
  m.vecOp k w ew (vCount ty)
    (fun i => (vintElem (Word.minor w) (vSigned ty) ew (t.va w ew i) (t.vb w ew i), fNone))

def execVintOp (th : ThreadId) (w : Word) (s : State) : Host.Outcome State Fault Refusal := s.inst .vintOp th w (vintOp w)

/-! ### Fixed point (05 Table 5-4, R116) -/

/-- The exact value of a Q operation as an integer and a power of two. -/
def vqExact (minor f : Nat) (a b d : Int) (s : Nat) : Int × Int :=
  match minor with
  | 0 => (a + b, -(f : Int))
  | 1 => (a - b, -(f : Int))
  | 2 => (a * b, -(2 * f : Nat))
  | 3 => (d * (2 ^ f : Nat) + a * b, -(2 * f : Nat))
  | 4 => (d * (2 ^ f : Nat) - a * b, -(2 * f : Nat))
  | 5 => (a, -((f + s : Nat) : Int))
  | 6 => (a + b, -((f + 1 : Nat) : Int))
  | 7 => ((a.natAbs : Int), -(f : Int))
  | _ => (-a, -(f : Int))

def vfixedElem (minor : Nat) (rm : Rm) (u : Nat) (signed : Bool) (ew f a b d : Nat) : Nat × Flags :=
  let (v, e) := vqExact minor f (intOf signed ew a) (intOf signed ew b) (intOf signed ew d) b
  let r := qResult rm u signed ew f (decide (v < 0)) v.natAbs e
  (intBits ew r.1, r.2)

def vfixedOp (w : Word) (m : Module) (k : Nat) : Module :=
  let t := m.th k
  let ty := vtype w
  let ew := vWidth ty
  m.vecOp k w ew (vCount ty)
    (fun i => vfixedElem (Word.minor w) (t.rmOf (Word.rm w) true) (m.draw t w i) (vSigned ty) ew (Word.slice w 16 12)
      (t.va w ew i) (t.vb w ew i) (t.vd w ew i))

def execVfixedOp (th : ThreadId) (w : Word) (s : State) : Host.Outcome State Fault Refusal :=
  s.inst .vfixedOp th w (vfixedOp w)

/-! ### Floating and pairs (05 R114, R115) -/

def vfloatElem (f : Fmt) (minor : Nat) (rm : Rm) (u a b c : Nat) : Nat × Flags :=
  match minor with
  | 6 => fDiv f rm a b
  | 7 => fSqrt f rm a
  | 8 => fMinMax f false a b
  | 9 => fMinMax f true a b
  | 10 => (fSgnj f a b, fNone)
  | _ => fArith f (arithOpOf minor) rm u a b c

def vfloatOp (w : Word) (m : Module) (k : Nat) : Module :=
  let t := m.th k
  let ty := vtype w
  let ew := vWidth ty
  let srOk := decide (Word.minor w < 6)
  m.vecOp k w ew (vCount ty)
    (fun i => vfloatElem (vFmt ty) (Word.minor w) (t.rmOf (Word.rm w) srOk) (m.draw t w i)
      (t.va w ew i) (t.vb w ew i) (t.vc w ew i))

def execVfloatOp (th : ThreadId) (w : Word) (s : State) : Host.Outcome State Fault Refusal :=
  s.inst .vfloatOp th w (vfloatOp w)

/-- A pair element of v(2k), v(2k+1) (03 R78). -/
def Thread.vpair (t : Thread) (f : Fmt) (r ew i : Nat) : Pair :=
  Pair.ofBits f (velem (t.getV r) ew i) (velem (t.getV (r + 1)) ew i)

/-- One element of vfadd.p, vfmul.p, vfma.p, vpadd: the pair, its flags, and whether its error was representable. -/
def vpairElem (f : Fmt) (minor : Nat) (t : Thread) (w : Word) (ew i : Nat) : Pair × Flags × Bool :=
  let a := f.decode (t.va w ew i)
  let b := f.decode (t.vb w ew i)
  match minor with
  | 0 => let r := twoSum f a b; (r.1, r.2, true)
  | 1 => twoProd f a b
  | 2 => fmaPair f a b (f.decode (t.vc w ew i))
  | _ => let r := pairAdd f (t.vpair f (Word.ra w) ew i) (t.vpair f (Word.rb w) ew i); (r.1, r.2, true)

/-- Set bits of a mask for the performed elements (05 R115). -/
def Thread.mergeM (t : Thread) (w : Word) (x : MReg) (n : Nat) (f : Nat → Bool) : MReg :=
  (List.range n).foldl (fun x i =>
    if t.performs w i then
      (if f i then x ||| BitVec.ofNat 256 (2 ^ i) else x &&& ~~~(BitVec.ofNat 256 (2 ^ i)))
    else x) x

def vpairOp (w : Word) (m : Module) (k : Nat) : Module :=
  let t := m.th k
  let ty := vtype w
  let ew := vWidth ty
  let n := vCount ty
  let f := vFmt ty
  if Word.minor w = 4 then
    let rm := t.rmOf (Word.rm w) false
    m.vecOp k w ew n (fun i => finishF f rm 0 ((t.vpair f (Word.ra w) ew i).value (rdnOf rm)))
  else
    let r := fun i => vpairElem f (Word.minor w) t w ew i
    let d := Word.rd w
    let xs := t.mergeV w d ew n (fun i => ((r i).1.bits f).1)
    let xe := t.mergeV w (d + 1) ew n (fun i => ((r i).1.bits f).2)
    let t1 := ((t.setV d xs).setV (d + 1) xe).orFlags (t.vflags w n (fun i => (r i).2.1))
    let exact := (Word.minor w = 1 || Word.minor w = 2) && Word.slice w 15 15 == 1
    let mx := Word.slice w 14 12
    m.retireV k (if exact then t1.setM mx (t.mergeM w (t.getM mx) n (fun i => (r i).2.2)) else t1)

def execVpairOp (th : ThreadId) (w : Word) (s : State) : Host.Outcome State Fault Refusal := s.inst .vpairOp th w (vpairOp w)

/-! ### Conversions (05 R117, R118) -/

/-- Clear the bits of a register above `n` elements of width `dw`. -/
def vtrim (x : VReg) (dw n : Nat) : VReg := BitVec.ofNat 2048 (x.toNat % 2 ^ (dw * n))

/-- One element of vcvt into a plain destination. -/
def vcvtElem (kind dst src : Nat) (rm : Rm) (u f : Nat) (kexp : Int) (x : Nat) : Nat × Flags :=
  match kind with
  | 2 => let r := toQ rm u (vSigned dst) (vWidth dst) f ((vFmt src).decode x); (intBits (vWidth dst) r.1, r.2)
  | 3 => (vFmt dst).round rm u ((ofInt (intOf (vSigned src) (vWidth src) x)).scale (-(f : Int)))
  | _ => convert (vFCode dst) (vFCode src) rm u (if vIsInt dst then vWidth dst else vWidth src) (kind == 1) kexp x

/-- One pair row of Table 3-6 into a pair destination. -/
def vcvtPair (dst src : Nat) (s e : Nat) : Pair × Flags :=
  let fd := vFmt dst
  let fs := vFmt src
  if dst = 13 && src = 12 then twoSum fp64 (fs.decode s) (fs.decode e)
  else if src = 13 then pairRound fd ((Pair.ofBits fs s e).value false)
  else
    let v := fs.decode s
    ({ s := if v.isNan then .nan false else v, e := .zero }, flagIf v.signalling fNV)

/-- The FP32 halves of an unnormalized (∞, −∞) operand have no value (03 R77). -/
def vcvtPairOk (dst src s e : Nat) : Pair × Flags :=
  if (Pair.ofBits (vFmt src) s e).invalid && vIsPair src then ({ s := .nan false, e := .zero }, fNV) else vcvtPair dst src s e

def vcvtBody (w : Word) (m : Module) (k : Nat) : Module :=
  let t := m.th k
  let kind := Word.minor w / 16
  let src := Word.minor w % 16
  let dst := vtype w
  let sw := vWidth src
  let dw := vWidth dst
  let n := 2048 / max sw dw
  let d := Word.rd w
  let pairSide := vIsPair src || vIsPair dst
  let rm := t.rmOf (Word.rm w) (!pairSide)
  let trim := fun (x : VReg) => if dw < sw then vtrim x dw n else x
  if vIsPair dst then
    let r := fun i => vcvtPairOk dst src (t.va w sw i) (velem (t.getV (Word.ra w + 1)) sw i)
    let xs := trim (t.mergeV w d dw n (fun i => ((r i).1.bits (vFmt dst)).1))
    let xe := trim (t.mergeV w (d + 1) dw n (fun i => ((r i).1.bits (vFmt dst)).2))
    m.retireV k (((t.setV d xs).setV (d + 1) xe).orFlags (t.vflags w n (fun i => (r i).2)))
  else
    let r := fun i =>
      if vIsPair src then finishF (vFmt dst) rm 0 ((t.vpair (vFmt src) (Word.ra w) sw i).value (rdnOf rm))
      else vcvtElem kind dst src rm (m.draw t w i) (Word.slice w 16 12) (signedOf 8 (t.getS (Word.rb w)).toNat) (t.va w sw i)
    m.retireV k ((t.setV d (trim (t.mergeV w d dw n (fun i => (r i).1)))).orFlags (t.vflags w n (fun i => (r i).2)))

def execVcvt (th : ThreadId) (w : Word) (s : State) : Host.Outcome State Fault Refusal := s.inst .vcvt th w (vcvtBody w)

/-! ### Compares and masks (05 R112) -/

def vcmpElem (minor ty ew a b : Nat) : Bool × Flags :=
  let x := intOf (vSigned ty) ew a
  let y := intOf (vSigned ty) ew b
  match minor with
  | 0 => (a == b, fNone)
  | 1 => (a != b, fNone)
  | 2 => (decide (x < y), fNone)
  | 3 => (decide (y ≤ x), fNone)
  | _ => fCompare (vFmt ty) (cmpOf minor) a b

def vcompareBody (w : Word) (m : Module) (k : Nat) : Module :=
  let t := m.th k
  let ty := vtype w
  let ew := vWidth ty
  let n := vCount ty
  let r := fun i => vcmpElem (Word.minor w) ty ew (t.va w ew i) (t.vb w ew i)
  let z := (List.range n).foldl (fun (x : MReg) i =>
    if decide (t.vidx.toNat ≤ i) && !t.active w i && Word.slice w 4 4 == 1 then x &&& ~~~(BitVec.ofNat 256 (2 ^ i)) else x)
    (t.getM (Word.rd w))
  let x := t.mergeM w z n (fun i => (r i).1)
  m.retireV k ((t.setM (Word.rd w) (BitVec.ofNat 256 (x.toNat % 2 ^ n))).orFlags (t.vflags w n (fun i => (r i).2)))

def execVcompare (th : ThreadId) (w : Word) (s : State) : Host.Outcome State Fault Refusal :=
  s.inst .vcompare th w (vcompareBody w)

/-- mfirst: the lowest set bit below n, or n. -/
def mfirst (x : MReg) (n : Nat) : Nat := ((List.range n).find? (fun i => x.getLsbD i)).getD n

def maskOp (w : Word) (m : Module) (k : Nat) : Module :=
  let t := m.th k
  let a := t.getM (Word.ra w)
  let b := t.getM (Word.rb w)
  let n := vCount (vtype w)
  let d := Word.rd w
  m.retireV k
    (match Word.minor w with
     | 0 => t.setM d (a &&& b)
     | 1 => t.setM d (a ||| b)
     | 2 => t.setM d (a ^^^ b)
     | 3 => t.setM d (a &&& ~~~b)
     | 4 => t.setM d (~~~a)
     | 5 => t.setM d (BitVec.ofNat 256 (2 ^ min 256 (t.getS (Word.ra w)).toNat - 1))
     | 6 => t.setSN d (popc n a.toNat)
     | _ => t.setSN d (mfirst a n))

def execMaskOp (th : ThreadId) (w : Word) (s : State) : Host.Outcome State Fault Refusal := s.inst .maskOp th w (maskOp w)

/-! ### Moves (05 Table 5-5) -/

def vbcastBody (w : Word) (m : Module) (k : Nat) : Module :=
  let ew := vWidth (vtype w)
  m.vecOp k w ew (vCount (vtype w)) (fun _ => (((m.th k).getS (Word.ra w)).toNat % 2 ^ ew, fNone))

def execVbcast (th : ThreadId) (w : Word) (s : State) : Host.Outcome State Fault Refusal := s.inst .vbcast th w (vbcastBody w)

def vextBody (w : Word) (m : Module) (k : Nat) : Module :=
  let t := m.th k
  let ew := vWidth (vtype w)
  m.retireV k (t.setSN (Word.rd w) (t.va w ew ((t.getS (Word.rb w)).toNat % vCount (vtype w))))

def execVext (th : ThreadId) (w : Word) (s : State) : Host.Outcome State Fault Refusal := s.inst .vext th w (vextBody w)

/-- vins: one element; predication is ignored, an element below VIDX is not written (05 R111). -/
def vinsBody (w : Word) (m : Module) (k : Nat) : Module :=
  let t := m.th k
  let ew := vWidth (vtype w)
  let i := (t.getS (Word.rb w)).toNat % vCount (vtype w)
  m.retireV k
    (if t.vidx.toNat ≤ i then t.setV (Word.rd w) (vput (t.getV (Word.rd w)) ew i (t.getS (Word.ra w)).toNat) else t)

def execVins (th : ThreadId) (w : Word) (s : State) : Host.Outcome State Fault Refusal := s.inst .vins th w (vinsBody w)

/-- vmerge selects by the mask; every element at or above VIDX is written, and z has no effect (05 Table 5-5 gives an inactive element
vb[i]; DESIGN CHOICE against R111's zero, log 66). -/
def vmergeBody (w : Word) (m : Module) (k : Nat) : Module :=
  let t := m.th k
  let ew := vWidth (vtype w)
  let x := (List.range (vCount (vtype w))).foldl (fun x i =>
    if t.vidx.toNat ≤ i then vput x ew i (if t.active w i then t.va w ew i else t.vb w ew i) else x) (t.getV (Word.rd w))
  m.retireV k (t.setV (Word.rd w) x)

def execVmerge (th : ThreadId) (w : Word) (s : State) : Host.Outcome State Fault Refusal := s.inst .vmerge th w (vmergeBody w)

def vpermBody (w : Word) (m : Module) (k : Nat) : Module :=
  let t := m.th k
  let ew := vWidth (vtype w)
  let n := vCount (vtype w)
  m.vecOp k w ew n (fun i => (t.va w ew (t.vb w ew i % n), fNone))

def execVperm (th : ThreadId) (w : Word) (s : State) : Host.Outcome State Fault Refusal := s.inst .vperm th w (vpermBody w)

/-- vslideup: the elements below sb are unchanged, but for an inactive one with z = 1, which becomes zero as R111 says (DESIGN CHOICE,
log 66). -/
def vslideupBody (w : Word) (m : Module) (k : Nat) : Module :=
  let t := m.th k
  let ew := vWidth (vtype w)
  let sb := (t.getS (Word.rb w)).toNat
  m.vecOp k w ew (vCount (vtype w)) (fun i => (if sb ≤ i then t.va w ew (i - sb) else t.vd w ew i, fNone))

def execVslideup (th : ThreadId) (w : Word) (s : State) : Host.Outcome State Fault Refusal :=
  s.inst .vslideup th w (vslideupBody w)

def vslidednBody (w : Word) (m : Module) (k : Nat) : Module :=
  let t := m.th k
  let ew := vWidth (vtype w)
  let n := vCount (vtype w)
  let sb := (t.getS (Word.rb w)).toNat
  m.vecOp k w ew n (fun i => (if i + sb < n then t.va w ew (i + sb) else 0, fNone))

def execVslidedn (th : ThreadId) (w : Word) (s : State) : Host.Outcome State Fault Refusal :=
  s.inst .vslidedn th w (vslidednBody w)

/-! ### Reductions (05 R119) -/

/-- One level of the tree: neighbours combined. -/
def treeLevel {α : Type} (op : α → α → α × Flags) : List α → List α × Flags
  | x :: y :: t =>
    let (r, f) := op x y
    let (rs, g) := treeLevel op t
    (r :: rs, f ||| g)
  | l => (l, fNone)

/-- The fixed tree of 05 R119; `fuel` is the number of levels. -/
def treeFold {α : Type} (op : α → α → α × Flags) : Nat → List α → List α × Flags
  | 0, l => (l, fNone)
  | n + 1, l =>
    let (r, f) := treeLevel op l
    let (s, g) := treeFold op n r
    (s, f ||| g)

/-- The identity of a plain reduction for a type. -/
def redIdentity (minor ty : Nat) : Nat :=
  let ew := vWidth ty
  if vIsInt ty then
    match minor with
    | 8 => 0
    | 9 => intBits ew (intHi (vSigned ty) ew)
    | _ => intBits ew (intLo (vSigned ty) ew)
  else
    match minor with
    | 8 => (vFmt ty).signBit true
    | 9 => (vFmt ty).infBits false
    | _ => (vFmt ty).infBits true

def redOp (minor ty : Nat) (rm : Rm) (a b : Nat) : Nat × Flags :=
  let ew := vWidth ty
  if vIsInt ty then
    (match minor with
     | 8 => vintElem 0 false ew a b
     | 9 => vintElem 10 (vSigned ty) ew a b
     | _ => vintElem 11 (vSigned ty) ew a b, fNone)
  else
    match minor with
    | 8 => fArith (vFmt ty) .add rm 0 a b 0
    | 9 => fMinMax (vFmt ty) false a b
    | _ => fMinMax (vFmt ty) true a b

/-- A reduction: an element that is not performed stands for the identity, and element 0 and the zeros beside it are written whatever
VIDX is (05 R119; DESIGN CHOICE against R111, log 17). -/
def vreduceBody (w : Word) (m : Module) (k : Nat) : Module :=
  let t := m.th k
  let ty := vtype w
  let ew := vWidth ty
  let n := vCount ty
  let d := Word.rd w
  if Word.minor w = 11 then
    let f := vFmt ty
    let ident : Pair := { s := .fin true 0 0, e := .zero }
    let l := (List.range n).map (fun i => if t.performs w i then t.vpair f (Word.ra w) ew i else ident)
    let (r, g) := treeFold (pairAdd f) (Nat.log2 n) l
    let b := (r.headD ident).bits f
    m.retireV k (((t.setV d (BitVec.ofNat 2048 b.1)).setV (d + 1) (BitVec.ofNat 2048 b.2)).orFlags g)
  else
    let ident := redIdentity (Word.minor w) ty
    let l := (List.range n).map (fun i => if t.performs w i then t.va w ew i else ident)
    let (r, g) := treeFold (redOp (Word.minor w) ty (t.rmOf (Word.rm w) false)) (Nat.log2 n) l
    m.retireV k ((t.setV d (BitVec.ofNat 2048 (r.headD ident))).orFlags g)

def execVreduce (th : ThreadId) (w : Word) (s : State) : Host.Outcome State Fault Refusal := s.inst .vreduce th w (vreduceBody w)

end Sys2Proof.Machine
end

