-- ==== Sys2Proof/Machine/Memory.lean ====
section
/-! DEFINITION. Loads, stores, atomics and reductions of a thread (05 R120-R126, 12 R281-R286, 15 R371-R379, R392): vector
memory forms, X-class forms, global forms, x.fence, x.wait, memory responses and fetch faults. Accesses of a thread are
performed in program order when they issue (DEDUCED, log 21); a load's values reach its registers at MEMORY_RESPONSE or at the
thread's next instruction. -/

namespace Sys2Proof.Machine

/-! ### One element access -/

/-- One element that an access stores: its place, its page's class, its address, its bytes and its value. -/
structure Put where
  place : Place
  lc : Bool
  va : Nat
  size : Nat
  val : Nat

/-- What the elements of one access have done so far: values captured, the elements to store, the sectors requested, the accesses that wait
for a held channel, and the element, cause and address at which the thread stops. -/
structure Acc1 where
  m : Module
  got : List Got
  puts : List Put
  asked : List Nat
  left : Nat
  stop : Option (Nat × Nat × Nat)

/-- An access none of whose elements has been performed. -/
def Acc1.start (m : Module) : Acc1 := { m := m, got := [], puts := [], asked := [], left := 0, stop := none }

/-- Who a thread's access is made by. -/
def Module.who (m : Module) (k : Nat) (lc : Bool) : Who := { ctx := (m.th k).ctx, master := keyKind k, lc := lc }

/-- Sign-extend a loaded value of `n` bytes to 64 bits when `signed`. -/
def extendLoad (signed : Bool) (n v : Nat) : Nat := if signed then intBits 64 (intOf true (8 * n) v) else v

/-- The access waits at its slice until the hold ends (12 R293); the waiting entry names the access that will be added next. -/
def Module.wait (m : Module) (k : Nat) (p : Place) (va n : Nat) (act : ElemAct) (lc lead whole : Bool) : Module :=
  match p with
  | .hbm pc _ =>
    m.setMs { m.ms with waiting := m.ms.waiting ++ [{ pc := pc, thread := k, outst := (m.th k).issued, place := p, va := va, size := n,
                                                      act := act, ctx := (m.th k).ctx, eng := false, master := keyKind k, tag := 0,
                                                      lc := lc, lead := lead, whole := whole }] }
  | _ => m

/-- A sector request leaves the core (20 Table 20-2): the first piece of a request for a place outside core store. -/
def Module.countReq (m : Module) (k : Nat) (p : Place) (lead : Bool) : Module :=
  match p with
  | .store _ _ | .hstore _ _ => m
  | _ => if lead then m.countPart k 9 1 else m

/-- Is an address in the completion record of work of the context that is open (15 R385)? -/
def Module.isRecord (m : Module) (ctx va : Nat) : Bool :=
  let hit (c at_ : Nat) : Bool := c == ctx && decide (at_ ≤ va) && decide (va < at_ + 32)
  m.grids.any (fun g => hit g.ctx g.completion) || m.transfers.any (fun t => hit t.ctx t.completion) ||
  m.sq.subs.any (fun x => hit x.ctx x.completion) || m.cp.colls.any (fun c => hit c.ctx (c.words.getD 5 0)) ||
  m.hmp.queue.any (fun h => hit (h.words.getD 0 0 / 2 ^ 16 % 64) (h.words.getD 3 0 % 2 ^ 48))

/-- The class of a read of a thread: that of its page, and latency-critical for a completion record (12 R287; DEDUCED, log 33: the record of
work that has not ended yet). -/
def Module.readClass (m : Module) (k va : Nat) (lc : Bool) : Bool := lc || m.isRecord (m.th k).ctx va

/-- The value that a load element delivers to its destination. -/
def gotOf (vec : Bool) (reg idx width : Nat) (v : Nat) (src : Option Place) : Got :=
  { idx := idx, vec := vec, reg := reg, width := width, val := v, src := src, va := 0, viol := false }

def Place.isDram : Place → Bool
  | .hbm _ _ => true
  | .ctier _ => true
  | _ => false

/-- Can an element performed so far still fail: one that waits, or one read from a memory (12 R291)? -/
def Acc1.mayFail (a : Acc1) : Bool :=
  a.left != 0 || a.got.any (fun g => match g.src with | some p => p.isDram | none => false)

/-- Load one element of `n` bytes at `va` (02 R49-R50, 12 R291). A violation above an element that can still fail is counted when the
access returns (05 R121, R124). -/
def Acc1.load (a : Acc1) (k va n elem : Nat) (vec : Bool) (reg idx width : Nat) (signed : Bool) : Acc1 :=
  let (m1, x) := a.m.thXlat k va .load
  match x with
  | .fault c => { a with m := m1, stop := some (elem, c, va) }
  | .viol =>
    let g := gotOf vec reg idx width 0 none
    if a.mayFail then { a with m := m1, got := a.got ++ [{ g with va := va, viol := true }] }
    else { a with m := m1.thViol k va 1, got := a.got ++ [g] }
  | .ok p lc =>
    let q := p.request a.asked
    let cls := m1.readClass k va lc
    let m2 := m1.countReq k p q.1
    if m1.mustWait p then
      { a with m := m2.wait k p va n (.load vec reg idx width (if signed then n else 0)) cls q.1 false, asked := q.2, left := a.left + 1 }
    else if m1.badPlace p n then { a with m := m2, stop := some (elem, cMedia, va) }
    else
      { a with m := m2.askPiece (m1.who k cls) p n false q.1 false, asked := q.2,
               got := a.got ++ [{ gotOf vec reg idx width (extendLoad signed n (m1.readPlace p n)) (some p) with va := va }] }

/-- Store the low `n` bytes of `v` at `va`: the element joins the access's sector requests, which `Acc1.flush` performs. -/
def Acc1.store (a : Acc1) (k va n elem v : Nat) : Acc1 :=
  let (m1, x) := a.m.thXlat k va .store
  match x with
  | .fault c => { a with m := m1, stop := some (elem, c, va) }
  | .viol => { a with m := m1.thViol k va 1 }
  | .ok p lc => { a with m := m1, puts := a.puts ++ [{ place := p, lc := lc, va := va, size := n, val := v }] }

/-- Perform the elements to store in order, one request for each sector (05 R121, R126). -/
def Acc1.flush (a : Acc1) (k : Nat) : Acc1 :=
  let c := coverOf (a.puts.map (fun x => (x.place, x.size)))
  a.puts.foldl (fun r x =>
    let q := x.place.request r.asked
    let whole := coversAll c x.place
    let m1 := r.m.countReq k x.place q.1
    if r.m.mustWait x.place then
      { r with m := m1.wait k x.place x.va x.size (.store x.val) x.lc q.1 whole, asked := q.2, left := r.left + 1 }
    else { r with m := m1.putPiece (r.m.who k x.lc) x.place x.size x.val q.1 whole, asked := q.2 }) { a with puts := [] }

/-- Is a place HBM? -/
def Place.isHbm : Place → Bool
  | .hbm _ _ => true
  | _ => false

/-- The registers that an atomic's old value goes to: a pair for the 128-bit width. -/
def amoGot (width d old : Nat) : List Got :=
  if d = 0 then []
  else if width = 2 then
    [gotOf false d 0 64 (old % 2 ^ 64) none, gotOf false (d + 1) 0 64 (old / 2 ^ 64) none]
  else [gotOf false d 0 64 old none]

/-- One atomic or reduction element (12 R283-R285): a page outside HBM is a violation; a poisoned sector stops an amo, and
discards and counts a reduction (12 R291). -/
def Acc1.atomic (a : Acc1) (k va elem op width b c d : Nat) (amo : Bool) : Acc1 :=
  let n := atomicBytes width
  let (m1, x) := a.m.thXlat k va .atomic
  let viol : Acc1 := { a with m := m1.thViol k va 1, got := a.got ++ (if amo then amoGot width d 0 else []) }
  match x with
  | .fault cc => { a with m := m1, stop := some (elem, cc, va) }
  | .viol => viol
  | .ok p lc =>
    let m1 := m1.countReq k p p.isHbm
    if !p.isHbm then viol
    else if m1.mustWait p then
      { a with m := m1.wait k p va n (if amo then .amo op width b c d else .red op width b) lc true false, left := a.left + 1 }
    else if m1.badPlace p n then
      if amo then { a with m := m1, stop := some (elem, cMedia, va) } else { a with m := m1.countUncorrected }
    else
      let r := m1.atomicAt (m1.who k lc) p op width b c amo
      let m2 := if amo then r.1.setTh k ((r.1.th k).orFlags r.2.2) else r.1
      { a with m := m2, got := a.got ++ (if amo then amoGot width d r.2.1 else []) }

/-! ### Finishing an access -/

/-- Record the access of an instruction: a load with its captured values, or elements that wait. -/
def Module.recordAccess (m : Module) (k : Nat) (got : List Got) (left : Nat) (isLoad acq : Bool) (dstS dstV : List Nat)
    (addr device : Nat) (tag : Option Nat) (vec : Bool) : Module :=
  if got.isEmpty && left = 0 then m
  else m.addOutst k { id := 0, ip := (m.th k).ip, isLoad := isLoad, acq := acq, dstS := dstS, dstV := dstV, got := got,
                      left := left, cause := 0, addr := addr, device := device, tag := tag, vec := vec }

/-- Issue an access: an acquire that has not been performed holds back every later access, a release waits for every earlier one
(15 R373), and a walk that meets a held channel waits (12 R293). `vas` are the addresses that the thread itself translates. -/
def Module.ordered (m : Module) (k ord : Nat) (vas : List Nat) (body : Module → Module) : Module :=
  if m.acqPending k || vas.any (m.walkHeld k) then m else if 2 ≤ ord then m.afterDrain k body else body m

/-- The performed accesses of a thread return: the violations that were left are counted, in order (05 R121), and every value reaches its
register. -/
def Module.returned (m : Module) (k : Nat) : Module :=
  let late := ((m.th k).outst.filter (fun o => o.left == 0)).flatMap (fun o => o.got.filter (fun g => g.viol))
  if late.isEmpty then m.settle k
  else
    let m1 := m.each late (fun m g => m.thViol k g.va 1)
    let t := m1.th k
    (m1.setTh k { t with outst := t.outst.map (fun o =>
      if o.left = 0 then { o with got := o.got.map (fun g => { g with viol := false }) } else o) }).settle k

/-- The loads issued after an access at which the thread stops return nothing: the resume makes them again (02 R52). -/
def Module.dropAfter (m : Module) (k id : Nat) : Module :=
  let t := m.th k
  m.setTh k { t with outst := t.outst.filter (fun o => decide (o.id ≤ id) || !o.isLoad) }

/-- Finish a scalar access: stop on a fault, else retire. -/
def Acc1.finish (a : Acc1) (k : Nat) (isLoad acq : Bool) (dstS : List Nat) (va : Nat) : Module :=
  match a.stop with
  | some (_, c, addr) => a.m.faultStop k c addr 0
  | none =>
    let b := a.flush k
    (b.m.recordAccess k b.got b.left isLoad acq dstS [] va 0 none false).retire k false

/-! ### X-class loads and stores (12 R281, R282) -/

/-- Bytes of a load minor: u8, u16, u32, u64, i8, i16, i32. -/
def loadBytes (minor : Nat) : Nat := 2 ^ (if minor < 4 then minor else minor - 4)

def ordOf (w : Word) : Nat := Word.slice w 27 26

/-- base + sext(offset), mod 2⁶⁴. -/
def xAddr (t : Thread) (w : Word) : Word := t.getS (Word.ra w) + BitVec.ofInt 64 (signedOf 26 (Word.slice w 25 0))

def isAcq (ord : Nat) : Bool := ord % 2 == 1

def ldBody (w : Word) (m : Module) (k : Nat) : Module :=
  let va := (xAddr (m.th k) w).toNat
  let n := loadBytes (Word.minor w)
  if va % n != 0 then m.trap k causeAlign (xAddr (m.th k) w)
  else m.ordered k (ordOf w) [va] (fun m =>
    ((Acc1.start m).load k va n 0 false (Word.rd w) 0 64 (decide (4 ≤ Word.minor w))).finish
      k true (isAcq (ordOf w)) [Word.rd w] va)

def execLd (th : ThreadId) (w : Word) (s : State) : Host.Outcome State Fault Refusal := s.inst .ld th w (ldBody w)

def stBody (w : Word) (m : Module) (k : Nat) : Module :=
  let va := (xAddr (m.th k) w).toNat
  let n := 2 ^ Word.minor w
  if va % n != 0 then m.trap k causeAlign (xAddr (m.th k) w)
  else m.ordered k (ordOf w) [va] (fun m =>
    ((Acc1.start m).store k va n 0 ((m.th k).getS (Word.rb w)).toNat).finish
      k false (isAcq (ordOf w)) [] va)

def execSt (th : ThreadId) (w : Word) (s : State) : Host.Outcome State Fault Refusal := s.inst .st th w (stBody w)

/-! ### Global loads and stores (02 R40-R43, 12 R281) -/

/-- A global access that needs its destination's answer now: the device is this module (02 R40), whose own table gives the
requester's context. A load delivers or stops; a store's failure is taken at the next waiting instruction (15 R392). -/
def Module.globalLocal (m : Module) (k va dev : Nat) (r : Dest) (isLoad : Bool) (dstS : List Nat) (got : Nat → List Got) :
    Module :=
  if r.wait then m
  else
    let m1 := (if r.viol then r.m.thViol k va 1 else r.m).countPart k 9 1
    if r.status = sDone then
      (m1.recordAccess k (if isLoad then got (leVal r.data) else []) 0 isLoad false dstS [] va dev none false).retire k false
    else if isLoad then m1.faultStop k (remoteCause r.status) va dev
    else if r.status = 0x86 then m1.retire k false
    else
      let t := m1.th k
      (m1.setTh k { t with deferred := t.deferred ++ [{ cause := remoteCause r.status, addr := va, device := dev }] }).retire k false

/-- A global access to another device: refused at once, or sent on VC1 and outstanding until its response (15 R390-R392,
R397). -/
def Module.globalSend (m : Module) (k va dev op aop awidth ord len : Nat) (data : List Byte) (isLoad : Bool)
    (dstS : List Nat) : Module :=
  let t := m.th k
  match m.refusedAtOnce t.ctx dev with
  | some st =>
    if isLoad then m.faultStop k (remoteCause st) va dev
    else (m.setTh k { t with deferred := t.deferred ++ [{ cause := remoteCause st, addr := va, device := dev }] }).retire k false
  | none =>
    let tag := m.fab.nextTag % 2 ^ 32
    let m1 := m.sendRequest t.ctx dev 1 op va aop awidth ord len data (.thread k t.issued isLoad va)
    ((m1.recordAccess k [] 1 isLoad (isAcq ord) dstS [] va dev (some tag) false).countPart k 9 1).retire k false

/-- The device and the address of a global pointer plus an offset; none when the sum leaves 48 bits (12 R281). -/
def globalAddr (p : Word) (off : Int) : Nat × Option Nat :=
  let s := ((p.toNat % 2 ^ 48 : Nat) : Int) + off
  (p.toNat / 2 ^ 48, if 0 ≤ s && s < (2 ^ 48 : Nat) then some s.toNat else none)

def gldBody (w : Word) (m : Module) (k : Nat) : Module :=
  let t := m.th k
  let n := loadBytes (Word.minor w)
  let d := Word.rd w
  let signed := decide (4 ≤ Word.minor w)
  if (xAddr t w).toNat % n != 0 then m.trap k causeAlign (xAddr t w)
  else m.ordered k (ordOf w) [] (fun m =>
    match globalAddr (t.getS (Word.ra w)) (signedOf 26 (Word.slice w 25 0)) with
    | (_, none) => m.faultStop k cNonCanonical (xAddr t w).toNat 0
    | (dev, some va) =>
      if dev = m.myId then
        m.globalLocal k va dev (m.destRead (m.who k false) va n) true [d]
          (fun v => [gotOf false d 0 64 (extendLoad signed n v) none])
      else m.globalSend k va dev 1 0 (if signed then 1 else 0) (ordOf w) n [] true [d])

def execGld (th : ThreadId) (w : Word) (s : State) : Host.Outcome State Fault Refusal := s.inst .gld th w (gldBody w)

def gstBody (w : Word) (m : Module) (k : Nat) : Module :=
  let t := m.th k
  let n := 2 ^ Word.minor w
  let data := leBytes n (t.getS (Word.rb w)).toNat
  if (xAddr t w).toNat % n != 0 then m.trap k causeAlign (xAddr t w)
  else m.ordered k (ordOf w) [] (fun m =>
    match globalAddr (t.getS (Word.ra w)) (signedOf 26 (Word.slice w 25 0)) with
    | (_, none) => m.faultStop k cNonCanonical (xAddr t w).toNat 0
    | (dev, some va) =>
      if dev = m.myId then m.globalLocal k va dev (m.destWrite (m.who k false) va data) false [] (fun _ => [])
      else m.globalSend k va dev 2 0 0 (ordOf w) n data false [])

def execGst (th : ThreadId) (w : Word) (s : State) : Host.Outcome State Fault Refusal := s.inst .gst th w (gstBody w)

/-! ### Atomics and reductions (12 R283-R285) -/

/-- An atomic's operand of a width: a register pair for 128 bits. -/
def Thread.amoOperand (t : Thread) (width r : Nat) : Nat :=
  if width = 2 then (t.getS r).toNat + 2 ^ 64 * (t.getS (r + 1)).toNat else (t.getS r).toNat % 2 ^ (8 * atomicBytes width)

def amoBody (amo : Bool) (w : Word) (m : Module) (k : Nat) : Module :=
  let t := m.th k
  let op := Word.minor w / 4
  let width := Word.minor w % 4
  let n := atomicBytes width
  let addr := t.getS (Word.ra w)
  let b := t.amoOperand width (Word.rb w)
  let c := if amo then t.amoOperand width (Word.rc w) else 0
  let d := if amo then Word.rd w else 0
  let dst := if amo then (if width = 2 then [d, d + 1] else [d]) else []
  if addr.toNat % n != 0 then m.trap k causeAlign addr
  else m.ordered k (ordOf w) (if Word.slice w 0 0 = 0 then [addr.toNat] else []) (fun m =>
    if Word.slice w 0 0 = 0 then
      ((Acc1.start m).atomic k addr.toNat 0 op width b c d amo).finish
        k amo (isAcq (ordOf w)) dst addr.toNat
    else
      let dev := addr.toNat / 2 ^ 48
      let va := addr.toNat % 2 ^ 48
      if dev = m.myId then
        let r := m.destAtomic (m.who k false) va op width b c amo
        let fl := if amo && r.status == sDone && !r.viol && !r.wait then (atomicOp op width (leVal r.data) b c).2 else fNone
        m.globalLocal k va dev { r with m := r.m.setTh k ((r.m.th k).orFlags fl) } amo dst (fun v => amoGot width d v)
      else
        let data := leBytes n b ++ leBytes n c
        m.globalSend k va dev (if amo then 3 else 4) op width (ordOf w) data.length data amo dst)

def execAmo (th : ThreadId) (w : Word) (s : State) : Host.Outcome State Fault Refusal := s.inst .amo th w (amoBody true w)

def execRed (th : ThreadId) (w : Word) (s : State) : Host.Outcome State Fault Refusal := s.inst .red th w (amoBody false w)

/-! ### Vector memory (05 R120-R125) -/

/-- Bank conflicts in core store: the most distinct 8-byte words of one of the 32 banks (05 R126), at least 1. -/
def bankCycles (offs : List Nat) : Nat :=
  let ws := distinct (offs.map (fun o => o / 8))
  (List.range 32).foldl (fun n b => max n (ws.filter (fun x => x % 32 == b)).length) 1

/-- Count the extra cycles of a vector access to core store (05 R126, 20 Table 20-2): of the words that it requests there. -/
def Module.countVector (m : Module) (k : Nat) (addrs : List Nat) : Module :=
  m.countPart k 8 (bankCycles (addrs.filter (fun a => decide (windowBase ≤ a) && decide (a < windowBase + storeBytes))) - 1)

/-- Finish a vector access. At a stop the elements below have been performed, their values and violations stand, and VIDX names the element
(02 R50, 05 R124); while one of them waits for a held channel the access is not made yet, so that no later stop precedes it.
`m0` is the module before the access, `els` its performed elements, `addr` their addresses. -/
def Acc1.finishV (a : Acc1) (m0 : Module) (k : Nat) (isLoad : Bool) (dstV : List Nat) (va : Nat) (els : List Nat) (addr : Nat → Nat) :
    Module :=
  let b := a.flush k
  let m1 := b.m.recordAccess k b.got b.left isLoad false [] dstV va 0 none true
  match a.stop with
  | some (e, c, at_) =>
    if b.left != 0 then m0
    else ((m1.returned k).countVector k ((els.filter (fun i => decide (i < e))).map addr)).faultStopV k c at_ e
  | none =>
    let m2 := m1.countVector k (els.map addr)
    m2.retireV k (m2.th k)

/-- Perform elements in ascending order until one stops; an inactive element with z = 1 is zeroed (05 R111, R121). -/
def vecLoad (w : Word) (k ew : Nat) (addr : Nat → Nat) : List Nat → Acc1 → Acc1
  | [], a => a
  | i :: rest, a =>
    let t := a.m.th k
    if t.performs w i then
      let a1 := a.load k (addr i) (ew / 8) i true (Word.rd w) i ew false
      match a1.stop with
      | some _ => a1
      | none => vecLoad w k ew addr rest a1
    else if decide (t.vidx.toNat ≤ i) && Word.slice w 4 4 == 1 then
      vecLoad w k ew addr rest { a with got := a.got ++ [gotOf true (Word.rd w) i ew 0 none] }
    else vecLoad w k ew addr rest a

def vecStore (w : Word) (k ew : Nat) (addr : Nat → Nat) : List Nat → Acc1 → Acc1
  | [], a => a
  | i :: rest, a =>
    let t := a.m.th k
    if t.performs w i then
      let a1 := a.store k (addr i) (ew / 8) i (velem (t.getV (Word.rd w)) ew i)
      match a1.stop with
      | some _ => a1
      | none => vecStore w k ew addr rest a1
    else vecStore w k ew addr rest a

/-- sa + off16 (05 R120). -/
def vBase (t : Thread) (w : Word) : Word := t.getS (Word.ra w) + BitVec.ofInt 64 (signedOf 16 (Word.slice w 27 12))

/-- One vector memory form: `stride` is checked for alignment with the base; `addr` gives element i's address. -/
def vmemBody (w : Word) (isLoad : Bool) (stride : Thread → Word) (addr : Thread → Word → Nat → Nat) (m : Module) (k : Nat) :
    Module :=
  let t := m.th k
  let ty := vtype w
  let ew := vWidth ty
  let base := vBase t w
  let els := List.range (vCount ty)
  let f := addr t base
  let mine := els.filter (fun i => t.performs w i)
  if base.toNat % (ew / 8) != 0 || (stride t).toNat % (ew / 8) != 0 then m.trapV k causeAlign base true
  else if m.acqPending k || mine.any (fun i => m.walkHeld k (f i)) then m
  else
    (if isLoad then vecLoad w k ew f els (Acc1.start m) else vecStore w k ew f els (Acc1.start m)).finishV m k isLoad
      (if isLoad then [Word.rd w] else []) base.toNat mine f

/-- base + i × w/8. -/
def contigAddr (w : Word) (_ : Thread) (base : Word) (i : Nat) : Nat :=
  (base + BitVec.ofNat 64 (i * (vWidth (vtype w) / 8))).toNat

/-- base + i × sb, sb signed. -/
def stridedAddr (w : Word) (t : Thread) (base : Word) (i : Nat) : Nat :=
  (base + BitVec.ofNat 64 i * t.getS (Word.rb w)).toNat

/-- base + (vb[i], zero-extended) × w/8. -/
def indexedAddr (w : Word) (t : Thread) (base : Word) (i : Nat) : Nat :=
  let ew := vWidth (vtype w)
  (base + BitVec.ofNat 64 (velem (t.getV (Word.rb w)) ew i * (ew / 8))).toNat

def noStride (_ : Thread) : Word := 0
def regStride (w : Word) (t : Thread) : Word := t.getS (Word.rb w)

def execVld (th : ThreadId) (w : Word) (s : State) : Host.Outcome State Fault Refusal :=
  s.inst .vld th w (vmemBody w true noStride (contigAddr w))

def execVst (th : ThreadId) (w : Word) (s : State) : Host.Outcome State Fault Refusal :=
  s.inst .vst th w (vmemBody w false noStride (contigAddr w))

def execVlds (th : ThreadId) (w : Word) (s : State) : Host.Outcome State Fault Refusal :=
  s.inst .vlds th w (vmemBody w true (regStride w) (stridedAddr w))

def execVsts (th : ThreadId) (w : Word) (s : State) : Host.Outcome State Fault Refusal :=
  s.inst .vsts th w (vmemBody w false (regStride w) (stridedAddr w))

def execVgather (th : ThreadId) (w : Word) (s : State) : Host.Outcome State Fault Refusal :=
  s.inst .vgather th w (vmemBody w true noStride (indexedAddr w))

def execVscatter (th : ThreadId) (w : Word) (s : State) : Host.Outcome State Fault Refusal :=
  s.inst .vscatter th w (vmemBody w false noStride (indexedAddr w))

/-! ### redv and redvi (12 R285) -/

/-- Bytes of an operand of a redv type: the whole pair for pair types. -/
def redBytes (ty : Nat) : Nat := if vIsPair ty then vWidth ty / 4 else vWidth ty / 8

/-- Table 12-3's width code for an operand of `n` bytes. -/
def redWidth (n : Nat) : Nat := if n = 4 then 0 else if n = 8 then 1 else 2

/-- Element i of the data vector: both registers of a pair. -/
def Thread.redOperand (t : Thread) (w : Word) (i : Nat) : Nat :=
  let ty := vtype w
  let ew := vWidth ty
  let lo := velem (t.getV (Word.rb w)) ew i
  if vIsPair ty then lo + 2 ^ ew * velem (t.getV (Word.rb w + 1)) ew i else lo

def vecRed (w : Word) (k : Nat) (addr : Nat → Nat) : List Nat → Acc1 → Acc1
  | [], a => a
  | i :: rest, a =>
    let t := a.m.th k
    if t.performs w i then
      let a1 := a.atomic k (addr i) i (Word.slice w 55 52) (redWidth (redBytes (vtype w))) (t.redOperand w i) 0 0 false
      match a1.stop with
      | some _ => a1
      | none => vecRed w k addr rest a1
    else vecRed w k addr rest a

/-- The address of element i: base + i × size, or base + c[i] × size with u32 indices. -/
def redAddr (w : Word) (indexed : Bool) (t : Thread) (i : Nat) : Nat :=
  let n := redBytes (vtype w)
  let e := if indexed then velem (t.getV (Word.rc w)) 32 i else i
  (t.getS (Word.ra w) + BitVec.ofNat 64 (e * n)).toNat

def redvBody (indexed : Bool) (w : Word) (m : Module) (k : Nat) : Module :=
  let t := m.th k
  let base := t.getS (Word.ra w)
  let els := List.range (vCount (vtype w))
  let f := redAddr w indexed t
  let mine := els.filter (fun i => t.performs w i)
  if base.toNat % redBytes (vtype w) != 0 then m.trapV k causeAlign base false
  else if m.acqPending k || mine.any (fun i => m.walkHeld k (f i)) then m
  else
    let a := vecRed w k f els (Acc1.start m)
    let m1 := a.m.recordAccess k [] a.left false false [] [] base.toNat 0 none false
    match a.stop with
    | some (e, c, addr) => (m1.countVector k ((mine.filter (fun i => decide (i < e))).map f)).faultStopV k c addr e
    | none =>
      (m1.countVector k (mine.map f)).retire k false

def execRedv (th : ThreadId) (w : Word) (s : State) : Host.Outcome State Fault Refusal := s.inst .redv th w (redvBody false w)

def execRedvi (th : ThreadId) (w : Word) (s : State) : Host.Outcome State Fault Refusal := s.inst .redvi th w (redvBody true w)

/-! ### x.fence and x.wait (15 R375, R379) -/

def execXFence (th : ThreadId) (w : Word) (s : State) : Host.Outcome State Fault Refusal :=
  s.inst .xFence th w (fun m k => m.afterDrain k (fun m => m.retire k false))

/-- An x.wait ends: d receives the last value read; the end is progress (16 R399). A thread that becomes runnable is a wake event, and in
W1-W4 the end takes effect when the module is in W0 again (18 R443, R449). -/
def Module.endWait (m : Module) (k d : Nat) (v : Word) : Module :=
  let m1 := m.wake 5 (m.th k).ctx
  if keyKind k == 0 && m.getF Reg.PWR_STATE.state != 0 then m1
  else
    let t := m1.th k
    ((m1.setTh k { t.setS d v with run := .running }).advance k false).progress t.ctx

def xWaitBody (w : Word) (m : Module) (k : Nat) : Module :=
  let t := m.th k
  let a := t.getS (Word.ra w)
  let b := t.getS (Word.rb w)
  let c := (t.getS (Word.rc w)).toNat
  let d := Word.rd w
  let limit := if c = 0 then none else some (m.pilot + c)
  if a.toNat % 8 != 0 then m.trap k causeAlign a
  else if m.acqPending k || m.walkHeld k a.toNat then m
  else
    let (m1, x) := m.thXlat k a.toNat .load
    match x with
    | .fault cause => m1.faultStop k cause a.toNat 0
    | .viol =>
      let m2 := m1.thViol k a.toNat 1
      if b != 0 then m2.endWait k d 0
      else (m2.setTh k { m2.th k with run := .waitWord a.toNat none b 0 limit d m.pilot }).rests k
    | .ok p lc =>
      if m1.mustWait p then m1
      else if m1.badPlace p 8 then (m1.countReq k p true).faultStop k cMedia a.toNat 0
      else
        let v := BitVec.ofNat 64 (m1.readPlace p 8)
        let m2 := (m1.countReq k p true).touch (m1.who k (m1.readClass k a.toNat lc)) p 8 false
        if v != b then m2.endWait k d v
        else (m2.setTh k { m2.th k with run := .waitWord a.toNat (some (p, lc)) b v limit d m.pilot }).rests k

def execXWait (th : ThreadId) (w : Word) (s : State) : Host.Outcome State Fault Refusal := s.inst .xWait th w (xWaitBody w)

/-- Read a waited word again: after a write to its HBM sector, or 256 ticks after the last read elsewhere. -/
def xWaitRecheck (k : Nat) (m : Module) : Module :=
  match (m.th k).run with
  | .waitWord va (some (p, lc)) b last limit d at_ =>
    let m1 := if p.isHbm then m else m.toTick (at_ + 256)
    if last != b then m.endWait k d last
    else if m1.mustWait p then m1
    else if m1.badPlace p 8 then (m1.countReq k p true).faultStop k cMedia va 0
    else
      let v := BitVec.ofNat 64 (m1.readPlace p 8)
      let m2 := ((m1.countReq k p true).touch (m1.who k (m1.readClass k va lc)) p 8 false).setTh k { m1.th k with run := .waitWord va (some (p, lc)) b v limit d m1.pilot }
      if v != b then m2.endWait k d v else m2
  | _ => m

def execXWaitRecheck (th : ThreadId) (s : State) : Host.Outcome State Fault Refusal := s.go (xWaitRecheck (ThreadId.key th))

/-- The tick limit of a wait expires: the thread continues with the last value read. -/
def xWaitLimit (k : Nat) (m : Module) : Module :=
  match (m.th k).run with
  | .waitWord _ _ _ v (some t) d _ => (m.toTick t).endWait k d v
  | _ => m

def execXWaitLimit (th : ThreadId) (s : State) : Host.Outcome State Fault Refusal := s.go (xWaitLimit (ThreadId.key th))

/-! ### Memory responses (12 R290, R291; 15 R371) -/

/-- A new uncorrectable error in an HBM sector: marked poisoned, counted, logged when no sector is, event source 160. -/
def Module.mediaError (m : Module) (sector ctx : Nat) : Module :=
  let m1 := (m.setMs { m.ms with poison := SMap.set false m.ms.poison sector true }).countUncorrected
  let pc := sector * 32 / pcBytes
  let m2 := if m1.bit Reg.MEM_ERRLOG.valid then m1
    else (((m1.setF Reg.MEM_ERRLOG.valid 1).setF Reg.MEM_ERRLOG.pc pc).setF Reg.MEM_ERRLOG.context ctx).setF
      Reg.MEM_ERRLOG.offset (sector * 32 % pcBytes)
  m2.raise 160

/-- A new uncorrectable error in a sector of the capacity tier: marked, counted in HMP_CT, event source 228 (11 R249, R272). -/
def Module.tierError (m : Module) (sector : Nat) : Module :=
  ((m.setMs { m.ms with ctPoison := SMap.set false m.ms.ctPoison sector true }).addF Reg.HMP_CT.uncorrected 1).raise 228

/-- A new uncorrectable error at a place of either memory. -/
def Module.errorAt (m : Module) (p : Place) (ctx : Nat) : Module :=
  match p with
  | .hbm pc off => m.mediaError (hbmKey pc off / 32) ctx
  | .ctier a => m.tierError (a / 32)
  | _ => m

/-- The last performed load of a thread whose element `elem` was read at a place that satisfies `p`. -/
def Thread.lastLoad (t : Thread) (p : Place → Bool) (elem : Nat) : Option (Outst × Got) :=
  (t.outst.filterMap (fun o =>
    if o.left = 0 && o.isLoad then
      (o.got.find? (fun g => g.idx == elem && (match g.src with | some q => p q | none => false))).map (fun g => (o, g))
    else none)).getLast?

/-- A load fails at an element: the elements below it are delivered, the thread stops at the instruction with cause MEDIA, and a resume
reads again (12 R291, 22 R512). -/
def Module.loadFails (m : Module) (k : Nat) (o : Outst) (g : Got) : Module :=
  let m1 := (m.modOutst k o.id (fun x => { x with got := o.got.takeWhile (fun x => x != g) })).dropAfter k o.id
  let m2 := (m1.setTh k { m1.th k with vidx := if g.vec then BitVec.ofNat 8 g.idx else (m1.th k).vidx }).returned k
  m2.stopAt k o.ip cMedia g.va (if g.vec then g.idx else 0) 0

/-- The response of a sector that cannot be corrected: HBM, or the capacity tier, whose errors are reported alike (11 R249; DEDUCED, log 31). -/
def mediaResponse (k elem : Nat) (m : Module) : Module :=
  match (m.th k).lastLoad Place.isDram elem with
  | none => m
  | some (o, g) => (g.src.elim m (fun p => m.errorAt p (m.th k).ctx)).loadFails k o g

/-- Errors that a read of HBM corrected are counted (12 R290, 20 Table 20-2). -/
def Module.corrected (m : Module) (n : Nat) : Module :=
  if n = 0 then m else (m.addF Reg.MEM_ERRCNT.corrected n).count pmcMem 9 n Ev.none

/-- A read other than a load's meets a new uncorrectable error: the sector is marked, so that the consumer whose row follows finds it
poisoned (12 R291; DEDUCED, log 31). -/
def Module.sectorError (m : Module) (p : Place) (ctx : Nat) : Module := if m.badPlace p 1 then m else m.errorAt p ctx

/-- Errors that a read of the capacity tier corrected are counted (11 Table 11-10). -/
def Module.tierCorrected (m : Module) (n : Nat) : Module := if n = 0 then m else m.addF Reg.HMP_CT.corrected n

/-- A memory response returns to the core: performed loads reach their registers. The errors that were corrected are counted, and
what proves to be uncorrectable acts on the access that met it. -/
def memoryResponse (k : Nat) (a : MemAnswer) (m : Module) : Module :=
  let m0 := (m.corrected a.corrected.toNat).tierCorrected a.tier.toNat
  match a.bad with
  | some (.element e) => mediaResponse k e.val m0
  | some (.sector pc off) => if pcBytes ≤ off.toNat then m0 else m0.sectorError (.hbm pc.val off.toNat) (m0.th k).ctx
  | some (.tier x) => m0.sectorError (.ctier x.toNat) (m0.th k).ctx
  | none =>
    let m1 := m0.returned k
    if (m1.th k).run = .running then m1.setCore (k / 8) { m1.core (k / 8) with clockOn := true } else m1

def execMemoryResponse (th : ThreadId) (answer : MemAnswer) (s : State) : Host.Outcome State Fault Refusal :=
  s.go (memoryResponse (ThreadId.key th) answer)

/-! ### Accesses that waited for a hold (12 R293, R298) -/

/-- The element of a vector load that an entry is, for a given access. -/
def Waiting.elem (e : Waiting) (thread outst : Nat) : Option Nat :=
  match e.act with
  | .load true _ idx _ _ => if e.thread = thread && e.outst = outst then some idx else none
  | _ => none

/-- A waiting element meets an uncorrectable error: the thread stops at the instruction with cause MEDIA. A vector load keeps the elements
below VIDX, which is the lowest element that has not been performed (02 R50, 12 R291). -/
def Module.waitFails (m : Module) (e : Waiting) (o : Outst) : Module :=
  let k := e.thread
  match e.elem k e.outst with
  | some i =>
    let low := (m.ms.waiting.filterMap (fun x => x.elem k e.outst)).foldl min i
    let m1 := (m.modOutst k o.id (fun x => { x with got := o.got.filter (fun g => decide (g.idx < low)), left := 0 })).dropAfter k o.id
    let m2 := (m1.setTh k { m1.th k with vidx := BitVec.ofNat 8 low }).returned k
    m2.stopAt k o.ip cMedia e.va low 0
  | none =>
    let m1 := m.dropAfter k e.outst
    let t := m1.th k
    (m1.setTh k { t with outst := t.outst.filter (fun x => x.id != e.outst) }).stopAt k o.ip cMedia e.va 0 0

/-- Values captured for an access, in the order of their elements. -/
def insertGot (l : List Got) (g : Got) : List Got := l.takeWhile (fun x => decide (x.idx ≤ g.idx)) ++ g :: l.dropWhile (fun x => decide (x.idx ≤ g.idx))

/-- Perform one waiting element: the place was translated when the access issued. A completion record is translated when it is written
(15 R385). -/
def Module.performWaiting (m : Module) (e : Waiting) : Module :=
  let k := e.thread
  let w : Who := { ctx := e.ctx, master := e.master, lc := e.lc }
  let live := e.eng || (m.th k).outst.any (fun o => o.id == e.outst)
  let done (m : Module) (got : List Got) : Module :=
    if e.eng then m else m.modOutst k e.outst (fun o => { o with got := got.foldl insertGot o.got, left := o.left - 1 })
  if !live then m
  else if m.badPlace e.place e.size && (match e.act with | .store _ | .record _ _ _ _ => false | _ => true) then
    match e.act with
    | .red _ _ _ => done m.countUncorrected []
    | _ =>
      match (m.th k).outst.find? (fun o => o.id == e.outst) with
      | none => m
      | some o => m.waitFails e o
  else
    match e.act with
    | .load vec reg idx width sb =>
      done (m.askPiece w e.place e.size false e.lead false)
        [{ gotOf vec reg idx width (extendLoad (sb != 0) e.size (m.readPlace e.place e.size)) (some e.place) with va := e.va }]
    | .store v => done (m.putPiece w e.place e.size v e.lead e.whole) []
    | .amo op width b c d =>
      let r := m.atomicAt w e.place op width b c true
      done (r.1.setTh k ((r.1.th k).orFlags r.2.2)) (amoGot width d r.2.1)
    | .red op width b => done (m.atomicAt w e.place op width b 0 false).1 []
    | .record status kind count parts => m.completeAs e.tag e.ctx e.va status kind count parts

/-- The hold of a pseudo-channel ends: its waiting requests are performed in order. -/
def Module.endHold (m : Module) (pc : Nat) : Module :=
  let m1 := m.setHeld pc false
  let mine := m1.ms.waiting.filter (fun e => e.pc == pc)
  (m1.setMs { m1.ms with waiting := m1.ms.waiting.filter (fun e => e.pc != pc) }).each mine Module.performWaiting

/-! ### Instruction fetch (02 R49, R50) -/

/-- A fetch at IP: a translation fault stops the thread before the instruction; a denied page fetches a word of zeros, which is
illegal, and counts a violation. -/
def fetchFault (k : Nat) (m : Module) : Module :=
  let t := m.th k
  if t.run != .running || (keyKind k == 0 && m.getF Reg.PWR_STATE.state != 0) || m.walkHeld k t.ip.toNat then m
  else
    let (m1, x) := m.thXlat k t.ip.toNat .fetch
    match x with
    | .fault c => m1.faultStop k c t.ip.toNat 0
    | .viol => ((m1.thViol k t.ip.toNat 1).settle k).trap k causeIllegal 0
    | .ok _ _ => m1

def execFetchFault (th : ThreadId) (s : State) : Host.Outcome State Fault Refusal := s.go (fetchFault (ThreadId.key th))

end Sys2Proof.Machine
end

