-- ==== Sys2Proof/Machine/Grids.lean ====
section
/-! DEFINITION. Grids (02 R20-R29, 15 R378): launching, admission, the end of a thread, completion, leases that become
effective, and the clock of a core (02 R47, R48). -/

namespace Sys2Proof.Machine

/-! ### Reading a descriptor as an engine -/

/-- Read an aligned descriptor of `n` words in a context: its words, whether the read failed (translation or poison), and
whether it was a violation, in which case the words are zero (02 R49). -/
def Module.descRead (m : Module) (ctx va n : Nat) : List Nat × Bool × Bool :=
  if 2 ^ 48 ≤ va then ([], true, false)
  else match m.ctxXlat ctx va .load with
    | .fault _ => ([], true, false)
    | .viol => (List.replicate n 0, false, true)
    | .ok p _ =>
      if m.badPlace p (8 * n) then ([], true, false) else ((m.engRead ctx va 8 n).words, false, false)

/-- A core's hardware threads, by key. -/
def coreKeys (core : Nat) : List Nat := (List.range 8).map (fun i => core * 8 + i)

/-- Does a slot hold a thread? -/
def Module.busy (m : Module) (k : Nat) : Bool := (m.th k).run != .free

/-- Is partition n READY (16 Table 16-4)? -/
def Module.partReady (m : Module) (n : Nat) : Bool := m.getF (Reg.PART_STAT.state n) == 0

/-! ### Leases that become effective (02 R45, 09 R192) -/

/-- Does a cluster hold threads, running or waiting for admission (02 R45)? -/
def Module.clusterBusy (m : Module) (g : Nat) : Bool :=
  (List.range 16).any (fun i =>
    let c := g * 16 + i
    !(m.core c).grids.isEmpty || (coreKeys c).any m.busy)

/-- A pending lease passes to the sequencer when its cluster's last thread has ended; source 192. -/
def Module.leaseSettle (m : Module) (g : Nat) : Module :=
  if m.getF (Reg.SQ_LOWN.state g) = 1 && !m.clusterBusy g then (m.setF (Reg.SQ_LOWN.state g) 2).raise 192 else m

/-! ### Grids -/

def Module.grid (m : Module) (id : Nat) : Option Grid := m.grids.find? (fun g => g.id == id)

def Module.modGrid (m : Module) (id : Nat) (f : Grid → Grid) : Module :=
  { m with grids := m.grids.map (fun g => if g.id = id then f g else g) }

/-- A grid's thread count (02 R23). -/
def Grid.count (g : Grid) : Nat := g.threads * g.cores.length

/-- When no thread of a grid is left, its completion record is written and the grid is gone (02 R27, R28). -/
def Module.gridCheck (m : Module) (id : Nat) : Module :=
  match m.grid id with
  | none => m
  | some g =>
    if g.live = 0 then
      ({ m with grids := m.grids.filter (fun x => x.id != id) }).complete g.ctx g.completion
        (if g.lost = 0 then sDone else sPartFailed) 1 g.count g.lost
    else m

/-- Do partition n's cores belong to the grid pool? A partition under reset or FAILED has none there (02 R22, 16 R413); one that is OFF
has, since a launch in W2 is itself a wake event (18 R443), unless it was FAILED when its domain went off. -/
def Module.partPooled (m : Module) (n : Nat) : Bool :=
  m.partReady n || (m.getF (Reg.PART_STAT.state n) == 5 && !m.esc.failed.contains n)

/-- Selected cores that can be used: not in a cluster leased or pending, not in a partition under reset (02 R22). -/
def Module.usedCores (m : Module) (w2 : Nat) : List Nat :=
  (List.range 2048).filter (fun c =>
    Nat.testBit w2 (c / 256) && Nat.testBit w2 (8 + c / 16 % 16) && Nat.testBit w2 (24 + c % 16) &&
    m.partPooled (c / 256) && m.getF (Reg.SQ_LOWN.state (c / 16)) == 0)

/-- Launch the grid of a descriptor read in a context (02 R21, R22, R29; 15 R378, R387): the code. -/
def Module.launchGrid (m : Module) (ctx va : Nat) : Module × Nat :=
  if va % 32 != 0 then (m.violate ctx 2 va, 2)
  else
    let (ws, bad, viol) := m.descRead ctx va 4
    let m := m.look (engWho ctx 7 false) va 32
    if bad then (m, 4)
    else
      let m := if viol then m.violate ctx 2 va else m
      let w (i : Nat) : Nat := ws.getD i 0
      let entry := w 0 % 2 ^ 48
      let completion := w 3 % 2 ^ 48
      if completion % 32 != 0 then (m.violate ctx 2 va, 0)
      else if w 0 / 2 ^ 48 != 0 || w 1 / 2 ^ 48 != 0 || w 2 / 2 ^ 43 != 0 || w 3 / 2 ^ 48 != 0 || entry % 8 != 0 then
        ((m.complete ctx completion sViolation 1 0 0).violate ctx 2 va, 0)
      else if 1024 ≤ (m.grids.filter (fun g => !g.waiting.isEmpty)).length then (m, 1)
      else
        let cores := m.usedCores (w 2)
        if cores.isEmpty then (m.complete ctx completion sDone 1 0 0, 0)
        else
          let threads := w 2 / 2 ^ 40 % 8 + 1
          let id := m.nextGrid
          let g : Grid := { id := id, ctx := ctx, entry := entry, arg := w 1 % 2 ^ 48, threads := threads, cores := cores,
                            waiting := cores, live := threads * cores.length, lost := 0, completion := completion }
          let m1 := { m with grids := m.grids ++ [g], nextGrid := id + 1 }.wake 5 ctx
          (m1.each cores (fun m c => m.setCore c { m.core c with grids := (m.core c).grids ++ [id] }), 0)

/-- x.launch takes effect as a release (15 R376, R378). -/
def execXLaunch (th : ThreadId) (w : Word) (s : State) : Host.Outcome State Fault Refusal :=
  s.inst .xLaunch th w (fun m k => m.afterDrain k (fun m => m.whenOpen (fun m =>
    let t := m.th k
    let r := m.launchGrid t.ctx (t.getS (Word.ra w)).toNat
    r.1.retireS k (Word.rd w) (BitVec.ofNat 64 r.2))))

/-! ### Admission (02 R24-R26) -/

/-- Zero a core for a new context (02 R26): store, accumulators, stationary sets; its thread registers are zero when a thread
starts. S0 becomes active (06 R134), TILESTAT is cleared (06 R139) and no channel is configured (06 R148). Cached translations are
the old context's and go as well. -/
def Module.zeroCore (m : Module) (c : Nat) (who : Nat × Nat) : Module :=
  let base := c * storeBytes
  let ms := { m.ms with store := m.ms.store.filter (fun e => !(decide (base ≤ e.1) && decide (e.1 < base + storeBytes))) }
  let x := m.core c
  (m.setMs ms).setCore c { x with last := some who, acc := [], set0 := [], set1 := [], active := false, tstat := [], chans := [], tlb := [] }

/-- Start a thread in a slot with scalar registers given (02 R24, R26). -/
def Module.startThread (m : Module) (k ctx : Nat) (ip : Nat) (regs : List (Nat × Nat)) (work : Work) : Module :=
  let t : Thread := { Thread.empty with run := .running, ctx := ctx, gen := (m.ctx ctx).gen, ip := BitVec.ofNat 64 ip,
                                        work := work, retiredAt := m.pilot }
  m.setTh k (regs.foldl (fun t r => t.setSN r.1 r.2) t)

/-- Take the core of a context: zeroed when another context's thread ran there last, its clock restarts (02 R26, R48). -/
def Module.takeCore (m : Module) (c ctx : Nat) : Module :=
  let who := (ctx, (m.ctx ctx).gen)
  let m1 := if (m.core c).last = some who then m else m.zeroCore c who
  m1.setCore c { m1.core c with clockOn := true }

/-- Start the threads of a grid on a core: ordinals in order, hardware threads in an order the module leaves open. -/
def Module.startOrdinals (m : Module) (g : Grid) (core rank : Nat) : List Nat → List Nat → Module
  | [], _ => m
  | o :: rest, free =>
    let (m1, pick) := m.freePick
    let k := free.getD (pick % free.length) 0
    let m2 := m1.startThread k g.ctx g.entry [(1, g.arg), (2, rank * g.threads + o), (3, g.count)] (.grid g.id)
    Module.startOrdinals m2 g core rank rest (free.filter (fun x => x != k))

/-- A core admits the next grid in launch order. -/
def gridAdmit (c : Nat) (m : Module) : Module :=
  match (m.core c).grids with
  | [] => m
  | id :: rest =>
    match m.grid id with
    | none => m.setCore c { m.core c with grids := rest }
    | some g =>
      let free := (coreKeys c).filter (fun k => !m.busy k)
      let gen := (m.ctx g.ctx).gen
      let other := (coreKeys c).any (fun k => m.busy k && !((m.th k).ctx == g.ctx && (m.th k).gen == gen))
      if !m.partReady (partOf c) || m.getF Reg.PWR_STATE.state != 0 || decide (free.length < g.threads) || other then m
      else
        let rank := (g.cores.takeWhile (fun x => x != c)).length
        let m1 := m.setCore c { m.core c with grids := rest }
        let m2 := (m1.takeCore c g.ctx).startOrdinals g c rank (List.range g.threads) free
        m2.modGrid id (fun g => { g with waiting := g.waiting.filter (fun x => x != c) })

def execGridAdmit (core : Fin 2048) (s : State) : Host.Outcome State Fault Refusal := s.go (gridAdmit core.val)

/-! ### The end of a thread (02 R27, 04 R96) -/

/-- The slot of a thread becomes free. -/
def Module.freeSlot (m : Module) (k : Nat) : Module := m.setTh k Thread.empty

/-- A thread is lost or discarded: its slot is free, its matrix operations and waiting accesses are gone. -/
def Module.discard (m : Module) (k : Nat) : Module :=
  let m1 := m.freeSlot k
  let m2 := m1.setMs { m1.ms with waiting := m1.ms.waiting.filter (fun x => x.eng || x.thread != k) }
  if keyKind k = 0 then
    let c := m2.core (k / 8)
    let gone := (c.mq.filter (fun o => o.thread == keyThread k)).map (fun o => o.id)
    m2.setCore (k / 8) { c with mq := c.mq.filter (fun o => o.thread != keyThread k),
                                inflight := c.inflight.filter (fun x => !gone.contains x.op) }
  else m2

/-- A thread ends: its grid counts it, its chunk is written back, its cluster's pending lease may pass (02 R27, R45; 11 R261). -/
def Module.endThread (m : Module) (k : Nat) : Module :=
  let w := (m.th k).work
  let m1 := (m.freeSlot k).rests k
  let m2 := match w with
    | .grid id => (m1.modGrid id (fun g => { g with live := g.live - 1 })).gridCheck id
    | .chunk u c => m1.chunkDone u c
    | _ => m1
  if keyKind k = 0 then m2.leaseSettle (keyCore k / 16) else m2

/-- halt waits for every earlier access and matrix operation, then ends the thread (04 R96, 15 R392). On an update core the write-back
that it starts waits for a held channel. -/
def execHalt (th : ThreadId) (w : Word) (s : State) : Host.Outcome State Fault Refusal :=
  s.inst .halt th w (fun m k => m.afterDrain k (fun m =>
    let f (m : Module) : Module := (m.retire k false).endThread k
    if keyKind k = 1 then m.whenOpen f else f m))

/-! ### Clocks on demand (02 R47) -/

/-- A core stops its clock: no runnable thread, no access and no matrix operation of its own, and none of those that it performs for a solver
run from formation to step or for an adjoint entry (09 R201, 10 R242). -/
def coreClockStop (c : Nat) (m : Module) : Module :=
  let idle := (coreKeys c).all (fun k => !(m.th k).runnable && (m.th k).outst.isEmpty)
  let busy := m.sq.runs.any (fun r => decide (2 ≤ r.stage) && decide (r.stage ≤ 5) && r.cores.contains c) ||
    m.sq.entries.any (fun e => e.phase == 1 && e.cores.contains c)
  if idle && (m.core c).mq.isEmpty && !busy then m.setCore c { m.core c with clockOn := false } else m

def execCoreClockStop (core : Fin 2048) (s : State) : Host.Outcome State Fault Refusal := s.go (coreClockStop core.val)

end Sys2Proof.Machine
end

