-- ==== Sys2Proof/Machine/PowerCore.lean ====
section
/-! DEFINITION. Power domains, the exit from a Wick state (18 R439-R443, Table 18-6) and host accesses, which wake the module (22 R515). -/

namespace Sys2Proof.Machine

/-- The exit latency of a Wick state in pilot ticks (Table 18-3). -/
def wickLatency : Nat → Nat
  | 1 => 50
  | 2 => 2000
  | 3 => 75000
  | 4 => 8750000
  | _ => 0

/-- The rail of a power domain (Table 18-7). -/
def domRail (k : Nat) : Nat :=
  if k < 8 then k else if k = 16 then 10 else if k = 17 then 11 else if 11 ≤ k && k ≤ 14 then 9 else 8

/-- Is a domain on in a Wick state (Table 18-2)? PD19 follows PWR_CTRL.debug in W0-W2. -/
def domInState (s k : Nat) (debug : Bool) : Bool :=
  match s with
  | 0 | 1 => k != 19 || debug
  | 2 => decide (8 ≤ k) && (k != 19 || debug)
  | 3 => (decide (11 ≤ k) && decide (k ≤ 15)) || k == 17
  | _ => false

def Module.rail (m : Module) (r : Nat) : Rail := SMap.get Rail.empty m.pwr.rails r

def Module.setRail (m : Module) (r : Nat) (x : Rail) : Module :=
  { m with pwr := { m.pwr with rails := SMap.set Rail.empty m.pwr.rails r x } }

def Module.domOn (m : Module) (k : Nat) : Bool := Nat.testBit (m.getF Reg.PWR_DOM.on) k

/-- Set PWR_DOM for a Wick state; the domains of a failed rail stay as they are (R451), and out of service no partition is powered
(16 R418). -/
def Module.setDomains (m : Module) (s : Nat) : Module :=
  m.setF Reg.PWR_DOM.on ((List.range 20).foldl (fun v k =>
    let on := if (m.rail (domRail k)).failed then m.domOn k
      else if k < 8 && m.oos then m.domOn k && domInState s k false else domInState s k (m.bit Reg.PWR_CTRL.debug)
    if on then v + 2 ^ k else v) 0)

/-- Every core of a partition is in the state left by the zeroing of 02 R26, with no context (18 R440, 16 R412). -/
def Module.zeroPart (m : Module) (n : Nat) : Module :=
  let lo := 256 * n
  { m with cores := SMap.keep m.cores (fun k => !(decide (lo ≤ k) && decide (k < lo + 256))),
           ms := { m.ms with store := SMap.keep m.ms.store (fun a => !(decide (lo * storeBytes ≤ a) && decide (a < (lo + 256) * storeBytes))) } }

/-- The partitions' states once their domains are back: FAILED ones stay FAILED, one whose rail failed stays OFF (R451). -/
def Module.partsOn (m : Module) : Module :=
  if m.oos then m
  else m.each (List.range 8) (fun m n =>
    if m.getF (Reg.PART_STAT.state n) != 5 || !m.domOn n then m
    else m.setF (Reg.PART_STAT.state n) (if m.esc.failed.contains n then 4 else 0))

/-- Every voltage request of an exit is acknowledged (R450). -/
def Module.ackRails (m : Module) : Module :=
  let due := m.pwr.rails.filter (fun e => e.2.pending && !e.2.failed)
  (m.each due (fun m e => m.setRail e.1 { e.2 with pending := false, lowered := false, trimUp := false, attempts := 0, mv := e.2.target })).addF
    Reg.PWR_AVS.requests due.length

/-- Are the rails of an exit raised or failed? -/
def Module.railsUp (m : Module) : Bool := m.pwr.rails.all (fun e => !(e.2.lowered && !e.2.failed) && !(e.2.pending && !e.2.trimUp))

/-- The link trains, to a speed and width that the host and the cable decide (22 R532). -/
def Module.linkTrain (m : Module) : Module :=
  let (m1, a) := m.freePick
  let (m2, b) := m1.freePick
  ((m2.setF Reg.HIF_LINK.state 1).setF Reg.HIF_LINK.speed (a % 7 + 1)).setF Reg.HIF_LINK.width (2 ^ (b % 5))

/-- The first byte of the Hamper's row-state save in the reserved flash (21 Table 21-6). -/
def rowSaveBase : Nat := 2 ^ 31

/-- Does a byte of flash lie in the row-state save: 8 bytes for each of the 2,097,152 entries (11 R266)? -/
def inRowSave (a : Nat) : Bool := decide (rowSaveBase ≤ a) && decide (a < rowSaveBase + 2 ^ 24)

/-- The exit from W3 or W4 reads the row-state table back from its save (11 R266): entry `i` is the 8 bytes at 8i, and a byte that
flash does not list is zero. -/
def Module.restoreRows (m : Module) : Module :=
  { m with hmp := { m.hmp with rowState := (m.ms.flash.filter (fun c => inRowSave c.1)).foldl (fun t c =>
      SMap.modify 0 t ((c.1 - rowSaveBase) / 8) (fun w => w ||| BitVec.ofNat 64 (c.2.toNat * 256 ^ (c.1 % 8)))) [] } }

/-- The waits that ended while the module was not in W0 end now (R443): the word changed, or the limit passed. -/
def Module.endWaits (m : Module) : Module :=
  m.each m.threads (fun m e =>
    match e.2.run with
    | .waitWord _ _ cmp last limit d _ =>
      if last != cmp || limit.any (fun t => decide (t ≤ m.pilot)) then m.endWait e.1 d last else m
    | _ => m)

/-- The Lamplighter's hold of delivery ends (19 R462). -/
def Module.unholdEvents (m : Module) : Module := (m.setF Reg.EVC_GATE.lhold 0).evalLines

/-- The link is down: no TLP is accepted or sent. -/
def Module.linkDown (m : Module) : Module :=
  ((m.setF Reg.HIF_LINK.state 0).setF Reg.HIF_LINK.speed 0).setF Reg.HIF_LINK.width 0

/-- In W1-W3 the link may be in L0, L0p or L1: which is left open (18 Table 18-2; 22 Table 22-1). -/
def Module.linkDozes (m : Module) : Module :=
  if !m.linkUp then m
  else
    let (m1, k) := m.freePick
    m1.setF Reg.HIF_LINK.state (2 + k % 3)

/-- An exit takes the link to L0 (18 Table 18-6, step 6). -/
def Module.linkWakes (m : Module) : Module := if m.linkUp then m.setF Reg.HIF_LINK.state 2 else m

/-- The exit reaches W0 (Table 18-6, R441-R443, R449): domains, partitions, ports, the row-state table, PWR_STATE, after W4 the hold
of delivery and the link (R441), the waits that ended meanwhile, and source 5 after W3 or W4. -/
def Module.exitDone (m : Module) : Module :=
  let s := m.getF Reg.PWR_STATE.state
  match m.pwr.wake with
  | none => m
  | some (code, _, t) =>
    if s = 0 || m.bit Reg.PWR_STATE.entering then m
    else
      let m1 := (m.setDomains 0).partsOn
      let m2 := if s < 3 then m1 else (m1.each (m1.portsIn 0xFFFF pDoze) Module.toTrain).restoreRows
      let m3 := (((m2.setF Reg.PWR_STATE.state 0).setF Reg.PWR_STATE.target 0).setF Reg.PWR_STATE.last_wake code).setF
        Reg.PWR_STATE.last_exit (m.pilot - t)
      let m4 := { m3 with pwr := { m3.pwr with wake := none } }.idleFrom
      let m5 := if s != 4 then m4.linkWakes else if m4.pwr.perst then m4.unholdEvents.linkDown else m4.unholdEvents.linkTrain
      let m6 := m5.endWaits
      if s < 3 then m6 else m6.raise 5

/-- An access of the host in W1-W3 wakes the module with code 1 and is performed once W0 is reached, within the exit latency; the time is
left open (22 R515). -/
def Module.hostWake (m : Module) : Module :=
  let m1 := m.wake 1 0
  let s := m1.getF Reg.PWR_STATE.state
  if s = 0 || s = 4 then m1
  else
    let (m2, k) := m1.freePick
    match m2.pwr.wake with
    | none => m2
    | some (_, _, t) => ((m2.toTick (t + k % (wickLatency s + 1))).ackRails).exitDone

/-- A BAR access of function `fn` is counted (20 Table 20-2) and wakes the module. -/
def Module.barAccess (m : Module) (fn : Nat) : Module :=
  if m.linkUp then (m.count pmcHost 3 1 { Ev.none with ctx := some fn, master := some 6 }).hostWake else m

/-- In ROM recovery only the LMP and SEC blocks answer (21 R489). -/
def Module.recovery (m : Module) : Bool := m.getF Reg.LMP_FW_STAT.state == 5

/-- A read with a side effect returns a register's whole value and captures it (00 R7). -/
def Module.readOut (m : Module) (off v : Nat) : Module :=
  { m with capture := SMap.set none m.capture off (some (BitVec.ofNat 64 v)) }.emit (.readData v)

/-- Any other access to a register ends its capture (00 R7). -/
def Module.endCapture (m : Module) (off : Nat) : Module :=
  { m with capture := SMap.set none m.capture off none }

/-- Run a command that is an access to a register outside LMP and SEC; in recovery a read returns zero and a write is ignored. -/
def State.goBarAs (s : State) (isRead : Bool) (f : Module → Module) : Host.Outcome State Fault Refusal :=
  s.go (fun m =>
    if !m.pwr.mainGood then m
    else if m.recovery then (if isRead then m.emit (.readData 0) else m)
    else f (m.barAccess 0))

/-- Run a command that is a register write. -/
def State.goBar (s : State) (f : Module → Module) : Host.Outcome State Fault Refusal := s.goBarAs false f

end Sys2Proof.Machine
end

