-- ==== Sys2Proof/Machine/Epilogue.lean ====
section
/-! DEFINITION. The drain epilogues (06 Table 6-6; 07 R164, R165): the exact real value of each function, given as a
rational whose error is far below half a unit of the FP32 result, rounded once. -/

namespace Sys2Proof.Machine

/-! ### The exponential -/

/-- Fraction bits of the constants and of the fixed-point exponential. -/
def expBits : Nat := 720

/-- ln 2 × 2^720, rounded down. -/
def ln2Fix : Nat :=
  3823158815118224161610134413427560790105361043196219326568169991709715507778361534302924387495437325064809479105667442084897079904240601450446881737911117177346285674572123959927885521304535177461563342944137142543727

/-- √(2/π) × 2^720, rounded down. -/
def sqrt2PiFix : Nat :=
  4400853783486459488096869261184686594372429078040459712530906111484943180598128453903501154996905426170994858150907310437163923865138498934685122252265273247095196338323995346937195169008525050919376315335676640199917

/-- Σ (−r)^k / k! from term k on, in fixed point: the terms alternate, so the sum is term k minus the rest. -/
def expTerms : Nat → Nat → Nat → Nat → Nat
  | 0, _, _, _ => 0
  | fuel + 1, r, k, t => t - expTerms fuel r (k + 1) (t * r / 2 ^ expBits / (k + 1))

/-- e^−r × 2^720 for r < ln 2 in fixed point. -/
def expFix (r : Nat) : Nat := expTerms 160 r 0 (2 ^ expBits)

/-- e^−a for a finite a ≥ 0 as an exact dyadic within 2^−700 of itself. An argument of 4,200 or more acts as 4,200: the result
is below every magnitude that FP32 rounding can tell from zero. -/
def expNeg (m : Nat) (e : Int) : FVal :=
  let s : Int := e + (expBits : Int)
  let top : Int := (Nat.log2 m : Int) + e
  let a : Nat := if m = 0 then 0 else if 12 < top then 4200 * 2 ^ expBits
    else min (4200 * 2 ^ expBits) (if 0 ≤ s then m * 2 ^ s.toNat else m / 2 ^ (-s).toNat)
  .fin false (expFix (a % ln2Fix)) (-(expBits : Int) - ((a / ln2Fix : Nat) : Int))

/-! ### Rationals of dyadics -/

/-- A quotient of two exact values. -/
structure Ratio where
  num : FVal
  den : FVal

def fAdd (x y : FVal) : FVal := (addF false x y).1
def fMul (x y : FVal) : FVal := (mulF x y).1
def fNat (n : Nat) : FVal := .fin false n 0
def fOne : FVal := fNat 1

/-- Round a finite quotient once into FP32 to nearest. -/
def Ratio.round (r : Ratio) : Nat × Flags :=
  match r.num, r.den with
  | .fin n1 m1 e1, .fin n2 m2 e2 =>
    if m1 = 0 then (fp32.signBit (n1 != n2), fNone)
    else
      let q := divMag 64 m1 e1 m2 e2
      fp32.roundFin .rne 0 (n1 != n2) q.1 q.2.1 q.2.2
  | x, _ => fp32.round .rne 0 x

/-- σ(s) and 1 − σ(s) of a finite s as numerators over 1 + e^−|s|. -/
def sigmaParts (s : FVal) : FVal × FVal × FVal :=
  match s with
  | .fin n m e =>
    let q := expNeg m e
    if n then (q, fOne, fAdd fOne q) else (fOne, q, fAdd fOne q)
  | _ => (fOne, fOne, fOne)

/-- 2c (y + 0.044715 y³) of a finite y, c = √(2/π), within 2^−700 of itself. -/
def geluArg (y : FVal) : FVal :=
  let y2 := fMul y y
  let p := fMul y (fAdd (fNat 1000000) (fMul (fNat 44715) y2))
  let p := fMul p (.fin false sqrt2PiFix (1 - (expBits : Int)))
  match p with
  | .fin n m e =>
    let q := divMag expBits m e 1000000 0
    if m = 0 then .fin n 0 0 else .fin n q.1 q.2.1
  | x => x

/-! ### The functions (07 Table 7-5) on finite operands -/

/-- x σ(s). -/
def timesSigma (x s : FVal) : Ratio :=
  let (g, _, d) := sigmaParts s
  { num := fMul x g, den := d }

/-- tanh(x) = (1 − e^−2|x|) / (1 + e^−2|x|) with the sign of x. -/
def tanhRatio (x : FVal) : Ratio :=
  match x with
  | .fin n m e =>
    let q := expNeg m (e + 1)
    let v := fAdd fOne q.neg
    { num := if n then v.neg else v, den := fAdd fOne q }
  | _ => { num := x, den := fOne }

/-- gelu′(y) = g + 2 c y g (1 − g) (1 + 0.134145 y²), g = σ(2c (y + 0.044715 y³)). -/
def geluPrime (y : FVal) : Ratio :=
  let (g, h, d) := sigmaParts (geluArg y)
  let poly := fAdd (fNat 1000000) (fMul (fNat 134145) (fMul y y))
  let c2 : FVal := .fin false sqrt2PiFix (1 - (expBits : Int))
  { num := fAdd (fMul (fNat 1000000) (fMul g d)) (fMul (fMul (fMul c2 y) (fMul g h)) poly),
    den := fMul (fNat 1000000) (fMul d d) }

/-- silu′(y) = σ(y) (1 + y (1 − σ(y))). -/
def siluPrime (y : FVal) : Ratio :=
  let (g, h, d) := sigmaParts y
  { num := fMul g (fAdd d (fMul y h)), den := fMul d d }

/-- Is a value above zero? -/
def FVal.pos (x : FVal) : Bool := match x with | .inf n => !n | .fin n m _ => !n && m != 0 | _ => false

/-! ### The epilogue -/

/-- The result of an epilogue that uses x alone. -/
def epiUnary (epi : Nat) (x : FVal) : Nat × Flags :=
  match x with
  | .nan sg => (fp32.nanBits, flagIf sg fNV)
  | .inf n =>
    let zero (n : Bool) : Nat := fp32.signBit n
    let one (n : Bool) : Nat := (fp32.round .rne 0 (.fin n 1 0)).1
    match epi with
    | 0x1 => (if n then zero false else fp32.infBits false, fNone)
    | 0x2 | 0x3 => (if n then zero true else fp32.infBits false, fNone)
    | 0x4 => (one n, fNone)
    | 0x5 => (if n then zero false else one false, fNone)
    | _ => (fp32.infBits n, fNone)
  | .fin n m e =>
    match epi with
    | 0x1 => fp32.round .rne 0 (if x.pos then x else .zero)
    | 0x2 => if m = 0 then (fp32.signBit n, fNone) else (timesSigma x (geluArg x)).round
    | 0x3 => if m = 0 then (fp32.signBit n, fNone) else (timesSigma x x).round
    | 0x4 => if m = 0 then (fp32.signBit n, fNone) else (tanhRatio x).round
    | 0x5 => (timesSigma fOne (.fin n m e)).round
    | _ => fp32.round .rne 0 x

/-- x times an exact factor, with the rules of R165: 0 × ∞ is the NaN with nv. -/
def epiTimes (x f : FVal) : Nat × Flags := finishF fp32 .rne 0 (mulF x f)

/-- x times a finite quotient. -/
def epiTimesRatio (x : FVal) (f : Ratio) : Nat × Flags :=
  match x with
  | .fin _ _ _ => Ratio.round { f with num := fMul x f.num }
  | _ =>
    match f.num with
    | .fin n m _ => epiTimes x (if m = 0 then .fin n 0 0 else .fin n 1 0)
    | y => epiTimes x y

/-- Is a factor's y infinite: 1 for +∞ and +0 for −∞ (07 Table 7-6)? -/
def infFactor (n : Bool) : FVal := if n then .zero else fOne

/-- `epilogue(x, y)` rounded into FP32 to nearest (06 R141, 07 R164, R165). -/
def epilogue (epi : Nat) (x y : FVal) : Nat × Flags :=
  if epi < 6 then epiUnary epi x
  else if x.isNan || y.isNan then (fp32.nanBits, flagIf (x.signalling || y.signalling) fNV)
  else
    match epi with
    | 0x6 => finishF fp32 .rne 0 (addF false x y)
    | 0x7 => epiTimes x y
    | 0x8 => epiTimes x (if y.pos then fOne else .zero)
    | 0x9 => match y with
      | .inf n => epiTimes x (infFactor n)
      | _ => epiTimesRatio x (geluPrime y)
    | 0xA => match y with
      | .inf n => epiTimes x (infFactor n)
      | _ => epiTimesRatio x (siluPrime y)
    | 0xB => epiTimes x (addF false fOne (fMul y y).neg).1
    | 0xC => epiTimes x (match y with
      | .inf _ => .inf true
      | _ => fMul y (fAdd fOne y.neg))
    | _ =>
      let s := addF false x y
      if s.1.isNan then (fp32.nanBits, s.2) else finishF fp32 .rne 0 (if s.1.pos then s.1 else .zero, s.2)

end Sys2Proof.Machine
end

