-- ==== Sys2Proof/Machine/MatrixCore.lean ====
section
/-! DEFINITION. The matrix unit's parts (06): tiles, stationary sets, streamer channels, the arithmetic of a slot, and the
resources that order queued operations. -/

namespace Sys2Proof.Machine

/-! ### Tiles (06 R138, R139) -/

/-- One 32-bit word of a tile. -/
def Core.accWord (c : Core) (tile r col : Nat) : Nat := (SMap.get 0 c.acc (tile * 1024 + r * 32 + col)).toNat

/-- The bits of element (r, col) of a tile that occupies `n` consecutive tiles, the base tile lowest. -/
def Core.tileBits (c : Core) (tile n r col : Nat) : Nat :=
  (List.range n).foldl (fun v i => v + c.accWord (tile + i) r col * 2 ^ (32 * i)) 0

def Core.tilePut (c : Core) (tile n r col v : Nat) : Core :=
  (List.range n).foldl (fun c i =>
    { c with acc := SMap.set 0 c.acc ((tile + i) * 1024 + r * 32 + col) (BitVec.ofNat 32 (v / 2 ^ (32 * i))) }) c

/-- Write +0 to tiles. -/
def Core.tileZero (c : Core) (tile n : Nat) : Core :=
  { c with acc := c.acc.filter (fun e => !(decide (tile ≤ e.1 / 1024) && decide (e.1 / 1024 < tile + n))) }

def Core.stat (c : Core) (tile : Nat) : Word := SMap.get 0 c.tstat tile
def Core.setStat (c : Core) (tile : Nat) (v : Word) : Core := { c with tstat := SMap.set 0 c.tstat tile v }

/-- OR flags into the sticky bits: all but dz and sat (06 Table 6-5). -/
def Core.orStat (c : Core) (tile : Nat) (f : Flags) : Core := c.setStat tile (c.stat tile ||| (f.setWidth 64 &&& 0x3D))

/-- Clear the sticky bits; amax stays. -/
def Core.clearSticky (c : Core) (tile : Nat) : Core := c.setStat tile (c.stat tile &&& 0xFFFFFFFF00000000)

/-- The component format of a tile format code: 0 FP32, 1 FP64, 2 F32P, 3 F64P. -/
def tfmtComp (tf : Nat) : Fmt := if tf = 1 || tf = 3 then fp64 else fp32

def tfmtPair (tf : Nat) : Bool := decide (2 ≤ tf)

/-- The exact value of tile bits: a pair gives s + e (06 R141), whose exact zero takes the sign of the rounding mode (03 R56). -/
def tileValue (rdn : Bool) (tf bits : Nat) : FVal × Flags :=
  let f := tfmtComp tf
  if tfmtPair tf then (Pair.ofBits f (bits % 2 ^ f.width) (bits / 2 ^ f.width)).value rdn else (f.decode bits, fNone)

/-- The bits of a pair in its component format, s in the lower half. -/
def pairBits (f : Fmt) (p : Pair) : Nat := (p.bits f).1 + (p.bits f).2 * 2 ^ f.width

/-! ### Exact sums (06 R131, 03 R56, R57) -/

/-- One exact sum of several terms: opposite infinities give the NaN with nv, also beside a quiet NaN; a NaN term gives the NaN; a zero
sum is −0 only when every term is −0. -/
def exactSum (l : List (FVal × Flags)) : FVal × Flags :=
  let fl := l.foldl (fun f x => f ||| x.2 ||| flagIf x.1.signalling fNV) fNone
  let pinf := l.any (fun x => x.1 == .inf false)
  let ninf := l.any (fun x => x.1 == .inf true)
  if pinf && ninf then (.nan false, fl ||| fNV)
  else if l.any (fun x => x.1.isNan) then (.nan false, fl)
  else if pinf || ninf then (.inf ninf, fl)
  else
    let v := l.foldl (fun s x => (addF false s x.1).1) (.fin true 0 0)
    match v with
    | .fin n 0 e => (.fin (n && l.all (fun x => x.1.isNeg)) 0 e, fl)
    | v => (v, fl)

/-! ### The modes (06 Table 6-1, 03 R84) -/

/-- A matrix mode: operand format, chunk length, passes, tile format. -/
structure MMode where
  fmt : Fmt
  code : Nat
  chunk : Nat
  passes : Nat
  tf : Nat

def mmaMode (minor : Nat) : MMode :=
  match minor with
  | 0 => { fmt := bf16, code := 2, chunk := 32, passes := 1, tf := 0 }
  | 1 => { fmt := fp16, code := 3, chunk := 32, passes := 1, tf := 0 }
  | 2 => { fmt := fp32, code := 1, chunk := 8, passes := 1, tf := 0 }
  | 3 => { fmt := fp64, code := 0, chunk := 2, passes := 1, tf := 1 }
  | 4 => { fmt := fp64, code := 0, chunk := 1, passes := 1, tf := 3 }
  | 5 => { fmt := fp32, code := 1, chunk := 4, passes := 1, tf := 2 }
  | 6 => { fmt := fp32, code := 1, chunk := 32, passes := 3, tf := 0 }
  | _ => { fmt := fp32, code := 1, chunk := 32, passes := 6, tf := 0 }

/-- The piece numbers of A and B in pass p. -/
def splitPass (passes p : Nat) : Nat × Nat :=
  if passes = 3 then [(1, 0), (0, 1), (0, 0)].getD p (0, 0)
  else [(2, 0), (1, 1), (0, 2), (1, 0), (0, 1), (0, 0)].getD p (0, 0)

def pieceOf (x i : Nat) : FVal × Flags :=
  let (h0, h1, h2, f) := splitPieces x
  (bf16.decode (if i = 0 then h0 else if i = 1 then h1 else h2), f)

/-- A product of split pieces: outside the pass a0·b0, zero times infinity is +0 without a flag (03 R85). -/
def pieceProduct (lastPass : Bool) (a b : FVal × Flags) : FVal × Flags :=
  if !lastPass && ((a.1.isZero && b.1.isInf) || (a.1.isInf && b.1.isZero)) then (.zero, a.2 ||| b.2)
  else
    let (p, f) := mulF a.1 b.1
    (p, f ||| a.2 ||| b.2)

/-- The new bits of one element after a slot: `old` its bits, `a` the lane's chunk, `b` the streamed chunk (06 R131). -/
def slotElem (md : MMode) (p old : Nat) (a b : List Nat) : Nat × Flags :=
  let f := tfmtComp md.tf
  if tfmtPair md.tf then
    let r := (a.zip b).foldl (fun (r : Pair × Flags) x =>
        let (q, g, _) := twoProd f (md.fmt.decode x.1) (md.fmt.decode x.2)
        let (s, h) := pairAdd f r.1 q
        (s, r.2 ||| g ||| h))
      (Pair.ofBits f (old % 2 ^ f.width) (old / 2 ^ f.width), fNone)
    (pairBits f r.1, r.2)
  else
    let terms := (a.zip b).map (fun x =>
      if md.passes = 1 then mulF (md.fmt.decode x.1) (md.fmt.decode x.2)
      else
        let (i, j) := splitPass md.passes p
        pieceProduct (p + 1 == md.passes) (pieceOf x.1 i) (pieceOf x.2 j))
    finishF f .rne 0 (exactSum ((f.decode old, fNone) :: terms))

/-! ### Stationary sets (06 R134) -/

/-- Element κ of lane r in the active set, at the operand width. -/
def Core.setElem (c : Core) (bytes r kap : Nat) : Nat :=
  let s := if c.active then c.set1 else c.set0
  Memory.read s (r * 256 + kap * bytes) bytes

/-- Write the inactive set. -/
def Core.setPut (c : Core) (bytes r kap v : Nat) : Core :=
  if c.active then { c with set0 := Memory.write c.set0 (r * 256 + kap * bytes) bytes v }
  else { c with set1 := Memory.write c.set1 (r * 256 + kap * bytes) bytes v }

/-! ### Channels (06 R145-R148) -/

def Core.chan (c : Core) (i : Nat) : Chan := SMap.get Chan.empty c.chans i
def Core.setChan (c : Core) (i : Nat) (x : Chan) : Core := { c with chans := SMap.set Chan.empty c.chans i x }

def Chan.w (c : Chan) (i : Nat) : Nat := (c.words.getD i 0).toNat
def Chan.conv (c : Chan) : Bool := c.w 3 / 2 ^ 60 == 1
def Chan.src (c : Chan) : Nat := c.w 3 / 2 ^ 56 % 16
def Chan.fmt (c : Chan) : Fmt := FCode.fmt (FCode.ofCode c.src)
def Chan.bytes (c : Chan) : Nat := c.fmt.width / 8
def Chan.strideK (c : Chan) : Int := intOf true 32 (c.w 1 / 2 ^ 32)
def Chan.strideN (c : Chan) : Int := intOf true 32 (c.w 1)
def Chan.scale (c : Chan) : Int := intOf true 8 (c.w 3 / 2 ^ 48)
/-- A byte of word 5: kh, kw, sh, sw, dh, dw, pt, pl from 0. -/
def Chan.kern (c : Chan) (i : Nat) : Nat := c.w 5 / 2 ^ (56 - 8 * i) % 256

/-- Is a channel valid (06 R148)? A field that Table 6-7 says is zero for the channel's kind counts as reserved (DEDUCED, log 78). -/
def Chan.valid (c : Chan) : Bool :=
  let es := c.bytes
  c.configured && decide (c.w 3 / 2 ^ 60 ≤ 1) && decide (c.src ≤ 5) && c.w 0 / 2 ^ 48 == 0 && c.w 3 % 2 ^ 48 == 0 &&
  c.w 6 % 2 ^ 32 == 0 && c.w 7 == 0 && c.w 0 % es == 0 &&
  (if c.conv then
    c.w 1 == 0 && (List.range 6).all (fun i => c.kern i != 0) && c.w 4 / 2 ^ 32 % 2 ^ 16 != 0 && c.w 6 / 2 ^ 48 != 0 &&
    c.w 6 / 2 ^ 32 % 2 ^ 16 != 0 && decide (c.w 4 / 2 ^ 48 ≤ c.w 4 / 2 ^ 32 % 2 ^ 16)
   else c.w 4 == 0 && c.w 5 == 0 && c.w 6 == 0 && c.strideK % es == 0 && c.strideN % es == 0)

/-- Does a source format widen to an operand format (06 R147)? Codes 0 FP64, 1 FP32, 2 BF16, 3 FP16. -/
def widens (of src : Nat) : Bool := of == src || convExact (FCode.ofCode of) (FCode.ofCode src)

/-- A 64-bit address. -/
def addr64 (x : Int) : Nat := (x % (2 ^ 64 : Nat)).toNat

/-- The address of B[κ][col]; none for an element that reads +0 without an access (06 R146). -/
def Chan.addr (c : Chan) (kap col : Nat) : Option Nat :=
  let base : Int := (c.w 0 % 2 ^ 48 : Nat)
  if c.w 2 / 2 ^ 32 ≤ kap || c.w 2 % 2 ^ 32 ≤ col then none
  else if !c.conv then some (addr64 (base + kap * c.strideK + col * c.strideN))
  else
    let ch : Nat := c.w 4 / 2 ^ 48
    let cs : Nat := c.w 4 / 2 ^ 32 % 2 ^ 16
    let ih : Nat := c.w 4 / 2 ^ 16 % 2 ^ 16
    let iw : Nat := c.w 4 % 2 ^ 16
    let oh : Nat := c.w 6 / 2 ^ 48
    let ow : Nat := c.w 6 / 2 ^ 32 % 2 ^ 16
    let cc : Nat := kap % cs
    let t : Nat := kap / cs
    let s : Nat := t % c.kern 1
    let r : Nat := t / c.kern 1
    let x : Nat := col % ow
    let y : Nat := col / ow % oh
    let n : Nat := col / ow / oh
    let hy : Int := (y * c.kern 2 + r * c.kern 4 : Nat) - (c.kern 6 : Int)
    let wx : Int := (x * c.kern 3 + s * c.kern 5 : Nat) - (c.kern 7 : Int)
    if ch ≤ cc || hy < 0 || (ih : Int) ≤ hy || wx < 0 || (iw : Int) ≤ wx then none
    else some (addr64 (base + (((((n * ih : Nat) : Int) + hy) * (iw : Int) + wx) * (ch : Int) + (cc : Int)) * (c.bytes : Int)))

/-- A loaded element in the operand format: × 2⁻ᵏ, rounded when it leaves the format's range (06 R147). -/
def Chan.widen (c : Chan) (of x : Nat) : Nat × Flags :=
  if of = c.src && c.scale = 0 then (x, fNone)
  else (FCode.fmt (FCode.ofCode of)).round .rne 0 ((c.fmt.decode x).scale (-c.scale))

/-! ### Memory accesses of an operation (06 R153-R155) -/

/-- Translate every address of an operation: the first failure, if any (06 R154). -/
def Module.mCheck (m : Module) (k n : Nat) (acc : Access) : List Nat → Module × Option (Nat × Nat)
  | [] => (m, none)
  | a :: rest =>
    match m.thXlat k a acc with
    | (m1, .fault c) => (m1, some (c, a))
    | (m1, _) =>
      match m1.thXlat k (a + n - 1) acc with
      | (m2, .fault c) => (m2, some (c, a + n - 1))
      | (m2, _) => Module.mCheck m2 k n acc rest

/-- The pieces of an element: their places, their pages' classes and their sizes; none when the access of one is denied, since the element
is then a violation as a whole (06 R155). -/
def Module.mPieces (m : Module) (k : Nat) (acc : Access) (a n : Nat) : Option (List (Place × Bool × Nat)) :=
  (pieces a n).foldr (fun q r =>
    match (m.thXlat k q.1 acc).2, r with
    | .ok p lc, some l => some ((p, lc, q.2) :: l)
    | _, _ => none) (some [])

/-- Does an access wait for a held channel? -/
def Module.mHeld (m : Module) (k : Nat) (acc : Access) (n : Nat) (l : List Nat) : Bool :=
  l.any (fun a => ((m.mPieces k acc a n).getD []).any (fun x => m.mustWait x.1))

/-- The elements whose access is denied. -/
def Module.mDenied (m : Module) (k : Nat) (acc : Access) (n : Nat) (l : List Nat) : List Nat :=
  l.filter (fun a => (m.mPieces k acc a n).isNone)

/-- What a read of `n` bytes gives: the value, zero where denied (06 R155), and whether a sector is poisoned. -/
def Module.mRead (m : Module) (k a n : Nat) : Nat × Bool :=
  ((m.mPieces k .load a n).getD []).foldr (fun x (r : Nat × Bool) =>
    (m.readPlace x.1 x.2.2 + 2 ^ (8 * x.2.2) * r.1, r.2 || m.badPlace x.1 x.2.2)) (0, false)

/-- The writes of an element's low `n` bytes, none where denied. -/
def Module.mPuts (m : Module) (k a n v : Nat) : List (Place × Nat × Nat) :=
  (((m.mPieces k .store a n).getD []).foldl (fun (r : List (Place × Nat × Nat) × Nat) x =>
    (r.1 ++ [(x.1, x.2.2, r.2)], r.2 / 2 ^ (8 * x.2.2))) ([], v)).1

/-- Store elements in order, each an address, a size and a value, with one request for each sector (05 R126). -/
def Module.mWrite (m : Module) (k : Nat) (l : List (Nat × Nat × Nat)) : Module :=
  m.putPieces (m.who k false) (l.flatMap (fun x => m.mPuts k x.1 x.2.1 x.2.2))

/-- Count one lookup for each sector of a list of reads. -/
def Module.mTouch (m : Module) (k n : Nat) (l : List Nat) : Module :=
  ((l.flatMap (fun a => (m.mPieces k .load a n).getD [])).foldl (fun (r : Module × List Nat) x =>
    let q := x.1.request r.2
    (r.1.askPiece (r.1.who k x.2.1) x.1 x.2.2 false q.1 false, q.2)) (m, [])).1

/-- One streamed element in the operand format: +0 without an access, the NaN with nv from a poisoned sector (12 R291). -/
def Module.streamElem (m : Module) (k : Nat) (c : Chan) (of : Nat) (a : Option Nat) : Nat × Flags :=
  match a with
  | none => (0, fNone)
  | some a =>
    let r := m.mRead k a c.bytes
    if r.2 then ((FCode.fmt (FCode.ofCode of)).nanBits, fNV) else c.widen of r.1

/-! ### The queue (06 R150-R152) -/

def Core.modOp (c : Core) (id : Nat) (f : MOp → MOp) : Core :=
  { c with mq := c.mq.map (fun o => if o.id = id then f o else o) }

def Module.modOp (m : Module) (core id : Nat) (f : MOp → MOp) : Module := m.setCore core ((m.core core).modOp id f)

/-- Does an operation run on the lane path: mma and the Q class? -/
def MOp.lane (o : MOp) : Bool := Word.major o.word == 0x21 || decide (0x28 ≤ Word.major o.word)

/-- Does a lane operation have one slot per chunk and column: mma and q.schur? -/
def MOp.slotted (o : MOp) : Bool := Word.major o.word == 0x21 || Word.major o.word == 0x2A

/-- The mode of a slotted operation: q.schur uses the order and rounding of mma.f64 or mma.f64.p (09 Table 9-8). -/
def MOp.mode (o : MOp) : MMode :=
  mmaMode (if Word.major o.word = 0x2A then (if Word.minor o.word = 0 then 3 else 4) else Word.minor o.word)

def MOp.n (o : MOp) : Nat := if Word.major o.word = 0x21 then Word.slice o.word 16 12 + 1 else 32
def MOp.k0 (o : MOp) : Nat := if Word.major o.word = 0x21 then Word.slice o.word 11 7 else 0
def MOp.kc (o : MOp) : Nat :=
  if Word.major o.word = 0x21 then Word.slice o.word 6 2 + 1 else 32 / o.mode.chunk

/-- Slots of an operation: an operation of the Q class other than q.schur enters as one. -/
def MOp.total (o : MOp) : Nat := if o.slotted then o.mode.passes * o.kc * o.n else 1

/-- The tiles that a lane operation updates. -/
def MOp.laneTiles (o : MOp) : Nat :=
  if o.slotted then tfmtTiles o.mode.tf
  else if Word.major o.word = 0x28 && Word.minor o.word = 1 then 4 else 2

def span (t n : Nat) : List Nat := (List.range n).map (fun i => t + i)

/-- Resource numbers beyond the tiles: the active set, the inactive set, channel i, and the memory of Householder panels. -/
def resActive : Nat := 32
def resInactive : Nat := 33
def resChan (i : Nat) : Nat := 34 + i
def resPanel : Nat := 40

/-- The resources that an operation reads, beside those it writes. -/
def MOp.reads (o : MOp) : List Nat :=
  let d := Word.rd o.word
  let a := Word.ra o.word
  match Word.major o.word with
  | 0x20 => if Word.minor o.word = 0 then [resChan a] else []
  | 0x21 => [resActive, resChan a]
  | 0x23 => match Word.minor o.word with
    | 2 => span d (tfmtTiles (Word.slice o.word 12 11)) ++
        (if epiUsesY (Word.slice o.word 10 7) then [resChan (Word.slice o.word 6 5)] else [])
    | 3 => [a]
    | _ => []
  | 0x29 => span a 2
  | 0x2A => span a 2 ++ span (Word.rb o.word) 2
  | 0x2B => [resPanel]
  | _ => []

/-- The resources that an operation writes. -/
def MOp.writes (o : MOp) : List Nat :=
  let d := Word.rd o.word
  let a := Word.ra o.word
  match Word.major o.word with
  | 0x20 => if Word.minor o.word = 0 then resInactive :: (if Word.slice o.word 0 0 = 1 then [resChan a] else [])
            else [resActive, resInactive]
  | 0x21 => span d o.laneTiles ++ (if Word.slice o.word 0 0 = 1 then [resChan a] else [])
  | 0x22 => [resChan d]
  | 0x23 => match Word.minor o.word with
    | 0 | 1 => span d (tfmtTiles (Word.slice o.word 12 11))
    | 2 => if Word.slice o.word 4 4 = 1 then span d (tfmtTiles (Word.slice o.word 12 11)) else []
    | _ => []
  | 0x28 | 0x29 | 0x2A => span d o.laneTiles
  | 0x2B => resPanel :: (if Word.minor o.word = 0 then span d 2 else [])
  | _ => []

/-- The path of an operation: 0 lane, 1 load, 2 drain, 3 none (06 R150). -/
def MOp.path (o : MOp) : Nat :=
  if o.lane then 0
  else match Word.major o.word, Word.minor o.word with
    | 0x20, 0 => 1
    | 0x22, 0 => 1
    | 0x23, 1 => 1
    | 0x23, _ => 2
    | _, _ => 3

/-- Has an operation read what it reads: all its slots have entered? -/
def MOp.readDone (o : MOp) : Bool := o.done || (o.slotted && o.slots == o.total)

/-- Has an operation completed its effect on a resource? -/
def MOp.writeDone (o : MOp) (r : Nat) : Bool := o.done || (decide (resChan 0 ≤ r) && decide (r < resPanel) && o.readDone)

/-- May `x` start although `o` was issued before it (06 R151, R154)? Slots on one element are spaced by the latency rule
instead (06 R137). -/
def startAfter (x o : MOp) : Bool :=
  let both := x.slotted && o.slotted
  !o.blocked && (x.path != o.path || x.path == 3 || x.path == 0 || o.done) &&
  (x.reads ++ x.writes).all (fun r =>
    !o.writes.contains r || o.writeDone r || (both && decide (r < 32) && x.writes.contains r)) &&
  x.writes.all (fun r => !o.reads.contains r || o.readDone)

/-- The operations before `x` in the queue. -/
def Core.before (c : Core) (x : MOp) : List MOp := c.mq.takeWhile (fun o => o.id != x.id)

def Core.canStart (c : Core) (x : MOp) : Bool := (c.before x).all (startAfter x)

/-- The thread of an operation. -/
def MOp.key (o : MOp) (core : Nat) : Nat := core * 8 + o.thread

/-- A translation fault of an operation: it and every later one wait, the thread stops before its next issue, and the record
names the operation's instruction (06 R154). -/
def Module.mBlock (m : Module) (core : Nat) (o : MOp) (cause va : Nat) : Module :=
  let k := o.key core
  let t := m.th k
  let m1 := (m.modOp core o.id (fun o => { o with blocked := true })).setTh k { t with run := .stopped }
  (m1.threadRecord k (mkRecord va cause t.ctx core o.thread 0 o.ip.toNat 0)).countPart k 0x0A 1

/-- An operation is done with flags. -/
def Module.mDone (m : Module) (core : Nat) (o : MOp) (f : Flags) : Module :=
  m.modOp core o.id (fun o => { o with done := true, flags := o.flags ||| f })

/-- Does a walk of an operation wait for a held channel? -/
def Module.mWalksHeld (m : Module) (k : Nat) (l : List Nat) : Bool := l.any (m.walkHeld k)

/-- Check an operation's reads and writes, then run it: none when it waits for a held channel. Its denied elements are counted, and the last
of them, reads before writes, is the one logged (06 R155; DESIGN CHOICE, log 78). -/
def Module.mStart (m : Module) (core : Nat) (o : MOp) (reads : List Nat) (rn : Nat) (writes : List Nat) (wn : Nat)
    (body : Module → Module) : Option Module :=
  let k := o.key core
  if m.mWalksHeld k (reads ++ writes) then none
  else match m.mCheck k rn .load reads with
  | (m1, some (c, a)) => some (m1.mBlock core o c a)
  | (m1, none) =>
    match m1.mCheck k wn .store writes with
    | (m2, some (c, a)) => some (m2.mBlock core o c a)
    | (m2, none) =>
      if m2.mHeld k .load rn reads || m2.mHeld k .store wn writes then none
      else
        let v := m2.mDenied k .load rn reads ++ m2.mDenied k .store wn writes
        some (body ((m2.thViol k (v.getLast?.getD 0) v.length).mTouch k rn reads))

/-- The scalar register of an operation receives its value when it executes; without one (d = s0) nothing does (04 R90). -/
def Module.mDeliver (m : Module) (core : Nat) (o : MOp) (got : List Got) : Module :=
  match o.dst with
  | some id => m.modOutst (o.key core) id (fun x => { x with got := got, left := 0 })
  | none => m

/-- An operation that reads an invalid channel or one whose source does not widen (06 R148): nv is set in the tile's status, also by a drain
with ns = 1 (DESIGN CHOICE between R148 and R141, log 68). The violation is logged at the operation's instruction (DESIGN CHOICE, log 78). -/
def Module.mInvalid (m : Module) (core : Nat) (o : MOp) (tile : Option Nat) : Module :=
  let k := o.key core
  let m1 := match tile with
    | some t => m.setCore core ((m.core core).orStat t fNV)
    | none => m
  (m1.mDone core o fNV).thViol k o.ip.toNat 1

end Sys2Proof.Machine
end

