-- ==== Sys2Proof/Machine/QNum.lean ====
section
/-! DEFINITION. The arithmetic of the Q class and of the solver's dense factorizations (09 R205-R207, R215, R216): Cholesky and
triangular solves on 32×32 tiles in FP64 and pairs, Householder panels. Matrices are lists of lists of FP64 bits. -/

namespace Sys2Proof.Machine

/-- A value with the flags raised so far. -/
abbrev FN (α : Type) := α × Flags

def bits64 (x : FVal) : Nat := (fp64.round .rne 0 x).1
def val64 (b : Nat) : FVal := fp64.decode b

/-- The sign of FP64 bits changed. -/
def neg64 (b : Nat) : Nat := Nat.xor b (2 ^ 63)

def fma64 (a b c : Nat) : FN Nat := fArith fp64 .fma .rne 0 a b c
def sub64 (a b : Nat) : FN Nat := fArith fp64 .sub .rne 0 a b 0
def add64 (a b : Nat) : FN Nat := fArith fp64 .add .rne 0 a b 0
def mul64 (a b : Nat) : FN Nat := fArith fp64 .mul .rne 0 a b 0

/-- The quotient of two exact values rounded once into FP64; a signalling NaN sets nv (03 R57). -/
def divV (x y : FVal) : FN Nat :=
  match x, y with
  | .fin n1 m1 e1, .fin n2 m2 e2 =>
    if m1 = 0 || m2 = 0 then fDiv fp64 .rne (fp64.signBit n1 + (if m1 = 0 then 0 else 1)) (fp64.signBit n2 + (if m2 = 0 then 0 else 1))
    else
      let q := divMag (fp64.fbits + 4) m1 e1 m2 e2
      fp64.roundFin .rne 0 (n1 != n2) q.1 q.2.1 q.2.2
  | x, y =>
    let r := fDiv fp64 .rne (bits64 x) (bits64 y)
    (r.1, r.2 ||| flagIf (x.signalling || y.signalling) fNV)

/-- The square root of an exact value rounded once into FP64. -/
def sqrtV (x : FVal) : FN Nat :=
  match x with
  | .fin n m e =>
    if m = 0 then (fp64.signBit n, fNone)
    else if n then (fp64.nanBits, fNV)
    else
      let q := sqrtMag (fp64.fbits + 4) m e
      fp64.roundFin .rne 0 false q.1 q.2.1 q.2.2
  | x => fSqrt fp64 .rne (bits64 x)

/-- x ≥ f; false when either is NaN. -/
def geF (x f : FVal) : Bool := match cmpF x f with | some .lt => false | none => false | _ => true

/-- The floor of a Cholesky factorization: an f that is not positive and finite is replaced by 2⁻¹⁰²² (09 R215). -/
def floorOf (f : Nat) : Nat :=
  match val64 f with
  | .fin false (_ + 1) _ => f
  | _ => 2 ^ 52

def at2 (a : List (List Nat)) (i j : Nat) : Nat := (a.getD i []).getD j 0

/-! ### Cholesky (09 R215) -/

/-- A pivot before its square root: the value, floored, and whether it was floored. -/
def pivot (f : Nat) (p : FVal) : FVal × Nat := if geF p (val64 f) then (p, 0) else (val64 f, 1)

/-- One row of L in the plain form: entries 0 to i − 1 by forward substitution against the rows above, then the diagonal. The
order over k for each entry is that of R215. -/
def cholRow (f : Nat) (a : List Nat) (rows : List (List Nat)) (i : Nat) : FN (List Nat) × Nat :=
  let below := (List.range i).foldl (fun (r : FN (List Nat)) j =>
      let lj := rows.getD j []
      let q := (List.range j).foldl (fun (q : FN Nat) k =>
          let s := fma64 (neg64 (r.1.getD k 0)) (lj.getD k 0) q.1
          (s.1, q.2 ||| s.2)) (a.getD j 0, fNone)
      let d := divV (val64 q.1) (val64 (lj.getD j 0))
      (r.1 ++ [d.1], r.2 ||| q.2 ||| d.2)) ([], fNone)
  let p := (List.range i).foldl (fun (q : FN Nat) k =>
      let l := below.1.getD k 0
      let s := fma64 (neg64 l) l q.1
      (s.1, q.2 ||| s.2)) (a.getD i 0, fNone)
  let v := pivot f (val64 p.1)
  let d := sqrtV v.1
  ((below.1 ++ [d.1], below.2 ||| p.2 ||| d.2), v.2)

/-- The pair form of a row: p and q are pairs updated by pair_add with the negated two_prod; square root and division round once
from the exact pair value; the comparison uses the rounded s, and a pivot whose parts are opposite infinities is read as a NaN with nv
(03 R77). -/
def cholRowP (f : Nat) (a : List Nat) (rows : List (List Nat)) (i : Nat) : FN (List Nat) × Nat :=
  let pairAt (j : Nat) : Pair := Pair.ofBits fp64 (a.getD j 0 % 2 ^ 64) (a.getD j 0 / 2 ^ 64)
  let sub (q : FN Pair) (x y : Nat) : FN Pair :=
    let (t, g, _) := twoProd fp64 (val64 (neg64 x)) (val64 y)
    let (s, h) := pairAdd fp64 q.1 t
    (s, q.2 ||| g ||| h)
  let below := (List.range i).foldl (fun (r : FN (List Nat)) j =>
      let lj := rows.getD j []
      let q := (List.range j).foldl (fun q k => sub q (r.1.getD k 0) (lj.getD k 0)) (pairAt j, fNone)
      let v := q.1.value false
      let d := divV v.1 (val64 (lj.getD j 0))
      (r.1 ++ [d.1], r.2 ||| q.2 ||| v.2 ||| d.2)) ([], fNone)
  let p := (List.range i).foldl (fun q k => sub q (below.1.getD k 0) (below.1.getD k 0)) (pairAt i, fNone)
  let x := p.1.value false
  let v := if geF (rndC fp64 x.1).1 (val64 f) then (x.1, 0) else (val64 f, 1)
  let d := sqrtV v.1
  ((below.1 ++ [d.1], below.2 ||| p.2 ||| x.2 ||| d.2), v.2)

/-- Cholesky of an n × n matrix, row by row: every entry has the operations and the order of R215. The rows of L (lower part),
the flags and the floored count. -/
def cholesky (pair : Bool) (f : Nat) (a : List (List Nat)) (n : Nat) : FN (List (List Nat)) × Nat :=
  (List.range n).foldl (fun (r : FN (List (List Nat)) × Nat) i =>
    let x := if pair then cholRowP f (a.getD i []) r.1.1 i else cholRow f (a.getD i []) r.1.1 i
    ((r.1.1 ++ [x.1.1], r.1.2 ||| x.1.2), r.2 + x.2)) (([], fNone), 0)

/-! ### Triangular solves (09 Table 9-8) -/

/-- x := L⁻¹ b: ascending, one fma per term, one division. -/
def solveLn (l : List (List Nat)) (b : List Nat) : FN (List Nat) :=
  (List.range b.length).foldl (fun (r : FN (List Nat)) i =>
    let q := (List.range i).foldl (fun (q : FN Nat) k =>
        let s := fma64 (neg64 (at2 l i k)) (r.1.getD k 0) q.1
        (s.1, q.2 ||| s.2)) (b.getD i 0, fNone)
    let d := divV (val64 q.1) (val64 (at2 l i i))
    (r.1 ++ [d.1], r.2 ||| q.2 ||| d.2)) ([], fNone)

/-- x := L⁻ᵀ b: descending, with the terms of each element in descending order. -/
def solveLt (l : List (List Nat)) (b : List Nat) : FN (List Nat) :=
  let n := b.length
  (List.range n).foldl (fun (r : FN (List Nat)) t =>
    let i := n - 1 - t
    let q := (List.range t).foldl (fun (q : FN Nat) u =>
        let k := n - 1 - u
        let s := fma64 (neg64 (at2 l k i)) (r.1.getD (t - 1 - u) 0) q.1
        (s.1, q.2 ||| s.2)) (b.getD i 0, fNone)
    let d := divV (val64 q.1) (val64 (at2 l i i))
    (d.1 :: r.1, r.2 ||| q.2 ||| d.2)) ([], fNone)

def transpose (n : Nat) (a : List (List Nat)) : List (List Nat) :=
  (List.range n).map (fun j => a.map (fun row => row.getD j 0))

/-- Apply a solve to every row. -/
def solveRows (f : List Nat → FN (List Nat)) (rows : List (List Nat)) : FN (List (List Nat)) :=
  rows.foldl (fun (r : FN (List (List Nat))) b =>
    let x := f b
    (r.1 ++ [x.1], r.2 ||| x.2)) ([], fNone)

/-- The three q.trsm forms: B := L⁻¹ B, L⁻ᵀ B (by columns), B L⁻ᵀ (by rows, as L x = b for each row). -/
def trsm (minor : Nat) (l b : List (List Nat)) (n : Nat) : FN (List (List Nat)) :=
  match minor with
  | 0 => let r := solveRows (solveLn l) (transpose n b); (transpose n r.1, r.2)
  | 1 => let r := solveRows (solveLt l) (transpose n b); (transpose n r.1, r.2)
  | _ => solveRows (solveLn l) b

/-! ### Householder panels (09 R216): a panel is a list of 32 columns of m values -/

/-- An exact sum of products plus a start value, rounded once. -/
def dotRound (start : Nat) (xs ys : List Nat) : FN Nat :=
  finishF fp64 .rne 0 (exactSum ((val64 start, fNone) :: (xs.zip ys).map (fun p => mulF (val64 p.1) (val64 p.2))))

/-- Update a column by the reflector of column j, rows from j on: t = tau × w. -/
def reflect (j tau : Nat) (vj col : List Nat) : FN (List Nat) :=
  let top := col.getD j 0
  let v := vj.drop (j + 1)
  let rest := col.drop (j + 1)
  let w := dotRound top v rest
  let t := mul64 tau w.1
  let d := sub64 top t.1
  let r := (v.zip rest).foldl (fun (r : FN (List Nat)) p =>
      let s := fma64 (neg64 t.1) p.1 p.2
      (r.1 ++ [s.1], r.2 ||| s.2)) ([], fNone)
  (col.take j ++ d.1 :: r.1, w.2 ||| t.2 ||| d.2 ||| r.2)

/-- −copysign(x, a). -/
def negCopysign (x a : Nat) : Nat := x % 2 ^ 63 + (if a / 2 ^ 63 % 2 = 1 then 0 else 2 ^ 63)

/-- What a panel holds while it is reduced. -/
structure Panel where
  cols : List (List Nat)
  diag : List Nat
  tau : List Nat
  cnt : Nat
  flags : Flags

/-- Column j of a panel reduction with floor f. -/
def hhStep (f : Nat) (p : Panel) (j : Nat) : Panel :=
  let c := p.cols.getD j []
  let tail := c.drop j
  let sq := finishF fp64 .rne 0 (exactSum (tail.map (fun x => mulF (val64 x) (val64 x))))
  let nrm := fSqrt fp64 .rne sq.1
  let a := c.getD j 0
  let fl := p.flags ||| sq.2 ||| nrm.2
  if !geF (val64 nrm.1) (val64 f) then
    { p with diag := p.diag ++ [negCopysign f a], tau := p.tau ++ [0], cnt := p.cnt + 1, flags := fl }
  else
    let beta := negCopysign nrm.1 a
    let n := sub64 beta a
    let tau := fDiv fp64 .rne n.1 beta
    let s := sub64 a beta
    let v := (c.drop (j + 1)).foldl (fun (r : FN (List Nat)) x =>
        let d := fDiv fp64 .rne x s.1
        (r.1 ++ [d.1], r.2 ||| d.2)) ([], fNone)
    let cj := c.take (j + 1) ++ v.1
    let r := p.cols.zipIdx.foldl (fun (r : FN (List (List Nat))) x =>
        if x.2 < j then (r.1 ++ [x.1], r.2)
        else if x.2 = j then (r.1 ++ [cj], r.2)
        else
          let y := reflect j tau.1 cj x.1
          (r.1 ++ [y.1], r.2 ||| y.2)) ([], fNone)
    { cols := r.1, diag := p.diag ++ [beta], tau := p.tau ++ [tau.1], cnt := p.cnt,
      flags := fl ||| n.2 ||| tau.2 ||| s.2 ||| v.2 ||| r.2 }

/-- Reduce a panel. -/
def hhPanel (f : Nat) (cols : List (List Nat)) : Panel :=
  (List.range cols.length).foldl (hhStep f) { cols := cols, diag := [], tau := [], cnt := 0, flags := fNone }

/-- Apply the reflectors of a panel, in ascending order, to one column. -/
def hhApply (cols : List (List Nat)) (tau : List Nat) (col : List Nat) : FN (List Nat) :=
  (List.range cols.length).foldl (fun (r : FN (List Nat)) j =>
    let x := reflect j (tau.getD j 0) (cols.getD j []) r.1
    (x.1, r.2 ||| x.2)) (col, fNone)

end Sys2Proof.Machine
end

