-- ==== Sys2Proof/Machine/SolverNum.lean ====
section
/-! DEFINITION. The arithmetic of the least-squares iteration (09 R201-R210, R215, R216; 10 R231): normal equations, damping,
floors, factorizations panel by panel, and solves. A pair entry is one number: s + e × 2⁶⁴. -/

namespace Sys2Proof.Machine

/-! ### Pairs as numbers -/

def unpackPair (v : Nat) : Pair := Pair.ofBits fp64 (v % 2 ^ 64) (v / 2 ^ 64)

/-- A matrix entry rounded to FP64: the value of a pair, rounded once (06 R141). -/
def entry64 (pair : Bool) (v : Nat) : Nat := if pair then bits64 ((unpackPair v).value false).1 else v

/-- The part of an entry that a floor looks at: s of a pair (09 R206). -/
def entryS (v : Nat) : Nat := v % 2 ^ 64

/-! ### Costs (09 R201) -/

/-- sumsq(r): two_prod and pair_add in ascending order, rounded once. -/
def sumsq (r : List Nat) : Nat :=
  let p := r.foldl (fun (p : Pair) x => (pairAdd fp64 p (twoProd fp64 (val64 x) (val64 x)).1).1) { s := .zero, e := .zero }
  bits64 (p.value false).1

def isFin64 (b : Nat) : Bool := (val64 b).isFin

def below64 (x y : Nat) : Bool := cmpF (val64 x) (val64 y) == some .lt

/-! ### Formation (09 R204, R205) -/

/-- One chunk of an mma.f64 or mma.f64.p pass on one element (06 R131). -/
def chunkAcc (pair : Bool) (old : Nat) (a b : List Nat) : Nat := (slotElem (mmaMode (if pair then 4 else 3)) 0 old a b).1

/-- All chunks of a list of products: two terms at a time in FP64, one in pair form. `fuel` bounds the list. -/
def chunksAcc (pair : Bool) (old : Nat) (a b : List Nat) : Nat → Nat
  | 0 => old
  | fuel + 1 =>
    if a.isEmpty then old
    else
      let n := if pair then 1 else 2
      chunksAcc pair (chunkAcc pair old (a.take n) (b.take n)) (a.drop n) (b.drop n) fuel

/-- Addition of two partial sums: FP64 addition or pair_add (09 R204). -/
def addParts (pair : Bool) (x y : Nat) : Nat :=
  if pair then pairBits fp64 (pairAdd fp64 (unpackPair x) (unpackPair y)).1 else (add64 x y).1

/-- One entry of a dense formation: blocks of 32 rows in item order, one partial sum for each core, combined in ascending core
order (09 R204). `t` numbers the tile pair, `nb` the blocks, `qi` the items of a core. -/
def denseEntry (pair : Bool) (t nb qi : Nat) (ca cb : List Nat) : Nat :=
  let step (r : List (Nat × Nat)) (b : Nat) : List (Nat × Nat) :=
    let core := (t * nb + b) / qi
    let xa := (ca.drop (32 * b)).take 32
    let xb := (cb.drop (32 * b)).take 32
    match r with
    | (c, v) :: rest => if c = core then (c, chunksAcc pair v xa xb 32) :: rest else (core, chunksAcc pair 0 xa xb 32) :: r
    | [] => [(core, chunksAcc pair 0 xa xb 32)]
  match ((List.range nb).foldl step []).reverse with
  | [] => 0
  | (_, v) :: rest => rest.foldl (fun s p => addParts pair s p.2) v

/-- One entry accumulated over ascending rows by one core (09 R205). -/
def batchEntry (pair : Bool) (ca cb : List Nat) : Nat :=
  if pair then
    let r := (ca.zip cb).foldl (fun (q : Pair) x =>
        let p := (fmaPair fp64 (val64 x.1) (val64 x.2) q.s).1
        { s := p.s, e := val64 (add64 (bits64 q.e) (bits64 p.e)).1 }) { s := .zero, e := .zero }
    pairBits fp64 (twoSum fp64 r.s r.e).1
  else (ca.zip cb).foldl (fun s x => (fma64 x.1 x.2 s).1) 0

/-- A and g from the columns of J, padded to whole blocks, and r (09 R204): tile (I, K) is numbered I(I+1)/2 + K, and g of tile I
is the 33rd column of (I, I). -/
def denseForm (pair : Bool) (n : Nat) (cols : List (List Nat)) (r : List Nat) : NormEq :=
  let t := (n + 31) / 32
  let nb := (r.length + 31) / 32
  let qi := (t * (t + 1) * nb + 31) / 32
  let col (i : Nat) : List Nat := cols.getD i []
  let num (i j : Nat) : Nat := i * (i + 1) / 2 + j
  { a := (List.range n).map (fun i => (List.range (i + 1)).map (fun j => denseEntry pair (num (i / 32) (j / 32)) nb qi (col i) (col j))),
    g := (List.range n).map (fun i => denseEntry pair (num (i / 32) (i / 32)) nb qi (col i) r), pts := [], cols := [], r := [] }

/-- A and g of one vector element of a batched group (09 R205). -/
def batchForm (pair : Bool) (n : Nat) (cols : List (List Nat)) (r : List Nat) : NormEq :=
  let col (i : Nat) : List Nat := cols.getD i []
  { a := (List.range n).map (fun i => (List.range (i + 1)).map (fun j => batchEntry pair (col i) (col j))),
    g := (List.range n).map (fun i => batchEntry pair (col i) r), pts := [], cols := [], r := [] }

/-- One observation: its point and pose, the columns of its pose block and point block, and its residuals. -/
structure ObsRow where
  point : Nat
  pose : Nat
  jp : List (List Nat)
  jq : List (List Nat)
  r : List Nat

/-- The concatenated column `j` of a list of blocks. -/
def catCols (l : List (List (List Nat))) (j : Nat) : List Nat := l.flatMap (fun c => c.getD j [])

/-- The block normal equations (09 R210): every entry accumulates over ascending observations and rows, as R205 accumulates. The
lower rows of U as one P·bp square matrix, and a block for each point. -/
def blockForm (pair : Bool) (np bp nq bq : Nat) (obs : List ObsRow) : NormEq :=
  let ofPose (p : Nat) : List ObsRow := obs.filter (fun o => o.pose == p)
  let ofPoint (q : Nat) : List ObsRow := obs.filter (fun o => o.point == q)
  { a := (List.range (np * bp)).map (fun i =>
      let os := (ofPose (i / bp)).map (fun o => o.jp)
      (List.range (i + 1)).map (fun j => if j / bp = i / bp then batchEntry pair (catCols os (i % bp)) (catCols os (j % bp)) else 0)),
    g := (List.range (np * bp)).map (fun i =>
      let os := ofPose (i / bp)
      batchEntry pair (catCols (os.map (fun o => o.jp)) (i % bp)) (os.flatMap (fun o => o.r))),
    pts := (List.range nq).map (fun q =>
      let os := ofPoint q
      let js := os.map (fun o => o.jq)
      { v := (List.range bq).map (fun i => (List.range (i + 1)).map (fun j => batchEntry pair (catCols js i) (catCols js j))),
        g := (List.range bq).map (fun i => batchEntry pair (catCols js i) (os.flatMap (fun o => o.r))),
        obs := os.map (fun o => (o.pose, (List.range bp).map (fun i => (List.range bq).map (fun j =>
          batchEntry pair (o.jp.getD i []) (o.jq.getD j []))))) }),
    cols := [], r := [] }

/-! ### Damping and the floor (09 R201, R206, R207) -/

/-- A damped diagonal entry. -/
def dampEntry (pair : Bool) (lam v : Nat) : Nat :=
  if pair then
    let p := unpackPair v
    let q := (pairAdd fp64 p (twoProd fp64 p.s (val64 lam)).1).1
    pairBits fp64 (pairAdd fp64 q { s := val64 (mul64 (bits64 p.e) lam).1, e := .zero }).1
  else (fma64 v lam v).1

/-- damp(A, lam): A itself when method = 0. -/
def damp (lm pair : Bool) (lam : Nat) (a : List (List Nat)) : List (List Nat) :=
  if lm then a.zipIdx.map (fun (row, i) => row.zipIdx.map (fun (v, j) => if i = j then dampEntry pair lam v else v)) else a

/-- 2⁻¹⁰²². -/
def leastNormal64 : Nat := 2 ^ 52

def max64 (x y : Nat) : Nat := (fMinMax fp64 true x y).1

/-- The largest of a list, as fmax takes it: a NaN gives way to a number (04 Table 4-5; the spec does not say what the floor's max does with a
NaN: DEDUCED, log 23). -/
def maxOf (l : List Nat) : Nat := match l with | [] => 0 | x :: t => t.foldl max64 x

/-- The floor of a factorization from the values that R206 or R207 takes the maximum of. -/
def floorFrom (tau : Nat) (l : List Nat) : Nat := max64 (mul64 tau (maxOf l)).1 leastNormal64

def diagOf (a : List (List Nat)) : List Nat := a.zipIdx.map (fun (row, i) => entryS (row.getD i 0))

/-! ### Cholesky by tile columns (09 R206, R215, Table 9-8) -/

/-- One panel of a dense factorization: q.chol.tile on the diagonal tile, q.trsm.rt on the tiles below, q.schur on the tiles that
they drive. Entries are pairs when `pair`; a finished column holds FP64. Rows beyond n are padding and are not factored. -/
def cholPanel (pair : Bool) (f n j : Nat) (w : List (List Nat)) : List (List Nat) × Nat :=
  let lo := 32 * j
  let hi := min (lo + 32) n
  let tile := (List.range (hi - lo)).map (fun i => ((w.getD (lo + i) []).drop lo).take (i + 1))
  let r := cholesky pair (floorOf f) tile (hi - lo)
  let l := r.1.1
  let rows := (List.range n).map (fun i =>
    let row := w.getD i []
    if i < lo then row
    else if i < hi then row.take lo ++ l.getD (i - lo) []
    else
      let b := ((row.drop lo).take (hi - lo)).map (entry64 pair)
      row.take lo ++ (solveLn l b).1 ++ row.drop hi)
  let done := (List.range n).map (fun i =>
    let row := rows.getD i []
    if i < hi then row
    else
      let a := ((row.drop lo).take (hi - lo)).map neg64
      row.take hi ++ (List.range (i + 1 - hi)).map (fun c =>
        chunksAcc pair (row.getD (hi + c) 0) a (((rows.getD (hi + c) []).drop lo).take (hi - lo)) 32))
  (done, r.2)

/-! ### Householder by panels (09 R207, R216) -/

/-- The norm of a column: the exact sum of squares rounded once, then its square root. -/
def norm64 (c : List Nat) : Nat :=
  (fSqrt fp64 .rne (finishF fp64 .rne 0 (exactSum (c.map (fun x => mulF (val64 x) (val64 x))))).1).1

def padTo (n : Nat) (l : List Nat) : List Nat := l ++ List.replicate (n - l.length) 0

/-- J augmented by the rows √lam · ‖J_j‖ · e_jᵀ (09 R201), and the column r. -/
def qrAugment (lm : Bool) (lam n : Nat) (cols : List (List Nat)) (r : List Nat) : List (List Nat) × List Nat :=
  let top := max r.length n
  let root := (fSqrt fp64 .rne lam).1
  let cs := cols.map (padTo top)
  if lm then
    (cs.zipIdx.map (fun (c, j) =>
      c ++ (List.range n).map (fun i => if i = j then (mul64 root (norm64 c)).1 else 0)), padTo (top + n) r)
  else (cs, padTo top r)

/-- One panel: reduce its columns, then apply the reflectors to every later column and to the carried one. The diagonal goes in
place. -/
def qrPanel (f n j : Nat) (cols : List (List Nat)) (r : List Nat) : List (List Nat) × List Nat × Nat :=
  let lo := 32 * j
  let hi := min (lo + 32) n
  let sub := ((cols.drop lo).take (hi - lo)).map (fun c => c.drop lo)
  let p := hhPanel f sub
  let put (c : List Nat) : List Nat := c.take lo ++ (hhApply p.cols p.tau (c.drop lo)).1
  let mine := p.cols.zipIdx.map (fun (c, i) => (cols.getD (lo + i) []).take lo ++ c.set i (p.diag.getD i 0))
  (cols.take lo ++ mine ++ (cols.drop hi).map put, put r, p.cnt)

/-- Uᵀ as lower rows. -/
def qrLower (cols : List (List Nat)) : List (List Nat) := cols.zipIdx.map (fun (c, i) => c.take (i + 1))

/-! ### Points of a block-sparse problem (09 R208, R210) -/

/-- Factor the damped points and accumulate the reduced system: (S, factored points, floored count). -/
def eliminate (pair : Bool) (tau bp bq : Nat) (u : List (List Nat)) (pts : List PtBlock) : List (List Nat) × List PtBlock × Nat :=
  pts.foldl (fun (r : List (List Nat) × List PtBlock × Nat) q =>
    let f := floorFrom tau (diagOf q.v)
    let c := cholesky pair (floorOf f) q.v bq
    let ys := q.obs.map (fun o => (o.1, o.2.map (fun row => (solveLn c.1.1 (row.map (entry64 pair))).1)))
    let s := ys.foldl (fun s o1 => ys.foldl (fun s o2 =>
        if o2.1 ≤ o1.1 then
          s.zipIdx.map (fun (row, i) => if i / bp = o1.1 then
            row.zipIdx.map (fun (v, j) => if j / bp = o2.1 then
              chunksAcc pair v ((o1.2.getD (i % bp) []).map neg64) (o2.2.getD (j % bp) []) 32 else v) else row)
        else s) s) r.1
    (s, r.2.1 ++ [{ v := c.1.1, g := q.g, obs := ys }], r.2.2 + c.2)) (u, [], 0)

/-! ### Solves (09 R201, R210) -/

/-- L⁻ᵀ L⁻¹ b. -/
def solve64 (l : List (List Nat)) (b : List Nat) : List Nat := (solveLt l (solveLn l b).1).1

/-- The step of a block-sparse problem: the points' right-hand sides, the reduced system, then back-substitution. -/
def solveBlocks (pair : Bool) (bp : Nat) (l : List (List Nat)) (g : List Nat) (pts : List PtBlock) : List Nat :=
  let zs := pts.map (fun q => (solveLn q.v (q.g.map (fun x => neg64 (entry64 pair x)))).1)
  let b := (pts.zip zs).foldl (fun b (q, z) => q.obs.foldl (fun b o =>
      b.zipIdx.map (fun (v, i) => if i / bp = o.1 then
        ((o.2.getD (i % bp) []).zip z).foldl (fun s x => (fma64 (neg64 x.1) x.2 s).1) v else v)) b)
    (g.map (fun x => neg64 (entry64 pair x)))
  let dp := solve64 l b
  let dq := (pts.zip zs).flatMap (fun (q, z) =>
    let t := z.zipIdx.map (fun (v, k) => q.obs.foldl (fun s o =>
      o.2.zipIdx.foldl (fun s (row, a) => (fma64 (neg64 (row.getD k 0)) (dp.getD (o.1 * bp + a) 0) s).1) s) v)
    (solveLt q.v t).1)
  dp ++ dq

/-! ### Damping updates (09 R201) -/

/-- lam × 2⁻ᵏ, rounded. -/
def lamDown (lam k : Nat) : Nat := bits64 ((val64 lam).scale (-(k : Int)))

/-- min(lam × 2ᵏ, 2⁹⁰⁰). -/
def lamUp (lam k : Nat) : Nat :=
  let x := (val64 lam).scale k
  let top := (ofInt 1).scale 900
  if geF x top then bits64 top else bits64 x

/-! ### Shifts (10 R231) -/

/-- shift(src) with words 5 and 6 of the descriptor; `aux` is the template, or F row-major. -/
def shiftOf (w5 : Nat) (src aux : List Nat) : List Nat :=
  let n := src.length
  match w5 / 2 ^ 62 with
  | 0 => src
  | 1 =>
    let d := intOf true 32 w5
    (List.range n).map (fun (i : Nat) =>
      let k : Int := Int.ofNat i + d
      if 0 ≤ k ∧ k < n then src.getD k.toNat 0 else aux.getD i 0)
  | _ =>
    let nf := w5 / 2 ^ 57 % 32 + 1
    (List.range n).map (fun i =>
      let b := i / nf * nf
      let row := (aux.drop (i % nf * nf)).take nf
      let xs := (src.drop b).take nf
      (finishF fp64 .rne 0 (exactSum ((row.zip xs).map (fun p => mulF (val64 p.1) (val64 p.2))))).1)

end Sys2Proof.Machine
end

