-- ==== Sys2Proof/Machine/SolverCore.lean ====
section
/-! DEFINITION. The sequencer's tables (09, 10): descriptors and their checks, submissions, lateness, leased cores, factor
handles, shift descriptors and the work area. -/

namespace Sys2Proof.Machine

def Module.setSq (m : Module) (x : Sq) : Module := { m with sq := x }

/-! ### Problem descriptors (09 Table 9-4): a list of 16 words -/

def pdWord (d : List Nat) (i : Nat) : Nat := d.getD i 0
def pdKind (d : List Nat) : Nat := pdWord d 0 / 2 ^ 60
def pdLm (d : List Nat) : Bool := pdWord d 0 / 2 ^ 59 % 2 == 1
def pdQr (d : List Nat) : Bool := pdWord d 0 / 2 ^ 58 % 2 == 1
def pdPair (d : List Nat) : Bool := pdWord d 0 / 2 ^ 57 % 2 == 1
def pdKeep (d : List Nat) : Bool := pdWord d 0 / 2 ^ 56 % 2 == 1
def pdIters (d : List Nat) : Nat := pdWord d 0 / 2 ^ 50 % 64 + 1
def pdStart (d : List Nat) : Nat := pdWord d 0 / 2 ^ 48 % 4
def pdN (d : List Nat) : Nat := pdWord d 0 / 2 ^ 32 % 2 ^ 16
def pdM (d : List Nat) : Nat := pdWord d 0 % 2 ^ 32
def pdX (d : List Nat) : Nat := pdWord d 1
def pdProg (d : List Nat) : Nat := pdWord d 2
def pdArg (d : List Nat) : Nat := pdWord d 3
def pdWork (d : List Nat) : Nat := pdWord d 4
def pdResult (d : List Nat) : Nat := pdWord d 5
def pdTau (d : List Nat) : Nat := pdWord d 6
def pdLambda0 (d : List Nat) : Nat := pdWord d 7
def pdUp (d : List Nat) : Nat := pdWord d 8 / 2 ^ 56
def pdDn (d : List Nat) : Nat := pdWord d 8 / 2 ^ 48 % 2 ^ 8
def pdPhash (d : List Nat) : Nat := pdWord d 9
def pdSdesc (d : List Nat) : Nat := pdWord d 10
def pdBp (d : List Nat) : Nat := pdWord d 11 / 2 ^ 60 + 1
def pdBq (d : List Nat) : Nat := pdWord d 11 / 2 ^ 58 % 4 + 1
def pdRpo (d : List Nat) : Nat := pdWord d 11 / 2 ^ 56 % 4 + 1
def pdNpts (d : List Nat) : Nat := pdWord d 11 % 2 ^ 22
def pdObs (d : List Nat) : Nat := pdWord d 12

/-- N: the number of parameters (10 R228). -/
def pdSize (d : List Nat) : Nat := if pdKind d = 2 then pdN d * pdBp d + pdNpts d * pdBq d else pdN d

/-- The dimension that is factored: n, or P·bp. -/
def pdDim (d : List Nat) : Nat := if pdKind d = 2 then pdN d * pdBp d else pdN d

/-- Tile columns of the factorization. -/
def pdTiles (d : List Nat) : Nat := (pdDim d + 31) / 32

/-- Is an FP64 value negative or not finite (09 R198)? -/
def badDamping (x : Nat) : Bool :=
  match val64 x with
  | .fin neg mm _ => neg && mm != 0
  | _ => true

/-- Is a descriptor valid by its own words (09 R198, Tables 9-4 and 9-5; 10 R234)? -/
def pdValid (d : List Nat) : Bool :=
  let w := pdWord d
  decide (pdKind d ≤ 2) && pdStart d != 3 && decide (1 ≤ pdN d) && decide (1 ≤ pdM d) &&
  (List.range 5).all (fun i => decide (w (i + 1) < 2 ^ 48)) &&
  pdX d % 8 == 0 && pdProg d % 8 == 0 && pdWork d % 4096 == 0 && pdResult d % 32 == 0 &&
  !badDamping (pdTau d) && below64 (pdTau d) 0x3FF0000000000000 &&
  !badDamping (pdLambda0 d) && (pdLm d || (val64 (pdLambda0 d)).isZero) &&
  w 8 % 2 ^ 48 == 0 && decide (w 9 < 2 ^ 32) && decide (w 10 < 2 ^ 48) && pdSdesc d % 64 == 0 &&
  w 13 == 0 && w 14 == 0 && w 15 == 0 && !(pdPair d && pdQr d) && (!pdQr d || pdKind d == 1) &&
  (pdStart d == 0 || pdSdesc d != 0) &&
  (match pdKind d with
   | 0 => decide (pdN d ≤ 32) && w 11 == 0 && w 12 == 0
   | 1 => decide (pdN d ≤ 256) && w 11 == 0 && w 12 == 0
   | _ => decide (pdN d ≤ 1024) && decide (1 ≤ pdNpts d) && decide (pdNpts d ≤ 2097152) && w 11 / 2 ^ 22 % 2 ^ 34 == 0 &&
          decide (w 12 < 2 ^ 48) && pdObs d % 8 == 0 && !pdKeep d)

/-- Are words 5-7 of a shift descriptor valid for a problem (10 R234)? -/
def shiftValid (d : List Nat) (w5 w6 w7 : Nat) : Bool :=
  let mode := w5 / 2 ^ 62
  mode != 3 && w5 / 2 ^ 32 % 2 ^ 25 == 0 && decide (w6 < 2 ^ 48) && w7 == 0 &&
  (if mode = 0 then w6 == 0 else w6 % 8 == 0) && (mode != 2 || pdSize d % (w5 / 2 ^ 57 % 32 + 1) == 0)

/-- Is an observation list valid (09 R200)? -/
def obsValid (d : List Nat) (obs : List Nat) : Bool :=
  let keys := obs.map (fun e => e / 2 ^ 32)
  obs.all (fun e => e % 2 ^ 32 == 0 && decide (e / 2 ^ 32 % 2 ^ 10 < pdN d) && decide (e / 2 ^ 42 < pdNpts d)) &&
  (keys.zip (keys.drop 1)).all (fun p => decide (p.1 < p.2)) &&
  (List.range (pdNpts d)).all (fun q => obs.any (fun e => e / 2 ^ 42 == q))

/-! ### Checking a submission (09 R196; 12 R291): the first failure in reading order gives the code -/

/-- What has been read so far: the module, the code (0 while nothing failed), the checked problems. -/
structure SqCheck where
  m : Module
  code : Nat
  probs : List (List Nat × List Nat × List Nat)

/-- The sequencer's reads of descriptors and shift descriptors are latency-critical; its other reads of a submission, of headers, adjoint
entries and observation lists, travel bulk (12 R287). -/
def sqWho (ctx : Nat) : Who := engWho ctx 2 true
def sqBulk (ctx : Nat) : Who := engWho ctx 2 false

/-- Refuse with code 2 and one permission violation. -/
def SqCheck.invalid (c : SqCheck) (ctx va : Nat) : SqCheck := { c with m := c.m.violate ctx 2 va, code := 2 }

/-- Read one problem: its descriptor, words 5-7 of its shift descriptor, its observation list. -/
def SqCheck.problem (c : SqCheck) (ctx va : Nat) : SqCheck :=
  if c.code != 0 then c
  else
    let (d, bad, viol) := c.m.descRead ctx va 16
    let c := { c with m := c.m.look (sqWho ctx) va 128 }
    if bad then { c with code := 4 }
    else if viol || !pdValid d then c.invalid ctx va
    else
      let sh := if pdSdesc d = 0 then ([0, 0, 0], false, false) else c.m.descRead ctx (pdSdesc d + 40) 3
      let c := if pdSdesc d = 0 then c else { c with m := c.m.look (sqWho ctx) (pdSdesc d + 40) 24 }
      if sh.2.1 then { c with code := 4 }
      else if sh.2.2 || (pdSdesc d != 0 && !shiftValid d (sh.1.getD 0 0) (sh.1.getD 1 0) (sh.1.getD 2 0)) then
        c.invalid ctx (pdSdesc d)
      else if pdKind d != 2 then { c with probs := c.probs ++ [(d, [], sh.1)] }
      else
        let r := c.m.engRead ctx (pdObs d) 8 (pdM d)
        let c := { c with m := c.m.look (sqBulk ctx) (pdObs d) (8 * pdM d) }
        if r.bad then { c with code := 4 }
        else if r.viols != 0 || !obsValid d r.words then c.invalid ctx (pdObs d)
        else { c with probs := c.probs ++ [(d, r.words, sh.1)] }

/-- Refuse a submission: SQ_REFUSED and source 193. -/
def Module.sqRefuse (m : Module) (code : Nat) : Module × Nat := ((m.addF Reg.SQ_REFUSED.count 1).raise 193, code)

/-- The queue's counts (09 Table 9-2). -/
def Module.sqCounts (m : Module) : Module :=
  let q := m.sq.probs.length + m.sq.entries.length
  (m.setF Reg.SQ_QUEUE.queued q).setF Reg.SQ_QUEUE.free (65536 - q)

/-- Queue checked problems: consecutive batched descriptors of one submission form groups of at most 32 (09 R209); a group ends
before a problem whose shift descriptor one of its members names, which 10 R233 holds apart. -/
def groupProblems (id sub ctx : Nat) : List Problem → List (List Nat × List Nat × List Nat) → List Problem
  | acc, [] => acc
  | acc, (d, obs, sh) :: rest =>
    let me := id + acc.length
    let lead := match acc.getLast? with
      | none => me
      | some p =>
        let g := acc.filter (fun x => x.group == p.group)
        let e := p.words
        let same := pdKind d == 0 && pdKind e == 0 && pdProg d == pdProg e && pdN d == pdN e && pdM d == pdM e &&
          pdPair d == pdPair e && pdLm d == pdLm e && pdIters d == pdIters e && pdPhash d == pdPhash e
        let free := pdSdesc d == 0 || !g.any (fun x => pdSdesc x.words == pdSdesc d)
        if same && free && decide (g.length < 32) then p.group else me
    let p : Problem := { id := me, sub := sub, ctx := ctx, words := d, obs := obs,
                         ohash := if pdKind d = 2 then crc32c obs else 0, shift := sh, group := lead, phase := 0, fin := none }
    groupProblems id sub ctx (acc ++ [p]) rest

/-- Submit a header of problems (09 R195, R196): the code. -/
def Module.sqSubmit (m : Module) (ctx va : Nat) : Module × Nat :=
  if m.oos || !m.bit Reg.SQ_CTRL.accept then m.sqRefuse 3
  else if va % 64 != 0 then (m.violate ctx 2 va).sqRefuse 2
  else
    let (h, bad, viol) := m.descRead ctx va 8
    let m := m.look (sqBulk ctx) va 64
    let w (i : Nat) : Nat := h.getD i 0
    let probs := w 0 % 2 ^ 48
    let count := w 0 / 2 ^ 48 + 1
    let completion := w 1
    let ok := probs % 128 == 0 && decide (completion < 2 ^ 48) && completion % 32 == 0 && decide (w 3 ≤ 1) &&
      w 4 == 0 && w 5 == 0 && w 6 == 0 && w 7 == 0
    if bad then m.sqRefuse 4
    else if viol || !ok then (m.violate ctx 2 va).sqRefuse 2
    else
      let c := (List.range count).foldl (fun c i => c.problem ctx (probs + 128 * i))
        ({ m := m, code := 0, probs := [] } : SqCheck)
      if c.code != 0 then c.m.sqRefuse c.code
      else if m.getF Reg.SQ_QUEUE.free < count then c.m.sqRefuse 1
      else
        let q := c.m.sq
        let sub : Submission := { id := q.nextId, ctx := ctx, accept := m.pilot, budget := w 2, cutoff := w 3 == 1, late := false,
                                  completion := completion, isAdj := false, count := count, left := count, lostParts := 0,
                                  missed := false, parted := false }
        let ps := groupProblems (q.nextId + 1) sub.id ctx [] c.probs
        let m1 := c.m.setSq { q with subs := q.subs ++ [sub], probs := q.probs ++ ps, nextId := q.nextId + 1 + count }
        ((m1.sqCounts).wake 5 ctx, 0)

/-- Submit an adjoint header (10 R240): the code. -/
def Module.adjSubmit (m : Module) (ctx va : Nat) : Module × Nat :=
  if m.oos || !m.bit Reg.SQ_CTRL.accept then m.sqRefuse 3
  else if va % 32 != 0 then (m.violate ctx 2 va).sqRefuse 2
  else
    let (h, bad, viol) := m.descRead ctx va 4
    let m := m.look (sqBulk ctx) va 32
    let w (i : Nat) : Nat := h.getD i 0
    let list := w 0 % 2 ^ 48
    let count := w 0 / 2 ^ 48 + 1
    let ok := list % 32 == 0 && decide (w 1 < 2 ^ 48) && w 1 % 32 == 0 && w 2 == 0 && w 3 == 0
    if bad then m.sqRefuse 4
    else if viol || !ok then (m.violate ctx 2 va).sqRefuse 2
    else
      let c := (List.range count).foldl (fun (c : SqCheck) i =>
          if c.code != 0 then c
          else
            let (e, bad, viol) := c.m.descRead ctx (list + 32 * i) 4
            let c := { c with m := c.m.look (sqBulk ctx) (list + 32 * i) 32 }
            let x (i : Nat) : Nat := e.getD i 0
            if bad then { c with code := 4 }
            else if viol || x 0 / 2 % 2 ^ 31 != 0 || decide (2 ^ 48 ≤ x 1) || decide (2 ^ 48 ≤ x 2) || x 3 != 0 ||
                x 1 % 8 != 0 || x 2 % 8 != 0 || (x 1 == 0 && x 0 % 2 == 0) then c.invalid ctx (list + 32 * i)
            else { c with probs := c.probs ++ [(e, [], [])] }) ({ m := m, code := 0, probs := [] } : SqCheck)
      if c.code != 0 then c.m.sqRefuse c.code
      else if m.getF Reg.SQ_QUEUE.free < count then c.m.sqRefuse 1
      else
        let q := c.m.sq
        let sub : Submission := { id := q.nextId, ctx := ctx, accept := m.pilot, budget := 0, cutoff := false, late := false,
                                  completion := w 1, isAdj := true, count := count, left := count, lostParts := 0,
                                  missed := false, parted := false }
        let es := c.probs.zipIdx.map (fun (p, i) =>
          ({ id := q.nextId + 1 + i, sub := sub.id, ctx := ctx, va := list + 32 * i, words := p.1, phase := 0, proc := 0,
             cores := [], u := none, word3 := 0, bank := false } : AdjEntry))
        let m1 := c.m.setSq { q with subs := q.subs ++ [sub], entries := q.entries ++ es, nextId := q.nextId + 1 + count }
        ((m1.sqCounts).wake 5 ctx, 0)

/-! ### Looking up and changing entries -/

def Module.sqSub (m : Module) (id : Nat) : Option Submission := m.sq.subs.find? (fun x => x.id == id)
def Module.sqProb (m : Module) (id : Nat) : Option Problem := m.sq.probs.find? (fun x => x.id == id)
def Module.sqRun (m : Module) (id : Nat) : Option SolverRun := m.sq.runs.find? (fun x => x.id == id)
def Module.sqEntry (m : Module) (id : Nat) : Option AdjEntry := m.sq.entries.find? (fun x => x.id == id)

def Module.modSub (m : Module) (id : Nat) (f : Submission → Submission) : Module :=
  m.setSq { m.sq with subs := m.sq.subs.map (fun x => if x.id = id then f x else x) }
def Module.modProb (m : Module) (id : Nat) (f : Problem → Problem) : Module :=
  m.setSq { m.sq with probs := m.sq.probs.map (fun x => if x.id = id then f x else x) }
def Module.modRun (m : Module) (id : Nat) (f : SolverRun → SolverRun) : Module :=
  m.setSq { m.sq with runs := m.sq.runs.map (fun x => if x.id = id then f x else x) }
def Module.modEntry (m : Module) (id : Nat) (f : AdjEntry → AdjEntry) : Module :=
  m.setSq { m.sq with entries := m.sq.entries.map (fun x => if x.id = id then f x else x) }

/-- Is a submission late (10 R220)? Once late it stays late. -/
def Module.isLate (m : Module) (id : Nat) : Bool :=
  match m.sqSub id with
  | none => false
  | some x => x.late || (x.budget != 0 && decide (x.accept + x.budget ≤ m.pilot))

/-- The counter event of a context's solver work. -/
def sqEv (ctx : Nat) : Ev := { Ev.none with ctx := some ctx }

/-! ### Leased cores (09 R210) -/

/-- Do runs or entries use a core? -/
def Module.coreTaken (m : Module) (c : Nat) : Bool :=
  m.sq.runs.any (fun r => r.cores.contains c) || m.sq.entries.any (fun e => e.cores.contains c)

/-- The cores of a cluster. -/
def clusterCores (g : Nat) : List Nat := (List.range 16).map (fun i => g * 16 + i)

/-- The clusters that a context leases and that the sequencer may use. -/
def Module.leased (m : Module) (ctx : Nat) : List Nat :=
  (List.range 128).filter (fun g => m.getF (Reg.SQ_LOWN.state g) == 2 && m.getF (Reg.SQ_LOWN.owner g) == ctx &&
    !m.sq.releasing.contains g)

def Module.clusterFree (m : Module) (g : Nat) : Bool :=
  m.partReady (g / 16) && (clusterCores g).all (fun c => !m.coreTaken c)

/-- Take one of a list; which one the specification leaves open. -/
def Module.pickOne (m : Module) (l : List Nat) : Module × Option Nat :=
  match l with
  | [] => (m, none)
  | x :: _ => let r := m.freePick; (r.1, some (l.getD (r.2 % l.length) x))

/-- The cores that work of a kind takes: one core, a cluster, or every leased cluster; none when it must wait. -/
def Module.solverCores (m : Module) (ctx kind : Nat) : Module × List Nat :=
  let gs := m.leased ctx
  match kind with
  | 0 =>
    let r := m.pickOne ((gs.filter (fun g => m.partReady (g / 16))).flatMap (fun g => (clusterCores g).filter (fun c => !m.coreTaken c)))
    (r.1, r.2.toList)
  | 1 =>
    let r := m.pickOne (gs.filter m.clusterFree)
    (r.1, (r.2.map clusterCores).getD [])
  | _ => (m, if gs.all m.clusterFree then gs.flatMap clusterCores else [])

/-- When nothing runs on a cluster whose release waits, it returns to the grid pool (02 R46). -/
def Module.releaseSettle (m : Module) : Module :=
  m.each m.sq.releasing (fun m g =>
    if (clusterCores g).any m.coreTaken then m
    else ((m.setSq { m.sq with releasing := m.sq.releasing.filter (fun x => x != g) }).setF (Reg.SQ_LOWN.state g) 0).setF
      (Reg.SQ_LOWN.owner g) 0)

/-- The processors that serve (09 R194). -/
def Module.serving (m : Module) : List Nat := (List.range 4).filter (fun k => !m.sq.down.contains k)

/-! ### The factor store (10 R235-R239) -/

/-- The space of a handle: its parts and 64 bytes, rounded up to 4 KiB. -/
def Handle.bytes (h : Handle) : Nat :=
  (h.matrixBytes + (if h.held then h.factorBytes else 0) + 64 + 4095) / 4096 * 4096

def Module.storeUsed (m : Module) : Nat := m.sq.handles.foldl (fun n h => n + h.bytes) 0
def Module.storeSize (m : Module) : Nat := m.getF Reg.SQ_FS_SIZE.units * 2 ^ 21

/-- SQ_FS_USE. -/
def Module.storeCounts (m : Module) : Module :=
  (m.setF Reg.SQ_FS_USE.handles m.sq.handles.length).setF Reg.SQ_FS_USE.used ((m.storeUsed + 2 ^ 21 - 1) / 2 ^ 21)

/-- The factor part that is evicted next: the least recently used of a handle that is not busy. -/
def Module.evictNext (m : Module) : Option Nat :=
  let c := m.sq.handles.filter (fun h => h.held && h.factorBytes != 0 && h.busy == 0)
  (c.foldl (fun (b : Option Handle) h => match b with | none => some h | some x => if h.used < x.used then some h else b) none).map
    (fun h => h.slot)

/-- Evict factor parts until `need` bytes are free or nothing is left to evict. `fuel` is the number of handles. -/
def Module.makeRoom (m : Module) (need : Nat) : Nat → Module
  | 0 => m
  | fuel + 1 =>
    if m.storeUsed + need ≤ m.storeSize then m
    else match m.evictNext with
      | none => m
      | some s =>
        let hs := m.sq.handles.map (fun h => if h.slot = s then { h with held := false, factor := [] } else h)
        Module.makeRoom ((m.setSq { m.sq with handles := hs }).addF Reg.SQ_FS_CNT.evict 1) need fuel

/-- The next slot: a number never used, else the one freed longest ago. -/
def Module.takeSlot (m : Module) : Module × Option (Nat × Nat) :=
  let pick := if m.sq.nextSlot < 65536 then some m.sq.nextSlot else m.sq.freed.head?
  match pick with
  | none => (m, none)
  | some s =>
    let g := SMap.get 0 m.sq.slotGen s
    let g' := if 65535 ≤ g then 1 else g + 1
    let q := m.sq
    (m.setSq { q with slotGen := SMap.set 0 q.slotGen s g',
                      nextSlot := if q.nextSlot < 65536 then q.nextSlot + 1 else q.nextSlot,
                      freed := if q.nextSlot < 65536 then q.freed else q.freed.drop 1 }, some (s, g'))

/-- Free slots of the store. -/
def Module.freeSlots (m : Module) (l : List Nat) : Module :=
  let gone := l.filter (fun s => m.sq.handles.any (fun h => h.slot == s))
  (m.setSq { m.sq with handles := m.sq.handles.filter (fun h => !gone.contains h.slot), freed := m.sq.freed ++ gone }).storeCounts

/-- Two slots for a problem at its first factorization (10 R237, R238): the slots, none when the store lacks room. -/
def Module.allocPair (m : Module) (ctx : Nat) (d : List Nat) (floor : Nat) : Module × List Nat :=
  let n := pdN d
  let dd := if pdKind d = 0 then n else 32 * ((n + 31) / 32)
  let mb := if pdPair d then 16 * dd * dd else 8 * dd * dd
  let fb := if pdQr d then 0 else 8 * dd * dd
  let h : Handle := { slot := 0, gen := 0, ctx := ctx, kind := pdKind d, n := n, pair := pdPair d, qr := pdQr d, floor := floor,
                      matrix := [], factor := [], matrixBytes := mb, factorBytes := fb, held := true, used := 0, busy := 1 }
  let m1 := m.makeRoom (2 * h.bytes) m.sq.handles.length
  let fail (m : Module) : Module × List Nat := (((m.addF Reg.SQ_FS_CNT.fail 1).storeCounts).raise 202, [])
  if m1.storeSize < m1.storeUsed + 2 * h.bytes then fail m1
  else match m1.takeSlot with
    | (_, none) => fail m1
    | (m2, some a) =>
      match m2.takeSlot with
      | (_, none) => fail m1
      | (m3, some b) =>
        let hs := [{ h with slot := a.1, gen := a.2 }, { h with slot := b.1, gen := b.2 }]
        ((m3.setSq { m3.sq with handles := m3.sq.handles ++ hs }).storeCounts, [a.1, b.1])

def Module.modHandle (m : Module) (slot : Nat) (f : Handle → Handle) : Module :=
  m.setSq { m.sq with handles := m.sq.handles.map (fun h => if h.slot = slot then f h else h) }

/-- The handle that a 32-bit value names for a context; none when it is bad (10 R241). -/
def Module.handleOf (m : Module) (ctx v : Nat) : Option Handle :=
  m.sq.handles.find? (fun h => h.slot == v % 2 ^ 16 && h.gen == v / 2 ^ 16 && h.ctx == ctx && !(h.busy != 0 && h.matrix.isEmpty))

/-! ### Reading data of a problem -/

/-- Read FP64 values: a denied page reads zero and is counted (02 R49); a poisoned sector gives the canonical NaN when `nan`, as
the streamer does (12 R291); any other value that cannot be read is free (00 R1). -/
def Module.readVals (m0 : Module) (nan : Bool) (ctx : Nat) (addrs : List Nat) : Module × List Nat :=
  let m := m0.lookAt (engWho ctx 2 false) (addrs.map (fun a => (a, 8)))
  addrs.foldl (fun (r : Module × List Nat) va =>
    match r.1.ctxXlat ctx va .load with
    | .viol => (r.1.violate ctx 2 va, r.2 ++ [0])
    | .fault _ => let x := r.1.freeWord; (x.1, r.2 ++ [x.2.toNat])
    | .ok p _ =>
      if r.1.badPlace p 8 then
        if nan then (r.1, r.2 ++ [fp64.nanBits]) else (let x := r.1.freeWord; (x.1, r.2 ++ [x.2.toNat]))
      else (r.1, r.2 ++ [r.1.readPlace p 8])) (m, [])

def consec (va n : Nat) : List Nat := (List.range n).map (fun i => va + 8 * i)

/-! ### Shift descriptors (10 R228-R231) -/

/-- Words 1-3: the structure signature (10 R229). -/
def signature (p : Problem) : List Nat :=
  let d := p.words
  let b := pdKind d == 2
  [pdKind d * 2 ^ 60 + (if b then (pdBp d - 1) * 2 ^ 56 + (pdBq d - 1) * 2 ^ 54 + (pdRpo d - 1) * 2 ^ 52 else 0) + pdN d * 2 ^ 32 + pdM d,
   pdPhash d * 2 ^ 32 + (if b then pdNpts d else 0), p.ohash]

/-- What a start reads of a stamp: the address of the solution and its lam, when the stamp matches. -/
def Module.stamp (m : Module) (p : Problem) : Module × Option (Nat × Nat) :=
  if pdSdesc p.words = 0 then (m, none)
  else
    let r := m.engRead p.ctx (pdSdesc p.words) 8 5
    let m1 := (m.look (sqWho p.ctx) (pdSdesc p.words) 40).violateN p.ctx 2 (pdSdesc p.words) r.viols
    let w (i : Nat) : Nat := r.words.getD i 0
    if !r.bad && w 0 / 2 ^ 63 == 1 && [w 1, w 2, w 3] == signature p then (m1, some (w 0 % 2 ^ 48, w 4)) else (m1, none)

/-- The moved solution, or the stamped one itself when `moved` is false: a translation failure of src or aux is a mismatch. -/
def Module.stamped (m : Module) (p : Problem) (moved : Bool) : Module × Option (List Nat × Nat) :=
  match m.stamp p with
  | (m1, none) => (m1, none)
  | (m1, some (src, lam)) =>
    let n := pdSize p.words
    let r := m1.engRead p.ctx src 8 n
    let w5 := p.shift.getD 0 0
    let aux := p.shift.getD 1 0
    let count := match w5 / 2 ^ 62 with | 0 => 0 | 1 => n | _ => (w5 / 2 ^ 57 % 32 + 1) ^ 2
    let a := m1.engRead p.ctx aux 8 (if moved then count else 0)
    let m2 := ((m1.lookAt (engWho p.ctx 2 false) [(src, 8 * n), (aux, if moved then 8 * count else 0)]).violateN p.ctx 2 src r.viols).violateN p.ctx 2 aux a.viols
    if r.bad || a.bad then (m2, none)
    else (m2, some (if moved then shiftOf w5 r.words a.words else r.words, lam))

/-! ### The work area (09 R199, Tables 9-6 and 9-13); the order of its parts is the model's (DESIGN CHOICE, log 40) -/

/-- The addresses of J, r and the trial x, and of the argument array of a batched group. -/
def workArea (d : List Nat) : Nat × Nat × Nat × Nat :=
  let w := pdWork d
  let n := pdN d
  let mm := pdM d
  match pdKind d with
  | 0 =>
    let p := if pdPair d then 2 else 1
    let r := w + 256 * (mm * n)
    let x := r + 256 * mm
    (w, r, x, x + 256 * ((2 + p) * n + (2 * p + 1) * n * n))
  | 1 =>
    let rows := 32 * ((mm + 31) / 32)
    let cols := 32 * ((n + 31) / 32)
    let rq := rows + (if pdLm d then cols else 0)
    if pdQr d then (w, w + 8 * (2 * rq * cols), w + 8 * (2 * rq * cols + 2 * rq), 0)
    else (w, w + 8 * (rows * cols), w + 8 * (rows * cols + rows), 0)
  | _ =>
    let k := mm * pdRpo d
    (w, w + 8 * (k * (pdBp d + pdBq d)), w + 8 * (k * (pdBp d + pdBq d + 1)), 0)

/-- The address of element i of the trial x of a lane; a batched group's lies as its r does (09 Table 9-6 gives r and J only: DEDUCED, log 40). -/
def trialAddr (d : List Nat) (lane i : Nat) : Nat :=
  let x := (workArea d).2.2.1
  if pdKind d = 0 then x + (i * 32 + lane) * 8 else x + i * 8

/-- Write +0 to the padding (09 R199). -/
def Module.zeroPadding (m : Module) (ctx : Nat) (d : List Nat) : Module :=
  if pdKind d != 1 then m
  else
    let (j, r, _, _) := workArea d
    let rows := 32 * ((pdM d + 31) / 32)
    let cols := 32 * ((pdN d + 31) / 32)
    let pads := (List.range rows).flatMap (fun i =>
      ((List.range cols).filter (fun c => decide (pdM d ≤ i) || decide (pdN d ≤ c))).map (fun c => j + (i * cols + c) * 8))
    let rp := ((List.range rows).filter (fun i => decide (pdM d ≤ i))).map (fun i => r + i * 8)
    m.engPut (engWho ctx 2 false) ((pads ++ rp).map (fun a => (a, 8, 0)))

/-- Read r and J of a lane and form its system (09 R201-R205, R210): the cost and the system. Padding counts as zero. -/
def Module.formLane (m : Module) (ctx lane : Nat) (p : Problem) : Module × Nat × NormEq :=
  let d := p.words
  let n := pdN d
  let mm := pdM d
  let (jb, rb, _, _) := workArea d
  match pdKind d with
  | 2 =>
    let bp := pdBp d
    let bq := pdBq d
    let rpo := pdRpo d
    let rr := m.readVals true ctx (consec rb (mm * rpo))
    let jr := rr.1.readVals true ctx (consec jb (mm * rpo * (bp + bq)))
    let obs := p.obs.zipIdx.map (fun (e, o) =>
      let base := o * rpo * (bp + bq)
      let blk (off b : Nat) : List (List Nat) :=
        (List.range b).map (fun j => (List.range rpo).map (fun q => jr.2.getD (base + off + q * b + j) 0))
      ({ point := e / 2 ^ 42, pose := e / 2 ^ 32 % 2 ^ 10, jp := blk 0 bp, jq := blk (rpo * bp) bq,
         r := (rr.2.drop (o * rpo)).take rpo } : ObsRow))
    (jr.1, sumsq rr.2, blockForm (pdPair d) n bp (pdNpts d) bq obs)
  | 1 =>
    let rows := 32 * ((mm + 31) / 32)
    let cols := 32 * ((n + 31) / 32)
    let rr := m.readVals true ctx (consec rb mm)
    let jr := rr.1.readVals true ctx ((List.range n).flatMap (fun j => (List.range mm).map (fun i => jb + (i * cols + j) * 8)))
    let js := (List.range n).map (fun j => padTo rows ((jr.2.drop (j * mm)).take mm))
    let r := padTo rows rr.2
    (jr.1, sumsq rr.2, if pdQr d then { a := [], g := [], pts := [], cols := js, r := r } else denseForm (pdPair d) n js r)
  | _ =>
    let rr := m.readVals true ctx ((List.range mm).map (fun i => rb + (i * 32 + lane) * 8))
    let jr := rr.1.readVals true ctx ((List.range n).flatMap (fun j =>
      (List.range mm).map (fun i => jb + ((i * n + j) * 32 + lane) * 8)))
    let js := (List.range n).map (fun j => (jr.2.drop (j * mm)).take mm)
    (jr.1, sumsq rr.2, batchForm (pdPair d) n js rr.2)

end Sys2Proof.Machine
end

