-- ==== Sys2Proof/Machine/CollCore.lean ====
section
/-! DEFINITION. What collectives share (14 R342-R362; 17 R422-R427): the fixed reduction tree, elements in memory, descriptors,
shard tables and layouts, messages, and Blanket copies. -/

namespace Sys2Proof.Machine

def Module.setCp (m : Module) (x : Cp) : Module := { m with cp := x }

/-! ### Elements and the reduction tree (14 Table 14-1, R350) -/

/-- Bytes of an element. -/
def elemBytes (dtype : Nat) : Nat := match dtype with | 0 => 4 | 1 => 8 | 2 => 8 | 3 => 16 | 4 => 2 | 5 => 4 | 6 => 8 | _ => 1

def isFloatType (dtype : Nat) : Bool := decide (dtype ≤ 4)

/-- A contribution widened exactly to F64P. -/
def widenElem (dtype x : Nat) : Pair :=
  match dtype with
  | 0 => { s := fp32.decode x, e := .zero }
  | 1 => { s := fp64.decode x, e := .zero }
  | 2 => (pairRound fp64 ((Pair.ofBits fp32 (x % 2 ^ 32) (x / 2 ^ 32)).value false)).1
  | 3 => unpackPair x
  | _ => { s := bf16.decode x, e := .zero }

/-- narrow: s + e rounded once to the type. -/
def narrowElem (dtype : Nat) (p : Pair) : Nat :=
  match dtype with
  | 0 => (fp32.round .rne 0 (p.value false).1).1
  | 1 => (fp64.round .rne 0 (p.value false).1).1
  | 2 => pairBits fp32 (pairRound fp32 (p.value false)).1
  | 3 => pairBits fp64 (pairRound fp64 (p.value false)).1
  | _ => (bf16.round .rne 0 (p.value false).1).1

/-- The identity of a pair sum (05 R119): (−0, +0). -/
def pairIdentity : Pair := { s := .fin true 0 0, e := .zero }

/-- One level of the tree: neighbours combined. -/
def pairUp : List Pair → List Pair
  | x :: y :: t => (pairAdd fp64 x y).1 :: pairUp t
  | l => l

/-- The tree of R350 over the contributions, padded with identities to a power of two; `fuel` bounds its height. -/
def pairTree : Nat → List Pair → Pair
  | 0, l => l.headD pairIdentity
  | fuel + 1, l =>
    match l with
    | [] => pairIdentity
    | [x] => x
    | _ => pairTree fuel (pairUp l)

/-- The smallest power of two at least n. -/
def pow2At (n : Nat) : Nat → Nat → Nat
  | 0, p => p
  | fuel + 1, p => if n ≤ p then p else pow2At n fuel (2 * p)

def sumTree (l : List Pair) : Pair := pairTree 17 (l ++ List.replicate (pow2At l.length 17 1 - l.length) pairIdentity)

/-- The smaller or larger of two pairs, normalized; a NaN gives way to a number, and two of them give the canonical NaN (03 R57, R77). -/
def pickPair (f : Fmt) (mx : Bool) (a b : FVal) : Nat :=
  let v := match cmpF a b with
    | none => if a.isNan then b else a
    | some o => if (if mx then o == .lt else o == .gt) then b else a
  pairBits f (pairRound f (v, fNone)).1

/-- A pair element as it stands in memory. -/
def rawPair (dtype x : Nat) : Pair := if dtype = 2 then Pair.ofBits fp32 (x % 2 ^ 32) (x / 2 ^ 32) else unpackPair x

/-- Choose the smaller or larger of two elements; a pair without a value gives the canonical NaN (03 R77). -/
def pickElem (dtype rop x y : Nat) : Nat :=
  let mx := rop == 2
  match dtype with
  | 0 => (fMinMax fp32 mx x y).1
  | 1 => (fMinMax fp64 mx x y).1
  | 4 => (fMinMax bf16 mx x y).1
  | 5 | 6 =>
    let w := 8 * elemBytes dtype
    if (if mx then decide (intOf true w x < intOf true w y) else decide (intOf true w y < intOf true w x)) then y else x
  | _ =>
    let f := if dtype = 2 then fp32 else fp64
    if (rawPair dtype x).invalid || (rawPair dtype y).invalid then pairBits f { s := .nan false, e := .zero }
    else pickPair f mx ((widenElem dtype x).value false).1 ((widenElem dtype y).value false).1

/-- The identity of min and max (05 R119): the infinity of the other end, or the integer of the other end. -/
def pickIdentity (dtype rop : Nat) : Nat :=
  let mx := rop == 2
  match dtype with
  | 0 => fp32.infBits mx
  | 1 => fp64.infBits mx
  | 2 => pairBits fp32 { s := .inf mx, e := .zero }
  | 3 => pairBits fp64 { s := .inf mx, e := .zero }
  | 4 => bf16.infBits mx
  | _ => let w := 8 * elemBytes dtype
         if mx then 2 ^ (w - 1) else 2 ^ (w - 1) - 1

/-- One level of the tree of minima or maxima. -/
def pickUp (dtype rop : Nat) : List Nat → List Nat
  | x :: y :: t => pickElem dtype rop x y :: pickUp dtype rop t
  | l => l

/-- The tree of R350 for min and max. `fuel` bounds its height. -/
def pickTree (dtype rop : Nat) : Nat → List Nat → Nat
  | 0, l => l.headD 0
  | fuel + 1, l => if l.length ≤ 1 then l.headD 0 else pickTree dtype rop fuel (pickUp dtype rop l)

/-- The reduction of one element's contributions in live-index order. -/
def reduceElem (dtype rop : Nat) (l : List Nat) : Nat :=
  match rop with
  | 0 =>
    if isFloatType dtype then narrowElem dtype (sumTree (l.map (widenElem dtype)))
    else l.foldl (fun s x => (s + x) % 2 ^ (8 * elemBytes dtype)) 0
  | 3 => l.foldl Nat.lor 0
  | _ =>
    let r := pickTree dtype rop 17 (l ++ List.replicate (pow2At l.length 17 1 - l.length) (pickIdentity dtype rop))
    if isFloatType dtype then narrowElem dtype (widenElem dtype r) else r

/-- Reduce lists of equal length element by element. -/
def reduceLists (dtype rop n : Nat) (ls : List (List Nat)) : List Nat :=
  (List.range n).map (fun i => reduceElem dtype rop (ls.map (fun l => l.getD i 0)))

/-! ### Elements in memory -/

/-- A collective processor acting in a context. -/
def collWho (ctx : Nat) : Who := engWho ctx 3 false

/-- Its control reads are latency-critical (12 R287). -/
def cpWho (ctx : Nat) : Who := engWho ctx 3 true

/-- Read elements in a context: a denied page reads zero and is counted (02 R49); what cannot be read is free (00 R1). -/
def Module.readElems (m : Module) (ctx va size n : Nat) : Module × List Nat :=
  (List.range n).foldl (fun (r : Module × List Nat) i =>
    let a := va + size * i
    let l := r.1.xlatRange ctx a size .load
    if !(faultsOf l).isEmpty || r.1.anyBad l then
      let x := r.1.freeWord
      let y := x.1.freeWord
      (y.1, r.2 ++ [(x.2.toNat + y.2.toNat * 2 ^ 64) % 2 ^ (8 * size)])
    else
      (if violsIn l then r.1.violate ctx 2 a else r.1, r.2 ++ [leVal (r.1.rangeBytes l)])) (m.look (collWho ctx) va (size * n), [])

/-- Write elements in a context: denied pages ignore theirs and are counted; an address that does not translate is not written. -/
def Module.writeElems (m : Module) (ctx va size : Nat) (vs : List Nat) : Module :=
  let es := vs.zipIdx.map (fun x => (va + size * x.2, m.xlatRange ctx (va + size * x.2) size .store, x.1))
  let ps := es.flatMap (fun e => rangePuts e.2.1 (leBytes size e.2.2))
  let m1 := m.lookWalks (collWho ctx) (es.map (fun e => e.1))
  let m2 := if ps.any (fun x => m.mustWait x.1) then m1.again else m1.putPieces (collWho ctx) ps
  m2.each (es.filter (fun e => violsIn e.2.1)) (fun m e => m.violate ctx 2 e.1)

/-- A range of a destination becomes undefined (00 R1). -/
def Module.freeElems (m : Module) (ctx va size n : Nat) : Module :=
  let r := (List.range n).foldl (fun (r : Module × List Nat) _ =>
    let x := r.1.freeWord
    let y := x.1.freeWord
    (y.1, r.2 ++ [(x.2.toNat + y.2.toNat * 2 ^ 64) % 2 ^ (8 * size)])) (m, [])
  r.1.writeElems ctx va size r.2

/-! ### Collective descriptors (14 Table 14-1): a list of 8 words -/

def Coll.w (c : Coll) (i : Nat) : Nat := c.words.getD i 0
def Coll.op (c : Coll) : Nat := c.w 0 / 2 ^ 56
def Coll.dtype (c : Coll) : Nat := c.w 0 / 2 ^ 52 % 16
def Coll.vc (c : Coll) : Nat := c.w 0 / 2 ^ 50 % 4
def Coll.rop (c : Coll) : Nat := c.w 0 / 2 ^ 48 % 4
def Coll.src (c : Coll) : Nat := c.w 1
def Coll.dst (c : Coll) : Nat := c.w 2
def Coll.epoch (c : Coll) : Nat := c.w 3 / 2 ^ 32
def Coll.step (c : Coll) : Nat := c.w 3 % 2 ^ 32
def Coll.sidx (c : Coll) : Nat := c.w 4 / 2 ^ 48
def Coll.pin (c : Coll) : Bool := c.w 4 / 2 ^ 47 % 2 == 1
def Coll.release (c : Coll) : Bool := c.w 4 / 2 ^ 46 % 2 == 1
def Coll.stats (c : Coll) : Bool := c.w 4 / 2 ^ 45 % 2 == 1
def Coll.nelem (c : Coll) : Nat := c.w 4 % 2 ^ 40
def Coll.completion (c : Coll) : Nat := c.w 5
def Coll.arg (c : Coll) : Nat := c.w 6
def Coll.cnt (c : Coll) : Nat := c.w 7 / 2 ^ 48
def Coll.result (c : Coll) : Nat := c.w 7 % 2 ^ 48
def Coll.size (c : Coll) : Nat := elemBytes c.dtype

def opGrad : Nat := 0x07
def opGather : Nat := 0x08
def opUnpin : Nat := 0x09
def opPermute : Nat := 0x0A

def Module.coll (m : Module) (id : Nat) : Option Coll := m.cp.colls.find? (fun c => c.id == id)

def Module.modColl (m : Module) (id : Nat) (f : Coll → Coll) : Module :=
  m.setCp { m.cp with colls := m.cp.colls.map (fun c => if c.id = id then f c else c) }

/-- The ranks that are live on this module (14 R343). -/
def Module.liveRanks (m : Module) (c : Coll) : List Nat :=
  (List.range c.group.length).filter (fun r => !m.routeLost (c.group.getD r 0))

def Module.myRank (m : Module) (c : Coll) : Nat := (c.group.takeWhile (fun d => d != m.myId)).length

/-- The live ranks other than this module's. -/
def Module.others (m : Module) (c : Coll) : List Nat := (m.liveRanks c).filter (fun r => r != m.myRank c)

/-- The live index of a rank. -/
def liveIndex (live : List Nat) (r : Nat) : Nat := (live.takeWhile (fun x => x != r)).length

/-! ### Messages -/

/-- The number of a message's collective on its group. -/
def msgSeq : CollMsg → Nat
  | .meet s .. => s
  | .bytes s .. => s
  | .closed s .. => s
  | .ackOwner s .. => s
  | .placed s => s
  | .ask s .. => s
  | .shard s .. => s
  | .layout s .. => s
  | .moved s .. => s
  | .restored s .. => s
  | .dead s => s
  | .askImage => 0

/-- The messages received from a device for a collective, latest first. -/
def Module.msgsOf (m : Module) (c : Coll) (dev : Nat) : List CollMsg :=
  ((m.cp.box.filter (fun b => b.src == dev && b.job == m.jobOf c.ctx && b.group == c.group && msgSeq b.msg == c.seq)).map
    (fun b => b.msg)).reverse

/-- The messages received from a rank. -/
def Module.msgsFrom (m : Module) (c : Coll) (rank : Nat) : List CollMsg := m.msgsOf c (c.group.getD rank 0)

/-- The oldest packet of a program's message from a device leaves the inbox (15 R389): its VC, when there is one. -/
def Module.takeMessage (m : Module) (src : Nat) : Module × Nat :=
  match m.fab.inbox.find? (fun x => x.2.src.toNat == src && decide (0x30 ≤ x.2.op.toNat) && decide (x.2.op.toNat < 0x40)) with
  | none => (m, 0)
  | some x => (m.setFab { m.fab with inbox := m.fab.inbox.erase x }, x.1)

/-- A message of a program leaves for a device: its packet is routed, held and credited as every packet is (13 R308, R327), and what it
says leaves with it. -/
def Module.emitMessage (m : Module) (vc dev job : Nat) (o : Output) : Module :=
  let m1 := m.sendMessage vc dev job
  if m.reachable dev then m1.emit o else m1

/-- Send a message to a device: to one that snuffed the job, the collective ends CTX_DEAD (15 R397). -/
def Module.collTo (m : Module) (c : Coll) (vc dev : Nat) (msg : CollMsg) : Module :=
  if m.fab.snuffed.contains (m.jobOf c.ctx, dev) then
    m.modColl c.id (fun x => if x.status.isSome then x else { x with status := some sCtxDead })
  else (m.touchDev c.ctx dev).emitMessage vc dev (m.jobOf c.ctx) (.coll vc dev (m.jobOf c.ctx) c.group msg)

/-- Send a message to a rank. -/
def Module.collSend (m : Module) (c : Coll) (vc rank : Nat) (msg : CollMsg) : Module := m.collTo c vc (c.group.getD rank 0) msg

/-- Send to every other live member. -/
def Module.collAll (m : Module) (c : Coll) (vc : Nat) (msg : CollMsg) : Module :=
  m.each (m.others c) (fun m r => m.collSend c vc r msg)

/-! ### Layouts and shards (14 R358, R359, R364) -/

/-- The layer whose first shard-table entry is `sidx`: its number of shards and its owners' devices. -/
def Layout.layer (l : Layout) (sidx : Nat) : Option (Nat × List Nat) :=
  let count := l.words.getD 0 0 % 2 ^ 16
  ((List.range count).find? (fun i => l.words.getD (4 + 8 * i) 0 / 2 ^ 48 == sidx)).map (fun i =>
    let ns := l.words.getD (4 + 8 * i) 0 / 2 ^ 40 % 16 + 1
    (ns, (List.range ns).map (fun j => l.group.getD (l.words.getD (8 + 8 * i + j / 4) 0 / 2 ^ (16 * (j % 4)) % 2 ^ 16) 0)))

def Module.layer (m : Module) (ctx sidx : Nat) : Option (Nat × List Nat) :=
  (SMap.get none m.cp.layouts ctx).bind (fun l => l.layer sidx)

/-- q of R359. -/
def shardQ (nelem ns : Nat) : Nat := (nelem + ns * 2048 - 1) / (ns * 2048) * 2048

/-- First element and element count of shard j. -/
def shardRange (nelem ns j : Nat) : Nat × Nat :=
  let q := shardQ nelem ns
  (j * q, min ((j + 1) * q) nelem - j * q)

def Module.stCount (m : Module) (ctx : Nat) : Nat :=
  if m.getF (Reg.FAB_CP_ST.base ctx) = 0 then 0 else m.getF (Reg.FAB_CP_ST.count_m1 ctx) + 1

def Module.stEntry (m : Module) (ctx i : Nat) : Nat := m.getF (Reg.FAB_CP_ST.base ctx) * 64 + 64 * i

/-- A shard-table entry's four words; what cannot be read reads zero. -/
structure Shard where
  w0 : Nat
  w1 : Nat
  w2 : Nat
  w3 : Nat

def Module.shard (m : Module) (ctx i : Nat) : Shard :=
  let r := m.engRead ctx (m.stEntry ctx i) 8 4
  let w (k : Nat) : Nat := if r.bad then 0 else r.words.getD k 0
  { w0 := w 0, w1 := w 1, w2 := w 2, w3 := w 3 }

def Shard.hlayer (s : Shard) : Nat := s.w0 / 2 ^ 48
def Shard.buf (s : Shard) (y : Bool) : Nat := if y then s.w1 % 2 ^ 48 else s.w0 % 2 ^ 48
def Shard.gen (s : Shard) (y : Bool) : Nat := if y then s.w2 % 2 ^ 32 else s.w2 / 2 ^ 32
def Shard.pins (s : Shard) (y : Bool) : Nat := if y then s.w3 / 2 ^ 32 % 2 ^ 16 else s.w3 / 2 ^ 48
/-- Does Y hold the newest generation? -/
def Shard.newestY (s : Shard) : Bool := decide (s.gen false < s.gen true)
def Shard.newest (s : Shard) : Nat := max (s.gen false) (s.gen true)

/-- Write the generation of one buffer. At a held channel a command is given again, and the write of an event that ends at once, the loss of
a holder, waits there (12 R293). -/
def Module.putGen (m0 : Module) (ctx i : Nat) (y : Bool) (g : Nat) : Module :=
  let s := m0.shard ctx i
  let m := m0.look (cpWho ctx) (m0.stEntry ctx i) 32
  let m1 := m.engPut (collWho ctx) [(m.stEntry ctx i + 16, 8, if y then s.gen false * 2 ^ 32 + g else g * 2 ^ 32 + s.gen true)]
  match m.ctxXlat ctx (m.stEntry ctx i + 16) .store with
  | .ok p _ => if m.mustWait p then m1.queueWrite (collWho ctx) [(p.plus (if y then 0 else 4), 4, g)] else m1
  | _ => m1

def Module.putPins (m0 : Module) (ctx i : Nat) (y : Bool) (p : Nat) : Module :=
  let s := m0.shard ctx i
  let m := m0.look (cpWho ctx) (m0.stEntry ctx i) 32
  m.engPut (collWho ctx) [(m.stEntry ctx i + 24, 8, if y then s.pins false * 2 ^ 48 + p * 2 ^ 32 else p * 2 ^ 48 + s.pins true * 2 ^ 32)]

/-- A Hamper layer descriptor's address and its words (11 R255); none when there is no such layer or it cannot be read. -/
def Module.layerVa (m : Module) (ctx layer : Nat) : Nat := m.getF (Reg.HMP_LT.base ctx) * 128 + 128 * layer

def Module.layerDesc (m : Module) (ctx layer : Nat) : Option (List Nat) :=
  if m.getF (Reg.HMP_LT.base ctx) = 0 || decide (m.getF (Reg.HMP_LT.count_m1 ctx) < layer) then none
  else
    let r := m.engRead ctx (m.layerVa ctx layer) 8 16
    if r.bad then none else some r.words

/-! ### The Blanket holder (17 R422) -/

/-- The port of a partner offset that has recorded a quad partner at that offset: a MISWIRE neighbour is none (13 Table 13-2, R322). -/
def Module.partnerPort (m : Module) (off : Nat) : Option Nat :=
  [2 * (off - 1), 2 * (off - 1) + 1].find? (fun p => (m.port p).seen && m.bit (Reg.FAB_PNBR.in_quad p) &&
    m.getF (Reg.FAB_PNBR.qpos p) == (m.getF Reg.FAB_QUAD.qpos + off) % 4)

/-- The device at a partner offset, when a port of Table 13-2 has recorded it. -/
def Module.partner (m : Module) (off : Nat) : Option Nat := (m.partnerPort off).map (fun p => m.getF (Reg.FAB_PNBR.device p))

def Module.blanketHolder (m : Module) : Option Nat :=
  if !m.bit Reg.FAB_QUAD.in_quad then none
  else ([1, 2, 3].filterMap m.partner).find? (fun d => !m.routeLost d)

/-- A shard's copy failed (R425): unprotected, counted, source 3. -/
def Module.copyFailed (m : Module) (ctx entry : Nat) : Module :=
  let h := m.hmp
  let m1 := m.setHmp { h with
    unprot := if h.unprot.contains (ctx, entry) then h.unprot else h.unprot ++ [(ctx, entry)],
    shards := h.shards.map (fun s => if s.ctx = ctx && s.entry = entry then { s with fulls := 2 } else s) }
  ((m1.addF Reg.HMP_BLK_CNT.failed 1).setF Reg.HMP_BLK_STAT.unprot m1.hmp.unprot.length).raise 3

/-- A shard of a collective is done at its owner (R353, R354): a new generation becomes the newest, or the skipped buffer is empty. -/
def Module.shardDone (m : Module) (ctx coll entry : Nat) (bufY : Bool) (gen : Nat) (skipped : Bool) : Module :=
  let m1 := m.putGen ctx entry bufY gen
  m1.modColl coll (fun c => { c with skipped := c.skipped || skipped,
                                     shards := c.shards.map (fun s => if s.entry = entry then { s with done := true } else s) })

/-- A copy in flight fails: the new generation takes effect without it. -/
def Module.dropCopy (m : Module) (c : BlanketCopy) : Module :=
  let m1 := m.setHmp { m.hmp with copies := m.hmp.copies.filter (fun x => x != c) }
  (m1.copyFailed c.ctx c.entry).shardDone c.ctx c.coll c.entry c.bufY c.gen false

/-- A copy in flight to a lost holder fails. HMP_BLK_STAT follows the holder; a change raises source 3 and makes the next two copies of
every shard full (R422, R425, R426). -/
def Module.holderCheck (m0 : Module) : Module :=
  let m := m0.each (m0.hmp.copies.filter (fun c => m0.routeLost c.holder)) Module.dropCopy
  let old := if m.bit Reg.HMP_BLK_STAT.hvalid then some (m.getF Reg.HMP_BLK_STAT.holder) else none
  let new := m.blanketHolder
  if old = new then m
  else
    let m1 := (m.setF Reg.HMP_BLK_STAT.hvalid (if new.isSome then 1 else 0)).setF Reg.HMP_BLK_STAT.holder (new.getD 0)
    (m1.setHmp { m1.hmp with shards := m1.hmp.shards.map (fun s => { s with fulls := 2 }) }).raise 3

/-! ### Hand-overs that end (14 R353) -/

/-- A collective's hand-over ended without a new generation: its buffer is empty, also when the collective has ended. `skipped`
says that the Hamper skipped the update. -/
def Module.handoverEmpty (m : Module) (ctx : Nat) (h : HandOver) (skipped : Bool) : Module :=
  if h.coll = 0 then m else m.shardDone ctx h.coll h.shard h.bufY 0 skipped

end Sys2Proof.Machine
end

