-- ==== Sys2Proof/Machine/Hamper.lean ====
section
/-! DEFINITION. The Hamper rows (11; 08 R173, R183-R187; 17 R423-R427): flash commands, step sizes, hand-overs, layer updates,
row state, its fault ring, and Blanket copies at the owner and at the holder. -/

namespace Sys2Proof.Machine

/-! ### Local flash (11 R250-R254) -/

def Module.flashCounts (m : Module) : Module := m.setF Reg.HMP_FLSTAT.outstanding m.hmp.flq.length

/-- Is a flash descriptor valid (Table 11-2)? -/
def flashValid (d : List Nat) : Bool :=
  let w (i : Nat) : Nat := d.getD i 0
  let op := w 0 / 2 ^ 62
  op != 0 && w 0 / 2 ^ 36 % 2 ^ 26 == 0 && decide (w 1 < 2 ^ 48) && w 1 % 4096 == 0 && (op != 3 || w 1 == 0) &&
  decide (w 2 < 2 ^ 32) && w 2 != 0 && decide (w 3 < 2 ^ 48) && w 3 % 32 == 0

/-- A write of HMP_FLSUB: the outcome in HMP_FLSTAT. A descriptor that cannot be read is malformed; a module out of service
refuses as a full queue does (DEDUCED, log 47). While submissions are held it is to be given again (18 R447). -/
def flashSubmit (ctx va : Nat) (m0 : Module) : Module :=
  let m := (m0.setF Reg.HMP_FLSUB.context ctx).setF Reg.HMP_FLSUB.va va
  let out (m : Module) (c : Nat) : Module := m.setF Reg.HMP_FLSTAT.outcome c
  if m0.subHeld then m0
  else if va % 32 != 0 then out (m.violate ctx 2 va) 2
  else
    let (d, bad, viol) := m.descRead ctx va 4
    let m := m.look (hmpWho ctx) va 32
    if bad || viol || !flashValid d then out (m.violate ctx 2 va) 2
    else if m.oos || decide (256 ≤ m.hmp.flq.length) then out m 1
    else out (m.setHmp { m.hmp with flq := m.hmp.flq ++ [{ ctx := ctx, words := d }] }).flashCounts 0

def execFlashSubmit (ctx : Fin 64) (va : BitVec 48) (s : State) : Host.Outcome State Fault Refusal :=
  s.goBar (fun m => m.whenOpen (flashSubmit ctx.val va.toNat))

/-- The bytes of flash, by the order number (Table 11-1, Table 11-10). -/
def Module.flashEnd (m : Module) : Nat := m.getF Reg.HMP_ID.flash_tib * 2 ^ 40

/-- Store 8 bytes in flash. Beyond the last byte nothing is stored, so that an extent which runs past it reads zero there
(DESIGN CHOICE, log 64). -/
def Module.flashPut (m : Module) (fa v : Nat) : Module :=
  if m.flashEnd < fa + 8 then m else m.setMs { m.ms with flash := Memory.write m.ms.flash fa 8 v }

/-- One 8-byte word that a flash command moves out of memory (op 1) or trims (op 3); `bad` leaves the block undefined. -/
def Module.flashWord (m : Module) (ctx op va fa : Nat) (bad : Bool) : Module :=
  if bad then (let x := m.freeWord; x.1.flashPut fa x.2.toNat)
  else if op = 3 then m.flashPut fa 0
  else match m.ctxXlat ctx va .load with
    | .ok p _ => m.flashPut fa (m.readPlace p 8)
    | _ => m.flashPut fa 0

/-- The words that a flash command moves into memory (op 2), each with its address: what a failed part receives is free. -/
def Module.flashWords (m : Module) (va fa n : Nat) (bad : Nat → Bool) : Module × List (Nat × Nat × Nat) :=
  (List.range n).foldl (fun (r : Module × List (Nat × Nat × Nat)) i =>
    if bad i then (let x := r.1.freeWord; (x.1, r.2 ++ [(va + 8 * i, 8, x.2.toNat)]))
    else (r.1, r.2 ++ [(va + 8 * i, 8, Memory.read r.1.ms.flash (fa + 8 * i) 8)])) (m, [])

def isOkX : Xlat → Bool
  | .ok .. => true
  | _ => false

/-- Does a range meet a failure: a page that fails translation, or, when it is read, a poisoned sector (R254)? -/
def Module.rangeFails (m : Module) (ctx va len : Nat) (acc : Access) : Bool :=
  (sectorCuts va len).any (fun q =>
    match m.ctxXlat ctx q.1 acc with
    | .fault _ => true
    | .ok p _ => acc == .load && m.badPlace p q.2
    | .viol => false)

/-- The oldest command of a context finishes; bit j of `fail` marks a media failure of sixty-fourth j (R253, R254). -/
def flashCommandComplete (ctx fail : Nat) (m : Module) : Module :=
  match m.hmp.flq.find? (fun c => c.ctx == ctx) with
  | none => m
  | some c =>
    let m0 := (m.setHmp { m.hmp with flq := m.hmp.flq.erase c }).flashCounts
    let w (i : Nat) : Nat := c.words.getD i 0
    let op := w 0 / 2 ^ 62
    let off := w 0 % 2 ^ 36
    let va := w 1
    let len := w 2
    let size := m.getF (Reg.HMP_FLEXT.size ctx) * 2 ^ 18
    if size < off + len then
      ((m0.violate ctx 2 va).complete ctx (w 3) sViolation 7 0 0).raise 227
    else
      let base := m.getF (Reg.HMP_FLEXT.base ctx) * 2 ^ 30 + off * 4096
      let acc : Access := if op = 1 then .load else .store
      let failed (j : Nat) : Bool := Nat.testBit fail j || (op != 3 && m.rangeFails ctx (va + 64 * len * j) (64 * len) acc)
      let bits := (List.range 64).filter failed
      let viols := if op = 3 then [] else
        (List.range len).filter (fun i => match m.ctxXlat ctx (va + i * 4096) acc with | .viol => true | _ => false)
      let bad (i : Nat) : Bool := bits.contains (8 * i / (64 * len))
      let m1 :=
        if op = 2 then
          let r := m0.flashWords va base (512 * len) bad
          r.1.engPut (hmpWho ctx) (r.2.filter (fun x => isOkX (m.ctxXlat ctx x.1 .store)))
        else
          (if op = 1 then m0.look (hmpWho ctx) va (4096 * len) else m0).each (List.range (512 * len))
            (fun m i => m.flashWord ctx op (va + 8 * i) (base + 8 * i) (bad i))
      let m2 := m1.each viols (fun m i => m.violate ctx 2 (va + i * 4096))
      let good := (List.range len).filter (fun i =>
        !bits.any (fun j => decide (64 * len * j < 4096 * (i + 1)) && decide (4096 * i < 64 * len * (j + 1))))
      let m3 := m2.complete ctx (w 3) (if bits.isEmpty then sDone else sPartFailed) 7 good.length
        (bits.foldl (fun b j => b + 2 ^ j) 0)
      if bits.isEmpty then m3 else m3.raise 227

def execFlashCommandComplete (ctx : Fin 64) (fail : BitVec 64) (s : State) : Host.Outcome State Fault Refusal :=
  s.go (fun m => m.whenOpen (flashCommandComplete ctx.val fail.toNat))

/-! ### Step sizes, row state, resume, the fault ring (11 R256, R265, R269) -/

def hmpStepWrite (ctx : Nat) (v : Word) (m : Module) : Module :=
  let step := v.toNat / 2 ^ 32
  let m1 := (m.setF (Reg.HMP_STEP.step ctx) step).setF (Reg.HMP_STEP.size ctx) (v.toNat % 2 ^ 32)
  m1.setHmp { m1.hmp with steps := SMap.set none m1.hmp.steps (ctx * 4 + step % 4) (some (step, v.toNat % 2 ^ 32)) }

def execHmpStepWrite (ctx : Fin 64) (v : Word) (s : State) : Host.Outcome State Fault Refusal := s.goBar (hmpStepWrite ctx.val v)

/-- The step size of a step, when a slot of the context is tagged with it. -/
def Module.stepSize (m : Module) (ctx step : Nat) : Option Nat :=
  match SMap.get none m.hmp.steps (ctx * 4 + step % 4) with
  | some (s, v) => if s = step then some v else none
  | none => none

/-- A write of HMP_RSWINn zeroes every entry of the new window. -/
def hmpRswinWrite (ctx : Nat) (v : Word) (m : Module) : Module :=
  let m1 := (m.setF (Reg.HMP_RSWIN.base ctx) (v.toNat / 2 ^ 32)).setF (Reg.HMP_RSWIN.count ctx) v.toNat
  let (b, c) := m1.rsWindow ctx
  m1.setHmp { m1.hmp with rowState := SMap.keep m1.hmp.rowState (fun k => decide (k < b) || decide (b + c ≤ k)) }

def execHmpRswinWrite (ctx : Fin 64) (v : Word) (s : State) : Host.Outcome State Fault Refusal := s.goBar (hmpRswinWrite ctx.val v)

/-- A read, or a write of a value, of HMP_RS_DATA. -/
def hmpRsDataAccess (write : Option Word) (m : Module) : Module :=
  let i := m.getF Reg.HMP_RS_ADDR.index
  let m1 := match write with
    | none => m.readOut 0x1800028 (SMap.get 0 m.hmp.rowState i).toNat
    | some v =>
      let m := m.endCapture 0x1800028
      if m.getF Reg.HMP_STAT.active != 0 then m
      else m.setHmp { m.hmp with rowState := SMap.set 0 m.hmp.rowState i v }
  m1.setF Reg.HMP_RS_ADDR.index (i + 1)

def execHmpRsDataAccess (write : Option Word) (s : State) : Host.Outcome State Fault Refusal := s.goBarAs write.isNone (hmpRsDataAccess write)

/-- A stopped thread of an update core runs again at its instruction (02 R52). -/
def hmpResume (core thread : Nat) (m : Module) : Module :=
  let k := (2048 + core) * 8 + thread
  let t := m.th k
  if t.run = .stopped then
    let m1 := (m.setTh k { t with run := .running }).wake 5 t.ctx
    m1.setCore (k / 8) { m1.core (k / 8) with clockOn := true }
  else m

def execHmpResume (core : Fin 32) (thread : Fin 8) (s : State) : Host.Outcome State Fault Refusal :=
  s.goBar (hmpResume core.val thread.val)

/-- Write the waiting records while the Hamper ring has room (02 R53). -/
def Module.drainHmp (m : Module) : Nat → Module
  | 0 => m
  | fuel + 1 =>
    match m.hmp.waitRecs with
    | [] => m
    | r :: t => if m.hmpRingFull then m else Module.drainHmp ((m.setHmp { m.hmp with waitRecs := t }).putHmpRecord r) fuel

def hmpFptrTailWrite (v : Nat) (m : Module) : Module := (m.setF Reg.HMP_FPTR.tail v).drainHmp m.hmp.waitRecs.length

def execHmpFptrTailWrite (v : BitVec 32) (s : State) : Host.Outcome State Fault Refusal := s.goBar (hmpFptrTailWrite v.toNat)

/-! ### The die-to-die link (11 R248) -/

def d2dRetrain (m : Module) : Module := if m.hmp.d2dUp then m.addF Reg.HMP_D2D.retrains 1 else m
def execD2dRetrain (s : State) : Host.Outcome State Fault Refusal := s.go d2dRetrain

def flitReplay (m : Module) : Module := if m.hmp.d2dUp then m.addF Reg.HMP_D2D.replays 1 else m
def execFlitReplay (s : State) : Host.Outcome State Fault Refusal := s.go flitReplay

/-! ### Hand-overs (11 R257-R259) -/

/-- HMP_STAT: hand-overs waiting and updates running. -/
def Module.hmpCounts (m : Module) : Module :=
  (m.setF Reg.HMP_STAT.held m.hmp.queue.length).setF Reg.HMP_STAT.active m.hmp.upd.length

/-- The hand-over of a layer that may be handled: no earlier one of its layer waits, and no update of it runs. -/
def Module.handable (m : Module) (h : HandOver) : Bool :=
  !m.hmp.upd.any (fun u => u.ctx == h.ctx && u.layer == h.layer) &&
  (m.hmp.queue.find? (fun x => x.ctx == h.ctx && x.layer == h.layer)) == some h

/-- A valid descriptor of the hand-over's layer. -/
def Module.handDesc (m : Module) (h : HandOver) : Option (List Nat) :=
  (m.layerDesc h.ctx h.layer).bind (fun d => if m.ldValid h.ctx d then some d else none)

/-- Is a hand-over a repeat (R259, exception 3)? -/
def isRepeat (d : List Nat) (h : HandOver) : Bool :=
  let diff := (h.step + 2 ^ 32 - ldWord13 d / 2 ^ 32) % 2 ^ 32
  ldWord13 d % 2 == 1 && (diff == 0 || decide (2 ^ 31 ≤ diff))

def Module.dropHand (m : Module) (h : HandOver) : Module :=
  (m.setHmp { m.hmp with queue := m.hmp.queue.erase h }).hmpCounts

/-- Does a hand-over end at once: one without a valid descriptor, or a repeat? Every hand-over waits while HMP_CTRL.accept = 0 or no HMP_STEPn
slot is tagged with its step (R259). -/
def Module.endsAtOnce (m : Module) (h : HandOver) : Bool :=
  m.bit Reg.HMP_CTRL.accept && m.handable h && (m.stepSize h.ctx h.step).isSome &&
  (match m.handDesc h with | none => true | some d => isRepeat d h)

/-- Finish the hand-overs that end at once. `fuel` bounds the queue. -/
def Module.handSettle (m : Module) : Nat → Module
  | 0 => m
  | fuel + 1 =>
    match m.hmp.queue.find? m.endsAtOnce with
    | none => m.hmpCounts
    | some h =>
      let m1 := m.dropHand h
      let m2 := match m.handDesc h with
        | none => ((m1.complete h.ctx h.completion sViolation 6 0 0).violate h.ctx 2 h.completion).handoverEmpty h.ctx h true
        | some _ => (m1.complete h.ctx h.completion 2 6 0 0).handoverEmpty h.ctx h false
      Module.handSettle m2 fuel

/-- A posted record reaches the queue, which holds 1,024 (R259); one with a misaligned completion address starts nothing (15
R387). -/
def handoverRecord (m : Module) : Module :=
  match m.hmp.posted with
  | [] => m
  | h :: rest =>
    if !m.hmp.d2dUp || m.oos || m.subHeld || decide (1024 ≤ m.hmp.queue.length) then m
    else
      let m1 := m.setHmp { m.hmp with posted := rest }
      if h.completion % 32 != 0 then (m1.violate h.ctx 2 h.completion).handoverEmpty h.ctx h true
      else
        let m2 := m1.setHmp { m1.hmp with queue := m1.hmp.queue ++ [h] }
        m2.handSettle m2.hmp.queue.length

def execHandoverRecord (s : State) : Host.Outcome State Fault Refusal := s.go (fun m => m.whenOpen handoverRecord)

/-! ### Starting a layer update (11 R256, R259, R264, R268, R271; 08 R173) -/

/-- The statistics record, descriptor word 13 and the completion record of a layer that runs no pass (R263, R271). -/
def Module.skipLayer (m : Module) (h : HandOver) (d : List Nat) (outcome status : Nat) : Module :=
  let m1 := m.engPutSeq (hmpWho h.ctx) (ldStat d) 8 [h.step * 2 ^ 32 + h.layer, outcome * 2 ^ 56, 0, 0, 0, 0, h.cnt * 2 ^ 48, 0]
  let m2 := m1.engPut (hmpWho h.ctx) [(m.layerVa h.ctx h.layer + 104, 8, h.step * 2 ^ 32 + 1)]
  let m3 := m2.complete h.ctx h.completion status 6 0 0
  ((m3.raise 225).addF Reg.HMP_CNT.skipped 1).handoverEmpty h.ctx h true

/-- The addresses at which a range enters a page. -/
def pagesOf (va len : Nat) : List Nat :=
  if len = 0 then []
  else va :: (List.range ((va + len - 1) / 2 ^ 21 - va / 2 ^ 21)).map (fun i => (va / 2 ^ 21 + i + 1) * 2 ^ 21)

/-- The ranges that a layer streams. -/
def streamed (d : List Nat) (h : HandOver) (rows : List Nat) : List (Nat × Nat) :=
  let len := if ldEmbed d then ldRowLen d else ldNelem d
  let parts := if ldEmbed d then rows.map (fun r => r * ldRowLen d) else [0]
  (h.grad, 4 * (if ldEmbed d then rows.length * ldRowLen d else ldNelem d)) ::
    parts.flatMap (fun p => [(ldWeight d + 2 * p, 2 * len), (ldRem d + p, len)] ++
      (List.range (ldNmom d)).map (fun j => (ldMom d j + 4 * p, 4 * len)))

def isFaultX : Xlat → Bool
  | .fault _ => true
  | _ => false

/-- An update core of a context: its store is zeroed when another context used it last (02 R26). -/
def Module.takeUpdateCore (m : Module) (core ctx : Nat) : Module :=
  let who := (ctx, (m.ctx ctx).gen)
  let ck := 2048 + core
  let c := m.core ck
  let base := core * storeBytes
  let m1 := if c.last = some who then m else
    m.setMs { m.ms with hstore := m.ms.hstore.filter (fun e => !(decide (base ≤ e.1) && decide (e.1 < base + storeBytes))) }
  m1.setCore ck { c with last := some who, clockOn := true, tlb := if c.last = some who then c.tlb else [] }

def Module.freeUpdateCores (m : Module) : List Nat :=
  (List.range 32).filter (fun c => !m.hmp.upd.any (fun u => u.cores.contains c))

/-- A reserved field of a GNW (08 Table 8-1, R173). -/
def gnwReserved (g : Nat) : Bool := g / 2 ^ 56 % 2 ^ 6 != 0 || g / 2 ^ 32 % 2 ^ 16 != 0

/-- Can a hand-over start now: handable, accepted, with its step's slot, an update free and cores free (R259)? -/
def Module.handReady (m : Module) (h : HandOver) : Bool :=
  m.handable h && m.bit Reg.HMP_CTRL.accept && (m.stepSize h.ctx h.step).isSome && decide (m.hmp.upd.length < 32) &&
  (match m.handDesc h with | none => false | some d => decide (ldCores d ≤ m.freeUpdateCores.length))

/-- The Hamper finishes the hand-overs that end at once, or else starts the first ready one, or skips its layer. -/
def layerUpdateStart (m : Module) : Module :=
  if m.subHeld then m
  else if (m.hmp.queue.find? m.endsAtOnce).isSome then m.handSettle m.hmp.queue.length
  else match m.hmp.queue.find? m.handReady with
  | none => m
  | some h =>
    match m.handDesc h with
    | none => m
    | some d =>
      let m1 := (m.look (hmpWho h.ctx) (m.layerVa h.ctx h.layer) 128).dropHand h
      let m2 := if gnwReserved h.gnw then m1.violate h.ctx 2 h.grad else m1
      let stash := h.gnw / 2 ^ 62 % 2 == 1
      let done (m : Module) : Module := m.handSettle m.hmp.queue.length
      if stash then done (m2.skipLayer h d 2 sDone)
      else if h.gnw / 2 ^ 63 % 2 == 1 || gnwReserved h.gnw then done (m2.skipLayer h d 1 sDone)
      else
        let list := if ldEmbed d then m2.engRead h.ctx h.rowlist 4 h.nrows else { words := [], bad := false, viols := 0 }
        let rows := list.words
        let m3 := (m2.look (hmpWho h.ctx) h.rowlist (if ldEmbed d then 4 * h.nrows else 0)).violateN h.ctx 2 h.rowlist list.viols
        if list.bad then done (m3.skipLayer h d 3 sPartFailed)
        else if !(rows.all (fun r => decide (r < ldRows d)) && (rows.zip (rows.drop 1)).all (fun p => decide (p.1 < p.2))) then
          done ((m3.violate h.ctx 2 h.rowlist).skipLayer h d 4 sViolation)
        else if (streamed d h rows).any (fun r => (pagesOf r.1 r.2).any (fun a => isFaultX (m3.ctxXlat h.ctx a .load))) then
          done (m3.skipLayer h d 3 sPartFailed)
        else
          let cores := m3.freeUpdateCores.take (ldCores d)
          let u : Upd := { id := m3.hmp.nextUpd, ctx := h.ctx, gen := (m3.ctx h.ctx).gen, layer := h.layer, hand := h, desc := d,
                           rowlist := rows, cores := cores, stepSize := (m3.stepSize h.ctx h.step).getD 0, pass := 0, next := 0,
                           running := [], stats := [], media := false }
          let m4 := m3.setHmp { m3.hmp with upd := m3.hmp.upd ++ [u], nextUpd := u.id + 1 }
          (m4.each cores (fun m c => m.takeUpdateCore c h.ctx)).hmpCounts

def execLayerUpdateStart (s : State) : Host.Outcome State Fault Refusal := s.go (fun m => m.whenOpen layerUpdateStart)

/-! ### Chunks (11 R260, R264, R270) -/

def Module.modUpd (m : Module) (id : Nat) (f : Upd → Upd) : Module :=
  m.setHmp { m.hmp with upd := m.hmp.upd.map (fun u => if u.id = id then f u else u) }

/-- Write a buffer of FP32 values in an update core's store. -/
def Module.putBuf (m : Module) (core off : Nat) (vs : List Nat) : Module :=
  (vs.foldl (fun (r : Module × Nat) v => (r.1.hsWrite core r.2 4 v, r.2 + 4)) (m, off)).1

/-- Load a chunk's buffers and start its thread; an uncorrectable error stops the layer (R270). -/
def Module.startChunk (m : Module) (u : Upd) (core t : Nat) : Module :=
  let c := u.next
  let n := u.chunkLen c
  let gb := u.gradBase c
  let eb := u.elemBase c
  let d := u.desc
  let g := m.streamIn u.ctx (u.hand.grad + 4 * gb) 4 n
  let w := m.streamIn u.ctx (ldWeight d + 2 * eb) 2 n
  let r := if u.lastPass then m.streamIn u.ctx (ldRem d + eb) 1 n else { words := List.replicate n 0, bad := false, viols := 0 }
  let ms := (List.range (ldNmom d)).map (fun j => m.streamIn u.ctx (ldMom d j + 4 * eb) 4 n)
  let m := m.lookAt (hmpWho u.ctx) ([(u.hand.grad + 4 * gb, 4 * n), (ldWeight d + 2 * eb, 2 * n)] ++
    (if u.lastPass then [(ldRem d + eb, n)] else []) ++ (List.range (ldNmom d)).map (fun j => (ldMom d j + 4 * eb, 4 * n)))
  if g.bad || w.bad || r.bad || ms.any (fun x => x.bad) then m.modUpd u.id (fun u => { u with media := true, next := u.chunks })
  else
    let m1 := m.violateN u.ctx 2 (u.hand.grad + 4 * gb) (g.viols + w.viols + r.viols + ms.foldl (fun s x => s + x.viols) 0)
    let k := gnwK u.hand.gnw
    let m5 := m1.putBuf core (bufBase t) (g.words.map (deliverGrad k))
    let m6 := m5.putBuf core (bufBase t + 2 ^ 13) ((w.words.zip r.words).map (fun p => wEff p.1 p.2))
    let m7 := m6.each ms.zipIdx (fun m (x, j) => m.putBuf core (bufMom t j) x.words)
    let row := u.row c
    let e := SMap.get 0 m.hmp.rowState ((m.rsWindow u.ctx).1 + ldRsBase d + row)
    let old := e.toNat % 2 ^ 32
    let count := if ldEmbed d then (old + 1) % 2 ^ 32 else 0
    let since := if ldEmbed d && old != 0 then (u.hand.step + 2 ^ 32 - e.toNat / 2 ^ 32) % 2 ^ 32 else 0
    let regs := [(1, ldArg d), (2, c), (3, n), (4, windowBase + bufBase t), (5, windowBase + bufBase t + 2 ^ 13),
      (6, windowBase + bufX t), (7, windowBase + bufMom t 0), (8, u.stepSize), (9, u.hand.step), (10, u.hand.cnt), (11, u.pass),
      (12, count), (13, since), (14, u.layer)]
    let key := (2048 + core) * 8 + t
    let run : ChunkRun := { chunk := c, thread := key, row := row, count := count, old := w.words.zip r.words }
    (m7.modUpd u.id (fun u => { u with next := c + 1, running := u.running ++ [run] })).startThread key u.ctx (ldProg d) regs
      (.chunk u.id c)

/-- The engine starts the next chunk of the layer that owns an update core, when that chunk is the core's and a thread is free. -/
def chunkThreadStart (core : Nat) (m : Module) : Module :=
  match m.hmp.upd.find? (fun u => u.cores.contains core) with
  | none => m
  | some u0 =>
    let passEnd := u0.next == u0.chunks && u0.running.isEmpty && !u0.media && !u0.lastPass
    let u := if passEnd then { u0 with pass := u0.pass + 1, next := 0 } else u0
    let m := if passEnd then m.modUpd u.id (fun _ => u) else m
    if u.chunks ≤ u.next || u.cores.getD (u.next % u.cores.length) 0 != core then m
    else
      match (List.range 8).find? (fun t => !m.busy ((2048 + core) * 8 + t)) with
      | none => m
      | some t => m.startChunk u core t

def execChunkThreadStart (core : Fin 32) (s : State) : Host.Outcome State Fault Refusal := s.go (fun m => m.whenOpen (chunkThreadStart core.val))

/-! ### Statistics (08 R186, R187; 11 R267) -/

/-- The partial sums of squares of a layer's elements, by lane: registers of 64 elements in ascending order, each product a pair of
vfmul.p, added to its lane's pair by vpadd (08 R186; 07 line 186). Every lane starts at +0, and a register holds 64 consecutive elements
of the layer (DESIGN CHOICE, log 70). -/
def squareLane (l : List Nat) (lane : Nat) : Pair :=
  (List.range ((l.length + 63) / 64)).foldl (fun (p : Pair) r =>
    match l[64 * r + lane]? with
    | some x => (pairAdd fp32 p (twoProd fp32 (fp32.decode x) (fp32.decode x)).1).1
    | none => p) { s := .zero, e := .zero }

/-- The sum of squares of FP32 values: the 64 lanes closed by vredsum.p (05 R119), widened exactly and rounded once to FP64 (R267). -/
def sumSquares (l : List Nat) : Nat :=
  let r := (treeFold (pairAdd fp32) 6 ((List.range 64).map (squareLane l))).1
  bits64 ((r.headD { s := .zero, e := .zero }).value false).1

/-- ρ = sqrt(D2 / W2) rounded once to FP32; with W2 = 0 it is +∞ when D2 > 0 and 0 otherwise, also when D2 is a NaN (08 Table 8-5). -/
def ratio (d2 w2 : Nat) : Nat :=
  match val64 d2, val64 w2 with
  | .fin _ md ed, .fin _ mw ew =>
    if mw = 0 then (if md = 0 then 0 else fp32.infBits false)
    else if md = 0 then 0
    else
      let e := ed - ew
      let k : Nat := 64
      -- md × 2^e / mw = q × 2^(e' − 2k), with e' even
      let odd := e % 2 != 0
      let num := md * 2 ^ (2 * k + (if odd then 1 else 0)) * 2 ^ 128
      let e' := (if odd then e - 1 else e)
      let s := isqrt (num / mw)
      (fp32.roundFin .rne 0 false s (e' / 2 - (k : Int) - 64) (s * s * mw != num)).1
  | .nan _, .fin _ 0 _ => 0
  | x, y =>
    let q := fDiv fp64 .rne (bits64 x) (bits64 y)
    (fp32.round .rne 0 (val64 (fSqrt fp64 .rne q.1).1)).1

/-- x > y for FP32 bits. -/
def above32 (x y : Nat) : Bool := cmpF (fp32.decode x) (fp32.decode y) == some .gt

/-- The statistics of the elements that a layer updated. -/
structure LayerStats where
  n : Nat
  w2 : Nat
  d2 : Nat
  rho : Nat
  stall : Nat
  sat : Nat
  of : Bool

def layerStats (es : List ElemStat) : LayerStats :=
  let eff (e : ElemStat) : Nat := wEff e.w e.r
  let w2 := sumSquares (es.map eff)
  let d2 := sumSquares (es.map (fun e => (fArith fp32 .sub .rne 0 e.x (eff e) 0).1))
  { n := es.length, w2 := w2, d2 := d2, rho := ratio d2 w2,
    stall := (es.filter (fun e => cmpF (fp32.decode e.x) (fp32.decode (eff e)) != some .eq && e.w' == e.w && e.r' == e.r)).length,
    sat := (es.filter (fun e => e.sat)).length,
    of := es.any (fun e => !(fp32.decode e.x).isFin || !(bf16.decode e.w').isFin) }

/-- A consecutive count of word 13 after a step, and whether its flag is set. The count stops at 255, the most that its field holds (the spec
states neither a wrap nor a stop there; DESIGN CHOICE, log 77). -/
def runCount (holds : Bool) (old run dflt : Nat) : Nat × Bool :=
  let c := if holds then min 255 (old + 1) else 0
  (c, holds && decide ((if run = 0 then dflt else run) ≤ c))

/-! ### Blanket copies at the owner (17 R423-R426) -/

/-- A unit of a copy read from the owner's memory. -/
def Module.readUnit (m : Module) (ctx : Nat) (d : List Nat) (row first len : Nat) : Module × BlanketUnit :=
  let w := m.readElems ctx (ldWeight d + 2 * first) 2 len
  let r := w.1.readElems ctx (ldRem d + first) 1 len
  let ms := (List.range (ldNmom d)).foldl (fun (a : Module × List (List Nat)) j =>
    let x := a.1.readElems ctx (ldMom d j + 4 * first) 4 len
    (x.1, a.2 ++ [x.2])) (r.1, [])
  (ms.1, { row := row, weights := w.2, rem := r.2, moms := ms.2,
           rowState := if ldEmbed d then SMap.get 0 m.hmp.rowState ((m.rsWindow ctx).1 + ldRsBase d + row) else 0 })

def Module.blanketShard (m : Module) (ctx entry : Nat) : BlanketShard :=
  (m.hmp.shards.find? (fun s => s.ctx == ctx && s.entry == entry)).getD { ctx := ctx, entry := entry, fulls := 2, prev := [] }

/-- The copy of a shard after an update of outcome 0 starts, as a message on VC3, or the new generation takes effect at once; a copy to
a holder that snuffed the job fails (15 R397). -/
def Module.blanketStart (m : Module) (u : Upd) (word13 : Nat) : Module :=
  let entry := u.hand.shard
  let y := u.hand.bufY
  let gen := u.hand.gen + 1
  if !Nat.testBit (m.getF Reg.HMP_BLK_EN.ctx) u.ctx then m.shardDone u.ctx u.hand.coll entry y gen false
  else
    match m.blanketHolder with
    | none => (m.copyFailed u.ctx entry).shardDone u.ctx u.hand.coll entry y gen false
    | some holder =>
      let d := u.desc
      let b := m.blanketShard u.ctx entry
      let all := b.fulls != 0
      let rows := if !ldEmbed d then [0]
        else if all then List.range (ldRows d)
        else (List.range (ldRows d)).filter (fun r => u.rowlist.contains r || b.prev.contains r)
      let r := rows.foldl (fun (a : Module × List BlanketUnit) row =>
        let x := if ldEmbed d then a.1.readUnit u.ctx d row (row * ldRowLen d) (ldRowLen d) else a.1.readUnit u.ctx d 0 0 (ldNelem d)
        (x.1, a.2 ++ [x.2])) (m, [])
      let msg : BlanketMsg := { owner := BitVec.ofNat 16 m.myId, job := BitVec.ofNat 32 (m.jobOf u.ctx), sidx := BitVec.ofNat 16 entry,
                                kind := if ldEmbed d then 1 else 0, nmom := BitVec.ofNat 4 (ldNmom d),
                                nelem := BitVec.ofNat 40 (if ldEmbed d then ldRows d * ldRowLen d else ldNelem d),
                                gen := BitVec.ofNat 32 gen, step := BitVec.ofNat 32 u.hand.step, word13 := BitVec.ofNat 64 word13,
                                rowsAll := if ldEmbed d then ldRows d else 0, full := all, units := r.2 }
      if m.fab.snuffed.contains (m.jobOf u.ctx, holder) then
        (r.1.copyFailed u.ctx entry).shardDone u.ctx u.hand.coll entry y gen false
      else
      let h := r.1.hmp
      let m1 := r.1.setHmp { h with
        copies := h.copies ++ [{ ctx := u.ctx, coll := u.hand.coll, entry := entry, gen := gen, bufY := y, holder := holder, bank := m.lmp.bank }],
        shards := h.shards.filter (fun x => !(x.ctx == u.ctx && x.entry == entry)) ++ [{ b with fulls := b.fulls - 1, prev := u.rowlist }] }
      (m1.touchDev u.ctx holder).emitMessage 3 holder (m.jobOf u.ctx) (.blanket holder msg)

/-! ### The end of a layer update (11 R263, R267, R270; 08 R187) -/

/-- Is an update complete: its last pass has run, or an error stopped it, and no chunk runs? -/
def Upd.complete (u : Upd) : Bool := u.running.isEmpty && decide (u.chunks ≤ u.next) && (u.media || u.lastPass || u.chunks == 0)

def layerUpdateEnd (m : Module) : Module :=
  match m.hmp.upd.find? Upd.complete with
  | none => m
  | some u =>
    let d := u.desc
    let h := u.hand
    let es := (List.range u.chunks).flatMap (fun c => ((u.stats.find? (fun s => s.1 == c)).map (fun s => s.2)).getD [])
    let st := layerStats es
    let w11 := d.getD 11 0
    let w12 := d.getD 12 0
    let dflt (v x : Nat) : Nat := if v = 0 then x else v
    let hiT := dflt (w11 / 2 ^ 32) 0x3C800000
    let loT := dflt (w11 % 2 ^ 32) 0x35800000
    let stT := fp32.decode (dflt (w12 / 2 ^ 32) 0x3D800000)
    let old := ldWord13 d
    let hi := runCount (above32 st.rho hiT) (old / 2 ^ 24 % 256) (w12 / 2 ^ 24 % 256) 1
    let lo := runCount (above32 loT st.rho) (old / 2 ^ 16 % 256) (w12 / 2 ^ 16 % 256) 16
    let stall := runCount (cmpF (ofInt st.stall) (mulF stT (ofInt st.n)).1 == some .gt) (old / 2 ^ 8 % 256) (w12 / 2 ^ 8 % 256) 16
    let b (x : Bool) (i : Nat) : Nat := if x then 2 ^ i else 0
    let outcome := if u.media then 5 else 0
    let word13 := h.step * 2 ^ 32 + hi.1 * 2 ^ 24 + lo.1 * 2 ^ 16 + stall.1 * 2 ^ 8 + 1
    let m1 := m.engPutSeq (hmpWho u.ctx) (ldStat d) 8 [h.step * 2 ^ 32 + u.layer,
      outcome * 2 ^ 56 + b st.of 52 + b (st.sat != 0) 51 + b stall.2 50 + b lo.2 49 + b hi.2 48 + st.n % 2 ^ 48, st.w2, st.d2,
      st.rho * 2 ^ 32, min st.stall 0xFFFFFFFF * 2 ^ 32 + min st.sat 0xFFFFFFFF, h.cnt * 2 ^ 48, 0]
    let m2 := m1.engPut (hmpWho u.ctx) [(m.layerVa u.ctx u.layer + 104, 8, word13)]
    let m3 := (m2.setHmp { m2.hmp with upd := m2.hmp.upd.filter (fun x => x.id != u.id) }).hmpCounts
    let m4 := m3.complete u.ctx h.completion (if u.media then sPartFailed else sDone) 6 st.n 0
    let ev : Ev := { Ev.none with ctx := some u.ctx }
    let m5 := (m4.count pmcHmp 1 1 ev).count pmcHmp 2 st.n ev
    let m6 := if hi.2 || lo.2 || stall.2 then (m5.addF Reg.HMP_CNT.flagged 1).raise 224 else m5
    let m7 := if u.media then (m6.raise 228).handoverEmpty u.ctx h false else if h.coll = 0 then m6 else m6.blanketStart u word13
    m7.handSettle m7.hmp.queue.length

def execLayerUpdateEnd (s : State) : Host.Outcome State Fault Refusal := s.go (fun m => m.whenOpen layerUpdateEnd)

/-! ### The holder (17 R424, R427) and the acknowledgement (R425) -/

/-- The space of a shard's two slots (R427). -/
def shardSpace (b : BlanketMsg) : Nat := 2 * (64 + b.nelem.toNat * (3 + 4 * b.nmom.toNat)) + 16 * b.rowsAll

def Module.blanketCounts (m : Module) : Module :=
  (m.setF Reg.HMP_BLK_USE.slots m.hmp.slots.length).setF Reg.HMP_BLK_USE.used
    ((m.hmp.slots.foldl (fun n s => n + s.size) 0 + 2 ^ 20 - 1) / 2 ^ 20)

/-- The bytes of a unit, for the slot's CRC. -/
def unitBytes (u : BlanketUnit) : List Nat :=
  (u.weights.flatMap (fun v => [v % 256, v / 256 % 256])) ++ u.rem ++
    u.moms.flatMap (fun l => l.flatMap (fun v => (List.range 4).map (fun i => v / 256 ^ i % 256))) ++
    (List.range 8).map (fun i => u.rowState.toNat / 256 ^ i % 256)

/-- A slot's header (Table 17-2). -/
def blanketHeader (b : BlanketMsg) (units : List BlanketUnit) : List Nat :=
  let crc := Nat.xor ((units.flatMap unitBytes).foldl crc32cByte 0xFFFFFFFF) 0xFFFFFFFF
  [2 ^ 63 + b.owner.toNat * 2 ^ 32 + b.job.toNat,
   b.sidx.toNat * 2 ^ 48 + b.kind.toNat * 2 ^ 44 + b.nmom.toNat * 2 ^ 40 + b.nelem.toNat,
   b.gen.toNat * 2 ^ 32 + b.step.toNat, b.word13.toNat,
   crc * 2 ^ 32 + (if b.kind = 1 then units.length else 0), 0, 0, 0]

/-- A slot's units after a copy: a full copy replaces them, a partial one its own rows. -/
def mergeUnits (old : List BlanketUnit) (b : BlanketMsg) : List BlanketUnit :=
  if b.full || b.kind = 0 then b.units
  else old.map (fun u => (b.units.find? (fun x => x.row == u.row)).getD u) ++
    b.units.filter (fun x => !old.any (fun u => u.row == x.row))

/-- A copy reaches the holder, which writes slot gen mod 2 and acknowledges; it fails when the region has no room. -/
def blanketCopyArrive (b : BlanketMsg) (m0 : Module) : Module :=
  let m := (m0.takeMessage b.owner.toNat).1
  let ack (m : Module) (ok : Bool) : Module :=
    m.emitMessage (responseVc 3) b.owner.toNat b.job.toNat (.blanketAck b.owner.toNat b.job.toNat b.sidx.toNat b.gen.toNat ok)
  let mine (s : BlanketSlot) : Bool := s.owner == b.owner.toNat && s.job == b.job.toNat && s.sidx == b.sidx.toNat
  let slot := (m.hmp.slots.find? mine).getD
    { owner := b.owner.toNat, job := b.job.toNat, sidx := b.sidx.toNat, size := 0, even := none, odd := none }
  let used := (m.hmp.slots.filter (fun s => !mine s)).foldl (fun n s => n + s.size) 0
  let size := max slot.size (shardSpace b)
  if m.routeLost b.owner.toNat then m
  else if m.getF Reg.HMP_BLK_RGN.size * 2 ^ 30 < used + size then ack m false
  else
    let isOdd := b.gen.toNat % 2 == 1
    let old := ((if isOdd then slot.odd else slot.even).map (fun x => x.2)).getD []
    let units := mergeUnits old b
    let entry := some (blanketHeader b units, units)
    let new : BlanketSlot := if isOdd then { slot with size := size, odd := entry } else { slot with size := size, even := entry }
    let m1 := (m.setHmp { m.hmp with slots := m.hmp.slots.filter (fun s => !mine s) ++ [new] }).blanketCounts
    ack m1 true

def execBlanketCopyArrive (b : BlanketMsg) (s : State) : Host.Outcome State Fault Refusal := s.go (blanketCopyArrive b)

/-- The holder's acknowledgement arrives: the new generation becomes the newest. -/
def blanketCopyAck (ctx entry gen : Nat) (ok : Bool) (m : Module) : Module :=
  match m.hmp.copies.find? (fun c => c.ctx == ctx && c.entry == entry && c.gen == gen) with
  | none => m
  | some c =>
    let m := (m.takeMessage c.holder).1
    if !ok then m.dropCopy c
    else
      let h := m.hmp
      let m1 := m.setHmp { h with copies := h.copies.filter (fun x => x != c), unprot := h.unprot.filter (fun x => x != (ctx, entry)) }
      let m2 := (m1.addF Reg.HMP_BLK_CNT.copies 1).setF Reg.HMP_BLK_STAT.unprot m1.hmp.unprot.length
      m2.shardDone ctx c.coll entry c.bufY gen false

def execBlanketCopyAck (ctx : Fin 64) (entry : BitVec 16) (gen : BitVec 32) (ok : Bool) (s : State) :
    Host.Outcome State Fault Refusal := s.go (fun m => m.whenOpen (blanketCopyAck ctx.val entry.toNat gen.toNat ok))

/-- Free the slots of an owner and job (R427). -/
def Module.freeBlanket (m : Module) (owner job : Nat) : Module :=
  (m.setHmp { m.hmp with slots := m.hmp.slots.filter (fun s => !(s.owner == owner && s.job == job)) }).blanketCounts

/-! ### Teardown (15 Table 15-11) -/

/-- Everything of a context on the Hamper stops at its next chunk boundary: earlier chunks keep their write-back, nothing more is
written. -/
def Module.hamperStop (m : Module) (ctx : Nat) : Module :=
  let gone := m.hmp.upd.filter (fun u => u.ctx == ctx)
  let m1 := m.each (gone.flatMap (fun u => u.running.map (fun r => r.thread))) Module.discard
  let h := m1.hmp
  (((m1.setHmp { h with upd := h.upd.filter (fun u => u.ctx != ctx), queue := h.queue.filter (fun x => x.ctx != ctx),
                        posted := h.posted.filter (fun x => x.ctx != ctx), flq := h.flq.filter (fun x => x.ctx != ctx),
                        copies := h.copies.filter (fun x => x.ctx != ctx), shards := h.shards.filter (fun x => x.ctx != ctx),
                        unprot := h.unprot.filter (fun x => x.1 != ctx) }).setF Reg.HMP_BLK_STAT.unprot
    (h.unprot.filter (fun x => x.1 != ctx)).length).hmpCounts).flashCounts

end Sys2Proof.Machine
end

