-- ==== Sys2Proof/Machine/Solver.lean ====
section
/-! DEFINITION. The solver rows (09, 10): leases, submissions, problems from start to end, lateness, adjoint entries, faults of the
sequencer's processors. -/

namespace Sys2Proof.Machine

/-! ### Leases (09 R191-R193, 02 R44-R46) -/

/-- The fields of SQ_LEASE_CMD hold what was written, for a later write of one half (00 R7). -/
def Module.leaseWritten (m : Module) (ctx part cluster : Nat) : Module :=
  ((m.setF Reg.SQ_LEASE_CMD.context ctx).setF Reg.SQ_LEASE_CMD.partition part).setF Reg.SQ_LEASE_CMD.cluster cluster

/-- One lease command: the outcome in SQ_LEASE_STAT (09 R192). A context that is not live gives 4 before anything else, then a partition that is
not READY 3 (DESIGN CHOICE, log 27). -/
def lease (ctx part cluster : Nat) (m0 : Module) : Module :=
  let m := m0.leaseWritten ctx part cluster
  let g := part * 16 + cluster
  let st := m.getF (Reg.SQ_LOWN.state g)
  let out (m : Module) (c : Nat) : Module := m.setF Reg.SQ_LEASE_STAT.outcome c
  if !m.ctxLive ctx then out m 4
  else if !m.partReady part then out m 3
  else if st != 0 then
    if m.getF (Reg.SQ_LOWN.owner g) = ctx then out m (if st = 1 then 1 else 0) else out m 2
  else
    let m1 := m.setF (Reg.SQ_LOWN.owner g) ctx
    if m1.clusterBusy g then out (m1.setF (Reg.SQ_LOWN.state g) 1) 1 else out (m1.setF (Reg.SQ_LOWN.state g) 2) 0

def execLease (ctx : Fin 64) (part : Fin 8) (cluster : Fin 16) (s : State) : Host.Outcome State Fault Refusal :=
  s.goBar (lease ctx.val part.val cluster.val)

/-- One release command. -/
def release (ctx part cluster : Nat) (m0 : Module) : Module :=
  let m := m0.leaseWritten ctx part cluster
  let g := part * 16 + cluster
  let out (m : Module) (c : Nat) : Module := m.setF Reg.SQ_LEASE_STAT.outcome c
  if m.getF (Reg.SQ_LOWN.state g) = 0 || m.getF (Reg.SQ_LOWN.owner g) != ctx then out m 5
  else if (clusterCores g).any m.coreTaken then
    out (if m.sq.releasing.contains g then m else m.setSq { m.sq with releasing := m.sq.releasing ++ [g] }) 6
  else out ((m.setF (Reg.SQ_LOWN.state g) 0).setF (Reg.SQ_LOWN.owner g) 0) 0

def execRelease (ctx : Fin 64) (part : Fin 8) (cluster : Fin 16) (s : State) : Host.Outcome State Fault Refusal :=
  s.goBar (release ctx.val part.val cluster.val)

/-! ### Submission by a thread (09 R195, R197; 10 R240) -/

/-- An X-class submission: a release (15 R376); it waits while submissions are held (18 R447). -/
def submitRow (f : Module → Nat → Nat → Module × Nat) (w : Word) (m : Module) (k : Nat) : Module :=
  if m.subHeld then m
  else m.afterDrain k (fun m =>
    let t := m.th k
    m.whenOpen (fun m =>
      let r := f m t.ctx (t.getS (Word.ra w)).toNat
      r.1.retireS k (Word.rd w) (BitVec.ofNat 64 r.2)))

def execXSqsub (th : ThreadId) (w : Word) (s : State) : Host.Outcome State Fault Refusal :=
  s.inst .xSqsub th w (submitRow Module.sqSubmit w)

def execXSqadj (th : ThreadId) (w : Word) (s : State) : Host.Outcome State Fault Refusal :=
  s.inst .xSqadj th w (submitRow Module.adjSubmit w)

/-! ### Lateness (10 R220, R221) -/

/-- The cutoff doorbell with fire = 1. -/
def sqCutoff (ctx : Nat) (m : Module) : Module :=
  m.setSq { m.sq with subs := m.sq.subs.map (fun x => if x.ctx = ctx && x.cutoff then { x with late := true } else x) }

def execSqCutoff (ctx : Fin 64) (s : State) : Host.Outcome State Fault Refusal := s.goBar (sqCutoff ctx.val)

/-- PILOT reaches the budget of a submission. -/
def deadlineExpiry (sub : Nat) (m : Module) : Module :=
  match m.sqSub sub with
  | none => m
  | some x => if x.budget = 0 then m else (m.toTick (x.accept + x.budget)).modSub sub (fun y => { y with late := true })

def execDeadlineExpiry (sub : Nat) (s : State) : Host.Outcome State Fault Refusal := s.go (deadlineExpiry sub)

/-! ### How problems end (09 R211-R213; 10 R224-R226, R231, R232) -/

/-- The words of a result record (09 Table 9-7). -/
def resultWords (outcome iters flLast flTotal cost lam handle : Nat) (lost nonfinite warmRej : Bool) : List Nat :=
  let b (x : Bool) (i : Nat) : Nat := if x then 2 ^ i else 0
  [outcome * 2 ^ 56 + 2 ^ 54 + b lost 53 + b nonfinite 51 + b warmRej 49 + b (flTotal != 0) 48 + iters * 2 ^ 40 +
     min flLast 0xFFFF * 2 ^ 16 + min flTotal 0xFFFF, cost, lam, handle * 2 ^ 32]

/-- Free the slots of a lane that are not kept and finish the kept one: the handle, 0 when none (10 R237). -/
def Module.finishSlots (m : Module) (l : Lane) (keep : Bool) : Module × Nat :=
  match (if keep then l.kept else none) with
  | none => (m.freeSlots l.slots, 0)
  | some s =>
    let m1 := m.freeSlots (l.slots.filter (fun x => x != s))
    let m2 := (m1.modHandle s (fun h => { h with busy := h.busy - 1, used := m1.sq.clock })).setSq
      { (m1.modHandle s (fun h => { h with busy := h.busy - 1, used := m1.sq.clock })).sq with clock := m1.sq.clock + 1 }
    (m2, match m2.sq.handles.find? (fun h => h.slot == s) with | some h => h.gen * 2 ^ 16 + s | none => 0)

/-- OK or PARTIAL: xa with its cost. -/
def Module.endIterate (m : Module) (l : Lane) (outcome it : Nat) : Module :=
  let r := m.finishSlots l true
  r.1.modProb l.prob (fun p => { p with phase := 2, fin := some {
    x := some l.xa, record := resultWords outcome it l.flLast l.flTotal l.ca l.lam r.2 false l.nonfinite l.warmRej,
    lam := l.lam, lost := false } })

/-- Count a deadline miss or a partial result (10 R226). -/
def Module.countMiss (m : Module) (p : Problem) : Module :=
  let m1 := (m.addF Reg.SQ_DLMISS.count 1).setF Reg.SQ_DLMISS.last_ctx p.ctx
  match m.sqSub p.sub with
  | some x => if x.missed then m1 else (m1.modSub p.sub (fun y => { y with missed := true })).raise 200
  | none => m1

def Module.countPartial (m : Module) (p : Problem) : Module :=
  let m1 := (m.addF Reg.SQ_DLPART.count 1).setF Reg.SQ_DLPART.last_ctx p.ctx
  match m.sqSub p.sub with
  | some x => if x.parted then m1 else (m1.modSub p.sub (fun y => { y with parted := true })).raise 201
  | none => m1

/-- SHIFTED: the moved solution when the stamp matches; otherwise x keeps its contents (10 R231, R234). -/
def Module.endShifted (m : Module) (p : Problem) (flTotal : Nat) (nonfinite : Bool) : Module :=
  let r := m.stamped p true
  let e : Ending := match r.2 with
    | some (y, lam) => { x := some y, record := resultWords 0x11 0 0 flTotal fp64.nanBits lam 0 false nonfinite false, lam := lam,
                         lost := false }
    | none => { x := none, lam := pdLambda0 p.words, lost := false,
                record := resultWords 0x11 0 0 flTotal fp64.nanBits (pdLambda0 p.words) 0 false nonfinite (pdSdesc p.words != 0) }
  r.1.modProb p.id (fun q => { q with phase := 2, fin := some e })

/-- Threads of a run's residual program stop and are discarded (09 R194). -/
def Module.stageThreads (m : Module) (id : Nat) : List Nat :=
  (m.threads.filter (fun e => decide (e.2.work = .stage id))).map (fun e => e.1)

/-- A run is over: its threads and cores are released. -/
def Module.dropRun (m : Module) (id : Nat) : Module :=
  let m1 := m.each (m.stageThreads id) Module.discard
  (m1.setSq { m1.sq with runs := m1.sq.runs.filter (fun r => r.id != id) }).idleFrom.releaseSettle

/-- A late run at a check point stops at once (10 R224). -/
def Module.endLate (m : Module) (r : SolverRun) : Module :=
  let m1 := m.each r.lanes (fun m l =>
    match m.sqProb l.prob with
    | none => m
    | some p =>
      if r.it = 0 then (m.freeSlots l.slots).endShifted p l.flTotal l.nonfinite
      else m.endIterate l 0x10 r.it)
  m1.dropRun r.id

/-! ### Starting (09 R199, R209, R210; 10 R222, R223, R230, R233) -/

/-- The next in line of a context: the earliest problem or entry that has not started. -/
def Module.nextInLine (m : Module) (ctx : Nat) : Option Nat :=
  let l := ((m.sq.probs.filter (fun p => p.ctx == ctx && p.phase == 0)).map (fun p => p.id)) ++
    ((m.sq.entries.filter (fun e => e.ctx == ctx && e.phase == 0)).map (fun e => e.id))
  l.foldl (fun (b : Option Nat) x => match b with | none => some x | some y => some (min x y)) none

/-- Does an earlier problem of the same stream hold a group back (10 R233)? -/
def Module.streamHeld (m : Module) (g : List Problem) : Bool :=
  g.any (fun p => pdSdesc p.words != 0 && m.sq.probs.any (fun q =>
    decide (q.id < p.id) && q.group != p.group && q.ctx == p.ctx && pdSdesc q.words == pdSdesc p.words))

/-- Write the trial x of every lane to the work area. -/
def Module.putTrial (m : Module) (r : SolverRun) (f : Lane → List Nat) : Module :=
  m.each r.lanes.zipIdx (fun m (l, i) =>
    match m.sqProb r.id with
    | none => m
    | some lead => m.engPut (engWho r.ctx 2 false) ((f l).zipIdx.map (fun (v, j) => (trialAddr lead.words i j, 8, v))))

/-- Start the residual program on a core: eight threads, in an order the module leaves open. -/
def Module.startStage (m : Module) (r : SolverRun) (d : List Nat) (core rank : Nat) : List Nat → List Nat → Module
  | [], _ => m
  | o :: rest, free =>
    let pick := m.freePick
    let k := free.getD (pick.2 % free.length) 0
    let (jb, rb, xb, ab) := workArea d
    let b := pdKind d == 0
    let regs := [(1, if b then ab else pdArg d), (2, rank * 8 + o), (3, 8 * r.cores.length), (4, xb), (5, rb), (6, jb)] ++
      (if b then [(7, r.lanes.length)] else [])
    Module.startStage (pick.1.startThread k r.ctx (pdProg d) regs (.stage r.id)) r d core rank rest (free.filter (fun x => x != k))

/-- An evaluation starts on every core of a run (09 R199). -/
def Module.evaluate (m : Module) (id : Nat) : Module :=
  match m.sqRun id, m.sqProb id with
  | some r, some lead =>
    let m1 := m.modRun id (fun r => { r with stage := 1 })
    m1.each r.cores.zipIdx (fun m (c, rank) => (m.takeCore c r.ctx).startStage r lead.words c rank (List.range 8) (coreKeys c))
  | _, _ => m

def NormEq.empty : NormEq := { a := [], g := [], pts := [], cols := [], r := [] }
def Factor.empty : Factor := { m := [], w := [], rcol := [], floor := 0, pts := [], cnt := 0 }

/-- xa and lam of a problem at its start (10 Table 10-2). -/
def Module.startLane (m : Module) (p : Problem) : Module × Lane :=
  let d := p.words
  let mk (m : Module) (xa : List Nat) (lam : Nat) (rej : Bool) : Module × Lane :=
    (m, { prob := p.id, xa := xa, xt := xa, lam := lam, ca := fp64.nanBits, sys := NormEq.empty, fac := Factor.empty, delta := [],
          flTotal := 0, flLast := 0, nonfinite := false, warmRej := rej, slots := [], kept := none })
  let cold (m : Module) (rej : Bool) : Module × Lane :=
    let r := m.readVals false p.ctx (consec (pdX d) (pdSize d))
    mk r.1 r.2 (pdLambda0 d) rej
  if pdStart d = 0 then cold m false
  else
    match m.stamped p (pdStart d == 2) with
    | (m1, some (y, lam)) => mk m1 y (if pdStart d = 1 then lam else pdLambda0 d) false
    | (m1, none) => cold m1 true

/-- The next problem or group of a context starts, or ends late without starting. Its threads reach their cores in W0 (18 R443). -/
def problemStart (ctx : Nat) (m : Module) : Module :=
  match m.nextInLine ctx, m.serving with
  | some id, s :: _ =>
    match m.sqProb id with
    | none => m
    | some lead =>
      let g := m.sq.probs.filter (fun p => p.group == lead.group)
      if m.subHeld || m.streamHeld g then m
      else if m.isLate lead.sub then m.each g (fun m p => m.endShifted p 0 false)
      else
        let (m1, cores) := m.solverCores ctx (pdKind lead.words)
        if cores.isEmpty || m.getF Reg.PWR_STATE.state != 0 then m
        else
          let (m2, pick) := m1.freePick
          let ls := g.foldl (fun (r : Module × List Lane) p => let x := r.1.startLane p; (x.1, r.2 ++ [x.2])) (m2, [])
          let run : SolverRun := { id := lead.id, ctx := ctx, proc := m.serving.getD (pick % m.serving.length) s, cores := cores,
                                   stage := 1, it := 0, panel := 0, first := true, lanes := ls.2, bank := m.lmp.bank }
          let q := ls.1.sq
          let m3 := ls.1.setSq { q with runs := q.runs ++ [run],
                                        probs := q.probs.map (fun p => if p.group = lead.group then { p with phase := 1 } else p) }
          let d := lead.words
          let m4 := m3.zeroPadding ctx d
          let m5 := if pdKind d = 0 then
              m4.engPutSeq (engWho ctx 2 false) (workArea d).2.2.2 8
                ((List.range 32).map (fun i => match g[i]? with | some p => pdArg p.words | none => 0))
            else m4
          ((m5.putTrial run (fun l => l.xa)).evaluate run.id).wake 5 ctx
  | _, _ => m

def execProblemStart (ctx : Fin 64) (s : State) : Host.Outcome State Fault Refusal :=
  s.go (fun m => m.whenOpen (problemStart ctx.val))

/-! ### Stages (09 R201, R202) -/

/-- Change the lanes of a run, each with the module. -/
def Module.eachLane (m : Module) (id : Nat) (f : Module → SolverRun → Problem → Nat → Lane → Module × Lane) : Module :=
  match m.sqRun id with
  | none => m
  | some r =>
    let x := r.lanes.zipIdx.foldl (fun (a : Module × List Lane) (l, i) =>
      match a.1.sqProb l.prob with
      | none => (a.1, a.2 ++ [l])
      | some p => let y := f a.1 r p i l; (y.1, a.2 ++ [y.2])) (m, [])
    x.1.modRun id (fun r => { r with lanes := x.2 })

/-- Formation ends: the first system, or the acceptance of the trial (09 R201, 10 R237). -/
def laneForm (m : Module) (r : SolverRun) (p : Problem) (i : Nat) (l : Lane) : Module × Lane :=
  let lead := (m.sqProb r.id).getD p
  let (m1, c, sys) := m.formLane r.ctx i { p with words := p.words.set 4 (pdWork lead.words) }
  let nf := l.nonfinite || !isFin64 c
  if r.first then (m1, { l with ca := c, sys := sys, nonfinite := nf })
  else if isFin64 c && (!pdLm p.words || !isFin64 l.ca || below64 c l.ca) then
    let other := l.slots.find? (fun s => some s != l.kept)
    (m1, { l with xa := l.xt, ca := c, sys := sys, lam := lamDown l.lam (pdDn p.words), flLast := l.fac.cnt, nonfinite := nf,
                  kept := if other.isSome then other else l.kept })
  else (m1, { l with lam := lamUp l.lam (pdUp p.words), nonfinite := nf })

/-- A factorization begins: damping, the floor, the points of a block-sparse problem; the first one allocates the slots. -/
def laneDamp (m : Module) (r : SolverRun) (p : Problem) (_ : Nat) (l : Lane) : Module × Lane :=
  let d := p.words
  let pr := pdPair d
  let tau := pdTau d
  let fac : Factor :=
    if pdQr d then
      let (cols, rc) := qrAugment (pdLm d) l.lam (pdN d) l.sys.cols l.sys.r
      { m := [], w := cols, rcol := rc, floor := floorFrom tau (cols.map norm64), pts := [], cnt := 0 }
    else
      let a := damp (pdLm d) pr l.lam l.sys.a
      if pdKind d = 2 then
        let e := eliminate pr tau (pdBp d) (pdBq d) a (l.sys.pts.map (fun q => { q with v := damp (pdLm d) pr l.lam q.v }))
        { m := a, w := e.1, rcol := [], floor := floorFrom tau (diagOf e.1), pts := e.2.1, cnt := e.2.2 }
      else { m := a, w := a, rcol := [], floor := floorFrom tau (diagOf a), pts := [], cnt := 0 }
  let m1 := m.count pmcSq 4 fac.cnt (sqEv r.ctx)
  let (m2, slots) := if r.it = 0 && pdKeep d then m1.allocPair r.ctx d fac.floor else (m1, l.slots)
  (m2, { l with fac := fac, flTotal := l.flTotal + fac.cnt, slots := slots })

/-- One panel (09 R206, R207). -/
def lanePanel (m : Module) (r : SolverRun) (p : Problem) (_ : Nat) (l : Lane) : Module × Lane :=
  let d := p.words
  let f := l.fac
  let (fac, c) : Factor × Nat :=
    if pdQr d then
      let q := qrPanel f.floor (pdN d) r.panel f.w f.rcol
      ({ f with w := q.1, rcol := q.2.1, cnt := f.cnt + q.2.2 }, q.2.2)
    else
      let q := cholPanel (pdPair d) f.floor (pdDim d) r.panel f.w
      ({ f with w := q.1, cnt := f.cnt + q.2 }, q.2)
  (m.count pmcSq 4 c (sqEv r.ctx), { l with fac := fac, flTotal := l.flTotal + c })

/-- The factorization is complete: M and L, or U, are copied to the slot that is not retained (10 R237). -/
def laneCopy (m : Module) (_ : SolverRun) (p : Problem) (_ : Nat) (l : Lane) : Module × Lane :=
  match l.slots.find? (fun s => some s != l.kept) with
  | none => (m, l)
  | some s =>
    let qr := pdQr p.words
    (m.modHandle s (fun h => { h with floor := l.fac.floor, matrix := if qr then qrLower l.fac.w else l.fac.m,
                                      factor := if qr then [] else l.fac.w }), l)

/-- delta (09 R201, R210). -/
def laneSolve (m : Module) (_ : SolverRun) (p : Problem) (_ : Nat) (l : Lane) : Module × Lane :=
  let d := p.words
  let f := l.fac
  let delta :=
    if pdQr d then (solveLt (qrLower f.w) ((f.rcol.take (pdN d)).map neg64)).1
    else if pdKind d = 2 then solveBlocks (pdPair d) (pdBp d) f.w l.sys.g (f.pts)
    else solve64 f.w (l.sys.g.map (fun x => neg64 (entry64 (pdPair d) x)))
  (m, { l with delta := delta })

/-- xt[i] := round(xa[i] + delta[i]). -/
def laneStep (m : Module) (_ : SolverRun) (_ : Problem) (_ : Nat) (l : Lane) : Module × Lane :=
  (m, { l with xt := (l.xa.zip l.delta).map (fun p => (add64 p.1 p.2).1) })

/-- An iteration boundary (10 R222): the problem is complete, late, or factors next. -/
def Module.iterBoundary (m : Module) (id : Nat) : Module :=
  match m.sqRun id, m.sqProb id with
  | some r, some lead =>
    if r.it = pdIters lead.words then
      let q := m.sq
      m.setSq { q with runs := q.runs.map (fun x => if x.id = id then { x with stage := 6 } else x),
                       probs := q.probs.map (fun p => if p.group = lead.group then { p with phase := 2 } else p) }
    else if m.isLate lead.sub then m.endLate r
    else (m.eachLane id laneDamp).modRun id (fun r => { r with stage := 3, panel := 0 })
  | _, _ => m

/-- Cores that perform operations run their clocks (02 R48). -/
def Module.startClocks (m : Module) (cores : List Nat) : Module :=
  m.each cores (fun m c => m.setCore c { m.core c with clockOn := true })

/-- A stage of a run ends and the next begins. -/
def solverStageEnd (id : Nat) (m : Module) : Module :=
  match m.sqRun id, m.sqProb id with
  | some r, some lead =>
    match r.stage with
    | 1 => if (m.stageThreads id).isEmpty then (m.modRun id (fun r => { r with stage := 2 })).startClocks r.cores else m
    | 2 =>
      let m1 := m.eachLane id laneForm
      let m2 := if r.first then m1.modRun id (fun r => { r with first := false })
        else (m1.modRun id (fun r => { r with it := r.it + 1 })).count pmcSq 2 r.lanes.length (sqEv r.ctx)
      m2.iterBoundary id
    | 3 =>
      let m1 := (m.eachLane id lanePanel).modRun id (fun r => { r with panel := r.panel + 1 })
      if pdKind lead.words != 0 && m1.isLate lead.sub then
        match m1.sqRun id with
        | some r1 => m1.endLate r1
        | none => m1
      else if pdTiles lead.words ≤ r.panel + 1 then (m1.eachLane id laneCopy).modRun id (fun r => { r with stage := 4 })
      else m1
    | 4 => (m.eachLane id laneSolve).modRun id (fun r => { r with stage := 5 })
    | 5 =>
      let m1 := m.eachLane id laneStep
      match m1.sqRun id with
      | some r1 => (m1.putTrial r1 (fun l => l.xt)).evaluate id
      | none => m1
    | _ => m
  | _, _ => m

def execSolverStageEnd (prob : Nat) (s : State) : Host.Outcome State Fault Refusal :=
  s.go (fun m => m.whenOpen (solverStageEnd prob))

/-! ### The end of a problem (10 R232; 09 R212) -/

/-- One problem or entry of a submission has ended; the last writes the completion record. -/
def Module.subDone (m : Module) (id : Nat) : Module :=
  let m1 := m.modSub id (fun x => { x with left := x.left - 1 })
  match m1.sqSub id with
  | none => m1.sqCounts
  | some x =>
    if x.left != 0 then m1.sqCounts
    else
      ((m1.setSq { m1.sq with subs := m1.sq.subs.filter (fun y => y.id != id) }).sqCounts).complete x.ctx x.completion
        (if x.lostParts = 0 then sDone else sPartFailed) (if x.isAdj then 4 else 3) x.count x.lostParts

/-- Write x, the result record and the stamp of a problem. -/
def Module.writeEnding (m : Module) (p : Problem) (e : Ending) : Module :=
  let d := p.words
  let m1 := match e.x with
    | some xs => m.engStoreWords p.ctx (pdX d) xs
    | none => m
  let m2 := (m1.engStoreWords p.ctx (pdResult d) e.record).progress p.ctx
  if pdSdesc d = 0 then m2
  else m2.engStoreWords p.ctx (pdSdesc d) ([(if e.lost then 0 else 2 ^ 63) + pdX d] ++ signature p ++ [e.lam])

/-- Does an earlier problem of the same submission that also ended without cores still write its results? They end in acceptance order
(10 R223). -/
def Module.endHeld (m : Module) (p : Problem) : Bool :=
  (m.sqRun p.group).isNone && m.sq.probs.any (fun q =>
    decide (q.id < p.id) && q.sub == p.sub && q.phase == 2 && (m.sqRun q.group).isNone)

/-- What lateness made of a problem is counted, with sources 200 and 201, once its record stands (10 R226, 19 R456). -/
def Module.countLate (m : Module) (p : Problem) (e : Ending) : Module :=
  match e.record.getD 0 0 / 2 ^ 56 with
  | 0x11 => m.countMiss p
  | 0x10 => m.countPartial p
  | _ => m

/-- A problem that has ended writes its results and leaves the queue; it waits while no processor serves (09 R194). -/
def problemEnd (prob : Nat) (m : Module) : Module :=
  match m.sqProb prob with
  | none => m
  | some p =>
    if p.phase != 2 || m.serving.isEmpty || m.endHeld p then m
    else
      let m1 := match m.sqRun p.group with
        | some r => match r.lanes.find? (fun l => l.prob == prob) with
          | some l => if p.fin.isNone then m.endIterate l 0 r.it else m
          | none => m
        | none => m
      match (m1.sqProb prob).bind (fun p => p.fin) with
      | none => m1
      | some e =>
        let m2 := ((m1.writeEnding p e).countLate p e).count pmcSq 1 1 (sqEv p.ctx)
        let m3 := m2.setSq { m2.sq with probs := m2.sq.probs.filter (fun x => x.id != prob) }
        let m4 := if m3.sq.probs.any (fun x => x.group == p.group) then m3 else m3.dropRun p.group
        m4.subDone p.sub

def execProblemEnd (prob : Nat) (s : State) : Host.Outcome State Fault Refusal :=
  s.go (fun m => m.whenOpen (problemEnd prob))

/-! ### Losing problems to a partition reset (09 R213, 10 R225, R243) -/

/-- A run loses its cores: its problems end lost, x undefined, slots freed. -/
def Module.loseRun (m : Module) (part : Nat) (r : SolverRun) : Module :=
  let m1 := m.each r.lanes (fun m l =>
    match m.sqProb l.prob with
    | none => m
    | some p =>
      let m1 := m.freeSlots l.slots
      let d := p.words
      let u := (List.range (pdSize d)).foldl (fun (x : Module × List Nat) _ =>
        let w := x.1.freeWord; (w.1, x.2 ++ [w.2.toNat])) (m1, [])
      let e : Ending := { x := some u.2, lam := l.lam, lost := true,
                          record := resultWords 0 r.it l.flLast l.flTotal fp64.nanBits l.lam 0 true l.nonfinite l.warmRej }
      (u.1.modProb p.id (fun q => { q with phase := 2, fin := some e })).modSub p.sub
        (fun y => { y with lostParts := Nat.lor y.lostParts (2 ^ part) }))
  m1.dropRun r.id

/-- An entry loses its cores: u undefined, lost = 1, the handle stays live. -/
def Module.loseEntry (m : Module) (part : Nat) (e : AdjEntry) : Module :=
  let h := m.handleOf e.ctx (e.words.getD 0 0 / 2 ^ 32)
  let n := (h.map (fun h => h.n)).getD 0
  let u := (List.range n).foldl (fun (x : Module × List Nat) _ => let w := x.1.freeWord; (w.1, x.2 ++ [w.2.toNat])) (m, [])
  let m1 := (u.1.modEntry e.id (fun x => { x with phase := 2, cores := [], u := some u.2, word3 := 2 ^ 54 })).modSub e.sub
    (fun y => { y with lostParts := Nat.lor y.lostParts (2 ^ part) })
  match h with
  | some h => (m1.modHandle h.slot (fun h => { h with busy := h.busy - 1 })).releaseSettle
  | none => m1.releaseSettle

/-- Everything of the sequencer on the cores of partition n is lost. -/
def Module.solverLost (m : Module) (n : Nat) : Module :=
  let m1 := m.each (m.sq.runs.filter (fun r => r.cores.any (fun c => partOf c == n))) (fun m r => m.loseRun n r)
  m1.each (m1.sq.entries.filter (fun e => e.phase == 1 && e.cores.any (fun c => partOf c == n))) (fun m e => m.loseEntry n e)

/-! ### Adjoint entries (10 R241-R243) -/

/-- Factor a handle's matrix part again, with the stored floor and pair bit. -/
def refactor (h : Handle) : List (List Nat) :=
  (List.range ((h.n + 31) / 32)).foldl (fun w j => (cholPanel h.pair h.floor h.n j w).1) h.matrix

/-- u for a handle. -/
def Handle.adjoint (h : Handle) (xbar : List Nat) : List Nat := if h.qr then solve64 h.matrix xbar else solve64 h.factor xbar

/-- The next entry of a context starts, on its cores in W0 (18 R443). -/
def adjointEntryStart (ctx : Nat) (m : Module) : Module :=
  match m.nextInLine ctx, m.serving with
  | some id, s :: _ =>
    match m.sqEntry id with
    | none => m
    | some e =>
      let w (i : Nat) : Nat := e.words.getD i 0
      if m.subHeld then m
      else match m.handleOf ctx (w 0 / 2 ^ 32) with
        | none => (m.modEntry id (fun e => { e with phase := 2, word3 := 2 ^ 55 })).addF Reg.SQ_FS_CNT.bad 1
        | some h =>
          if w 1 = 0 then m.modEntry id (fun e => { e with phase := 2 })
          else
            let (m1, cores) := m.solverCores ctx h.kind
            if cores.isEmpty || m.getF Reg.PWR_STATE.state != 0 then m
            else
              let (m2, pick) := m1.freePick
              let m3 := m2.each cores (fun m c => m.takeCore c ctx)
              let again := !h.qr && !h.held
              let l := if again then refactor h else h.factor
              let m4 := (m3.modHandle h.slot (fun h => { h with busy := h.busy + 1, used := m3.sq.clock }))
              let m5 := m4.setSq { m4.sq with clock := m4.sq.clock + 1 }
              let m6 := if again then
                  let r := m5.makeRoom (({ h with held := true } : Handle).bytes - h.bytes) m5.sq.handles.length
                  if r.storeUsed + (({ h with held := true } : Handle).bytes - h.bytes) ≤ r.storeSize then
                    (r.modHandle h.slot (fun h => { h with held := true, factor := l })).storeCounts
                  else r.storeCounts
                else m5
              let x := m6.readVals false ctx (consec (w 1) h.n)
              let u := ({ h with factor := l } : Handle).adjoint x.2
              (x.1.modEntry id (fun e => { e with phase := 1, proc := m.serving.getD (pick % m.serving.length) s, cores := cores,
                                                  u := some u, word3 := if again then 0x14 * 2 ^ 56 else 0,
                                                  bank := m.lmp.bank })).wake 5 ctx
  | _, _ => m

def execAdjointEntryStart (ctx : Fin 64) (s : State) : Host.Outcome State Fault Refusal :=
  s.go (fun m => m.whenOpen (adjointEntryStart ctx.val))

/-- An entry ends: u, word 3, then the release of the handle; it waits while no processor serves (09 R194). -/
def adjointEntryEnd (entry : Nat) (m : Module) : Module :=
  match m.sqEntry entry with
  | none => m
  | some e =>
    if e.phase = 0 || m.serving.isEmpty then m
    else
      let w (i : Nat) : Nat := e.words.getD i 0
      let m1 := match e.u with | some u => m.engStoreWords e.ctx (w 2) u | none => m
      let m2 := m1.engStore e.ctx 2 (e.va + 24) 8 e.word3
      let m3 := if e.word3 / 2 ^ 56 = 0x14 then m2.addF Reg.SQ_FS_CNT.recompute 1 else m2
      let lost := e.word3 / 2 ^ 54 % 2 == 1
      let m4 := match m3.handleOf e.ctx (w 0 / 2 ^ 32) with
        | none => m3
        | some h =>
          if w 0 % 2 = 1 && !lost then m3.freeSlots [h.slot]
          else if e.u.isSome && !lost then m3.modHandle h.slot (fun h => { h with busy := h.busy - 1 }) else m3
      let m5 := m4.setSq { m4.sq with entries := m4.sq.entries.filter (fun x => x.id != entry) }
      (m5.releaseSettle).subDone e.sub

def execAdjointEntryEnd (entry : Nat) (s : State) : Host.Outcome State Fault Refusal :=
  s.go (fun m => m.whenOpen (adjointEntryEnd entry))

/-! ### Faults of a sequencer processor (09 R194) -/

/-- Has a run begun its final writes: has one of its problems written its results and left? -/
def Module.runWriting (m : Module) (r : SolverRun) : Bool := r.lanes.any (fun l => (m.sqProb l.prob).isNone)

/-- A run stops and its problems wait again from their beginning; one that has begun its final writes is not rerun, and the
taking processor completes them. -/
def Module.requeueRun (m : Module) (r : SolverRun) : Module :=
  if m.runWriting r then m
  else
  let m1 := m.each r.lanes (fun m l => m.freeSlots l.slots)
  let m2 := m1.setSq { m1.sq with probs := m1.sq.probs.map (fun p =>
    if p.group = r.id && p.fin.isNone then { p with phase := 0 } else p) }
  m2.dropRun r.id

/-- An entry stops and waits again; a factor that this run recomputed is not kept. -/
def Module.requeueEntry (m : Module) (e : AdjEntry) : Module :=
  let m1 := match m.handleOf e.ctx (e.words.getD 0 0 / 2 ^ 32) with
    | none => m
    | some h => m.modHandle h.slot (fun h =>
        { h with busy := h.busy - 1, held := h.held && e.word3 / 2 ^ 56 != 0x14, factor := if e.word3 / 2 ^ 56 = 0x14 then [] else h.factor })
  ((m1.modEntry e.id (fun x => { x with phase := 0, cores := [], u := none, word3 := 0 })).storeCounts).releaseSettle

def seqProcFault (k : Nat) (m : Module) : Module :=
  if m.sq.down.contains k then m
  else
    let m1 := m.each (m.sq.runs.filter (fun r => r.proc == k)) Module.requeueRun
    let m2 := m1.each (m1.sq.entries.filter (fun e => e.phase == 1 && e.proc == k)) Module.requeueEntry
    (m2.setSq { m2.sq with down := m2.sq.down ++ [k] }).raise (194 + k)

def execSeqProcFault (k : Fin 4) (s : State) : Host.Outcome State Fault Refusal := s.go (seqProcFault k.val)

/-- The Lamplighter restarts the processor: it serves again. -/
def seqProcRestart (k : Nat) (m : Module) : Module := m.setSq { m.sq with down := m.sq.down.filter (fun x => x != k) }

def execSeqProcRestart (k : Fin 4) (s : State) : Host.Outcome State Fault Refusal := s.go (seqProcRestart k.val)

/-! ### Teardown (15 Table 15-15, R398) -/

/-- The sequencer's work of a context stops: nothing more of it is written. -/
def Module.solverStop (m : Module) (ctx : Nat) : Module :=
  let m1 := m.each (m.sq.runs.filter (fun r => r.ctx == ctx)) (fun m r => (m.each r.lanes (fun m l => m.freeSlots l.slots)).dropRun r.id)
  let q := m1.sq
  let m2 := m1.setSq { q with subs := q.subs.filter (fun x => x.ctx != ctx), probs := q.probs.filter (fun x => x.ctx != ctx),
                              entries := q.entries.filter (fun x => x.ctx != ctx),
                              handles := q.handles.map (fun h => if h.ctx = ctx then { h with busy := 0 } else h) }
  (m2.releaseSettle).sqCounts

/-- Leases end and handles are freed (09 R193, 10 R239). -/
def Module.solverFree (m : Module) (ctx : Nat) : Module :=
  let m1 := m.freeSlots ((m.sq.handles.filter (fun h => h.ctx == ctx)).map (fun h => h.slot))
  let mine := (List.range 128).filter (fun g => m1.getF (Reg.SQ_LOWN.state g) != 0 && m1.getF (Reg.SQ_LOWN.owner g) == ctx)
  let m2 := m1.each mine (fun m g => (m.setF (Reg.SQ_LOWN.state g) 0).setF (Reg.SQ_LOWN.owner g) 0)
  m2.setSq { m2.sq with releasing := m2.sq.releasing.filter (fun g => !mine.contains g) }

end Sys2Proof.Machine
end

