-- ==== Sys2Proof/Machine/Collectives.lean ====
section
/-! DEFINITION. The collective rows (14; 17 R430-R433): submission, meeting, every operation, shards, layouts, timeouts, faults and
completion. -/

namespace Sys2Proof.Machine

/-! ### Submission (14 R344) -/

def Module.collCounts (m : Module) : Module :=
  (m.setF Reg.FAB_CP_QUEUE.queued m.cp.colls.length).setF Reg.FAB_CP_QUEUE.free (4096 - m.cp.colls.length)

/-- Is a collective descriptor valid (Tables 14-1 and 14-2)? -/
def collValid (d : List Nat) (members : Nat) : Bool :=
  let w (i : Nat) : Nat := d.getD i 0
  let op := w 0 / 2 ^ 56
  let dtype := w 0 / 2 ^ 52 % 16
  let rop := w 0 / 2 ^ 48 % 4
  decide (1 ≤ op) && decide (op ≤ 0x0B) && decide (dtype ≤ 7) && (rop != 3 || dtype == 5 || dtype == 6) &&
  ((op != 1 && op != 2) || dtype != 7) && w 0 % 64 == 0 && decide (w 1 < 2 ^ 48) && decide (w 2 < 2 ^ 48) &&
  w 4 / 2 ^ 40 % 32 == 0 && decide (w 5 < 2 ^ 48) && w 5 % 32 == 0 && w 7 % 32 == 0 &&
  (match op with
   | 7 => true
   | 8 | 9 => decide (w 6 < 2 ^ 32)
   | 4 => decide (w 6 < 2 ^ 16) && decide (w 6 < members)
   | _ => w 6 == 0)

/-- The members of a group descriptor: the words after word 0, which must have no unused bit set (14 R342). -/
def groupOf (n : Nat) (ws : List Nat) : List Nat := (List.range n).map (fun r => ws.getD (r / 4) 0 / 2 ^ (16 * (r % 4)) % 2 ^ 16)

def Module.collRefuse (m : Module) (code : Nat) : Module × Nat := (m.addF Reg.FAB_CP_REFUSED.count 1, code)

/-- The number of a context's next collective on a group (14 R345). -/
def Module.nextSeq (m : Module) (ctx : Nat) (g : List Nat) : Nat :=
  ((m.cp.seqs.find? (fun s => s.1 == ctx && s.2.1 == g)).map (fun s => s.2.2)).getD 0

/-! ### Starting (14 R343, R345, R365) -/

/-- Has every earlier collective of the context and group started (R345)? One that waits for a newer epoch holds the later ones back. -/
def Module.mayStart (m : Module) (c : Coll) : Bool :=
  m.cp.colls.all (fun x => !(decide (x.id < c.id) && x.ctx == c.ctx && x.group == c.group) || x.started)

/-- The pair of squares of FP32 values in order (14 R357). -/
def normPair (l : List Nat) : Pair :=
  l.foldl (fun (p : Pair) x => (pairAdd fp64 p (twoProd fp64 (fp32.decode x) (fp32.decode x)).1).1) { s := .zero, e := .zero }

/-- This contributor's noise term: ‖g‖² × 2⁻²ᵏ / c rounded once to FP64 (14 R357). -/
def Module.noiseTerm (m : Module) (c : Coll) : Module × Nat :=
  if c.op = opGrad && c.stats && c.cnt != 0 then
    let r := m.readElems c.ctx c.src 4 c.nelem
    (r.1, (divV (((normPair r.2).value false).1.scale (-(2 * gnwK c.arg))) (ofInt c.cnt)).1)
  else (m, 0)

/-- The values that this member sends at the meeting. -/
def meetMsg (c : Coll) (noise : Nat) : CollMsg :=
  .meet c.seq c.op c.dtype c.rop c.nelem c.epoch
    (crc32c ((((c.group.length - 1) * 2 ^ 48)) :: (List.range ((c.group.length + 3) / 4)).map (fun i =>
      (List.range 4).foldl (fun s j => s + c.group.getD (4 * i + j) 0 * 2 ^ (16 * j)) 0)))
    (BitVec.ofNat 64 (if c.op = opGrad then c.arg else 0)) (if c.op = opGrad then c.cnt else 0) (BitVec.ofNat 64 noise)

/-- Decide a collective's status, once. -/
def Module.decideColl (m : Module) (id status : Nat) : Module :=
  m.modColl id (fun c => if c.status.isSome then c else { c with status := some status })

/-- A collective that is malformed when it runs: VIOLATION_COUNTED and one violation. -/
def Module.collViolation (m : Module) (c : Coll) : Module := (m.decideColl c.id sViolation).violate c.ctx 2 c.completion

/-- Keep a message for its collective. -/
def Module.keepMsg (m : Module) (src job : Nat) (group : List Nat) (msg : CollMsg) : Module :=
  m.setCp { m.cp with box := m.cp.box ++ [{ src := src, job := job, group := group, msg := msg }] }

/-- Has the Hamper of shard j's owner completed it, as an owner's acknowledgement says (R354)? -/
def Module.shardAcked (m : Module) (c : Coll) (j : Nat) : Bool :=
  m.cp.box.any (fun b => b.job == m.jobOf c.ctx && b.group == c.group &&
    (match b.msg with | .ackOwner s js _ => s == c.seq && js.contains j | _ => false))

/-- Is a GRAD_HANDOVER held for an owner that was lost before it acknowledged (R356)? -/
def Module.gradHeld (m : Module) (c : Coll) : Bool :=
  match m.layer c.ctx c.sidx with
  | some (ns, owners) => (List.range ns).any (fun j => m.routeLost (owners.getD j 0) && !m.shardAcked c j)
  | none => false

/-- Read the layout descriptor of a PERMUTE (14 R364); none when it cannot be read. -/
def Module.readLayout (m : Module) (c : Coll) : Option (List Nat) :=
  let h := m.engRead c.ctx c.src 8 4
  let n := h.words.getD 0 0 % 2 ^ 16
  let r := m.engRead c.ctx (c.src + 32) 8 (8 * n)
  if h.bad || r.bad then none else some (h.words ++ r.words)

/-- The layers that a collective names lie in the context's shard table (14 R369). -/
def Module.namesShards (m : Module) (c : Coll) : Bool :=
  match m.layer c.ctx c.sidx with
  | none => false
  | some (ns, _) => decide (c.sidx + ns ≤ m.stCount c.ctx)

/-- Start one collective: an old epoch ends it, a newer epoch waits (R365). -/
def Module.startColl (m : Module) (c : Coll) : Module :=
  let ep := m.getF (Reg.FAB_CP_EP.epoch c.ctx)
  if c.started || c.status.isSome then m
  else if c.epoch < ep then (m.modColl c.id (fun x => { x with started := true })).decideColl c.id sEpochStale
  else if ep < c.epoch || !m.mayStart c || decide (64 ≤ (m.cp.colls.filter (fun x => x.started)).length) then m
  else
    let (m1, pick) := m.freePick
    let m2 := m1.modColl c.id (fun x => { x with started := true, bank := m.lmp.bank, proc := pick % 16, live0 := m.liveRanks c, waitFrom := m.pilot,
                                                  missing := c.op == opGrad && m.gradHeld c,
                                                  lostAt := if c.op = opGrad && m.gradHeld c then some m.pilot else none })
    if (c.op = opGrad || c.op = opGather || c.op = opUnpin) && !m2.namesShards c then m2.collViolation c
    else
      let (m3, noise) := m2.noiseTerm c
      let m4 := m3.collAll c 6 (meetMsg c noise)
      if c.op = opPermute then
        match m4.readLayout c with
        | none => m4.collViolation c
        | some l =>
          let m4 := m4.look (cpWho c.ctx) c.src (8 * l.length)
          let bad := (List.range (l.getD 0 0 % 2 ^ 16)).any (fun i =>
            decide (m.stCount c.ctx < l.getD (4 + 8 * i) 0 / 2 ^ 48 + l.getD (4 + 8 * i) 0 / 2 ^ 40 % 16 + 1))
          if l.getD 0 0 / 2 ^ 32 != c.epoch + 1 || bad then m4.collViolation c
          else (m4.modColl c.id (fun x => { x with layout := l })).collAll c 6 (.layout c.seq (crc32c l))
      else m4

/-- Start every collective that may start, in acceptance order. -/
def Module.collPoke (m : Module) : Module :=
  m.each (m.cp.colls.map (fun c => c.id)) (fun m id => match m.coll id with | some c => m.startColl c | none => m)

/-- Submit a collective (R344): the code. -/
def Module.collSubmit (m : Module) (ctx va : Nat) : Module × Nat :=
  if m.oos || !m.bit Reg.FAB_CP_CTRL.accept then m.collRefuse 3
  else if va % 64 != 0 then (m.violate ctx 2 va).collRefuse 2
  else
    let (d, bad, viol) := m.descRead ctx va 8
    let m := m.look (cpWho ctx) va 64
    let g := d.getD 0 0 % 2 ^ 48
    if bad then m.collRefuse 4
    else if viol then (m.violate ctx 2 va).collRefuse 2
    else
      let h := m.engRead ctx g 8 1
      let n := h.words.getD 0 0 / 2 ^ 48 + 1
      let r := m.engRead ctx (g + 8) 8 ((n + 3) / 4)
      let members := groupOf n r.words
      let m := m.look (cpWho ctx) g (8 + 8 * ((n + 3) / 4))
      if g % 64 != 0 then (m.violate ctx 2 va).collRefuse 2
      else if h.bad || r.bad then m.collRefuse 4
      else if h.viols + r.viols != 0 || h.words.getD 0 0 % 2 ^ 48 != 0 ||
          (n % 4 != 0 && r.words.getD (n / 4) 0 / 2 ^ (16 * (n % 4)) != 0) ||
          (members.filter (fun x => x == m.myId)).length != 1 || !collValid d n then (m.violate ctx 2 va).collRefuse 2
      else if 4096 ≤ m.cp.colls.length then m.collRefuse 1
      else
        let seq := m.nextSeq ctx members
        let c : Coll := { id := m.cp.nextId, ctx := ctx, words := d, group := members, seq := seq, proc := 0, started := false,
                          live0 := [], waitFrom := m.pilot, heard := [], met := false, sentFor := none, among := [], bads := false, noise := 0,
                          owners := [], shards := [], gens := [],
                          moved := [], restored := [], asked := false, acked := false, skipped := false, missing := false,
                          lostAt := none, layout := [], status := none, bank := false }
        let q := m.cp
        let m1 := m.setCp { q with colls := q.colls ++ [c], nextId := q.nextId + 1,
                                   seqs := q.seqs.filter (fun s => !(s.1 == ctx && s.2.1 == members)) ++ [(ctx, members, seq + 1)] }
        ((m1.collCounts).collPoke, 0)

def execXColl (th : ThreadId) (w : Word) (s : State) : Host.Outcome State Fault Refusal :=
  s.inst .xColl th w (submitRow Module.collSubmit w)

/-! ### The meeting (14 R345, R346) -/

/-- The meeting values of a rank: this module's own, or those received. -/
def Module.meetOf (m : Module) (c : Coll) (rank : Nat) : Option CollMsg :=
  if rank = m.myRank c then some (meetMsg c 0)
  else (m.msgsFrom c rank).find? (fun x => match x with | .meet .. => true | _ => false)

/-- Do two members' values agree? -/
def meetAgree : CollMsg → CollMsg → Bool
  | .meet _ a b c d e f .., .meet _ a' b' c' d' e' f' .. => a == a' && b == b' && c == c' && d == d' && e == e' && f == f'
  | _, _ => false

/-- Check the meeting of a started collective: disagreement ends it (R346). -/
def Module.meetCheck (m : Module) (c : Coll) : Module :=
  if !c.started || c.met || c.status.isSome then m
  else
    let got := (m.others c).map (m.meetOf c)
    if got.any (fun x => match x with | some v => !meetAgree v (meetMsg c 0) | none => false) then
      ((m.modColl c.id (fun x => { x with met := true })).collViolation c).raise 132
    else if got.all (fun x => x.isSome) then m.modColl c.id (fun x => { x with met := true, waitFrom := m.pilot })
    else m

/-! ### Data operations (14 Table 14-2) -/

/-- The elements that a live rank has sent for a part. What a member sends does not depend on the live set, so that it serves also when
a member is lost after its sender has completed (R348). -/
def Module.partFrom (m : Module) (c : Coll) (rank part : Nat) : Option (List Nat) :=
  ((m.msgsFrom c rank).find? (fun x => match x with | .bytes _ _ p _ => p == part | _ => false)).bind
    (fun x => match x with | .bytes _ _ _ v => some v | _ => none)

/-- The status of a collective that ran: PEER_LOST when a member was lost during it (R348), or a GRAD_HANDOVER was held for a lost owner
(R356). -/
def Module.ranStatus (m : Module) (c : Coll) : Nat :=
  if c.live0.any (fun r => m.routeLost (c.group.getD r 0)) || (c.op == opGrad && c.missing) then sPeerLost else sDone

/-- Send this member's data when it has not been sent for the current live set: `f` gives each other live rank its part. -/
def Module.sendData (m : Module) (c : Coll) (f : Nat → Option (Nat × Nat × Nat)) : Module :=
  let live := m.liveRanks c
  if c.sentFor = some live then m
  else
    let m1 := m.modColl c.id (fun x => { x with sentFor := some live })
    m1.each (m1.others c) (fun m r =>
      match f r with
      | none => m
      | some (part, va, n) =>
        let x := m.readElems c.ctx va c.size n
        x.1.collSend c c.vc r (.bytes c.seq live.length part x.2))

/-- Run a collective operation on a met collective of the row's op. -/
def Module.withColl (m : Module) (id op : Nat) (f : Module → Coll → Module) : Module :=
  match m.coll id with
  | none => m
  | some c0 =>
    let m1 := m.meetCheck c0
    match m1.coll id with
    | some c => if c.op = op && c.met && c.status.isNone then f m1 c else m1
    | none => m1

/-- ALLREDUCE: the reduction of every member's src. -/
def allreduce (id : Nat) (m : Module) : Module :=
  m.withColl id 1 (fun m c =>
    let m1 := m.sendData c (fun _ => some (0, c.src, c.nelem))
    let live := m.liveRanks c
    let own := m1.readElems c.ctx c.src c.size c.nelem
    let got := live.map (fun r => if r = m.myRank c then some own.2 else m.partFrom c r 0)
    if got.all (fun x => x.isSome) then
      let m2 := own.1.writeElems c.ctx c.dst c.size (reduceLists c.dtype c.rop c.nelem (got.filterMap (fun x => x)))
      (m2.count pmcColl 2 (live.length * c.nelem * c.size) { Ev.none with ctx := some c.ctx }).decideColl c.id (m.ranStatus c)
    else m1)

def execAllreduce (coll : Nat) (s : State) : Host.Outcome State Fault Refusal := s.go (fun m => m.whenOpen (allreduce coll))

/-- REDUCE_SCATTER: part j of the reduction goes to live index j (R359 with ns the live count). Every member sends its whole src, since
the parts move when a member is lost (DESIGN CHOICE, log 45). -/
def reduceScatter (id : Nat) (m : Module) : Module :=
  m.withColl id 2 (fun m c =>
    let live := m.liveRanks c
    let rng (r : Nat) : Nat × Nat := shardRange c.nelem live.length (liveIndex live r)
    let m1 := m.sendData c (fun _ => some (0, c.src, c.nelem))
    let me := m.myRank c
    let own := m1.readElems c.ctx (c.src + c.size * (rng me).1) c.size (rng me).2
    let got := live.map (fun r => if r = me then some own.2
      else (m.partFrom c r 0).map (fun v => (v.drop (rng me).1).take (rng me).2))
    if got.all (fun x => x.isSome) then
      let m2 := own.1.writeElems c.ctx c.dst c.size (reduceLists c.dtype c.rop (rng me).2 (got.filterMap (fun x => x)))
      (m2.count pmcColl 2 (live.length * (rng me).2 * c.size) { Ev.none with ctx := some c.ctx }).decideColl c.id (m.ranStatus c)
    else m1)

def execReduceScatter (coll : Nat) (s : State) : Host.Outcome State Fault Refusal := s.go (fun m => m.whenOpen (reduceScatter coll))

/-- Place the blocks of every rank: live ranks' data, an undefined range for a rank that is lost (R348). -/
def Module.placeBlocks (m : Module) (c : Coll) (got : List (Nat × Option (List Nat))) : Module :=
  m.each got (fun m (r, v) =>
    let va := c.dst + r * c.nelem * c.size
    match v with
    | some l => m.writeElems c.ctx va c.size l
    | none => m.freeElems c.ctx va c.size c.nelem)

/-- ALLGATHER: every member's block in rank order. -/
def allgather (id : Nat) (m : Module) : Module :=
  m.withColl id 3 (fun m c =>
    let me := m.myRank c
    let m1 := m.sendData c (fun _ => some (me, c.src, c.nelem))
    let live := m.liveRanks c
    let own := m1.readElems c.ctx c.src c.size c.nelem
    let got := (List.range c.group.length).map (fun r => (r, if r = me then some own.2 else m.partFrom c r r))
    if got.all (fun x => x.2.isSome || !live.contains x.1) then
      (own.1.placeBlocks c (got.map (fun x => if live.contains x.1 then x else (x.1, none)))).decideColl c.id (m.ranStatus c)
    else m1)

def execAllgather (coll : Nat) (s : State) : Host.Outcome State Fault Refusal := s.go (fun m => m.whenOpen (allgather coll))

/-- BROADCAST: dst := src of the root. -/
def broadcast (id : Nat) (m : Module) : Module :=
  m.withColl id 4 (fun m c =>
    let root := c.arg % 2 ^ 16
    let me := m.myRank c
    if root = me then
      let m1 := m.sendData c (fun _ => some (0, c.src, c.nelem))
      let own := m1.readElems c.ctx c.src c.size c.nelem
      (own.1.writeElems c.ctx c.dst c.size own.2).decideColl c.id (m.ranStatus c)
    else if !(m.liveRanks c).contains root then (m.freeElems c.ctx c.dst c.size c.nelem).decideColl c.id sPeerLost
    else
      match (m.msgsFrom c root).findSome? (fun x => match x with | .bytes _ _ 0 v => some v | _ => none) with
      | none => m
      | some v => (m.writeElems c.ctx c.dst c.size v).decideColl c.id (m.ranStatus c))

def execBroadcast (coll : Nat) (s : State) : Host.Outcome State Fault Refusal := s.go (fun m => m.whenOpen (broadcast coll))

/-- ALLTOALL: block j of src goes to rank j. -/
def alltoall (id : Nat) (m : Module) : Module :=
  m.withColl id 5 (fun m c =>
    let me := m.myRank c
    let m1 := m.sendData c (fun r => some (me, c.src + r * c.nelem * c.size, c.nelem))
    let live := m.liveRanks c
    let own := m1.readElems c.ctx (c.src + me * c.nelem * c.size) c.size c.nelem
    let got := (List.range c.group.length).map (fun r => (r, if r = me then some own.2 else m.partFrom c r r))
    if got.all (fun x => x.2.isSome || !live.contains x.1) then
      (own.1.placeBlocks c (got.map (fun x => if live.contains x.1 then x else (x.1, none)))).decideColl c.id (m.ranStatus c)
    else m1)

def execAlltoall (coll : Nat) (s : State) : Host.Outcome State Fault Refusal := s.go (fun m => m.whenOpen (alltoall coll))

/-- BARRIER: complete when every live member has submitted. -/
def barrier (id : Nat) (m : Module) : Module := m.withColl id 6 (fun m c => m.decideColl c.id (m.ranStatus c))

def execBarrier (coll : Nat) (s : State) : Host.Outcome State Fault Refusal := s.go (fun m => m.whenOpen (barrier coll))

/-- The neighbours of this member's place in a ring of ranks: the next and the previous (R368). -/
def Module.ringOf (m : Module) (c : Coll) (ring : List Nat) : Nat × Nat :=
  let me := m.myRank c
  let i := liveIndex ring me
  (ring.getD ((i + 1) % ring.length) me, ring.getD ((i + ring.length - 1) % ring.length) me)

/-- RING_PASS: to the next live index, from the previous one (R368). The receiver says that the block is visible, and both transfers must
be visible at the end. What a previous member that was lost would have sent is undefined (R348): its receiver says so to the member that
precedes it now; and a member whose next was lost waits for no word of it. -/
def ringPass (id : Nat) (m : Module) : Module :=
  m.withColl id 0x0B (fun m c =>
    let live := m.liveRanks c
    let me := m.myRank c
    let (next, prev) := m.ringOf c live
    let (next0, prev0) := m.ringOf c c.live0
    let m1 := m.sendData c (fun r => if r = next then some (me, c.src, c.nelem) else none)
    let own := m1.readElems c.ctx c.src c.size c.nelem
    let placed (m : Module) : Module := if prev = me then m else m.collSend c (responseVc c.vc) prev (.placed c.seq)
    let seen := next == me || !live.contains next0 || (m.msgsFrom c next).any (fun x => match x with | .placed _ => true | _ => false)
    let m2 :=
      if c.acked then m1
      else if !live.contains prev0 then placed ((m1.freeElems c.ctx c.dst c.size c.nelem).modColl c.id (fun x => { x with acked := true }))
      else match (if prev = me then some own.2 else m.partFrom c prev prev) with
      | none => m1
      | some v => placed ((own.1.writeElems c.ctx c.dst c.size v).modColl c.id (fun x => { x with acked := true }))
    match m2.coll id with
    | some x => if x.acked && seen then m2.decideColl c.id (m.ranStatus c) else m2
    | none => m2)

def execRingPass (coll : Nat) (s : State) : Host.Outcome State Fault Refusal := s.go (fun m => m.whenOpen (ringPass coll))

/-! ### GRAD_HANDOVER (14 R351-R357) -/

/-- The GNW, the count and the noise term that a live rank contributed. -/
def Module.gradOf (m : Module) (c : Coll) (rank : Nat) : Nat × Nat × Nat :=
  if rank = m.myRank c then (c.arg, c.cnt, (m.noiseTerm c).2)
  else match m.meetOf c rank with
    | some (.meet _ _ _ _ _ _ _ g n a) => (g.toNat, n, a.toNat)
    | _ => (0, 0, 0)

/-- The contributors of a set of ranks: those with cnt ≠ 0, in live-index order. -/
def Module.contributorsOf (m : Module) (c : Coll) (live : List Nat) : List Nat := live.filter (fun r => (m.gradOf c r).2.1 != 0)

def Module.contributors (m : Module) (c : Coll) : List Nat := m.contributorsOf c (m.liveRanks c)

/-- The contributors included: fixed once every shard of the layer is closed (R355). -/
def Module.included (m : Module) (c : Coll) : List Nat := if c.asked then c.gens else m.contributors c

/-- C of R351: the micro-batches of the contributors included. -/
def Module.gradCount (m : Module) (c : Coll) : Nat := (m.included c).foldl (fun t r => t + (m.gradOf c r).2.1) 0

/-- The combined GNW (08 R172): `bad` says that the reduction produced an infinity or a NaN. The spec combines nf, stash_of, amax and k; the
reserved bits are ORed (DESIGN CHOICE, log 77). -/
def combineGnw (l : List Nat) (bad : Bool) : Nat :=
  let k (g : Nat) : Nat := g / 2 ^ 48 % 256
  let k0 := k (l.headD 0)
  let nf := bad || l.any (fun g => g / 2 ^ 63 == 1) || l.any (fun g => k g != k0)
  let so := l.any (fun g => g / 2 ^ 62 % 2 == 1)
  let resv := l.foldl (fun s g => Nat.lor s (g / 2 ^ 56 % 64 * 2 ^ 56 + g / 2 ^ 32 % 2 ^ 16 * 2 ^ 32)) 0
  (if nf then 2 ^ 63 else 0) + (if so then 2 ^ 62 else 0) + resv + k0 * 2 ^ 48 + l.foldl (fun s g => max s (g % 2 ^ 32)) 0

/-- What an owner said when it closed shards: its device, the live ranks, the shards, and what it found. -/
structure Closing where
  dev : Nat
  live : List Nat
  shards : List Nat
  bad : Bool
  part : Pair

/-- The closings of a collective's shards, this module's own among them, latest first. -/
def Module.closings (m : Module) (c : Coll) : List Closing :=
  (m.cp.box.filterMap (fun b =>
    match b.msg with
    | .closed q l js bad s e =>
      if q = c.seq && b.job = m.jobOf c.ctx && b.group = c.group then some ⟨b.src, l, js, bad, Pair.ofBits fp64 s.toNat e.toNat⟩ else none
    | _ => none)).reverse

/-- The latest closing of each owner over some live ranks, in rank order. -/
def Module.closedBy (m : Module) (c : Coll) (owners live : List Nat) : List Closing :=
  c.group.filterMap (fun d => if owners.contains d then (m.closings c).find? (fun x => x.dev == d && x.live == live) else none)

/-- Is every shard of the layer closed over some live ranks (R352), and what was found: the flag of R172 and the pair of B? -/
def Module.layerClosed (m : Module) (c : Coll) (ns : Nat) (owners live : List Nat) : Option (Bool × Pair) :=
  let xs := (m.closings c).filter (fun x => x.live == live)
  match xs.find? (fun x => (List.range ns).all x.shards.contains) with
  | some x => some (x.bad, x.part)
  | none =>
    if (List.range ns).all (fun j => xs.any (fun x => x.dev == owners.getD j 0 && x.shards.contains j)) then
      let ys := m.closedBy c owners live
      some (ys.any (fun y => y.bad), sumTree (ys.map (fun y => y.part)))
    else none

/-- Shards are reduced over other ranks: what was closed is discarded (R355). -/
def Coll.reduceOver (c : Coll) (live : List Nat) : Coll :=
  if c.among = live then c else { c with among := live, shards := c.shards.map (fun s => { s with closed := false }) }

/-- Every shard of the layer is closed: the contributors are fixed, also one that is lost afterwards (R355). -/
def Module.settleClosing (m : Module) (id ns : Nat) (owners : List Nat) : Module :=
  match m.coll id with
  | none => m
  | some c =>
    if c.asked then m
    else match ((m.closings c).map (fun x => x.live)).findSome? (fun l => (m.layerClosed c ns owners l).map (fun r => (l, r))) with
      | none => m
      | some (l, bad, part) => m.modColl id (fun x =>
          { x.reduceOver l with asked := true, gens := m.contributorsOf c l, bads := bad, noise := pairBits fp64 part })

/-- The closing that this member sends. -/
def closedMsg (c : Coll) (shards : List Nat) (bad : Bool) (part : Pair) : CollMsg :=
  let b := part.bits fp64
  .closed c.seq c.among shards bad (BitVec.ofNat 64 b.1) (BitVec.ofNat 64 b.2)

/-- Send this contributor's ranges to the owners of the shards that are open, when they were not sent for the current live set. -/
def Module.sendGrads (m : Module) (id ns : Nat) (owners : List Nat) : Module :=
  match m.coll id with
  | none => m
  | some c =>
    let live := m.liveRanks c
    if c.sentFor = some live then m
    else
      let m1 := m.modColl id (fun x => { x with sentFor := some live })
      let m2 := if c.asked && c.among != live then m1.collAll c 6 (closedMsg c (List.range ns) c.bads (unpackPair c.noise)) else m1
      if c.cnt = 0 then m2
      else m2.each ((List.range ns).filter (fun j => !m.shardAcked c j)) (fun m j =>
        let r := (c.group.takeWhile (fun d => d != owners.getD j 0)).length
        if r = m.myRank c || !live.contains r then m
        else
          let (lo, n) := shardRange c.nelem ns j
          let x := m.readElems c.ctx (c.src + 4 * lo) 4 n
          x.1.collSend c c.vc r (.bytes c.seq live.length j x.2))

/-- Close a shard: reduce the contributors' ranges into dst (R352). What a contributor that was lost had sent stays in (R355). -/
def Module.closeShard (m : Module) (c : Coll) (ns : Nat) (s : ShardRun) : Module :=
  let (lo, n) := shardRange c.nelem ns s.j
  let cs := (m.contributorsOf c c.among).filter (fun r => (m.liveRanks c).contains r || (m.partFrom c r s.j).isSome)
  let own := m.readElems c.ctx (c.src + 4 * lo) 4 n
  let got := cs.map (fun r => if r = m.myRank c then some own.2 else m.partFrom c r s.j)
  if s.closed || !got.all (fun x => x.isSome) then m
  else
    let v := reduceLists 0 0 n (got.filterMap (fun x => x))
    let bad := v.any (fun x => !(fp32.decode x).isFin)
    let m1 := own.1.writeElems c.ctx (c.dst + 4 * lo) 4 v
    let m2 := m1.count pmcColl 2 (cs.length * n * 4) { Ev.none with ctx := some c.ctx }
    m2.modColl c.id (fun x => { x with shards := x.shards.map (fun y => if y.j = s.j then
      { y with closed := true, bad := bad, noise := pairBits fp64 (normPair v) } else y) })

/-- An owner that has closed all of its shards says so, once (R352). -/
def Module.sayClosed (m : Module) (id : Nat) : Module :=
  match m.coll id with
  | none => m
  | some c =>
    let js := c.shards.map (fun s => s.j)
    let said := (m.closings c).any (fun x => x.dev == m.myId && x.live == c.among && js.all x.shards.contains)
    if c.asked || c.shards.isEmpty || said || !c.shards.all (fun s => s.closed) then m
    else
      let msg := closedMsg c js (c.shards.any (fun s => s.bad)) (sumTree (c.shards.map (fun s => unpackPair s.noise)))
      (m.keepMsg m.myId (m.jobOf c.ctx) c.group msg).collAll c 6 msg

/-- An owner whose shards the Hamper has completed acknowledges every contributor, once (R354). -/
def Module.sayDone (m : Module) (id : Nat) : Module :=
  match m.coll id with
  | none => m
  | some c =>
    if c.acked || c.shards.isEmpty || !c.shards.all (fun s => s.done) then m
    else
      let msg : CollMsg := .ackOwner c.seq (c.shards.map (fun s => s.j)) c.skipped
      ((m.modColl id (fun x => { x with acked := true })).keepMsg m.myId (m.jobOf c.ctx) c.group msg).collAll c 6 msg

/-- The shards that this member owns and that are open, or on which it has worked. -/
def Module.myShards (m : Module) (c : Coll) (ns : Nat) (owners : List Nat) : List ShardRun :=
  let fresh (j : Nat) : ShardRun :=
    { j := j, entry := c.sidx + j, closed := false, waited := false, posted := false, done := false, noise := 0, bad := false }
  ((List.range ns).filter (fun j => owners.getD j 0 == m.myId && (c.shards.any (fun s => s.j == j) || !m.shardAcked c j))).map (fun j =>
    (c.shards.find? (fun s => s.j == j)).getD (fresh j))

/-- Advance a GRAD_HANDOVER at this member: until every shard of the layer is closed, shards are reduced over the current live set
(R355); contributions go to the owners, its shards close, it says so, and it acknowledges. -/
def gradHandover (id : Nat) (m : Module) : Module :=
  m.withColl id opGrad (fun m c0 =>
    match m.layer c0.ctx c0.sidx with
    | none => m
    | some (ns, owners) =>
      let m1 := m.settleClosing id ns owners
      let m2 := m1.modColl id (fun c => let x := if c.asked then c else c.reduceOver (m1.liveRanks c)
                                        { x with shards := m1.myShards x ns owners })
      let m3 := m2.sendGrads id ns owners
      let m4 := m3.each (((m3.coll id).map (fun c => c.shards)).getD []) (fun m s =>
        match m.coll id with | some c => m.closeShard c ns s | none => m)
      let m5 := (((m4.sayClosed id).settleClosing id ns owners).sayDone id)
      match m5.coll id with
      | none => m5
      | some c =>
        let skipped := c.skipped || m5.cp.box.any (fun b => b.job == m5.jobOf c.ctx && b.group == c.group &&
          (match b.msg with | .ackOwner s _ k => s == c.seq && k | _ => false))
        if (List.range ns).all (m5.shardAcked c) then
          (m5.modColl id (fun x => { x with skipped := skipped })).decideColl id (m5.ranStatus c)
        else m5)

def execGradHandover (coll : Nat) (s : State) : Host.Outcome State Fault Refusal := s.go (fun m => m.whenOpen (gradHandover coll))

/-- The owner posts shard j (R353): it waits for the pins of its target buffer. -/
def shardPost (id j : Nat) (m : Module) : Module :=
  match m.coll id with
  | none => m
  | some c =>
    match c.shards.find? (fun s => s.j == j), m.layer c.ctx c.sidx with
    | some s, some (ns, _) =>
      if c.op != opGrad || c.status.isSome || !c.asked || !s.closed || s.posted then m
      else
        let e := m.shard c.ctx s.entry
        let y := !e.newestY
        if e.pins y != 0 then
          if s.waited then m
          else ((m.modColl id (fun x => { x with shards := x.shards.map (fun t => if t.j = j then { t with waited := true } else t) })).addF
            Reg.FAB_CP_CNT.pinwait 1).raise 130
        else
          let (lo, n) := shardRange c.nelem ns j
          let v := (m.look (cpWho c.ctx) (m.stEntry c.ctx s.entry) 32).readElems c.ctx (e.buf e.newestY) 2 n
          let m1 := v.1.writeElems c.ctx (e.buf y) 2 v.2
          let m2 := m1.engPut (collWho c.ctx) [(m1.layerVa c.ctx e.hlayer + 16, 8, e.buf y)]
          let gnw := combineGnw (c.gens.map (fun r => (m.gradOf c r).1)) c.bads
          let ws := [c.step * 2 ^ 32 + c.ctx * 2 ^ 16 + e.hlayer, gnw, m.gradCount c % 2 ^ 16 * 2 ^ 48 + (c.dst + 4 * lo) % 2 ^ 48,
                     m.stEntry c.ctx s.entry + 32, 0, 0, 0, 0]
          let h : HandOver := { coll := id, shard := s.entry, bufY := y, gen := e.newest, words := ws }
          let m3 := m2.modColl id (fun x => { x with shards := x.shards.map (fun t =>
            if t.j = j then { t with posted := true } else t) })
          m3.setHmp { m3.hmp with posted := m3.hmp.posted ++ [h] }
    | _, _ => m

def execShardPost (coll j : Nat) (s : State) : Host.Outcome State Fault Refusal := s.go (fun m => m.whenOpen (shardPost coll j))

/-- The noise record (R357): the scale is that of the contributors' GNW. Of a collective that ends before every shard is closed, B has the
parts that are (the spec states no value: DESIGN CHOICE, log 77). -/
def Module.noiseRecord (m : Module) (c : Coll) : List Nat :=
  let cs := m.included c
  let k := gnwK (cs.head?.map (fun r => (m.gradOf c r).1) |>.getD c.arg)
  let terms := cs.map (fun r => ({ s := val64 (m.gradOf c r).2.2, e := FVal.zero } : Pair))
  let a := bits64 ((sumTree terms).value false).1
  let owners := ((m.layer c.ctx c.sidx).map (fun l => l.2)).getD []
  let part := if c.asked then unpackPair c.noise else sumTree ((m.closedBy c owners c.among).map (fun x => x.part))
  let b := bits64 ((part.value false).1.scale (-(2 * k)))
  let nan := fp64.nanBits
  [if c.skipped then nan else a, if c.skipped then nan else b,
   m.gradCount c % 2 ^ 32 * 2 ^ 32 + cs.length, c.step * 2 ^ 32]

/-! ### Shards (14 R360-R363) -/

/-- An owner answers for a shard of its table: the generation delivered (0 when it is gone) and its elements. -/
def Module.serveShard (m : Module) (ctx entry gen count : Nat) (pin release deliver : Bool) : Module × Nat × List Nat :=
  let s := m.shard ctx entry
  let g := if gen = 0 then s.newest else gen
  let y := s.gen true == g
  if m.stCount ctx ≤ entry || g = 0 || !(y || s.gen false == g) then (m, 0, [])
  else if pin && decide (0xFFFF ≤ s.pins y) then (m, 0, [])
  else
    let m1 := if pin then m.putPins ctx entry y (s.pins y + 1) else m
    let v := if deliver then m1.readElems ctx (s.buf y) 2 count else (m1, [])
    let p := (v.1.shard ctx entry).pins y
    let m2 := if !release then v.1 else if p = 0 then v.1.addF Reg.FAB_CP_CNT.badrel 1 else v.1.putPins ctx entry y (p - 1)
    (m2, g, v.2)

/-- The generation that the owner of shard j answered, with its elements. -/
def Module.shardFrom (m : Module) (c : Coll) (dev j : Nat) : Option (Nat × List Nat) :=
  (m.msgsOf c dev).findSome? (fun x => match x with | .shard _ i g v => if i = j then some (g, v) else none | _ => none)

/-- The shards of a SHARD_GATHER or UNPIN and their owners: those of the layout under which it asked (R360). -/
def Module.askedOwners (m : Module) (c : Coll) : Option (Nat × List Nat) :=
  if c.asked then some (c.owners.length, c.owners) else m.layer c.ctx c.sidx

/-- SHARD_GATHER and UNPIN: ask each owner once, then place what the owners answered. -/
def Module.gather (m : Module) (c : Coll) (deliver : Bool) : Module :=
  match m.askedOwners c with
  | none => m
  | some (ns, owners) =>
    let q := shardQ c.nelem ns
    let pin := deliver && c.pin
    let rel := !deliver || c.release
    let place (m : Module) (j g : Nat) (v : List Nat) : Module :=
      let n := (shardRange c.nelem ns j).2
      if !deliver then m
      else if g = 0 then m.freeElems c.ctx (c.dst + 2 * j * q) 2 n
      else m.writeElems c.ctx (c.dst + 2 * j * q) 2 v
    let m1 := if c.asked then m
      else
        let m0 := m.modColl c.id (fun x => { x with asked := true, owners := owners, gens := List.replicate ns 0 })
        m0.each (List.range ns) (fun m j =>
          let (lo, n) := shardRange c.nelem ns j
          if owners.getD j 0 = m.myId then
            let r := m.serveShard c.ctx (c.sidx + j) (c.arg % 2 ^ 32) n pin rel deliver
            (place r.1 j r.2.1 r.2.2).modColl c.id (fun x =>
              { x with gens := x.gens.set j r.2.1, moved := x.moved ++ [j], missing := x.missing || r.2.1 == 0 })
          else if m.routeLost (owners.getD j 0) then m
          else m.collTo c c.vc (owners.getD j 0) (.ask c.seq j (c.sidx + j) (c.arg % 2 ^ 32) lo n pin rel deliver))
    let m2 := m1.each (List.range ns) (fun m j =>
      match m.coll c.id with
      | none => m
      | some x =>
        if x.moved.contains j then m
        else if m.routeLost (owners.getD j 0) then
          (place m j 0 []).modColl c.id (fun x => { x with moved := x.moved ++ [j], skipped := true })
        else match m.shardFrom c (owners.getD j 0) j with
          | none => m
          | some (g, v) => (place m j g v).modColl c.id (fun x =>
              { x with gens := x.gens.set j g, moved := x.moved ++ [j], missing := x.missing || g == 0 }))
    match m2.coll c.id with
    | none => m2
    | some x =>
      if (List.range ns).all (fun j => x.moved.contains j) then
        m2.decideColl c.id (if x.skipped || m2.ranStatus x = sPeerLost then sPeerLost else if x.missing then sGenMismatch else sDone)
      else m2

def shardGather (id : Nat) (m : Module) : Module := m.withColl id opGather (fun m c => m.gather c true)
def execShardGather (coll : Nat) (s : State) : Host.Outcome State Fault Refusal := s.go (fun m => m.whenOpen (shardGather coll))

def unpin (id : Nat) (m : Module) : Module := m.withColl id opUnpin (fun m c => m.gather c false)
def execUnpin (coll : Nat) (s : State) : Host.Outcome State Fault Refusal := s.go (fun m => m.whenOpen (unpin coll))

/-! ### PERMUTE (14 R366; 17 R430-R432) -/

/-- The shards of a layout: (entry, shard number, ns, nelem, owner rank). -/
def layoutShards (l : List Nat) : List (Nat × Nat × Nat × Nat × Nat) :=
  (List.range (l.getD 0 0 % 2 ^ 16)).flatMap (fun i =>
    let w := l.getD (4 + 8 * i) 0
    let ns := w / 2 ^ 40 % 16 + 1
    (List.range ns).map (fun j => (w / 2 ^ 48 + j, j, ns, w % 2 ^ 40, l.getD (8 + 8 * i + j / 4) 0 / 2 ^ (16 * (j % 4)) % 2 ^ 16)))

/-- The shards that a PERMUTE moves: (entry, elements, old owner's device, new owner's rank). -/
def Module.moves (m : Module) (c : Coll) : List (Nat × Nat × Nat × Nat) :=
  match SMap.get none m.cp.layouts c.ctx with
  | none => []
  | some old =>
    (layoutShards c.layout).filterMap (fun (entry, j, ns, nelem, r) =>
      ((layoutShards old.words).find? (fun x => x.1 == entry)).bind (fun x =>
        let dev := old.group.getD x.2.2.2.2 0
        if dev = c.group.getD r 0 then none else some (entry, (shardRange nelem ns j).2, dev, r)))

/-- A shard that moves has had no copy from its owner: the record of its copies is gone, so that the next ones are full (17 R426). -/
def Module.dropShardCopies (m : Module) (ctx entry : Nat) : Module :=
  m.setHmp { m.hmp with shards := m.hmp.shards.filter (fun s => !(s.ctx == ctx && s.entry == entry)) }

/-- What an owner sends of a shard: its newest generation, pins, word 13, weights, remainder, moments, row states. -/
def Module.moveOut (m : Module) (c : Coll) (entry n : Nat) : Module × CollMsg :=
  let s := m.shard c.ctx entry
  let y := s.newestY
  let m := (m.look (cpWho c.ctx) (m.stEntry c.ctx entry) 32).dropShardCopies c.ctx entry
  let d := (m.layerDesc c.ctx s.hlayer).getD (List.replicate 16 0)
  let w := m.readElems c.ctx (s.buf y) 2 n
  let r := w.1.readElems c.ctx (ldRem d) 1 n
  let ms := (List.range (ldNmom d)).foldl (fun (a : Module × List (List Nat)) j =>
    let x := a.1.readElems c.ctx (ldMom d j) 4 n
    (x.1, a.2 ++ [x.2])) (r.1, [])
  let base := (m.rsWindow c.ctx).1 + ldRsBase d
  let rows := if ldEmbed d then (List.range (ldRows d)).map (fun i => (i, SMap.get 0 m.hmp.rowState (base + i))) else []
  (ms.1, .moved c.seq entry s.newest (s.pins y) (BitVec.ofNat 64 (ldWord13 d)) w.2 r.2 ms.2 rows)

/-- The new owner stores a shard: buf_x, gen_x, gen_y := 0, pins, and the rest where its own Hamper descriptor names (R366, R430). -/
def Module.install (m : Module) (ctx entry gen pins : Nat) (word13 : Word) (ws rem : List Nat) (moms : List (List Nat))
    (rows : List (Nat × Word)) : Module :=
  let s := m.shard ctx entry
  let va := m.stEntry ctx entry
  let m1 := (m.dropShardCopies ctx entry).engPut (collWho ctx) [(va + 16, 8, gen * 2 ^ 32), (va + 24, 8, pins * 2 ^ 48)]
  if gen = 0 then m1
  else
    let m2 := m1.writeElems ctx (s.buf false) 2 ws
    match m2.layerDesc ctx s.hlayer with
    | none => m2
    | some d =>
      let m3 := m2.writeElems ctx (ldRem d) 1 rem
      let m4 := m3.each moms.zipIdx (fun m (l, j) => if j < ldNmom d then m.writeElems ctx (ldMom d j) 4 l else m)
      let m5 := m4.engPut (collWho ctx) [(m4.layerVa ctx s.hlayer + 104, 8, word13.toNat)]
      let base := (m5.rsWindow ctx).1 + ldRsBase d
      m5.each rows (fun m (i, v) =>
        if i < ldRows d then m.setHmp { m.hmp with rowState := SMap.set 0 m.hmp.rowState (base + i) v } else m)

/-- The best complete slot that this module holds for a lost owner's shard: its generation and its units (17 R430). -/
def Module.slotFor (m : Module) (owner job entry : Nat) : Option (List Nat × List BlanketUnit) :=
  match m.hmp.slots.find? (fun s => s.owner == owner && s.job == job && s.sidx == entry) with
  | none => none
  | some s =>
    let g (x : Option (List Nat × List BlanketUnit)) : Nat := ((x.map (fun v => v.1.getD 2 0 / 2 ^ 32)).getD 0)
    if g s.even < g s.odd then s.odd else s.even

/-- What a holder offers for a lost owner's shard: its best slot, or generation 0. -/
def Module.slotMsg (m : Module) (c : Coll) (owner entry : Nat) : CollMsg :=
  match m.slotFor owner (m.jobOf c.ctx) entry with
  | none => .moved c.seq entry 0 0 0 [] [] [] []
  | some (h, us) =>
    .moved c.seq entry (h.getD 2 0 / 2 ^ 32) 0 (BitVec.ofNat 64 (h.getD 3 0)) (us.flatMap (fun u => u.weights))
      (us.flatMap (fun u => u.rem)) ((List.range (h.getD 1 0 / 2 ^ 40 % 16)).map (fun j => us.flatMap (fun u => u.moms.getD j [])))
      (if h.getD 1 0 / 2 ^ 44 % 16 = 1 then us.map (fun u => (u.row, u.rowState)) else [])

def movedGen : CollMsg → Nat
  | .moved _ _ g .. => g
  | _ => 0

/-- What a rank sent for a moved shard. -/
def Module.movedFrom (m : Module) (c : Coll) (rank entry : Nat) : Option CollMsg :=
  (m.msgsFrom c rank).find? (fun x => match x with | .moved _ e .. => e == entry | _ => false)

def Module.installMsg (m : Module) (ctx : Nat) (x : CollMsg) : Module :=
  match x with
  | .moved _ entry g p w13 ws rem ms rows => m.install ctx entry g p w13 ws rem ms rows
  | _ => m

/-- The GRAD_HANDOVERs of older epochs that address a moved shard of a live owner and whose acknowledgement for it has not come (R366
step 2). -/
def Module.openGrads (m : Module) (c : Coll) : List Coll :=
  let mv := (m.moves c).filter (fun x => !m.routeLost x.2.2.1)
  m.cp.colls.filter (fun g => g.op == opGrad && g.ctx == c.ctx && g.status.isNone && decide (g.epoch ≤ c.epoch) &&
    (match m.layer g.ctx g.sidx with
     | some (ns, _) => mv.any (fun x => decide (g.sidx ≤ x.1) && decide (x.1 < g.sidx + ns) && !m.shardAcked g (x.1 - g.sidx))
     | none => false))

/-- Send this member's shards that move, once; offer its slot for each shard of a lost owner once, also of one that is lost later. -/
def Module.sendMoves (m : Module) (c : Coll) : Module :=
  m.each (m.moves c) (fun m (entry, n, dev, r) =>
    if dev = m.myId then
      if c.asked then m
      else
        let x := m.moveOut c entry n
        x.1.collSend c c.vc r x.2
    else if m.routeLost dev && r != m.myRank c && !c.restored.contains entry then
      (m.collSend c c.vc r (m.slotMsg c dev entry)).modColl c.id (fun x => { x with restored := x.restored ++ [entry] })
    else m)

/-- This member installs a shard that it now owns, when its source has answered, and reports it: a member keeps its slots until every shard
that moves is installed, for an owner may be lost until then (R366 step 4). -/
def Module.takeMove (m : Module) (c : Coll) (entry dev : Nat) : Module :=
  match (m.msgsOf c dev).find? (fun x => match x with | .moved _ e .. => e == entry | _ => false) with
  | some x =>
    ((m.installMsg c.ctx x).modColl c.id (fun y => { y with moved := y.moved ++ [entry] })).collAll c 6 (.restored c.seq entry m.myId true)
  | none =>
  if !m.routeLost dev then m
  else
    let offers := (m.others c).map (fun r => (c.group.getD r 0, m.movedFrom c r entry))
    if !offers.all (fun x => x.2.isSome) then m
    else
      let all := (m.myId, m.slotMsg c dev entry) :: offers.filterMap (fun x => x.2.map (fun y => (x.1, y)))
      let best := all.foldl (fun (b : Nat × CollMsg) x => if movedGen b.2 < movedGen x.2 then x else b) (m.myId, m.slotMsg c dev entry)
      let ok := movedGen best.2 != 0
      let m1 := if ok then m.installMsg c.ctx best.2 else m.install c.ctx entry 0 0 0 [] [] [] []
      let m2 := if ok && best.1 == m.myId then
          let h := m1.hmp
          ((m1.setHmp { h with slots := h.slots.filter (fun s => !(s.owner == dev && s.job == m.jobOf c.ctx && s.sidx == entry)) }).blanketCounts).addF
            Reg.HMP_BLK_CNT.restores 1
        else m1
      (m2.modColl c.id (fun y => { y with moved := y.moved ++ [entry], missing := y.missing || !ok })).collAll c 6
        (.restored c.seq entry best.1 ok)

/-- PERMUTE: agree on the layout, wait for open hand-overs, move the shards, take the new epoch, rebuild. -/
def permute (id : Nat) (m : Module) : Module :=
  m.withColl id opPermute (fun m c =>
    let crc := crc32c c.layout
    let got := (m.others c).map (fun r => (m.msgsFrom c r).findSome? (fun x => match x with | .layout _ v => some v | _ => none))
    if got.any (fun x => match x with | some v => v != crc | none => false) then (m.collViolation c).raise 132
    else if !got.all (fun x => x.isSome) then m
    else if !c.asked && !(m.openGrads c).isEmpty then
      m.modColl id (fun x => { x with lostAt := some (x.lostAt.getD m.pilot) })
    else
      let m1 := (m.modColl id (fun x => { x with asked := true, waitFrom := if x.asked then x.waitFrom else m.pilot })).sendMoves c
      let mv := m1.moves c
      let me := m1.myRank c
      let m2 := m1.each mv (fun m (entry, _, dev, r) =>
        match m.coll id with
        | some x => if r = me && !x.moved.contains entry then m.takeMove x entry dev else m
        | none => m)
      match m2.coll id with
      | none => m2
      | some x =>
        -- reports of shards installed at others
        let rep (entry r : Nat) : Option Bool :=
          (m2.msgsFrom c r).findSome? (fun y => match y with | .restored _ e _ ok => if e = entry then some ok else none | _ => none)
        let others := mv.filter (fun y => y.2.2.2 != me && (m2.liveRanks c).contains y.2.2.2)
        let mineDone := mv.all (fun y => y.2.2.2 != me || x.moved.contains y.1)
        if !mineDone || !others.all (fun y => (rep y.1 y.2.2.2).isSome) then m2
        else
          let empty := x.missing || others.any (fun y => rep y.1 y.2.2.2 == some false)
          let m3 := m2.setCp { m2.cp with
            layouts := SMap.set none m2.cp.layouts c.ctx (some { words := c.layout, group := c.group }),
            colls := m2.cp.colls.map (fun g =>
              if g.op == opGrad && g.ctx == c.ctx && g.status.isNone then
                { g with sentFor := none, acked := false, waitFrom := m2.pilot } else g) }
          let m3 := m3.setCp { m3.cp with colls := m3.cp.colls.map (fun g =>
            if g.op == opGrad && g.ctx == c.ctx && !m3.gradHeld g then { g with lostAt := none } else g) }
          ((((m3.setF (Reg.FAB_CP_EP.epoch c.ctx) (c.epoch + 1)).raise 133).decideColl id
            (if empty then sPeerLost else m3.ranStatus c))).collPoke)

def execPermute (coll : Nat) (s : State) : Host.Outcome State Fault Refusal := s.go (fun m => m.whenOpen (permute coll))

/-! ### Messages (14 R345; 15 R396) -/

/-- A holder of the slot that a new owner installed counts it and frees it (17 R427, R430). -/
def Module.restoredHere (m : Module) (job entry holder : Nat) (ok : Bool) : Module :=
  if !ok || holder != m.myId then m
  else
    let h := m.hmp
    ((m.setHmp { h with slots := h.slots.filter (fun s => !(s.job == job && s.sidx == entry && m.routeLost s.owner)) }).blanketCounts).addF
      Reg.HMP_BLK_CNT.restores 1

/-- A quad partner asks for the committed container: it is sent on VC7 (21 R497). -/
def Module.sendImage (m : Module) (src : Nat) : Module :=
  if [1, 2, 3].any (fun j => m.partner j == some src) && m.getF Reg.LMP_FW_STAT.commit == 0 then
    match m.container with
    | some l => m.emitMessage 7 src 0 (.image src l)
    | none => m
  else m

/-- A collective message, or a partner's request for the firmware image, arrives from a device for a job's group: a shard that it asks for returns on the VC of responses (13 R308), and
word that the context is dead as a control message. -/
def collectiveMessage (src job : Nat) (group : List Nat) (msg : CollMsg) (m0 : Module) : Module :=
  let (m, vc) := m0.takeMessage src
  let reply (m : Module) (x : CollMsg) : Module :=
    let v := match x with | .shard .. => responseVc vc | _ => 6
    m.emitMessage v src job (.coll v src job group x)
  if m.routeLost src then m
  else if msg = .askImage then m.sendImage src
  else
    match m.jobCtx job with
    | none => (match msg with | .dead _ => m | _ => reply m (.dead (msgSeq msg)))
    | some ctx =>
      if !m.ctxLive ctx then (match msg with | .dead _ => m | _ => reply m (.dead (msgSeq msg)))
      else
        let m1 := m.touchDev ctx src
        let poke (m : Module) : Module :=
          m.setCp { m.cp with colls := m.cp.colls.map (fun c =>
            if c.ctx = ctx && c.group = group && c.seq = msgSeq msg then
              { c with heard := (src, m.pilot) :: c.heard.filter (fun x => x.1 != src) } else c) }
        match msg with
        | .ask seq j entry gen _ count pin rel deliver =>
          let r := m1.serveShard ctx entry gen count pin rel deliver
          reply r.1 (.shard seq j r.2.1 r.2.2)
        | .dead seq =>
          m1.setCp { m1.cp with colls := m1.cp.colls.map (fun c =>
            if c.ctx = ctx && c.group = group && c.seq = seq && c.status.isNone then { c with status := some sCtxDead } else c) }
        | .restored _ entry holder ok =>
          let m2 := m1.restoredHere job entry holder ok
          poke (m2.keepMsg src job group msg)
        | _ => poke (m1.keepMsg src job group msg)

def execCollectiveMessage (src : BitVec 16) (job : BitVec 32) (group : List Nat) (msg : CollMsg) (s : State) :
    Host.Outcome State Fault Refusal := s.go (fun m => m.whenOpen (collectiveMessage src.toNat job.toNat group msg))

/-! ### Timeouts, drain bounds, faults, completion (14 R341, R347, R348, R356, R367) -/

/-- The destination range of a collective becomes undefined (R347). -/
def Module.freeDst (m : Module) (c : Coll) : Module :=
  let live := m.liveRanks c
  match c.op with
  | 1 | 4 | 0x0B => m.freeElems c.ctx c.dst c.size c.nelem
  | 2 => m.freeElems c.ctx c.dst c.size (shardRange c.nelem live.length (liveIndex live (m.myRank c))).2
  | 3 | 5 => m.freeElems c.ctx c.dst c.size (c.group.length * c.nelem)
  | 8 => m.freeElems c.ctx c.dst 2 c.nelem
  | 7 => match m.layer c.ctx c.sidx with
    | some (ns, owners) => m.each ((List.range ns).filter (fun j => owners.getD j 0 == m.myId)) (fun m j =>
        let (lo, n) := shardRange c.nelem ns j
        m.freeElems c.ctx (c.dst + 4 * lo) 4 n)
    | none => m
  | _ => m

/-- The devices of live members, other than this one, on which a collective waits now: for the meeting, for data, for an
acknowledgement, for a shard. A GRAD_HANDOVER that is held for a lost owner waits on none (R356). -/
def Module.awaited (m : Module) (c : Coll) : List Nat :=
  let live := m.others c
  let dev (r : Nat) : Nat := c.group.getD r 0
  let away (ds : List Nat) : List Nat := ds.filter (fun d => d != m.myId && !m.routeLost d)
  if !c.met then (live.filter (fun r => (m.meetOf c r).isNone)).map dev
  else match c.op with
  | 1 | 2 => (live.filter (fun r => (m.partFrom c r 0).isNone)).map dev
  | 3 | 5 => (live.filter (fun r => (m.partFrom c r r).isNone)).map dev
  | 4 => (live.filter (fun r => r == c.arg % 2 ^ 16 && (m.partFrom c r 0).isNone)).map dev
  | 0x0B =>
    let all := m.liveRanks c
    let (next, prev) := m.ringOf c all
    let (next0, prev0) := m.ringOf c c.live0
    (live.filter (fun r => (r == prev && all.contains prev0 && !c.acked && (m.partFrom c r r).isNone) ||
      (r == next && all.contains next0 && !(m.msgsFrom c r).any (fun x => match x with | .placed _ => true | _ => false)))).map dev
  | 7 =>
    match m.layer c.ctx c.sidx with
    | none => []
    | some (ns, owners) =>
      if m.gradHeld c then []
      else
        let parts := c.shards.filter (fun s => !s.closed)
        (live.filter (fun r => (m.gradOf c r).2.1 != 0 && parts.any (fun s => (m.partFrom c r s.j).isNone))).map dev ++
          away ((List.range ns).filterMap (fun j => if m.shardAcked c j then none else some (owners.getD j 0)))
  | 8 | 9 =>
    match m.askedOwners c with
    | none => []
    | some (ns, owners) => away (((List.range ns).filter (fun j => !c.moved.contains j)).map (fun j => owners.getD j 0))
  | 0x0A =>
    let said (r : Nat) : Bool := (m.msgsFrom c r).any (fun x => match x with | .layout .. => true | _ => false)
    if !live.all said then (live.filter (fun r => !said r)).map dev
    else if !c.asked then []
    else (m.moves c).flatMap (fun (entry, _, d, r) =>
      if r = m.myRank c then
        if c.moved.contains entry then [] else if m.routeLost d then (live.filter (fun q => (m.movedFrom c q entry).isNone)).map dev else [d]
      else if live.contains r &&
          !(m.msgsFrom c r).any (fun y => match y with | .restored _ e .. => e == entry | _ => false) then [dev r]
      else [])
  | _ => []

/-- The tick since which a collective has waited on a device: the wait's beginning (the start, the meeting, the end of PERMUTE's step 2), or
the device's last message (DEDUCED, log 29). -/
def Coll.since (c : Coll) (dev : Nat) : Nat := max c.waitFrom (((c.heard.find? (fun x => x.1 == dev)).map (fun x => x.2)).getD 0)

/-- A collective that has waited FAB_CP_TMO ticks on a live member ends TIMED_OUT. -/
def collectiveTimeout (id : Nat) (m : Module) : Module :=
  match m.coll id with
  | none => m
  | some c =>
    if !c.started || c.status.isSome then m
    else match (m.awaited c).map c.since with
      | [] => m
      | t :: ts => ((m.toTick (ts.foldl min t + m.getF Reg.FAB_CP_TMO.ticks)).freeDst c).decideColl id sTimedOut

def execCollectiveTimeout (coll : Nat) (s : State) : Host.Outcome State Fault Refusal := s.go (fun m => m.whenOpen (collectiveTimeout coll))

/-- A drain bound expires: a GRAD_HANDOVER held for a lost owner (R356), or those that a PERMUTE waits for (R367). -/
def drainBoundExpiry (id : Nat) (m : Module) : Module :=
  match m.coll id with
  | none => m
  | some c =>
    let ticks := m.getF Reg.FAB_CP_DRAIN.ticks
    if c.status.isSome then m
    else if c.op = opGrad then
      match c.lostAt with
      | none => m
      | some t => if !m.gradHeld c then m else ((m.toTick (t + ticks)).decideColl id sEpochStale).raise 129
    else if c.op = opPermute && !c.asked then
      match c.lostAt with
      | none => m
      | some t =>
        let open' := m.openGrads c
        if open'.isEmpty then m
        else ((m.toTick (t + ticks)).each open' (fun m g => m.decideColl g.id sEpochStale)).raise 129
    else m

def execDrainBoundExpiry (coll : Nat) (s : State) : Host.Outcome State Fault Refusal := s.go (fun m => m.whenOpen (drainBoundExpiry coll))

/-- A collective processor faults: what it runs ends TIMED_OUT; the Lamplighter restarts it. -/
def cprocFault (k : Nat) (m : Module) : Module :=
  (m.each (m.cp.colls.filter (fun c => c.started && c.status.isNone && c.proc == k)) (fun m c =>
    (m.freeDst c).decideColl c.id sTimedOut)).raise (144 + k)

def execCprocFault (k : Fin 16) (s : State) : Host.Outcome State Fault Refusal := s.go (fun m => m.whenOpen (cprocFault k.val))

/-- The result block (R348, R357, R360). -/
def Module.resultBlock (m : Module) (c : Coll) : List Nat :=
  if c.op = opGather then (List.range 8).map (fun i => c.gens.getD (2 * i) 0 + c.gens.getD (2 * i + 1) 0 * 2 ^ 32)
  else if c.op = opGrad && c.stats then m.noiseRecord c
  else [(m.liveRanks c).length, if c.op = opGrad then m.gradCount c % 2 ^ 32 else 0, 0, 0]

/-- A decided collective writes its result block and its completion record; one that was stale before it started has no effect but its
record (R365). -/
def collectiveComplete (id : Nat) (m : Module) : Module :=
  match m.coll id with
  | none => m
  | some c =>
    match c.status with
    | none => m
    | some st =>
      let parts := (c.live0.filter (fun r => m.routeLost (c.group.getD r 0))).foldl (fun b r => Nat.lor b (2 ^ (r % 64))) 0
      let m1 := if c.result != 0 && !(st == sEpochStale && c.live0.isEmpty) then m.engPutSeq (collWho c.ctx) c.result 8 (m.resultBlock c) else m
      let m2 := m1.complete c.ctx c.completion st 5 c.nelem parts
      let m3 := match st with
        | 5 => m2.addF Reg.FAB_CP_CNT.stale 1
        | 6 => (m2.addF Reg.FAB_CP_CNT.genmis 1).raise 131
        | 8 => (m2.addF Reg.FAB_CP_CNT.timedout 1).raise 128
        | _ => m2
      let job := m.jobOf c.ctx
      let m4 := m3.setCp { m3.cp with colls := m3.cp.colls.filter (fun x => x.id != id),
                                      box := m3.cp.box.filter (fun b => !(b.job == job && b.group == c.group && msgSeq b.msg == c.seq)) }
      ((m4.collCounts).count pmcColl 1 1 { Ev.none with ctx := some c.ctx }).collPoke

def execCollectiveComplete (coll : Nat) (s : State) : Host.Outcome State Fault Refusal := s.go (fun m => m.whenOpen (collectiveComplete coll))

/-! ### Loss of a device and teardown (14 R356; 15 Table 15-11; 14 R362) -/

/-- A device is lost: the hand-overs that it owned and had not acknowledged are held from now (R356). -/
def Module.collLost (m : Module) : Module :=
  let held (g : Coll) : Bool := g.op == opGrad && g.status.isNone && g.started && m.gradHeld g
  m.setCp { m.cp with colls := m.cp.colls.map (fun g =>
    if held g then { g with missing := true, lostAt := some (g.lostAt.getD m.pilot) } else g) }

/-- The collectives of a context stop: peers receive CTX_DEAD. -/
def Module.collStop (m : Module) (ctx : Nat) : Module :=
  let mine := m.cp.colls.filter (fun c => c.ctx == ctx)
  let m1 := m.each (mine.filter (fun c => c.started && c.status.isNone)) (fun m c => m.collAll c 6 (.dead c.seq))
  let job := m.jobOf ctx
  (m1.setCp { m1.cp with colls := m1.cp.colls.filter (fun c => c.ctx != ctx), seqs := m1.cp.seqs.filter (fun s => s.1 != ctx),
                         box := m1.cp.box.filter (fun b => b.job != job), layouts := SMap.set none m1.cp.layouts ctx none }).collCounts

/-- Every pin of a context's shard table is released (R362); at a held channel the write waits (12 R293). -/
def Module.releasePins (m : Module) (ctx : Nat) : Module :=
  m.each (List.range (m.stCount ctx)) (fun m i =>
    let free (m : Module) : Module := if (m.shard ctx i).w3 = 0 then m else m.engStore ctx 3 (m.stEntry ctx i + 24) 8 0
    match m.ctxXlat ctx (m.stEntry ctx i + 24) .store with
    | .ok p _ => if m.mustWait p then m.queueWrite (collWho ctx) [(p, 8, 0)] else free m
    | _ => free m)

end Sys2Proof.Machine
end

