-- ==== Sys2Proof/Machine/Evc.lean ====
section
/-! DEFINITION. The event controller's registers (19 R457-R466) and who may reach them (22 R514). -/

namespace Sys2Proof.Machine

/-! ### Requesters (00 R7, R8; 22 R514, R530) -/

/-- The function of a requester. -/
def reqFn : Requester → Nat
  | .pf => 0
  | .vf n => n.val + 1
  | .lamplighter => 0

/-- A violation of a register access or doorbell: charged to the function's context, the Lamplighter's to context 0 with unit 6
(22 R530, 20 Table 20-2). -/
def Module.accessViolation (m : Module) (r : Requester) (unit addr : Nat) : Module :=
  (m.violate (reqFn r) (match r with | .lamplighter => 6 | _ => unit) addr).count pmcHost 4 1
    { Ev.none with ctx := some (reqFn r), master := some (match r with | .lamplighter => 4 | _ => 6) }

/-- An access by a requester: a function's access is a BAR access. -/
def Module.access (m : Module) (r : Requester) : Module :=
  match r with
  | .lamplighter => m
  | _ => m.barAccess (reqFn r)

/-- Can a requester's access arrive: main power is good, and a function's TLP needs the link and the function. -/
def Module.reaches (m : Module) (r : Requester) : Bool :=
  m.pwr.mainGood && (match r with | .lamplighter => true | _ => m.linkUp && m.vfOn (reqFn r))

/-- Run a command that is an access by a requester to a register outside LMP and SEC. -/
def State.goByAs (s : State) (r : Requester) (isRead : Bool) (f : Module → Module) : Host.Outcome State Fault Refusal :=
  s.go (fun m =>
    if !m.reaches r then m
    else if m.recovery && r != .lamplighter then (if isRead then (m.access r).emit (.readData 0) else m.access r)
    else f (m.access r))

/-- Run a command that is a register write by a requester. -/
def State.goBy (s : State) (r : Requester) (f : Module → Module) : Host.Outcome State Fault Refusal := s.goByAs r false f

/-- May a requester reach event controller instance i: a virtual function only its own (19 R466)? -/
def mayInst (r : Requester) (i : Nat) : Bool :=
  match r with
  | .vf n => i == n.val + 2
  | _ => true

/-- The offset of a register in a virtual function's own view: instance 1 + n's window lies at 0x1000. -/
def evcOffset (i : Nat) : Nat := 0x101000 + 0x100 * i

/-! ### Timers, claim and done (R457-R461) -/

/-- The time threshold of a source runs out. -/
def eventTimerExpiry (s : Nat) (m : Module) : Module :=
  let x := m.source s
  let t := m.getF (Reg.EVC_SRC.time s)
  if x.count = 0 || t = 0 || x.pending then m
  else
    let m1 := m.toTick (x.start + t)
    m1.updateSource s (m1.source s)

def execEventTimerExpiry (source : Fin 512) (s : State) : Host.Outcome State Fault Refusal := s.go (eventTimerExpiry source.val)

/-- A read of EVC_CLAIMi. -/
def claim (i : Nat) (m : Module) : Module :=
  if m.bit (Reg.EVC_CTL.inservice i) then m.readOut (evcOffset i) (m.getF (Reg.EVC_CTL.source i))
  else if !m.line i then m.readOut (evcOffset i) 0x3FF
  else
    match m.eligible i with
    | [] => m.readOut (evcOffset i) 0x3FF
    | s :: _ =>
      let m1 := (m.setF (Reg.EVC_CTL.inservice i) 1).setF (Reg.EVC_CTL.source i) s
      (m1.setSource s Source.empty).readOut (evcOffset i) s

/-- A claim of an instance that the requester may not reach reads zero and is a violation. -/
def evcClaim (r : Requester) (i : Nat) (m : Module) : Module :=
  if mayInst r i then claim i m else (m.accessViolation r 3 (evcOffset i)).emit (.readData 0)

def execEvcClaim (r : Requester) (i : Fin 65) (s : State) : Host.Outcome State Fault Refusal := s.goByAs r true (evcClaim r i.val)

/-- A write of a source to EVC_DONEi: it ends service, the source competes at the instance that it names now, and instance i is evaluated in
the next pilot tick (R458, R461). -/
def done (i source : Nat) (m : Module) : Module :=
  if m.bit (Reg.EVC_CTL.inservice i) && m.getF (Reg.EVC_CTL.source i) == source then
    let m1 := m.setF (Reg.EVC_CTL.inservice i) 0
    { m1 with evc := { m1.evc with sent := SMap.set false m1.evc.sent i false, due := i :: m1.evc.due } }.evalLines
  else m.setF Reg.EVC_STATUS.bad_done 1

def evcDone (r : Requester) (i source : Nat) (m : Module) : Module :=
  if mayInst r i then done i source m else m.accessViolation r 3 (evcOffset i + 8)

def execEvcDone (r : Requester) (i : Fin 65) (source : BitVec 9) (s : State) : Host.Outcome State Fault Refusal :=
  s.goBy r (evcDone r i.val source.toNat)

/-! ### Software doorbells and the gate (R462, R465) -/

/-- A write of EVC_RAISE: a source in 384-511 is raised. -/
def evcRaise (r : Requester) (source : Nat) (m : Module) : Module :=
  match r with
  | .vf _ => m.accessViolation r 3 0x100018
  | _ => if 384 ≤ source then m.raise source else (m.setF Reg.EVC_STATUS.bad_raise 1).accessViolation r 3 0x100018

def execEvcRaise (r : Requester) (source : BitVec 9) (s : State) : Host.Outcome State Fault Refusal :=
  s.goBy r (evcRaise r source.toNat)

/-- A write of EVC_GATE.closed; opening it evaluates every instance. -/
def evcGate (closed : Bool) (m : Module) : Module := (m.setF Reg.EVC_GATE.closed (if closed then 1 else 0)).evalLines

def execEvcGateWrite (r : Requester) (closed : Bool) (s : State) : Host.Outcome State Fault Refusal :=
  s.goBy r (fun m => match r with | .vf _ => m.accessViolation r 3 0x100008 | _ => evcGate closed m)

end Sys2Proof.Machine
end

