-- ==== Sys2Proof/Machine/Identity.lean ====
section
/-! DEFINITION. The module's identity (21 R502-R505): the keys derived from the device secret, the certificate chains, and when a chain
validates. -/

namespace Sys2Proof.Machine

/-- The two key seeds of an identity or an attestation. -/
structure KeyPair where
  ed : List Byte
  pq : List Byte
  deriving DecidableEq, Repr

/-- The identity keys (21 R502). The derivation is deterministic, so every power-up and every exit from W3 or W4 gives the same keys (R505). -/
def Module.idKeys (m : Module) : KeyPair :=
  let secret := leBytes 32 m.lmp.secret.toNat
  { ed := Config.hkdf .identityEd secret [], pq := Config.hkdf .identityPq secret [] }

/-- The attestation keys of the running image (21 R504). -/
def Module.attKeys (m : Module) : KeyPair :=
  let secret := leBytes 32 m.lmp.secret.toNat
  { ed := Config.hkdf .attestationEd secret m.lmp.image.digest, pq := Config.hkdf .attestationPq secret m.lmp.image.digest }

/-- A certificate with its signature by an issuer. -/
def Cert.signed (sign : List Byte → List Byte) (c : Cert) : Cert := { c with sig := sign (Config.certBody c) }

/-- The identity chains: root, product CA, and the identity certificate, whose serial is SEC_DEVSN (21 R503). -/
def Module.idChain (m : Module) : List Cert :=
  [Config.rootCert, Config.caCert, Cert.signed Config.caSign
    { serial := m.getF Reg.SEC_DEVSN.serial, key := Config.ed25519Pub m.idKeys.ed, image := none, sig := [] }]

def Module.idPqChain (m : Module) : List Cert :=
  [Config.rootPqCert, Config.caPqCert, Cert.signed Config.caPqSign
    { serial := m.getF Reg.SEC_DEVSN.serial, key := Config.mldsaPub m.idKeys.pq, image := none, sig := [] }]

/-- The attestation certificates, issued under the identity key of the same kind (21 R504). -/
def Module.attCert (m : Module) : Cert :=
  Cert.signed (Config.ed25519Sign m.idKeys.ed) { serial := m.getF Reg.SEC_DEVSN.serial, key := Config.ed25519Pub m.attKeys.ed,
                                                 image := some (m.lmp.image.digest, m.lmp.image.svn), sig := [] }

def Module.attPqCert (m : Module) : Cert :=
  Cert.signed (Config.mldsaSign m.idKeys.pq) { serial := m.getF Reg.SEC_DEVSN.serial, key := Config.mldsaPub m.attKeys.pq,
                                               image := some (m.lmp.image.digest, m.lmp.image.svn), sig := [] }

/-- The chain of slot 0, which ends at the attestation certificate (21 Table 21-9), and the ML-DSA-65 chain (21 R507). -/
def Module.chain (m : Module) : List Byte := (m.idChain ++ [m.attCert]).flatMap Config.certBytes
def Module.pqChain (m : Module) : List Byte := (m.idPqChain ++ [m.attPqCert]).flatMap Config.certBytes

/-- Every signature of a chain verifies with the key of the certificate before it, the root's with its own. -/
def chainSigned (ok : List Byte → List Byte → List Byte → Bool) : List Byte → List Cert → Bool
  | _, [] => true
  | key, c :: l => ok key (Config.certBody c) c.sig && chainSigned ok c.key l

/-- Does a chain validate against the digest of a root key in ROM (21 R503)? -/
def chainValid (ok : List Byte → List Byte → List Byte → Bool) (root : List Byte) (l : List Cert) : Bool :=
  match l with
  | [] => false
  | c :: _ => chainSigned ok c.key l && Config.sha384 c.key == root

/-- The identity keys of a neighbour's chains, when both validate and their identity certificates carry the same serial (21 R503), and the
bytes that the chains take. -/
def chainKeys (stream : List Byte) : Option (List Byte × List Byte × Nat) :=
  match Config.certsOf stream with
  | none => none
  | some (ed, pq, n) =>
    match ed.getLast?, pq.getLast? with
    | some a, some b =>
      if chainValid Config.ed25519Ok Config.rootDigest ed && chainValid Config.mldsaOk Config.rootPqDigest pq && a.serial == b.serial then
        some (a.key, b.key, n) else none
    | _, _ => none

/-- The identity certificate chains that this module's proof streams carry, Ed25519 first (13 R323; DEDUCED, log 77). -/
def Module.idBytes (m : Module) : List Byte := (m.idChain ++ m.idPqChain).flatMap Config.certBytes

end Sys2Proof.Machine
end

