-- ==== Sys2Proof/Machine/HostCore.lean ====
section
/-! DEFINITION. Host queues (22 R519-R524): where entries and records lie, and how a command ends. -/

namespace Sys2Proof.Machine

/-- The key of queue q of context n. -/
def hqKey (n q : Nat) : Nat := n * 4 + q

/-- A queue whose k is outside 4-16 is disabled (R519). -/
def Module.hqOn (m : Module) (n q : Nat) : Bool :=
  decide (4 ≤ m.getF (Reg.HIF_HQBASE.k n q)) && decide (m.getF (Reg.HIF_HQBASE.k n q) ≤ 16)

/-- Slots of a queue's rings. -/
def Module.hqN (m : Module) (n q : Nat) : Nat := 2 ^ m.getF (Reg.HIF_HQBASE.k n q)

def Module.hqHead (m : Module) (n q : Nat) : Nat := m.getF (Reg.HIF_HQSTAT.head n q)

/-- The words of the entry that a queue is running; none when it is idle. -/
def Module.hqEntry (m : Module) (n q : Nat) : List Word := SMap.get [] m.hif.running (hqKey n q)

/-- Write a number as four words at a host address. -/
def Module.hostWords (m : Module) (a : Nat) (ws : List Nat) : Module :=
  (ws.foldl (fun (r : Module × Nat) w => (r.1.writePlace (.host r.2) 8 w, r.2 + 8)) (m, a)).1

/-- A host command ends: its record is written, the queue moves on, and the context's source is raised when the entry asks for it
(R522, R524). -/
def Module.hostDone (m : Module) (n q status kind count : Nat) : Module :=
  let e := m.hqEntry n q
  if e.isEmpty then m
  else
    let a := m.getF (Reg.HIF_HQCQ.base n q) * 4096 + m.hqHead n q % m.hqN n q * 32
    let m1 := (m.hostWords a (recordWords m.pilot status kind count 0)).touch { ctx := n, master := 6, lc := false } (.host a) 32 true
    let m2 := (m1.addF (Reg.HIF_HQSTAT.head n q) 1).setF (Reg.HIF_HQSTAT.busy n q) 0
    let m3 := { m2 with hif := { m2.hif with running := SMap.set [] m2.hif.running (hqKey n q) [] } }
    if (e.getD 0 0).getLsbD 49 then m3.raise (256 + n) else m3

/-- The fields of a command entry (Table 22-3). -/
def entryOp (e : List Word) : Nat := (e.getD 0 0).toNat / 2 ^ 56
def entryTarget (e : List Word) : Nat := (e.getD 0 0).toNat / 2 ^ 50 % 64
def entryWord (e : List Word) (i : Nat) : Nat := (e.getD i 0).toNat

/-- The queues that run a command, as (context, queue). -/
def Module.hqRunning (m : Module) (p : List Word → Bool) : List (Nat × Nat) :=
  (m.hif.running.filter (fun x => p x.2)).map (fun x => (x.1 / 4, x.1 % 4))

end Sys2Proof.Machine
end

