-- ==== Sys2Proof/Machine/XferCore.lean ====
section
/-! DEFINITION. Transfers and the end of a request (15 R380-R384, R386, R391-R393). A local copy's requests are performed in an order
that the specification leaves open: it is drawn (15 R383, DESIGN CHOICE, log 48). -/

namespace Sys2Proof.Machine

/-! ### Descriptors (15 R380, R381, R383) -/

/-- Requests of at most 256 bytes. -/
def Transfer.nreq (t : Transfer) : Nat := (t.length + 255) / 256

/-- The part size: ⌈length/64⌉ rounded up to a multiple of 256 bytes. -/
def partBytes (length : Nat) : Nat := ((length + 63) / 64 + 255) / 256 * 256

/-- The bytes of part j. -/
def partLen (length j : Nat) : Nat := min (partBytes length) (length - j * partBytes length)

/-- The part of a request. -/
def Transfer.part (t : Transfer) (i : Nat) : Nat := 256 * i / partBytes t.length

/-- Bytes of request i. -/
def Transfer.reqLen (t : Transfer) (i : Nat) : Nat := min 256 (t.length - 256 * i)

/-- The other end's device. -/
def Transfer.device (t : Transfer) : Nat := (if t.op = 1 then t.src else t.dst) / 2 ^ 48

/-- The addresses of request i at the source and at the destination. -/
def Transfer.srcAt (t : Transfer) (i : Nat) : Nat := t.src % 2 ^ 48 + 256 * i
def Transfer.dstAt (t : Transfer) (i : Nat) : Nat := t.dst % 2 ^ 48 + 256 * i

/-- A copy, or a put to this module's own device ID, is performed locally (R382). -/
def Module.isLocal (m : Module) (t : Transfer) : Bool := t.op == 2 || (t.op == 0 && t.device == m.myId)

/-- Is the destination in this module's memory? -/
def Module.dstHere (m : Module) (t : Transfer) : Bool := t.op == 1 || m.isLocal t

/-- Is a transfer descriptor valid (R380)? -/
def xferValid (w : List Nat) : Bool :=
  let op := w.getD 0 0 / 2 ^ 62
  let src := w.getD 1 0
  let dst := w.getD 2 0
  let len := w.getD 3 0
  op != 3 && w.getD 0 0 / 2 ^ 48 % 256 == 0 && w.getD 0 0 % 32 == 0 && (op == 1 || decide (src < 2 ^ 48)) &&
  (op == 0 || decide (dst < 2 ^ 48)) && src % 8 == 0 && dst % 8 == 0 && decide (len < 2 ^ 40) && len % 8 == 0 && decide (8 ≤ len)

/-- What a transfer engine accesses. -/
def xferWho (ctx : Nat) : Who := engWho ctx 7 false

/-- Submit a transfer (R381): the code. -/
def Module.xferSubmit (m : Module) (ctx va : Nat) : Module × Nat :=
  if va % 32 != 0 then (m.violate ctx 2 va, 2)
  else
    let (w, bad, viol) := m.descRead ctx va 4
    let m := m.look (xferWho ctx) va 32
    if bad then (m, 4)
    else if viol || !xferValid w then (m.violate ctx 2 va, 2)
    else
      let w0 := w.getD 0 0
      let queue := w0 / 2 ^ 56 % 16
      if 64 ≤ (m.transfers.filter (fun t => t.ctx == ctx && t.queue == queue)).length then (m, 1)
      else
        let t : Transfer := { id := m.nextXfer, ctx := ctx, queue := queue, op := w0 / 2 ^ 62, vc := w0 / 2 ^ 60 % 4,
                              completion := w0 % 2 ^ 48, src := w.getD 1 0, dst := w.getD 2 0, length := w.getD 3 0, state := 0,
                              next := 0, window := 1, openTags := [], failed := [], lost := false, dead := false, timedOut := false }
        ({ m with transfers := m.transfers ++ [t], nextXfer := m.nextXfer + 1 }, 0)

/-! ### State -/

def Module.xfer (m : Module) (id : Nat) : Option Transfer := m.transfers.find? (fun t => t.id == id)

def Module.modXfer (m : Module) (id : Nat) (f : Transfer → Transfer) : Module :=
  { m with transfers := m.transfers.map (fun t => if t.id = id then f t else t) }

def Module.dropXfer (m : Module) (id : Nat) : Module := { m with transfers := m.transfers.filter (fun t => t.id != id) }

def Transfer.fail (t : Transfer) (i : Nat) : Transfer :=
  if t.failed.contains (t.part i) then t else { t with failed := t.failed ++ [t.part i] }

/-- A range of a context's memory becomes undefined where it can be written (00 R1). To name its bytes is no access of the module: it looks
nothing up and waits for no hold. -/
def Module.freeRange (m : Module) (ctx va n : Nat) : Module :=
  m.each (List.range n) (fun m i =>
    match m.ctxXlat ctx (va + i) .store with
    | .ok p _ => m.freeBytes (fun _ => p) 1
    | _ => m)

/-- Read bytes of the local source; a range beyond 48 bits cannot be translated. -/
def Module.xferRead (m : Module) (ctx va n : Nat) : Dest :=
  if 2 ^ 48 < va + n then { m := m, status := 0x81, data := [], viol := false, wait := false }
  else
    let r := m.destRead (xferWho ctx) va n
    if r.viol then { r with m := r.m.violate ctx 2 va } else r

def Module.xferWrite (m : Module) (ctx va : Nat) (data : List Byte) : Dest :=
  if 2 ^ 48 < va + data.length then { m := m, status := 0x81, data := [], viol := false, wait := false }
  else
    let r := m.destWrite (xferWho ctx) va data
    if r.viol then { r with m := r.m.violate ctx 2 va } else r

/-! ### The end of a transfer (R384, R386, R393) -/

/-- The first status that applies. -/
def Transfer.status (t : Transfer) : Nat :=
  if t.lost then sPeerLost else if t.dead then sCtxDead else if t.timedOut then sTimedOut
  else if t.failed.isEmpty then sDone else sPartFailed

/-- Bytes in parts that succeeded. -/
def Transfer.moved (t : Transfer) : Nat :=
  (List.range 64).foldl (fun s j => if t.failed.contains j then s else s + partLen t.length j) 0

/-- The x.abort instructions and ABORT commands that wait for a transfer retire (R393). -/
def Module.abortsEnd (m : Module) (ctx completion code : Nat) : Module :=
  let m1 := m.each (m.threads.filter (fun e => e.2.ctx == ctx)) (fun m e =>
    match e.2.run with
    | .waitAbort c d =>
      if c = completion then (m.setTh e.1 { e.2.setSN d code with run := .running }).retire e.1 false else m
    | _ => m)
  m1.each (m1.hqRunning (fun e => entryOp e == 0x0A && entryTarget e == ctx && entryWord e 1 == completion))
    (fun m x => m.hostDone x.1 x.2 sDone 9 code)

/-- Does the record of an earlier transfer of a queue wait for a held channel? The queue's records are written in its order (15 R382). -/
def Module.recordWaits (m : Module) (ctx queue : Nat) : Bool :=
  m.ms.waiting.any (fun e => e.ctx == ctx && e.tag == 1 + queue)

/-- A transfer all of whose requests are decided completes with its record, or its abort ends. -/
def Module.xferCheck (m : Module) (id : Nat) : Module :=
  match m.xfer id with
  | none => m
  | some t =>
    if !t.openTags.isEmpty then m
    else if t.state = 2 then
      let m1 := m.dropXfer id
      let m2 := if m1.dstHere t then m1.freeRange t.ctx (t.dst % 2 ^ 48) t.length else m1
      m2.abortsEnd t.ctx t.completion (if t.timedOut then 8 else 1)
    else if t.state = 1 && decide (t.nreq ≤ t.next) then
      let m1 := m.dropXfer id
      let m2 := if m1.dstHere t then
          m1.each t.failed (fun m j => m.freeRange t.ctx (t.dst % 2 ^ 48 + j * partBytes t.length) (partLen t.length j))
        else m1
      m2.completeAs (1 + t.queue) t.ctx t.completion t.status 2 t.moved (t.failed.foldl (fun s j => s + 2 ^ j) 0)
    else m

/-! ### Requests (R383) -/

/-- Send the next request of a transfer to another device; none when its source waits for a held channel. -/
def Module.sendOne (m : Module) (t : Transfer) : Option Module :=
  let i := t.next
  let step (m : Module) (f : Transfer → Transfer) : Module := m.modXfer t.id (fun x => f { x with next := i + 1 })
  match m.refusedAtOnce t.ctx t.device with
  | some st =>
    some (step m (fun x => { x.fail i with lost := x.lost || st == sPeerLost, dead := x.dead || st == sCtxDead }))
  | none =>
    let tag := m.fab.nextTag % 2 ^ 32
    let sent (m : Module) : Module := step m (fun x => { x with openTags := x.openTags ++ [(tag, i)] })
    if t.op = 1 then
      some ((sent m).sendRequest t.ctx t.device t.vc 1 (t.srcAt i) 0 0 0 (t.reqLen i) [] (.xfer t.id i))
    else
      let r := m.xferRead t.ctx (t.srcAt i) (t.reqLen i)
      if r.wait then none
      else if r.status != sDone then some (step r.m (fun x => x.fail i))
      else some ((sent r.m).sendRequest t.ctx t.device t.vc 2 (t.dstAt i) 0 0 0 (t.reqLen i) r.data (.xfer t.id i))

/-- Send requests while fewer than the window are outstanding. -/
def Module.xferIssue (m : Module) (id : Nat) : Nat → Module
  | 0 => m
  | fuel + 1 =>
    match m.xfer id with
    | none => m
    | some t =>
      if t.state != 1 || m.isLocal t || decide (t.nreq ≤ t.next) || decide (t.window ≤ t.openTags.length) then m
      else match m.sendOne t with
        | none => m
        | some m1 => Module.xferIssue m1 id fuel

/-- Let a transfer go on: send what can be sent, and complete it when it is decided. -/
def Module.xferGo (m : Module) (id : Nat) : Module :=
  match m.xfer id with
  | none => m
  | some t => (m.xferIssue id (t.nreq - t.next)).xferCheck id

/-- Let every running transfer go on, as when a channel hold ends. -/
def Module.xferPoke (m : Module) : Module :=
  m.each ((m.transfers.filter (fun t => t.state == 1 && !m.isLocal t)).map (fun t => t.id)) Module.xferGo

/-- Perform one request of a local transfer, which `openTags` lists while it is to be performed; one that meets a held channel stays there
(12 R293). -/
def Module.localReq (m : Module) (id i : Nat) : Module :=
  match m.xfer id with
  | none => m
  | some t =>
    let ends (m : Module) (ok : Bool) : Module :=
      m.modXfer id (fun x => let y := { x with openTags := x.openTags.filter (fun e => e.2 != i) }; if ok then y else y.fail i)
    let r := m.xferRead t.ctx (t.srcAt i) (t.reqLen i)
    if r.wait then m
    else if r.status != sDone then ends r.m false
    else
      let q := r.m.xferWrite t.ctx (t.dstAt i) r.data
      if q.wait then m else ends q.m (q.status == sDone)

/-- Does a request of a local transfer wait for a held channel? -/
def Module.localHeld (m : Module) (t : Transfer) : Bool :=
  (List.range t.nreq).any (fun i => m.rangeHeld t.ctx (t.srcAt i) (t.reqLen i) .load ||
    m.rangeHeld t.ctx (t.dstAt i) (t.reqLen i) .store)

/-- An order of a list that the module leaves open, drawn. -/
def Module.drawOrder (m : Module) : List Nat → Nat → Module × List Nat
  | _, 0 => (m, [])
  | [], _ => (m, [])
  | x :: l, fuel + 1 =>
    let (m1, p) := m.freePick
    let y := (x :: l).getD (p % (l.length + 1)) x
    let r := Module.drawOrder m1 ((x :: l).erase y) fuel
    (r.1, y :: r.2)

/-! ### The end of a request (R391, R392) -/

/-- The op of the response to a request. -/
def respOp (op : Nat) : Nat := op + 0x10

/-- The value that a response delivers to a thread's load or atomic, in its registers. -/
def Outst.deliver (o : Outst) (r : Req) (data : List Byte) : List Got :=
  let v := leVal data
  match o.dstS with
  | [] => []
  | d :: _ => if r.op = 3 then amoGot r.width d v else [gotOf false d 0 64 (extendLoad (r.width == 1) data.length v) none]

/-- A request ends with a status: a response, a timeout or the loss of its device. A failed load stops its thread there, and what the
thread loaded after it is loaded again by the resume (02 R52, R392). -/
def Module.finishReq (m : Module) (r : Req) (status : Nat) (data : List Byte) : Module :=
  let m1 := m.dropReq r.tag
  match r.origin with
  | .thread k _ isLoad _ =>
    match (m1.th k).outst.find? (fun o => o.tag == some r.tag) with
    | none => m1
    | some o =>
      let without (m : Module) : Module :=
        m.setTh k { m.th k with outst := (m.th k).outst.filter (fun x => x.tag != some r.tag) }
      if status = sDone then
        let fl := if r.op = 3 then (atomicOp r.aop r.width (leVal data) r.b 0).2 else fNone
        let m2 := m1.setTh k ((m1.th k).orFlags fl)
        m2.modOutst k o.id (fun x => { x with got := if isLoad then x.deliver r data else [], left := 0 })
      else if isLoad then ((without m1).dropAfter k o.id).stopAt k o.ip (remoteCause status) o.addr 0 r.dev
      else if status = 0x86 then without m1
      else
        let m2 := without m1
        m2.setTh k { m2.th k with deferred := (m2.th k).deferred ++
          [{ cause := remoteCause status, addr := o.addr, device := r.dev }] }
  | .xfer id i =>
    match m1.xfer id with
    | none => m1
    | some t =>
      let m2 := m1.modXfer id (fun x => { x with openTags := x.openTags.filter (fun e => e.1 != r.tag) })
      let m3 :=
        if status = sDone then
          if t.op = 1 && t.state == 1 then
            let q := m2.xferWrite t.ctx (t.dstAt i) data
            if q.status = sDone then q.m else q.m.modXfer id (fun x => x.fail i)
          else m2
        else m2.modXfer id (fun x => { x.fail i with lost := x.lost || status == sPeerLost, dead := x.dead || status == sCtxDead,
                                                     timedOut := x.timedOut || status == sTimedOut })
      m3.xferGo id

/-- Does the data of a get wait for a held channel at this end? -/
def Module.respHeld (m : Module) (r : Req) : Bool :=
  match r.origin with
  | .xfer id i =>
    match m.xfer id with
    | some t => t.op == 1 && t.state == 1 && m.rangeHeld t.ctx (t.dstAt i) (t.reqLen i) .store
    | none => false
  | _ => false

end Sys2Proof.Machine
end

