-- ==== Sys2Proof/Machine/Teardown.lean ====
section
/-! DEFINITION. Context teardown (15 R395-R398), the loss of a device (13 R330) and leaving service (16 R417). -/

namespace Sys2Proof.Machine

/-! ### Teardown (15 R396, R398) -/

/-- Does a request of a transfer of the context still lack its response (Table 15-11)? -/
def Module.xferOpen (m : Module) (n : Nat) : Bool :=
  m.fab.reqs.any (fun r => r.ctx == n && (match r.origin with | .xfer _ _ => true | _ => false))

/-- The context number becomes free and its teardown record is written; context 0 becomes live again with zero parameters
(22 R532). -/
def Module.tearDone (m : Module) (n : Nat) (t : Teardown) : Module :=
  let c := m.ctx n
  let m1 := (m.setF (Reg.HIF_CTXSTAT.job n) 0).setF (Reg.HIF_CTXSTAT.state n) (if n = 0 then 1 else 0)
  let m2 := (m1.setCtx n { Context.empty with gen := if n = 0 then c.gen + 1 else c.gen }).sendQuiets
  match t.queue with
  | none => m2
  | some (c, q) => m2.hostDone c q sDone 8 t.quiet.length

/-- Advance a teardown: after the drain leases end, factor handles are freed and pins are released; it is complete when every touched
device has sent QUIET or has been declared lost. Out of service nothing completes (DEDUCED, log 49). -/
def Module.tearCheck (m : Module) (n : Nat) : Module :=
  match (m.ctx n).teardown with
  | none => m
  | some t =>
    if m.oos || m.ctxState n != 2 || m.xferOpen n then m
    else
      let m1 := if t.drained then m
        else
          let m0 := (m.releasePins n).solverFree n
          m0.setCtx n { m0.ctx n with teardown := some { t with drained := true } }
      if t.asked.all (fun d => t.quiet.contains d || t.gone.contains d) then m1.tearDone n t else m1

/-- Advance every teardown. -/
def Module.tearPoke (m : Module) : Module :=
  m.each (List.range 64) (fun m n => if m.ctxState n = 2 then m.tearCheck n else m)

/-- The threads and grids of a context are gone; pending leases pass on the clusters that they held. -/
def Module.stopThreads (m : Module) (n : Nat) : Module :=
  let keys := (m.threads.filter (fun e => e.2.run != .free && e.2.ctx == n)).map (fun e => e.1)
  let ids := (m.grids.filter (fun g => g.ctx == n)).map (fun g => g.id)
  let held := (m.grids.filter (fun g => g.ctx == n)).flatMap (fun g => g.waiting)
  let m1 := m.each keys Module.discard
  let m2 := { m1 with grids := m1.grids.filter (fun g => g.ctx != n) }
  let m3 := m2.each held (fun m c => m.setCore c { m.core c with grids := (m.core c).grids.filter (fun i => !ids.contains i) })
  m3.each (((keys.filter (fun k => keyKind k == 0)).map (fun k => keyCore k / 16)) ++ held.map (fun c => c / 16)) Module.leaseSettle

/-- The context of a Hamper fault record. -/
def recordCtx (r : FaultRec) : Nat := r.w1.toNat / 2 ^ 50 % 64

/-- The Snuffer sequence of a live context: stop issue, mark dead, send SNUFF to the touched set, and stop every unit at its check
point. -/
def Module.tearStart (m : Module) (n : Nat) (queue : Option (Nat × Nat)) : Module :=
  if !m.ctxLive n then m
  else
    let job := m.jobOf n
    let asked := (m.ctx n).touched
    let m1 := (m.stopThreads n).setF (Reg.HIF_CTXSTAT.state n) 2
    let t : Teardown := { asked := asked, quiet := [], queue := queue, drained := false, gone := asked.filter m1.routeLost }
    let m2 := m1.setCtx n { m1.ctx n with waitRecs := [], teardown := some t }
    let m3 := m2.each asked (fun m d => m.sendPacket 7 { Packet.blank with dst := BitVec.ofNat 16 d, job := BitVec.ofNat 32 job,
                                                                           sctx := BitVec.ofNat 6 n, op := 0x20#6 })
    let m4 := { m3 with transfers := m3.transfers.filter (fun t => t.ctx != n),
                        hmp := { m3.hmp with waitRecs := m3.hmp.waitRecs.filter (fun r => recordCtx r != n) },
                        ms := { m3.ms with waiting := m3.ms.waiting.filter (fun e => e.ctx != n) } }
    let m5 := ((m4.solverStop n).hamperStop n).collStop n
    -- commands of the context's own queues end without a record; others that act on it end CTX_DEAD
    let m6 := m5.each (List.range 4) (fun m q =>
      if (m.hqEntry n q).isEmpty || n = 0 then m
      else { m with hif := { m.hif with running := SMap.set [] m.hif.running (hqKey n q) [] } }.setF (Reg.HIF_HQSTAT.busy n q) 0)
    let m7 := m6.each (m6.hqRunning (fun e => entryOp e == 0x0A && entryTarget e == n)) (fun m x => m.hostDone x.1 x.2 sCtxDead 9 0)
    m7.tearCheck n

/-! ### The loss of a device (13 R330) -/

/-- The OOS payload word (Table 13-12). -/
def oosWord (subject inc reporter cause : Nat) : Word :=
  BitVec.ofNat 64 (subject % 2 ^ 16 * 2 ^ 48 + inc % 2 ^ 16 * 2 ^ 32 + reporter % 2 ^ 16 * 2 ^ 16 + cause % 256 * 256)

/-- Record a declaration in FAB_LOST and raise source 112. -/
def Module.recordLost (m : Module) (dev inc cause : Nat) : Module :=
  (((((m.setF Reg.FAB_LOST.valid 1).setF Reg.FAB_LOST.cause cause).setF Reg.FAB_LOST.incarnation inc).addF Reg.FAB_LOST.count 1).setF
    Reg.FAB_LOST.device dev).raise 112

/-- Send an OOS frame on every ACTIVE port but one. -/
def Module.spreadOos (m : Module) (w : Word) (except : Option Nat) : Module :=
  m.each ((m.portsIn 0xFFFF pActive).filter (fun p => some p != except)) (fun m p => m.sendOos p w)

/-- Set a route entry. -/
def Module.setRoute (m : Module) (dev : Nat) (w : Word) : Module :=
  m.setFab { m.fab with routes := SMap.set 0 m.fab.routes dev w }

/-- The teardowns under way wait no more for a device that is declared lost (15 R398). -/
def Module.tearGone (m : Module) (dev : Nat) : Module :=
  m.each (List.range 64) (fun m n =>
    match (m.ctx n).teardown with
    | none => m
    | some t => m.setCtx n { m.ctx n with teardown := some { t with gone := if t.gone.contains dev then t.gone else t.gone ++ [dev] } })

/-- Declare a device lost: the entry, FAB_LOST, source 112, outstanding requests PEER_LOST, the collective processors, the Blanket
holder, and the announcement `w`. -/
def Module.declareLost (m : Module) (dev inc cause : Nat) (w : Word) (except : Option Nat) : Module :=
  let r := m.route dev
  let m1 := m.setRoute dev (BitVec.ofNat 64 (r / 2 ^ 63 * 2 ^ 63 + 2 ^ 62 + inc % 2 ^ 16 * 2 ^ 32 + r % 2 ^ 16))
  let m2 := m1.recordLost dev inc cause
  let m3 := m2.each (m2.fab.reqs.filter (fun q => q.dev == dev)) (fun m q => m.finishReq q sPeerLost [])
  ((m3.collLost.holderCheck).spreadOos w except).tearGone dev |>.tearPoke

/-! ### Leaving the fabric and leaving service (13 R331; 16 R417) -/

/-- A port stops: its frames and credits are gone (13 R311); the last number that it accepted is kept until it is ACTIVE again (R317). -/
def Module.clearPort (m : Module) (p : Nat) : Module :=
  let x := m.port p
  let carried := m.pstate p == pActive || m.pstate p == pRetrain
  (m.setPort p { Port.empty with tag := x.tag, tagFor := x.tagFor, seen := x.seen, nbrKindle := x.nbrKindle, nbrDetect := x.nbrDetect,
                                 downSeq := if carried then some ((x.expect + 4095) % 4096) else x.downSeq }).setF
    (Reg.FAB_PSTAT.width p) 0

/-- Every port goes DARK; a packet that waited for one has no route (R327). -/
def Module.darkAll (m : Module) : Module :=
  (m.each (List.range 16) (fun m p => (m.clearPort p).portTo p pDark)).rehold (m.queuedData (List.range 16))

/-- The module's exit ends: ALIVE stops and every port goes DARK. -/
def Module.exitEnd (m : Module) : Module :=
  let m1 := m.darkAll
  m1.setFab { m1.fab with exitAt := none, exitOwed := [], aliveOn := false }

/-- The exit ends early when every port has acknowledged the OOS frame (13 R331). -/
def Module.exitCheck (m : Module) : Module := if m.fab.exitAt.isSome && m.fab.exitOwed.isEmpty then m.exitEnd else m

/-- A port that has no OOS frame outstanding owes the exit no acknowledgement. -/
def Module.exitAck (m : Module) (p : Nat) : Module :=
  let oos (b : FrameBody) : Bool := b.ftype == 6
  if m.fab.exitAt.isNone || (m.port p).txq.any oos || (m.port p).replay.any (fun s => oos s.body) then m
  else (m.setFab { m.fab with exitOwed := m.fab.exitOwed.erase p }).exitCheck

/-- The words of a factor handle's part once an event left HBM undefined: free bytes, by the event, the slot and the part (10 R235; 12 R299). -/
def lostRows (event slot part : Nat) (l : List (List Nat)) : List (List Nat) :=
  l.mapIdx (fun i r => r.mapIdx (fun j _ =>
    leVal ((List.range 8).map (fun b => Config.lostByte event ((((slot * 2 + part) * 2 ^ 16 + i) * 2 ^ 16 + j) * 8 + b)))))

/-- HBM contents become undefined (12 R299, 16 R417), and with them the factor store, which lies in HBM (10 R235). -/
def Module.loseHbm (m : Module) : Module :=
  let n := m.ms.scr + 1
  let m1 := m.setMs { m.ms with hbm := [], scr := n, poison := [], sets := [], waiting := [] }
  m1.setSq { m1.sq with handles := m1.sq.handles.map (fun h =>
    { h with matrix := lostRows n h.slot 0 h.matrix, factor := lostRows n h.slot 1 h.factor }) }

/-- Leave service (R417): every context is marked dead, host commands complete CTX_DEAD, OOS is sent, running resets end, oos := 1, which the
service section keeps (21 R498), and source 0 is raised. -/
def Module.leaveService (m : Module) : Module :=
  if m.oos then m
  else
    let m1 := (m.setF Reg.LMP_ESC_STAT.oos 1).touchSection secService
    let m2 := m1.each (m1.hqRunning (fun _ => true)) (fun m x =>
      m.hostDone x.1 x.2 sCtxDead (if entryOp (m.hqEntry x.1 x.2) = 2 then 8 else 9) 0)
    let m3 := m2.each (List.range 64) (fun m n => m.tearStart n none)
    let m4 := { m3 with esc := { m3.esc with resets := [], holds := [] } }
    let m5 := m4.spreadOos (oosWord m.myId (m.getF Reg.FAB_DEVID.incarnation) m.myId 0) none
    let m6 := m5.setFab { m5.fab with noData := true, exitAt := some m.pilot, exitOwed := m.portsIn 0xFFFF pActive }
    ((m6.exitCheck).loseHbm).raise 0

/-! ### The die-to-die link (11 R248) and faults outside the partitions (16 R404) -/

def execD2dLinkLost (s : State) : Host.Outcome State Fault Refusal :=
  s.go (fun m => if m.hmp.d2dUp then
      ((((m.setHmp { m.hmp with d2dUp := false }).setF Reg.HMP_D2D.up 0).raise 229).leaveService)
    else m)

def execNonpartitionFault (s : State) : Host.Outcome State Fault Refusal := s.go (fun m => if m.oos then m else (m.raise 2).leaveService)

end Sys2Proof.Machine
end

