-- ==== Sys2Proof/Machine/Link.lean ====
section
/-! DEFINITION. The link layer of the fabric ports (13 R308-R319): frames that arrive, acknowledgements, credits, resends, retraining
and rescue, and the partner conclusions (13 R329). -/

namespace Sys2Proof.Machine

/-! ### Partner conclusions (R329) -/

/-- The ports of a partner offset. -/
def partnerPorts (j : Nat) : List Nat := [2 * (j - 1), 2 * (j - 1) + 1]

def Module.silent (m : Module) (j : Nat) : Bool := Nat.testBit (m.getF Reg.FAB_QUAD.silent) (j - 1)

/-- Is a device declared lost with this incarnation or a newer one (R331)? -/
def Module.knownLost (m : Module) (dev inc : Nat) : Bool :=
  m.routeLost dev && decide ((m.routeLostInc dev + 2 ^ 16 - inc) % 2 ^ 16 < 2 ^ 15)

/-- A silent partner: a sideband fault while a port to it is ACTIVE, else it is lost. -/
def Module.conclude (m : Module) (j : Nat) : Module :=
  if !m.bit Reg.FAB_QUAD.in_quad || !m.silent j then m
  else if (partnerPorts j).any (fun p => m.pstate p == pActive) then m.raise 113
  else
    match m.partnerPort j with
    | none => m
    | some p =>
      let dev := m.getF (Reg.FAB_PNBR.device p)
      let inc := m.getF (Reg.FAB_PNBR.incarnation p)
      if m.knownLost dev inc then m else m.declareLost dev inc 1 (oosWord dev inc m.myId 1) none

/-- The conclusion is drawn again when a port enters or leaves ACTIVE (DEDUCED, log 36). -/
def Module.concludeAt (m : Module) (p : Nat) : Module := if p < 6 then m.conclude (p / 2 + 1) else m

/-! ### Entering states -/

/-- Has the module left the fabric: out of service, or named lost itself (13 R331)? -/
def Module.outOfFabric (m : Module) : Bool := m.oos || m.fab.noData

/-- May a port run: it and the fabric are enabled and the module is in service, or its exit has not ended (13 Table 13-7, R331)? -/
def Module.portEnabled (m : Module) (p : Nat) : Bool :=
  m.bit Reg.FAB_CTRL.enable && m.bit (Reg.FAB_PSTAT.port_en p) && m.pwr.mainGood && (!m.outOfFabric || m.fab.exitAt.isSome)

/-- Enter DETECT: the neighbour's HELLO is no longer valid. -/
def Module.portDetect (m : Module) (p : Nat) : Module :=
  ((m.clearPort p).setF (Reg.FAB_PNBR.valid p) 0).portTo p pDetect

/-- DARK while disabled, DETECT once enabled. Packets that waited on the port, or for it, are handled anew (R327). -/
def Module.portEval (m : Module) (p : Nat) : Module :=
  if !m.portEnabled p then
    if m.pstate p = pDark then m
    else
      let m1 := ((m.clearPort p).portTo p pDark).rehold (m.queuedData [p])
      if m.oos then m1 else m1.concludeAt p
  else if m.pstate p = pDark && !m.outOfFabric then m.portDetect p else m

/-- Enter RETRAIN: the replay buffer and the sequence numbers are kept (R315). -/
def Module.portRetrain (m : Module) (p : Nat) : Module :=
  ((m.addF (Reg.FAB_PERR.retrains p) 1).portTo p pRetrain).concludeAt p

def zeros8 : List Nat := List.replicate 8 0

/-- A port joins its bundle: while a frame sent to the neighbour is not acknowledged, nothing is sent to it, and then R316 chooses anew
for what waits (R318). -/
def Module.join (m : Module) (p : Nat) : Module :=
  let b := m.bundle p
  if b.any (fun q => !(m.port q).replay.isEmpty) then m.setPort p { m.port p with joining := true } else m.requeue b

/-- Enter ACTIVE: a new sequence space, no frame outstanding; the port joins its bundle (R317, R318). -/
def Module.enterActive (m : Module) (p : Nat) : Module :=
  let x := m.port p
  let y := { x with nextSeq := 0, expect := 0, replay := [], txq := [], resends := 0, progressAt := m.pilot, lastGood := m.pilot,
                    lastSent := m.pilot, nakAt := none, ackDue := none, got := zeros8, units := zeros8,
                    freed := zeros8, downSeq := none, wakeAt := none, dozeSent := none, proofIn := [], joining := false, tries := 0 }
  (((m.setPort p y).portTo p pActive).join p).concludeAt p

/-! ### Acknowledgements and resends (R311-R313) -/

/-- Ports of a bundle stop holding back frames once nothing is unacknowledged (R318). -/
def Module.joinCheck (m : Module) (p : Nat) : Module :=
  let b := m.bundle p
  if b.any (fun q => (m.port q).joining) && b.all (fun q => (m.port q).replay.isEmpty) then
    (m.each b (fun m q => m.setPort q { m.port q with joining := false })).requeue b
  else m

/-- Frames before the acked number leave the replay buffer; progress restarts the resend count. -/
def Module.acked (m : Module) (p ack : Nat) : Module :=
  let x := m.port p
  let left := x.replay.filter (fun s => !(decide (1 ≤ (ack + 4096 - s.seq) % 4096) && decide ((ack + 4096 - s.seq) % 4096 ≤ 2048)))
  if left.length = x.replay.length then m else m.setPort p { x with replay := left, resends := 0, progressAt := m.pilot }

/-- What an acknowledgement lets go on: a hold of the bundle ends, new frames leave, the exit may end. -/
def Module.afterAck (m : Module) (p : Nat) : Module := ((m.joinCheck p).pump p).exitAck p

/-- An acknowledgement arrives. -/
def Module.ackTo (m : Module) (p ack : Nat) : Module :=
  let m1 := m.acked p ack
  if (m1.port p).replay.length = (m.port p).replay.length then m else m1.afterAck p

/-- A frame with a good CRC arrives: it restarts the silence count and its ack counts (R312, R314). -/
def Module.goodFrame (m : Module) (p : Nat) (h : FrameHdr) : Module :=
  let m1 := m.setPort p { m.port p with lastGood := m.pilot }
  if h.ackv then m1.ackTo p h.ack.toNat else m1

/-- Resend every unacknowledged frame in order; after 8 resends without progress the port enters RETRAIN instead (R313, DEDUCED, log 50). -/
def Module.resend (m : Module) (p : Nat) : Module :=
  let x := m.port p
  if 8 ≤ x.resends then m.portRetrain p
  else
    let m1 := m.each x.replay (fun m s => m.emit (.frame p s.seq x.expect s.body))
    let m2 := m1.setPort p { x with resends := x.resends + 1, progressAt := m.pilot, lastSent := m.pilot, ackDue := none }
    (m2.addF (Reg.FAB_PERR.replays p) 1).each x.replay (fun m r => m.count pmcFab 3 1 (portEv p r.body.vc))

/-- Send a NAK unless one was sent and neither the expected frame nor 10 µs has come since (R312). -/
def Module.sendNak (m : Module) (p : Nat) : Module :=
  if (m.port p).nakAt.isSome then m
  else (m.setPort p { m.port p with nakAt := some m.pilot }).sendFree p .nak

/-- Accept a sequenced frame in order, or discard a duplicate, or discard it with a NAK (R312): was it accepted? -/
def Module.acceptSeq (m : Module) (p : Nat) (h : FrameHdr) : Module × Bool :=
  let x := m.port p
  let seq := h.seq.toNat
  if seq = x.expect then
    (m.setPort p { x with expect := (x.expect + 1) % 4096, nakAt := none, ackDue := some (x.ackDue.getD m.pilot) }, true)
  else if (x.expect + 4096 - seq) % 4096 ≤ 2048 then (m.setPort p { x with ackDue := some (x.ackDue.getD m.pilot) }, false)
  else (m.sendNak p, false)

/-- Units of an accepted packet are freed, and its bytes counted (R309; 20 Table 20-2). -/
def Module.freeUnits (m : Module) (p vc : Nat) (b : FrameBody) : Module :=
  let x := m.port p
  let m1 := m.setPort p { x with freed := listAdd x.freed vc b.units }
  let m2 := m1.count pmcFab 2 b.bytes (m1.packetEv p vc b)
  if m2.bit Reg.PMC_WIN.active then { m2 with pmc := { m2.pmc with rx := SMap.modify 0 m2.pmc.rx p (fun n => n + b.bytes) } } else m2

/-! ### A port goes down (R315, R317) -/

/-- The RESCUE frame of an unacknowledged frame of port p. -/
def rescueOf (p : Nat) (s : Sent) : Option FrameBody :=
  match s.body with
  | .data v q => some (.rescue v p s.seq q)
  | .rescue v o n q => some (.rescue v o n q)
  | _ => none

/-- A port goes down: DETECT with cause LOST; its unacknowledged frames go out as RESCUE frames on the remaining ACTIVE ports of the
bundle, and then, chosen anew, the packets that waited on it. -/
def Module.portDown (m : Module) (p : Nat) : Module :=
  let x := m.port p
  let rest := (m.bundle p).filter (fun q => q != p && m.pstate q == pActive)
  let lost := x.replay.filterMap (rescueOf p) ++ x.txq.filter (fun b => b.ftype == 4)
  let m1 := (m.setF (Reg.FAB_PSTAT.cause p) 6).portDetect p
  let m2 := if rest.isEmpty then m1
    else m1.each lost (fun m b =>
      match b with
      | .rescue v _ _ q => m.queueFrame (rest.getD (portHash q.src.toNat q.dst.toNat v rest.length) 0) b
      | _ => m)
  (m2.rehold (m.queuedData [p])).concludeAt p

/-! ### Frames that arrive (R308-R313, R317, R331) -/

def onActive (p : Nat) (f : Module → Module) (m : Module) : Module := if m.pstate p = pActive then f m else m

def execData (p : Fin 16) (h : FrameHdr) (pkt : Packet) (s : State) : Host.Outcome State Fault Refusal :=
  s.go (onActive p.val (fun m =>
    let r := (m.goodFrame p.val h).acceptSeq p.val h
    let vc := h.vc.toNat
    if r.2 then (r.1.freeUnits p.val vc (.data vc pkt)).handlePacket true false vc pkt else r.1))

def execIdle (p : Fin 16) (h : FrameHdr) (s : State) : Host.Outcome State Fault Refusal :=
  s.go (onActive p.val (fun m => m.goodFrame p.val h))

def execNak (p : Fin 16) (h : FrameHdr) (s : State) : Host.Outcome State Fault Refusal :=
  s.go (onActive p.val (fun m =>
    let m1 := (m.setPort p.val { m.port p.val with lastGood := m.pilot }).acked p.val h.ack.toNat
    if (m1.port p.val).replay.isEmpty then m1.afterAck p.val else (m1.resend p.val).pump p.val))

def execCredit (p : Fin 16) (h : FrameHdr) (counts : List (BitVec 16)) (s : State) : Host.Outcome State Fault Refusal :=
  s.go (onActive p.val (fun m =>
    let m1 := m.goodFrame p.val h
    (m1.setPort p.val { m1.port p.val with got := counts.map BitVec.toNat }).pump p.val))

/-- This module's port to the same neighbour as port `p` that the neighbour numbers `oport` (R317). -/
def Module.portFrom (m : Module) (p oport : Nat) : Option Nat :=
  (List.range 16).find? (fun q => m.getF (Reg.FAB_PNBR.device q) == m.getF (Reg.FAB_PNBR.device p) &&
    m.getF (Reg.FAB_PNBR.port q) == oport && ((m.port q).downSeq.isSome || m.bit (Reg.FAB_PNBR.valid q)))

/-- A RESCUE frame is delivered unless its number was accepted on the failed port. -/
def rescue (p : Nat) (h : FrameHdr) (pkt : Packet) (m : Module) : Module :=
  let r := (m.goodFrame p h).acceptSeq p h
  let vc := h.vc.toNat
  if !r.2 then r.1
  else
    let m1 := r.1.freeUnits p vc (.rescue vc h.oport.toNat h.oseq.toNat pkt)
    let last : Option Nat := (m1.portFrom p h.oport.toNat).bind (fun q =>
      if m1.pstate q = pRetrain then some (((m1.port q).expect + 4095) % 4096) else (m1.port q).downSeq)
    let seen : Bool := match last with
      | some d => decide ((d + 4096 - h.oseq.toNat) % 4096 < 2048)
      | none => false
    if seen then m1 else m1.handlePacket true false vc pkt

def execRescue (p : Fin 16) (h : FrameHdr) (pkt : Packet) (s : State) : Host.Outcome State Fault Refusal :=
  s.go (onActive p.val (rescue p.val h pkt))

/-- Leave the fabric: no DATA is sent, every port goes DARK (R331). -/
def Module.leaveFabric (m : Module) : Module := (m.setFab { m.fab with noData := true }).darkAll

/-- An accepted OOS frame. -/
def Module.handleOos (m : Module) (p : Nat) (w : Word) : Module :=
  let dev := w.toNat / 2 ^ 48
  let inc := w.toNat / 2 ^ 32 % 2 ^ 16
  let cause := w.toNat / 256 % 256
  if m.knownLost dev inc then m
  else if dev = m.myId && inc == m.getF Reg.FAB_DEVID.incarnation then (m.recordLost dev inc cause).leaveFabric
  else m.declareLost dev inc cause w (some p)

def execOos (p : Fin 16) (h : FrameHdr) (w : Word) (s : State) : Host.Outcome State Fault Refusal :=
  s.go (onActive p.val (fun m =>
    let r := (m.goodFrame p.val h).acceptSeq p.val h
    if r.2 then r.1.handleOos p.val w else r.1))

/-- A frame that fails its CRC or has a reserved type is counted and answered with a NAK. -/
def execFrameCrcError (p : Fin 16) (s : State) : Host.Outcome State Fault Refusal :=
  s.go (fun m =>
    let m1 := m.addF (Reg.FAB_PERR.crc p.val) 1
    if m.pstate p.val = pActive then m1.sendNak p.val else m1)

/-! ### Timers of a port (R309, R312-R315) -/

def execReplayTimeout (p : Fin 16) (s : State) : Host.Outcome State Fault Refusal :=
  s.go (onActive p.val (fun m =>
    let x := m.port p.val
    if x.replay.isEmpty then m else (m.toTick (x.progressAt + 250)).resend p.val))

def execKeepaliveSend (p : Fin 16) (s : State) : Host.Outcome State Fault Refusal :=
  s.go (onActive p.val (fun m => (m.toTick ((m.port p.val).lastSent + 50)).sendFree p.val .idle))

def execAckSend (p : Fin 16) (s : State) : Host.Outcome State Fault Refusal :=
  s.go (onActive p.val (fun m => if (m.port p.val).ackDue.isSome then m.sendFree p.val .idle else m))

def execCreditSend (p : Fin 16) (s : State) : Host.Outcome State Fault Refusal :=
  s.go (onActive p.val (fun m =>
    let x := m.port p.val
    m.sendFree p.val (.credit x.freed)))

def execNakHoldoffExpiry (p : Fin 16) (s : State) : Host.Outcome State Fault Refusal :=
  s.go (fun m =>
    match (m.port p.val).nakAt with
    | none => m
    | some t => (m.toTick (t + 250)).setPort p.val { m.port p.val with nakAt := none })

def execReceiveSilence (p : Fin 16) (s : State) : Host.Outcome State Fault Refusal :=
  s.go (onActive p.val (fun m => (m.toTick ((m.port p.val).lastGood + 500)).portRetrain p.val))

/-- A retrain ends: with the neighbour's acked number the port is ACTIVE, joins its bundle and resends from it, before any new frame
(R313, R315, R318); without, it is down. -/
def portRetrainEnd (p : Nat) (ack : Option (BitVec 12)) (m : Module) : Module :=
  if m.pstate p != pRetrain then m
  else match ack with
    | none => m.portDown p
    | some a =>
      let m1 := ((m.setPort p { m.port p with lastGood := m.pilot, resends := 0, progressAt := m.pilot }).trained (laneUnits p)).portTo p pActive
      let m2 := ((m1.sendFree p .idle).acked p a.toNat).join p
      (if (m2.port p).replay.isEmpty then m2.afterAck p else m2.resend p).concludeAt p

def execPortRetrainEnd (p : Fin 16) (ack : Option (BitVec 12)) (s : State) : Host.Outcome State Fault Refusal :=
  s.go (portRetrainEnd p.val ack)

def execHeldPacketSend (s : State) : Host.Outcome State Fault Refusal := s.go Module.heldSend

end Sys2Proof.Machine
end

