-- ==== Sys2Proof/Machine/FabricPorts.lean ====
section
/-! DEFINITION. Lantern discovery (13 R320-R324), dozing and waking (R333-R336), ALIVE and the quad partners (R328, R329), and the FAB
registers with an effect of their own. -/

namespace Sys2Proof.Machine

/-! ### Lantern payloads (R321) -/

/-- Receive buffers in units of 32 bytes (Table 13-6). -/
def initialCredit : List Nat := [4096, 4096, 4096, 4096, 2048, 2048, 512, 512]

/-- Draw `n` free bytes. -/
def Module.freeByteList (m : Module) (n : Nat) : Module × List Byte :=
  ({ m with free := m.free + n }, (List.range n).map (fun i => Config.freeByte (m.free + i)))

/-- The flags of a Lantern frame that do not depend on its type. -/
def Module.lanternFlags (m : Module) (p : Nat) : Nat :=
  m.getF Reg.FAB_DEVID.assigned + 2 * m.getF Reg.FAB_QUAD.in_quad + 4 * m.getF Reg.FAB_QUAD.qpos +
    (if (m.port p).tag.isEmpty then 0 else 16)

/-- A Lantern payload of this module on a port. -/
def Module.lanternOf (m : Module) (p : Nat) (flags : Nat) (nonce : List Byte) : Lantern :=
  { port := BitVec.ofNat 8 p, flags := BitVec.ofNat 8 flags, width := BitVec.ofNat 8 (m.getF (Reg.FAB_PSTAT.width p)),
    device := BitVec.ofNat 16 m.myId, incarnation := BitVec.ofNat 16 (m.getF Reg.FAB_DEVID.incarnation),
    credit := initialCredit.map (BitVec.ofNat 16), nonce := nonce, tag := padBytes 16 (m.port p).tag, detect := 0, frag := 0, data := [] }

/-- Send this end's HELLO with the nonce of its entry into HELLO. -/
def Module.sendHello (m : Module) (p : Nat) (nonce : List Byte) : Module :=
  let l := m.lanternOf p (m.lanternFlags p) nonce
  (m.setPort p { m.port p with helloOut := some l }).sendFree p (.lantern 1 l)

/-- Enter HELLO: a fresh nonce, and the first HELLO. -/
def Module.enterHello (m : Module) (p : Nat) : Module :=
  let (m1, nonce) := (m.portTo p pHello).freeByteList 32
  (m1.setPort p { m1.port p with helloIn := none, proofIn := [], tries := 0 }).sendHello p nonce

/-! ### DETECT and TRAIN (R304, R320) -/

/-- Does this module sleep, or is it going to, in W3 or W4? -/
def Module.dozing (m : Module) : Bool :=
  (m.bit Reg.PWR_STATE.entering && decide (3 ≤ m.getF Reg.PWR_STATE.target)) || decide (3 ≤ m.getF Reg.PWR_STATE.state)

/-- Signal on lane 0 starts TRAIN; a port that its neighbour dozed starts it on the neighbour's light. -/
def portSignalDetect (p : Nat) (m : Module) : Module :=
  let m1 := m.portEval p
  if m1.pstate p = pDetect || (m1.pstate p = pDoze && !m1.dozing) then
    m1.toTrain p
  else m

def execPortSignalDetect (p : Fin 16) (s : State) : Host.Outcome State Fault Refusal := s.go (portSignalDetect p.val)

/-- Training ends at 2^i lanes, or an attempt fails; the third failure is TRAIN_FAIL. -/
def portTrainEnd (p : Nat) (lanes : Option (Fin 3)) (m : Module) : Module :=
  if m.pstate p != pTrain then m
  else match lanes with
    | some i => ((m.setF (Reg.FAB_PSTAT.width p) (2 ^ i.val)).trained (laneUnits p)).enterHello p
    | none =>
      let n := (m.port p).tries + 1
      let m1 := m.setPort p { m.port p with tries := n }
      if 3 ≤ n then m1.portFail p 1 else m1

def execPortTrainEnd (p : Fin 16) (lanes : Option (Fin 3)) (s : State) : Host.Outcome State Fault Refusal :=
  s.go (portTrainEnd p.val lanes)

/-- One second after TRAIN_FAIL the port returns to DETECT. -/
def failedRetry (p : Nat) (m : Module) : Module :=
  if m.pstate p = pFailed && m.getF (Reg.FAB_PSTAT.cause p) = 1 then (m.toTick ((m.port p).failedAt + 25000000)).portDetect p else m

def execFailedRetry (p : Fin 16) (s : State) : Host.Outcome State Fault Refusal := s.go (failedRetry p.val)

/-! ### HELLO and VERIFY (R320-R323, R332) -/

/-- Record the neighbour's HELLO in FAB_PNBRp, with its initial credit. -/
def Module.recordHello (m : Module) (p : Nat) (l : Lantern) : Module :=
  let f := l.flags.toNat
  let m1 := ((((((m.setF (Reg.FAB_PNBR.valid p) 1).setF (Reg.FAB_PNBR.port p) l.port.toNat).setF (Reg.FAB_PNBR.assigned p) (f % 2)).setF
    (Reg.FAB_PNBR.in_quad p) (f / 2 % 2)).setF (Reg.FAB_PNBR.qpos p) (f / 4 % 4)).setF
    (Reg.FAB_PNBR.incarnation p) l.incarnation.toNat).setF (Reg.FAB_PNBR.device p) l.device.toNat
  m1.setPort p { m1.port p with helloIn := some l, init := l.credit.map BitVec.toNat }

/-- The cause with which a recorded HELLO fails the port: DUP_ID, MISWIRE, STALE. -/
def Module.helloCause (m : Module) (p : Nat) (l : Lantern) : Option Nat :=
  let f := l.flags.toNat
  let dev := l.device.toNat
  if dev = m.myId && f % 2 == 1 && m.bit Reg.FAB_DEVID.assigned then some 3
  else if m.bit Reg.FAB_QUAD.in_quad && decide (p < 6) &&
      (f / 2 % 2 == 0 || f / 4 % 4 != (m.getF Reg.FAB_QUAD.qpos + p / 2 + 1) % 4) then some 4
  else if m.knownLost dev l.incarnation.toNat then some 5
  else none

/-- The port has recorded a neighbour that may be a quad partner, unless its HELLO was a DUP_ID or a MISWIRE; the Blanket holder may change
(17 R422). -/
def Module.recordPartner (m : Module) (p : Nat) (cause : Option Nat) : Module :=
  (m.setPort p { m.port p with seen := cause != some 3 && cause != some 4 }).holderCheck

/-- The two ends of a session tag: the neighbour's device and port, and both incarnations. -/
def Module.tagEnds (m : Module) (l : Lantern) : Nat × Nat × Nat :=
  (l.device.toNat * 256 + l.port.toNat, m.getF Reg.FAB_DEVID.incarnation, l.incarnation.toNat)

/-- The digest that an end signs: the HELLO that it sent, then the HELLO that it received. -/
def helloDigest (sent got : Lantern) : List Byte := Config.sha384 (lanternBytes 1 sent ++ lanternBytes 1 got)

/-- This module's two signatures over a digest with its identity keys: 64 and 3,309 bytes (R323). -/
def Module.ownSigs (m : Module) (digest : List Byte) : List Byte :=
  padBytes 64 (Config.ed25519Sign m.idKeys.ed digest) ++ padBytes 3309 (Config.mldsaSign m.idKeys.pq digest)

/-- This module's proof stream over a digest (R323): its identity certificate chain and the two signatures. -/
def Module.proofStream (m : Module) (digest : List Byte) : List Byte := m.idBytes ++ m.ownSigs digest

/-- The two signatures of a proof stream whose chain has `n` bytes. -/
def proofSigs (n : Nat) (stream : List Byte) : List Byte × List Byte := ((stream.drop n).take 64, (stream.drop (n + 64)).take 3309)

/-- The signatures of a neighbour's proof stream, when its chain validates and both of them verify over a digest (R323). -/
def proofOk (stream digest : List Byte) : Option (List Byte) :=
  match chainKeys stream with
  | none => none
  | some (key, pqKey, n) =>
    let s := proofSigs n stream
    if Config.ed25519Ok key digest s.1 && Config.mldsaOk pqKey digest s.2 then some (s.1 ++ s.2) else none

/-- Send a DOZE frame, with the wake mode and the detect mask that the port's entry named (R333). -/
def Module.sendDoze (m : Module) (p : Nat) : Module :=
  let deep := match (m.port p).dozeSent with | some (_, k) => k | none => false
  m.sendFree p (.lantern 3 { m.lanternOf p (m.lanternFlags p + if deep then 32 else 0) [] with
    detect := if deep then 0x1111#16 else 0xFFFF#16 })

/-- Send a proof stream in fragments of 180 bytes. -/
def Module.sendProof (m : Module) (p : Nat) (stream : List Byte) : Module :=
  let n := (stream.length + 179) / 180
  m.each (List.range n) (fun m i =>
    m.sendFree p (.lantern 2 { m.lanternOf p (m.lanternFlags p) [] with
      frag := BitVec.ofNat 16 (i % 256 * 256 + n % 256), data := padBytes 180 (stream.drop (180 * i)) }))

/-- A Lantern frame that may be lost is sent again every 10 µs: HELLO in HELLO, in VERIFY with the proof stream, and DOZE until its
acknowledgement (R320, R321; for VERIFY and DOZE, whose interval the specification does not state, DESIGN CHOICE, log 72). -/
def helloSend (p : Nat) (m : Module) : Module :=
  let x := m.port p
  match x.helloOut, x.helloIn with
  | some l, got =>
    if m.pstate p = pHello then m.sendHello p l.nonce
    else if m.pstate p = pVerify then
      let m1 := m.sendFree p (.lantern 1 l)
      match got with
      | some g => m1.sendProof p (m1.proofStream (helloDigest l g))
      | none => m1
    else if m.pstate p = pActive && x.dozeSent.isSome then m.sendDoze p
    else m
  | none, _ => if m.pstate p = pActive && x.dozeSent.isSome then m.sendDoze p else m

def execHelloSend (p : Fin 16) (s : State) : Host.Outcome State Fault Refusal := s.go (helloSend p.val)

/-- A HELLO arrives in HELLO: it is recorded, and it fails the port, or it takes the port to VERIFY when both ends are assigned and
this module's keys are derived (21 R505). Equal session tags end VERIFY at once; otherwise the proof stream is sent. -/
def hello (p : Nat) (l : Lantern) (m : Module) : Module :=
  if m.pstate p != pHello then m
  else
    let m1 := m.recordHello p l
    let c := m1.helloCause p l
    let m1 := m1.recordPartner p c
    match c, (m1.port p).helloOut with
    | some c, _ => m1.portFail p c
    | none, none => m1
    | none, some out =>
      if l.flags.toNat % 2 == 0 || !m1.bit Reg.FAB_DEVID.assigned || m1.dozing then m1
      else
        let m2 := m1.portTo p pVerify
        let x := m2.port p
        if Nat.testBit out.flags.toNat 4 && Nat.testBit l.flags.toNat 4 && padBytes 16 out.tag == padBytes 16 l.tag
            && x.tagFor == some (m2.tagEnds l) then m2.enterActive p
        else m2.sendProof p (m2.proofStream (helloDigest out l))

def execHello (p : Fin 16) (l : Lantern) (s : State) : Host.Outcome State Fault Refusal := s.go (hello p.val l)

/-- The fragments in order once all have arrived. -/
def proofWhole (frags : List (Nat × List Byte)) (n : Nat) : Option (List Byte) :=
  if n = 0 then none
  else (List.range n).foldl (fun r i =>
    match r, frags.find? (fun e => e.1 == i) with
    | some a, some e => some (a ++ e.2)
    | _, _ => none) (some [])

/-- The new session tag: over the digests and the signatures in ascending order of device ID. -/
def sessionTag (mine theirs : Nat) (dOut dIn sOut sIn : List Byte) : List Byte :=
  (Config.sha384 (if mine < theirs then dOut ++ dIn ++ sOut ++ sIn else dIn ++ dOut ++ sIn ++ sOut)).take 16

/-- A PROOF fragment arrives in VERIFY; the last one decides. -/
def proof (p : Nat) (l : Lantern) (m : Module) : Module :=
  if m.pstate p != pVerify then m
  else
    let x := m.port p
    let n := l.frag.toNat % 256
    let frags := x.proofIn.filter (fun e => e.1 != l.frag.toNat / 256) ++ [(l.frag.toNat / 256, padBytes 180 l.data)]
    let m1 := m.setPort p { x with proofIn := frags }
    match proofWhole frags n, x.helloOut, x.helloIn with
    | some stream, some out, some got =>
      let dIn := helloDigest got out
      let dOut := helloDigest out got
      match proofOk stream dIn with
      | some sigs =>
        let tag := sessionTag m.myId got.device.toNat dOut dIn (m.ownSigs dOut) sigs
        (m1.setPort p { m1.port p with tag := tag, tagFor := some (m1.tagEnds got) }).enterActive p
      | none => (m1.portFail p 2).raise 114
    | _, _, _ => m1

def execProof (p : Fin 16) (l : Lantern) (s : State) : Host.Outcome State Fault Refusal := s.go (proof p.val l)

/-! ### Dozing (R333) -/

/-- A port enters DOZE; a TRAIN that follows it has its own three attempts (R320). Packets that still wait on it are sent on another port, or held, and a held packet wakes the neighbour. -/
def Module.enterDoze (m : Module) (p : Nat) : Module :=
  (((m.setPort p { m.port p with tries := 0 }).portTo p pDoze).requeue [p]).heldWake.concludeAt p

/-- The neighbour dozes: DOZE_ACK is returned. -/
def doze (p : Nat) (h : FrameHdr) (l : Lantern) (m : Module) : Module :=
  let m1 := m.goodFrame p h
  let m2 := m1.setPort p { m1.port p with nbrKindle := Nat.testBit l.flags.toNat 5, nbrDetect := l.detect.toNat }
  (m2.sendFree p (.lantern 4 (m2.lanternOf p (m2.lanternFlags p) []))).enterDoze p

def execDoze (p : Fin 16) (h : FrameHdr) (l : Lantern) (s : State) : Host.Outcome State Fault Refusal :=
  s.go (onActive p.val (doze p.val h l))

def dozeAck (p : Nat) (h : FrameHdr) (m : Module) : Module :=
  if (m.port p).dozeSent.isSome then (m.goodFrame p h).enterDoze p else m.goodFrame p h

def execDozeAck (p : Fin 16) (h : FrameHdr) (s : State) : Host.Outcome State Fault Refusal := s.go (onActive p.val (dozeAck p.val h))

/-- 100 µs after DOZE. -/
def dozeTimeout (p : Nat) (m : Module) : Module :=
  match (m.port p).dozeSent with
  | none => m
  | some (t, _) => (m.toTick (t + 2500)).enterDoze p

def execDozeTimeout (p : Fin 16) (s : State) : Host.Outcome State Fault Refusal := s.go (onActive p.val (dozeTimeout p.val))

/-! ### Waking a neighbour, and being woken (R334-R336) -/

/-- A burst of Kindle words on a port whose neighbour-side port keeps a detect lane. -/
def kindleBurst (p : Nat) (m : Module) : Module :=
  let x := m.port p
  if m.pstate p = pDoze && x.wakeAt.isSome && x.nbrKindle && Nat.testBit x.nbrDetect (m.getF (Reg.FAB_PNBR.port p)) then
    m.emit (.kindle p)
  else m

def execKindleBurst (p : Fin 16) (s : State) : Host.Outcome State Fault Refusal := s.go (kindleBurst p.val)

/-- No port to the neighbour is ACTIVE a second after the wake began. -/
def wakeNeighbourTimeout (p : Nat) (m : Module) : Module :=
  match (m.port p).wakeAt with
  | none => m
  | some t =>
    if (m.bundle p).any (fun q => m.pstate q == pActive) then m.setPort p { m.port p with wakeAt := none }
    else
      let m1 := m.toTick (t + 25000000)
      ((m1.setPort p { m1.port p with wakeAt := none }).portFail p 1).recheckHeld.concludeAt p

def execWakeNeighbourTimeout (p : Fin 16) (s : State) : Host.Outcome State Fault Refusal := s.go (wakeNeighbourTimeout p.val)

/-- A detect lane sees light, or recognizes the Kindle pattern (`light` false). -/
def kindleDetect (p : Nat) (light : Bool) (m : Module) : Module :=
  let s := if m.bit Reg.PWR_STATE.entering then m.getF Reg.PWR_STATE.target else m.getF Reg.PWR_STATE.state
  let hears := (s == 4 && p % 4 == 0 && !light) || (s == 3 && m.pstate p == pDoze)
  if m.bit Reg.FAB_CTRL.kindle_en && hears then m.wake 4 p else m

def execKindleDetect (p : Fin 16) (light : Bool) (s : State) : Host.Outcome State Fault Refusal := s.go (kindleDetect p.val light)

/-! ### ALIVE (R328, R329) -/

/-- The tick that is due next: ALIVE toggles when its conditions hold at it. -/
def aliveToggle (m : Module) : Module :=
  let m1 := m.toTick (m.fab.toggledAt + 25000)
  if !m1.aliveRuns then m
  else
    let l := m1.fab.level
    m1.setFab { m1.fab with toggledAt := m1.pilot,
                            level := [1, 2, 3].foldl (fun l j => SMap.set false l j (!SMap.get false l j)) l }

def execAliveToggle (s : State) : Host.Outcome State Fault Refusal := s.go aliveToggle

/-- Set or clear the bit of a partner in FAB_QUAD.silent. -/
def Module.setSilent (m : Module) (j : Nat) (b : Bool) : Module :=
  if m.silent j = b then m else m.setF Reg.FAB_QUAD.silent (Nat.xor (m.getF Reg.FAB_QUAD.silent) (2 ^ (j - 1)))

def aliveEdge (j : Nat) (m : Module) : Module :=
  if !m.bit Reg.FAB_QUAD.in_quad then m
  else (m.setFab { m.fab with edgeAt := SMap.set 0 m.fab.edgeAt j m.pilot }).setSilent j false

/-- `j` counts the partners from 0. -/
def execAliveEdge (j : Fin 3) (s : State) : Host.Outcome State Fault Refusal := s.go (aliveEdge (j.val + 1))

def aliveSilence (j : Nat) (m : Module) : Module :=
  if !m.bit Reg.FAB_QUAD.in_quad || m.silent j then m
  else
    let m1 := m.toTick (SMap.get 0 m.fab.edgeAt j + 125000)
    ((m1.setSilent j true).wake 8 0).conclude j

def execAliveSilence (j : Fin 3) (s : State) : Host.Outcome State Fault Refusal := s.go (aliveSilence (j.val + 1))

/-- The heartbeat (R328). -/
def Module.beat (m : Module) : Module := m.setFab { m.fab with beatAt := m.pilot }

def execLamplighterBeat (s : State) : Host.Outcome State Fault Refusal := s.go Module.beat

/-! ### FAB registers (R324, R325, R331) -/

/-- Software declares a device lost. -/
def fabDeclare (dev inc : Nat) (m0 : Module) : Module :=
  let m := (m0.setF Reg.FAB_DECLARE.device dev).setF Reg.FAB_DECLARE.incarnation inc
  m.declareLost dev inc 2 (oosWord dev inc m.myId 2) none

def execFabDeclare (dev inc : BitVec 16) (s : State) : Host.Outcome State Fault Refusal :=
  s.goBar (fabDeclare dev.toNat inc.toNat)

/-- Reserved bits of a route entry are stored as zero. -/
def routeWord (w : Word) : Word := w &&& 0xC000FFFF0000FFFF#64

/-- An access to FAB_RT_DATA: a read, or a write of an entry; the index advances. -/
def fabRtData (write : Option Word) (m : Module) : Module :=
  let i := m.getF Reg.FAB_RT_ADDR.index
  let m1 := match write with
    | none => m.readOut 0x1000028 (SMap.get 0 m.fab.routes i).toNat
    | some w => ((m.endCapture 0x1000028).setRoute i (routeWord w)).holderCheck
  m1.addF Reg.FAB_RT_ADDR.index 1

def execFabRtDataAccess (write : Option Word) (s : State) : Host.Outcome State Fault Refusal := s.goBarAs write.isNone (fabRtData write)

/-- FAB_PSTATp.retrain: from FAILED to DETECT, from ACTIVE to RETRAIN. -/
def portRetrainRequest (p : Nat) (m : Module) : Module :=
  if m.pstate p = pFailed then m.portDetect p else if m.pstate p = pActive then m.portRetrain p else m

def execPortRetrainRequest (p : Fin 16) (s : State) : Host.Outcome State Fault Refusal :=
  s.goBar (fun m => portRetrainRequest p.val (m.setF (Reg.FAB_PSTAT.retrain p.val) 1))

/-- FAB_DEVID changes only while no port is in VERIFY or ACTIVE. -/
def fabDevidWrite (v : Word) (m : Module) : Module :=
  if (m.portsIn 0xFFFF pVerify ++ m.portsIn 0xFFFF pActive).isEmpty then
    (m.setRet Reg.FAB_DEVID.assigned (v.toNat / 2 ^ 63)).setRet Reg.FAB_DEVID.id (v.toNat % 2 ^ 16)
  else m

def execFabDevidWrite (v : Word) (s : State) : Host.Outcome State Fault Refusal := s.goBar (fabDevidWrite v)

/-- 1 ms after a module that leaves service sent OOS, or that an accepted frame named. -/
def oosAckTimeout (m : Module) : Module :=
  match m.fab.exitAt with
  | none => m
  | some t => (m.toTick (t + 25000)).exitEnd

def execOosAckTimeout (s : State) : Host.Outcome State Fault Refusal := s.go oosAckTimeout

end Sys2Proof.Machine
end

