-- ==== Sys2Proof/Machine/Matrix.lean ====
section
/-! DEFINITION. The matrix queue (06 R150-R154) and the M-class and Q-class rows: every operation enters the queue when its
instruction issues; operations off the lane path are performed as soon as R151 lets them; slots enter and land one by one;
a completed operation retires and its flags reach the thread (03 R72). -/

namespace Sys2Proof.Machine

/-! ### Operations off the lane path -/

/-- Addresses that a list of elements accesses. -/
def somes (l : List (Option Nat)) : List Nat := l.filterMap id

/-- ms.ld (06 R135). A column cursor that passes 32 bits wraps (DESIGN CHOICE, log 78). -/
def Module.doMsLd (m : Module) (core : Nat) (o : MOp) : Option Module :=
  let c := m.core core
  let ci := Word.ra o.word
  let ch := c.chan ci
  let of := Word.slice o.word 10 8
  let bytes := (FCode.fmt (FCode.ofCode of)).width / 8
  if !ch.valid || !widens of ch.src then some (m.mInvalid core o none)
  else
    let pos := (List.range 32).flatMap (fun r => (List.range (256 / bytes)).map (fun i => (r, i)))
    let as_ := pos.map (fun p => ch.addr (ch.kap + p.2) (ch.col + p.1))
    m.mStart core o (somes as_) ch.bytes [] 1 (fun m =>
      let r := (pos.zip as_).foldl (fun (r : Core × Flags) q =>
          let e := m.streamElem (o.key core) ch of q.2
          (r.1.setPut bytes q.1.1 q.1.2 e.1, r.2 ||| e.2)) (m.core core, fNone)
      let c1 := if Word.slice o.word 0 0 = 1 then r.1.setChan ci { ch with col := (ch.col + 32) % 2 ^ 32 } else r.1
      ((m.setCore core c1).mDone core o r.2).countPart (o.key core) 7 ((somes as_).length * ch.bytes))

/-- mst.cfg (06 R145): a denied descriptor reads as zeros. -/
def Module.doCfg (m : Module) (core : Nat) (o : MOp) : Option Module :=
  let a := o.a.toNat
  let k := o.key core
  m.mStart core o [a] 64 [] 1 (fun m =>
    let ws := (List.range 8).map (fun i => m.mRead k (a + 8 * i) 8)
    if ws.any (fun w => w.2) then m.mBlock core o cMedia a
    else
      let c := m.core core
      (m.setCore core (c.setChan (Word.rd o.word)
        { configured := true, words := ws.map (fun w => BitVec.ofNat 64 w.1), col := 0, kap := 0 })).mDone core o fNone)

/-- mst.seek (06 R145). -/
def Module.doSeek (m : Module) (core : Nat) (o : MOp) : Module :=
  let c := m.core core
  let ci := Word.rd o.word
  (m.setCore core (c.setChan ci { c.chan ci with col := o.a.toNat % 2 ^ 32, kap := o.b.toNat % 2 ^ 32 })).mDone core o fNone

/-- ms.swap (06 R136). -/
def Module.doSwap (m : Module) (core : Nat) (o : MOp) : Module :=
  let c := m.core core
  (m.setCore core { c with active := !c.active }).mDone core o fNone

/-- macc.zero (06 R139, R140). -/
def Module.doZero (m : Module) (core : Nat) (o : MOp) : Module :=
  let d := Word.rd o.word
  let c := m.core core
  (m.setCore core ((c.tileZero d (tfmtTiles (Word.slice o.word 12 11))).clearSticky d)).mDone core o fNone

/-- Bytes of a memory format code of Table 6-9. -/
def mfmtBytes (f : Nat) : Nat := match f with | 0 => 8 | 1 => 4 | 2 | 3 => 2 | 4 | 5 => 1 | 8 => 16 | _ => 8

/-- One element of macc.ld: exact widening into the tile format; the NaN from a poisoned sector (06 R140, 12 R291). -/
def widenTile (tf sf x : Nat) (bad : Bool) : Nat × Flags :=
  let f := tfmtComp tf
  if bad then (f.nanBits, fNV)
  else if sf = 8 || sf = 9 || (!tfmtPair tf && f == FCode.fmt (FCode.ofCode sf)) then (x, fNone)
  else if tfmtPair tf then
    let r := pairRound f ((FCode.fmt (FCode.ofCode sf)).decode x, fNone)
    (pairBits f r.1, r.2 ||| flagIf ((FCode.fmt (FCode.ofCode sf)).decode x).signalling fNV)
  else f.round .rne 0 ((FCode.fmt (FCode.ofCode sf)).decode x)

/-- The address of element (r, c) of a tile in memory: a + r × pitch, c elements of `n` bytes on (06 R140, R141). -/
def tileAddr (a b : Word) (n r c : Nat) : Nat := addr64 (a.toNat + (r : Int) * intOf true 32 b.toNat + (c * n : Nat))

def tilePos : List (Nat × Nat) := (List.range 32).flatMap (fun r => (List.range 32).map (fun c => (r, c)))

/-- macc.ld (06 R140). -/
def Module.doLd (m : Module) (core : Nat) (o : MOp) : Option Module :=
  let d := Word.rd o.word
  let tf := Word.slice o.word 12 11
  let sf := Word.slice o.word 16 13
  let n := mfmtBytes sf
  let k := o.key core
  m.mStart core o (tilePos.map (fun p => tileAddr o.a o.b n p.1 p.2)) n [] 1 (fun m =>
    let r := tilePos.foldl (fun (r : Core × Flags) p =>
        let v := m.mRead k (tileAddr o.a o.b n p.1 p.2) n
        let e := widenTile tf sf v.1 v.2
        (r.1.tilePut d (tfmtTiles tf) p.1 p.2 e.1, r.2 ||| e.2)) (m.core core, fNone)
    (m.setCore core (r.1.orStat d r.2)).mDone core o r.2)

/-- The format of a plain dfmt code. -/
def dfmtFmt (d : Nat) : Fmt := FCode.fmt (FCode.ofCode d)

/-- The stored bits of a drained value x (06 R552). A NaN drained into its own format becomes the canonical NaN, and a signalling one sets
nv (DESIGN CHOICE: Table 3-6 has no identity row, log 68). -/
def drainStore (dfmt : Nat) (rm : Rm) (u : Nat) (x : FVal) : Nat × Flags :=
  if dfmt = 8 || dfmt = 9 then
    let f := if dfmt = 8 then fp64 else fp32
    let r := pairRound f (x, flagIf x.signalling fNV)
    (pairBits f r.1, r.2)
  else (dfmtFmt dfmt).round rm u x

/-- TILESTAT.amax of a list of drained values (06 Table 6-5). -/
def amaxOf (xs : List FVal) : Nat :=
  if xs.any FVal.isNan then fp32.nanBits
  else
    let big := xs.foldl (fun b x => match cmpF b x.abs with | some .lt => x.abs | _ => b) FVal.zero
    (fp32.round .rup 0 big).1

/-- macc.drain (06 R141-R144, R552). With clr = 1 and ns = 1 the sticky bits are cleared (DESIGN CHOICE between R139 and R141, log 68). -/
def Module.doDrain (m : Module) (core : Nat) (o : MOp) : Option Module :=
  let w := o.word
  let d := Word.rd w
  let tf := Word.slice w 12 11
  let dfmt := Word.slice w 16 13
  let epi := Word.slice w 10 7
  let clr := Word.slice w 4 4 == 1
  let ns := Word.slice w 3 3 == 1
  let nt := tfmtTiles tf
  let n := mfmtBytes dfmt
  let k := o.key core
  let ch := (m.core core).chan (Word.slice w 6 5)
  let useY := epiUsesY epi
  if useY && (!ch.valid || !widens 1 ch.src) then some (m.mInvalid core o (some d))
  else
    let yAddr (p : Nat × Nat) : Option Nat := if useY then ch.addr (ch.kap + p.1) (ch.col + p.2) else none
    let ys := somes (tilePos.map yAddr)
    m.mStart core o ys (if useY then ch.bytes else 1) (tilePos.map (fun p => tileAddr o.a o.b n p.1 p.2)) n (fun m =>
      let seed := (m.ctx (m.th k).ctx).seed
      let rm := (Rm.ofCode o.rm).getD .rne
      let kexp := intOf true 8 (o.b.toNat / 2 ^ 32)
      let c := m.core core
      let r := tilePos.foldl (fun (r : List (Nat × Nat × Nat) × Flags × List FVal) p =>
          let x := tileValue (rdnOf rm) tf (c.tileBits d nt p.1 p.2)
          let xs := x.1.scale kexp
          let e : FVal × Flags :=
            if epi = 0 then (xs, x.2)
            else
              let y := if useY then m.streamElem k ch 1 (yAddr p) else (0, fNone)
              let z := epilogue epi xs (fp32.decode y.1)
              (fp32.decode z.1, x.2 ||| y.2 ||| z.2)
          let u := drawOf seed o.c (Word.srtag w) (p.1 * 32 + p.2)
          let s := drainStore dfmt rm u e.1
          (r.1 ++ [(tileAddr o.a o.b n p.1 p.2, n, s.1)], r.2.1 ||| e.2 ||| s.2, e.1 :: r.2.2)) ([], fNone, [])
      let m1 := m.mWrite k r.1
      let c1 := m1.core core
      let c2 := if clr then (c1.tileZero d nt).clearSticky d else c1
      let c3 := if ns then c2
        else
          let c3 := c2.orStat d r.2.1
          c3.setStat d (BitVec.ofNat 64 (amaxOf r.2.2 * 2 ^ 32) ||| (c3.stat d &&& 0xFFFFFFFF))
      ((m1.setCore core c3).mDone core o r.2.1).countPart k 7 (ys.length * ch.bytes))

/-- macc.stat writes its scalar destination when it executes (06 R159). -/
def Module.doStat (m : Module) (core : Nat) (o : MOp) : Module :=
  let v := ((m.core core).stat (Word.ra o.word)).toNat
  (m.mDeliver core o [gotOf false (Word.rd o.word) 0 64 v none]).mDone core o fNone

/-- Perform an operation off the lane path; none when it waits for a held channel. -/
def Module.mPerform (m : Module) (core : Nat) (o : MOp) : Option Module :=
  match Word.major o.word, Word.minor o.word with
  | 0x20, 0 => m.doMsLd core o
  | 0x20, _ => some (m.doSwap core o)
  | 0x22, 0 => m.doCfg core o
  | 0x22, _ => some (m.doSeek core o)
  | 0x23, 0 => some (m.doZero core o)
  | 0x23, 1 => m.doLd core o
  | 0x23, 2 => m.doDrain core o
  | _, _ => some (m.doStat core o)

/-- Perform, in queue order, every operation off the lane path that may start; `fuel` bounds them (06 R151). -/
def Module.runQueue (m : Module) (core : Nat) : Nat → Module
  | 0 => m
  | fuel + 1 =>
    let c := m.core core
    match (c.mq.filter (fun o => !o.lane && !o.isMwait && !o.done && !o.blocked && c.canStart o)).findSome? (fun o => m.mPerform core o) with
    | some m1 => Module.runQueue m1 core fuel
    | none => m

/-- The whole queue. -/
def Module.settleQueue (m : Module) (core : Nat) : Module := m.runQueue core 32

/-! ### Issue (06 R150) -/

/-- Does an M-class or Q-class word access memory: ms.ld, mma, mst.cfg, macc.ld, macc.drain, and the panels of q.hh? -/
def mAccesses (w : Word) : Bool :=
  match Word.major w, Word.minor w with
  | 0x20, 0 => true
  | 0x21, _ => true
  | 0x22, 0 => true
  | 0x23, 1 => true
  | 0x23, 2 => true
  | 0x2B, _ => true
  | _, _ => false

/-- The queue entry of a word with its thread's scalar operands. -/
def Thread.mEntry (t : Thread) (id : Nat) (thread : Nat) (w : Word) (dst : Option Nat) : MOp :=
  { id := id, thread := thread, word := w, ip := t.ip, a := t.getS (Word.ra w), b := t.getS (Word.rb w), c := t.getS (Word.rc w),
    rm := if Word.rm w = 7 then t.frm.toNat else Word.rm w, slots := 0, landed := 0, flags := fNone, done := false,
    blocked := false, started := false, dst := dst }

/-- Enter an operation into the matrix queue with its scalar operands; it retires there, later (06 R152). It does not issue while the queue is full, nor, when it accesses
memory, behind an acquire that has not been performed (15 R373). `dst` is a scalar register that it writes when it executes. -/
def Module.mIssue (m : Module) (k : Nat) (w : Word) (dst : Nat) : Module :=
  let core := k / 8
  let c := m.core core
  let t := m.th k
  if 16 ≤ c.mq.length || (mAccesses w && m.acqPending k) then m
  else
    let m1 := if dst = 0 then m
      else m.addOutst k { id := 0, ip := t.ip, isLoad := true, acq := false, dstS := [dst], dstV := [], got := [], left := 1,
                          cause := 0, addr := 0, device := 0, tag := none, vec := false }
    let o := t.mEntry c.nextOp (keyThread k) w (if dst = 0 then none else some t.issued)
    let c1 := { c with mq := c.mq ++ [o], nextOp := c.nextOp + 1 }
    ((m1.setCore core c1).goOn k true).settleQueue core

def mRow (w : Word) (m : Module) (k : Nat) : Module := m.mIssue k w 0

def execMsLd (th : ThreadId) (w : Word) (s : State) : Host.Outcome State Fault Refusal := s.inst .msLd th w (mRow w)
def execMsSwap (th : ThreadId) (w : Word) (s : State) : Host.Outcome State Fault Refusal := s.inst .msSwap th w (mRow w)
def execMma (th : ThreadId) (w : Word) (s : State) : Host.Outcome State Fault Refusal := s.inst .mma th w (mRow w)

/-- mst.cfg traps ALIGN at issue on an address that is not 64-byte aligned (06 R145); it does not issue while the queue is full (04 R104). -/
def execMstCfg (th : ThreadId) (w : Word) (s : State) : Host.Outcome State Fault Refusal :=
  s.inst .mstCfg th w (fun m k =>
    let a := (m.th k).getS (Word.ra w)
    if a.toNat % 64 != 0 && decide ((m.core (k / 8)).mq.length < 16) then m.trapWith k causeAlign a true 0 else m.mIssue k w 0)

def execMstSeek (th : ThreadId) (w : Word) (s : State) : Host.Outcome State Fault Refusal := s.inst .mstSeek th w (mRow w)
def execMaccZero (th : ThreadId) (w : Word) (s : State) : Host.Outcome State Fault Refusal := s.inst .maccZero th w (mRow w)
def execMaccLd (th : ThreadId) (w : Word) (s : State) : Host.Outcome State Fault Refusal := s.inst .maccLd th w (mRow w)
def execMaccDrain (th : ThreadId) (w : Word) (s : State) : Host.Outcome State Fault Refusal := s.inst .maccDrain th w (mRow w)

def execMaccStat (th : ThreadId) (w : Word) (s : State) : Host.Outcome State Fault Refusal :=
  s.inst .maccStat th w (fun m k => m.mIssue k w (Word.rd w))

/-- mwait holds the thread until at most n of its operations have not retired (06 R152). It issues only while the queue has room; while it
holds the thread it has a position in the queue (06 R150), and it waits behind a blocked operation as every later one does (06 R154). -/
def mwaitBody (w : Word) (m : Module) (k : Nat) : Module :=
  let c := m.core (k / 8)
  let met := decide ((m.mopsOf k).length ≤ Word.slice w 4 0)
  match c.mq.find? (fun o => o.isMwait && o.thread == keyThread k) with
  | some o =>
    if met && c.canStart o then (m.setCore (k / 8) { c with mq := c.mq.filter (fun x => x.id != o.id) }).retire k true else m
  | none =>
    if 16 ≤ c.mq.length then m
    else if met && c.mq.all (fun o => !o.blocked) then m.retire k true
    else m.setCore (k / 8) { c with mq := c.mq ++ [(m.th k).mEntry c.nextOp (keyThread k) w none], nextOp := c.nextOp + 1 }

def execMwait (th : ThreadId) (w : Word) (s : State) : Host.Outcome State Fault Refusal := s.inst .mwait th w (mwaitBody w)

def execQCholTile (th : ThreadId) (w : Word) (s : State) : Host.Outcome State Fault Refusal :=
  s.inst .qCholTile th w (fun m k => m.mIssue k w (Word.slice w 5 0))

def execQTrsm (th : ThreadId) (w : Word) (s : State) : Host.Outcome State Fault Refusal := s.inst .qTrsm th w (mRow w)
def execQSchur (th : ThreadId) (w : Word) (s : State) : Host.Outcome State Fault Refusal := s.inst .qSchur th w (mRow w)

def execQHhPanel (th : ThreadId) (w : Word) (s : State) : Host.Outcome State Fault Refusal :=
  s.inst .qHhPanel th w (fun m k => m.mIssue k w (Word.slice w 5 0))

def execQHhApply (th : ThreadId) (w : Word) (s : State) : Host.Outcome State Fault Refusal := s.inst .qHhApply th w (mRow w)

/-! ### The lane path (06 R130, R137) -/

/-- The addresses that an mma streams. -/
def MOp.streamed (o : MOp) (ch : Chan) : List Nat :=
  let len := o.mode.chunk
  somes ((List.range (o.kc * len)).flatMap (fun i => (List.range o.n).map (fun j => ch.addr (ch.kap + o.k0 * len + i) (ch.col + j))))

/-- Row count of a Householder operation: q.hh.panel takes it from b, q.hh.apply from c. -/
def MOp.rows (o : MOp) : Nat := if Word.minor o.word = 0 then o.b.toNat else o.c.toNat

/-- The addresses of an m × 32 panel, and of its tau vector. -/
def panelAddrs (a rows : Nat) : List Nat := (List.range (rows * 32)).map (fun i => a + 8 * i)
def tauAddrs (a rows : Nat) : List Nat := (List.range 32).map (fun i => a + rows * 256 + 8 * i)

/-- Start a lane operation: its translations, or the end of an operation on an invalid channel or with an invalid row count
(06 R148, R154; 09 R216). -/
def Module.laneStart (m : Module) (core : Nat) (o : MOp) : Option Module :=
  let begin_ (m : Module) : Module := m.modOp core o.id (fun o => { o with started := true })
  match Word.major o.word with
  | 0x21 =>
    let ch := (m.core core).chan (Word.ra o.word)
    if !ch.valid || !widens o.mode.code ch.src then some (m.mInvalid core o (some (Word.rd o.word)))
    else
      let l := o.streamed ch
      m.mStart core o l ch.bytes [] 1 (fun m => (begin_ m).countPart (o.key core) 7 (l.length * ch.bytes))
  | 0x2B =>
    if o.rows = 0 || o.rows % 32 != 0 then
      some ((m.mDeliver core o []).mInvalid core o (if Word.minor o.word = 0 then some (Word.rd o.word) else none))
    else
      let p := panelAddrs o.a.toNat o.rows
      if Word.minor o.word = 0 then m.mStart core o p 8 (p ++ tauAddrs o.a.toNat o.rows) 8 begin_
      else
        let t := panelAddrs o.b.toNat o.rows
        m.mStart core o (p ++ tauAddrs o.a.toNat o.rows ++ t) 8 t 8 begin_
  | _ => some (begin_ m)

/-- The chunk that lane r holds and the chunk that column j streams, for chunk number `kk`. -/
def Module.slotOperands (m : Module) (core : Nat) (o : MOp) (kk j : Nat) : List (List Nat) × List Nat × Flags :=
  let c := m.core core
  let md := o.mode
  let ks := (List.range md.chunk).map (fun i => kk * md.chunk + i)
  if Word.major o.word = 0x2A then
    let a := Word.ra o.word
    let b := Word.rb o.word
    ((List.range 32).map (fun r => ks.map (fun q => neg64 (c.tileBits a 2 r q))), ks.map (fun q => c.tileBits b 2 j q), fNone)
  else
    let bytes := md.fmt.width / 8
    let ch := c.chan (Word.ra o.word)
    let bs := ks.map (fun q => m.streamElem (o.key core) ch md.code (ch.addr (ch.kap + q) (ch.col + j)))
    ((List.range 32).map (fun r => ks.map (fun q => c.setElem bytes r q)), bs.map (fun x => x.1),
     bs.foldl (fun f x => f ||| x.2) fNone)

/-- Does a result in flight hold back a slot on a tile's column (06 R137)? Column 32 stands for a whole tile. -/
def Core.columnBusy (c : Core) (tile n col : Nat) : Bool :=
  c.inflight.any (fun f => decide (f.tile < tile + n) && decide (tile < f.tile + f.ntiles) && (f.col == col || f.col == 32 || col == 32))

/-- The slots in flight that entered before a zi = 1 no longer raise flags in the tile's status: in issue order theirs were cleared (06 R139,
R151). -/
def Core.dropFlags (c : Core) (tile : Nat) : Core :=
  { c with inflight := c.inflight.map (fun f => if f.tile = tile then { f with stat := false } else f) }

/-- Enter one slot of a started lane operation. A column cursor that passes 32 bits wraps (DESIGN CHOICE, log 78). -/
def Module.enterSlot (m : Module) (core : Nat) (o : MOp) : Module :=
  let c := m.core core
  let tile := Word.rd o.word
  let nt := o.laneTiles
  let s := o.slots
  let col := if o.slotted then s % o.n else 32
  if c.columnBusy tile nt col then m.countPart (o.key core) 5 1
  else
    let pass := s / (o.kc * o.n)
    let chunk := s % (o.kc * o.n) / o.n
    let zi := Word.major o.word == 0x21 && Word.slice o.word 1 1 == 1
    let ops := if o.slotted then m.slotOperands core o (o.k0 + chunk) col else ([], [], fNone)
    let res := ops.1.zipIdx.map (fun x =>
      slotElem o.mode pass (if zi && pass = 0 && chunk = 0 then 0 else c.tileBits tile nt x.2 col) x.1 ops.2.1)
    let fl := res.foldl (fun f x => f ||| x.2) ops.2.2
    let c1 : Core := if zi && s = 0 then (c.clearSticky tile).dropFlags tile else c
    let last := s + 1 == o.total
    let c2 : Core := if last && Word.major o.word == 0x21 && Word.slice o.word 0 0 == 1 then
        let ch := c1.chan (Word.ra o.word)
        c1.setChan (Word.ra o.word) { ch with col := (ch.col + o.n) % 2 ^ 32 }
      else c1
    let fly : Inflight := { op := o.id, tile := tile, ntiles := nt, col := col, vals := res.map (fun x => x.1), flags := fl, stat := true }
    let c3 : Core := { c2 with inflight := c2.inflight ++ [fly] }
    ((m.setCore core (c3.modOp o.id (fun o => { o with slots := o.slots + 1 }))).countPart (o.key core) 4 1).settleQueue core

/-- The lane path enters the next slot of the first lane operation that has slots left, when it may start (06 R130, R137,
R151). -/
def mmaSlot (core : Nat) (m : Module) : Module :=
  let m0 := m.settleQueue core
  let c := m0.core core
  match c.mq.find? (fun o => o.lane && !o.done && decide (o.slots < o.total)) with
  | none => m0
  | some o =>
    if o.blocked || !c.canStart o then m0
    else if o.started then m0.enterSlot core o
    else
      match m0.laneStart core o with
      | none => m0
      | some m1 =>
        match (m1.core core).mq.find? (fun x => x.id == o.id) with
        | some x => if x.started then m1.enterSlot core x else m1.settleQueue core
        | none => m1

def execMmaSlot (core : Fin 2048) (s : State) : Host.Outcome State Fault Refusal := s.go (mmaSlot core.val)

/-! ### Results of the Q class (09 R215, R216) -/

/-- The 32×32 FP64 values of a tile as rows. -/
def Core.tileRows (c : Core) (t n : Nat) : List (List Nat) :=
  (List.range 32).map (fun r => (List.range 32).map (fun col => c.tileBits t n r col))

def Core.putRows (c : Core) (t n : Nat) (rows : List (List Nat)) : Core :=
  tilePos.foldl (fun c p => c.tilePut t n p.1 p.2 (at2 rows p.1 p.2)) c

/-- Read a panel as 32 columns; a poisoned element is the NaN with nv. -/
def Module.readPanel (m : Module) (k a rows : Nat) : List (List Nat) × Flags :=
  let el (i : Nat) : Nat × Bool := m.mRead k (a + 8 * i) 8
  let cols := (List.range 32).map (fun j => (List.range rows).map (fun i => el (i * 32 + j)))
  (cols.map (fun c => c.map (fun x => if x.2 then fp64.nanBits else x.1)),
   flagIf (cols.any (fun c => c.any (fun x => x.2))) fNV)

def Module.writePanel (m : Module) (k a : Nat) (cols : List (List Nat)) : Module :=
  m.mWrite k (cols.zipIdx.flatMap (fun c => c.1.zipIdx.map (fun x => (a + 8 * (x.2 * 32 + c.2), 8, x.1))))

/-- The effect of a Q operation other than q.schur, when its result lands: flags and the count register. -/
def Module.qEffect (m : Module) (core : Nat) (o : MOp) : Module :=
  let c := m.core core
  let d := Word.rd o.word
  let k := o.key core
  let finish (m : Module) (tile : Option Nat) (cnt : Option Nat) (f : Flags) : Module :=
    let m1 := match tile with | some t => m.setCore core ((m.core core).orStat t f) | none => m
    let m2 := match cnt with
      | some n => m1.mDeliver core o [gotOf false (Word.slice o.word 5 0) 0 64 n none]
      | none => m1
    m2.modOp core o.id (fun o => { o with flags := o.flags ||| f })
  match Word.major o.word with
  | 0x28 =>
    let p := Word.minor o.word == 1
    let r := cholesky p (floorOf o.a.toNat) (c.tileRows d (if p then 4 else 2)) 32
    finish (m.setCore core ((c.tileZero d (if p then 4 else 2)).putRows d 2 r.1.1)) (some d) (some r.2) r.1.2
  | 0x29 =>
    let r := trsm (Word.minor o.word) (c.tileRows (Word.ra o.word) 2) (c.tileRows d 2) 32
    finish (m.setCore core (c.putRows d 2 r.1)) (some d) none r.2
  | _ =>
    let p := m.readPanel k o.a.toNat o.rows
    if Word.minor o.word = 0 then
      let r := hhPanel o.c.toNat p.1
      let m1 := m.writePanel k o.a.toNat r.cols
      let m2 := m1.mWrite k (r.tau.zipIdx.map (fun x => (o.a.toNat + o.rows * 256 + 8 * x.2, 8, x.1)))
      let tri := (List.range 32).map (fun i => (List.range 32).map (fun j =>
        if j < i then 0 else if j = i then r.diag.getD j 0 else at2 r.cols j i))
      finish (m2.setCore core ((m2.core core).putRows d 2 tri)) (some d) (some r.cnt) (p.2 ||| r.flags)
    else
      let tau := (tauAddrs o.a.toNat o.rows).map (fun a => (m.mRead k a 8).1)
      let t := m.readPanel k o.b.toNat o.rows
      let r := solveRows (hhApply p.1 tau) t.1
      finish (m.writePanel k o.b.toNat r.1) none none (p.2 ||| t.2 ||| r.2)

/-! ### Landing and retiring (06 R137, R152; 03 R72) -/

/-- The oldest slot result in flight lands in its tile. -/
def slotResultLand (core : Nat) (m : Module) : Module :=
  let c := m.core core
  match c.inflight with
  | [] => m
  | f :: rest =>
    let m1 := m.setCore core { c with inflight := rest }
    match c.mq.find? (fun o => o.id == f.op) with
    | none => m1
    | some o =>
      let m2 := if f.col = 32 then m1.qEffect core o
        else
          let c1 := f.vals.zipIdx.foldl (fun c x => c.tilePut f.tile f.ntiles x.2 f.col x.1) (m1.core core)
          m1.setCore core ((if f.stat then c1.orStat f.tile f.flags else c1).modOp o.id (fun o => { o with flags := o.flags ||| f.flags }))
      let m3 := m2.modOp core o.id (fun o => { o with landed := o.landed + 1, done := o.landed + 1 == o.total })
      m3.settleQueue core

def execSlotResultLand (core : Fin 2048) (s : State) : Host.Outcome State Fault Refusal := s.go (slotResultLand core.val)

/-- The first completed operation of the queue retires: its flags reach the FSR of the thread that issued it, whose context makes progress
(06 R152, 16 R399, R400). -/
def mOpRetire (core : Nat) (m : Module) : Module :=
  let m0 := m.settleQueue core
  let c := m0.core core
  match c.mq.find? (fun o => o.done) with
  | none => m0
  | some o =>
    let k := o.key core
    let m1 := m0.setCore core { c with mq := c.mq.filter (fun x => x.id != o.id), clockOn := true }
    ((m1.setTh k { (m1.th k).orFlags o.flags with retiredAt := m.pilot }).countPart k 3 1).progress (m1.th k).ctx

def execMOpRetire (core : Fin 2048) (s : State) : Host.Outcome State Fault Refusal := s.go (mOpRetire core.val)

/-- Resume of a thread retries the translation of its blocked operations (06 R154). -/
def Module.mRetry (m : Module) (k : Nat) : Module :=
  let core := k / 8
  let c := m.core core
  (m.setCore core { c with mq := c.mq.map (fun o => if o.thread = keyThread k then { o with blocked := false } else o) }).settleQueue
    core

end Sys2Proof.Machine
end

