-- ==== Sys2Proof/Machine/Requests.lean ====
section
/-! DEFINITION. The transfer rows, the request and response rows, and SNUFF and QUIET (15 R381-R398). -/

namespace Sys2Proof.Machine

/-! ### Transfers (15 R381, R382, R384, R393) -/

def execXXfer (th : ThreadId) (w : Word) (s : State) : Host.Outcome State Fault Refusal :=
  s.inst .xXfer th w (fun m k => m.afterDrain k (fun m => m.whenOpen (fun m =>
    let t := m.th k
    let r := m.xferSubmit t.ctx (t.getS (Word.ra w)).toNat
    r.1.retireS k (Word.rd w) (BitVec.ofNat 64 r.2))))

/-- An abort attempts ABORTED on the first accepted transfer with the completion address: the code when it ends at once, or none when it
waits for open requests (R393). -/
def Module.abort (m : Module) (ctx completion : Nat) : Module × Option Nat :=
  match m.transfers.find? (fun t => t.ctx == ctx && t.completion == completion) with
  | none => (m, some 2)
  | some t =>
    if t.state = 0 then (m.dropXfer t.id, some 1)
    else if t.openTags.isEmpty then
      let m1 := m.dropXfer t.id
      (if m1.dstHere t then m1.freeRange ctx (t.dst % 2 ^ 48) t.length else m1, some (if t.timedOut then 8 else 1))
    else (m.modXfer t.id (fun x => { x with state := 2 }), none)

def execXAbort (th : ThreadId) (w : Word) (s : State) : Host.Outcome State Fault Refusal :=
  s.inst .xAbort th w (fun m k =>
    let t := m.th k
    let a := (t.getS (Word.ra w)).toNat
    let r := m.abort t.ctx a
    match r.2 with
    | some code => r.1.retireS k (Word.rd w) (BitVec.ofNat 64 code)
    | none => r.1.setTh k { r.1.th k with run := .waitAbort a (Word.rd w) })

/-- The next transfer of a queue starts when every earlier one has ended (R382); `window` is how many requests it keeps
outstanding. -/
def transferStart (ctx queue window : Nat) (m : Module) : Module :=
  match m.transfers.find? (fun t => t.ctx == ctx && t.queue == queue) with
  | none => m
  | some t =>
    if t.state != 0 || m.recordWaits ctx queue then m
    else (m.modXfer t.id (fun x => { x with state := 1, window := max 1 window })).xferGo t.id

def execTransferStart (ctx : Fin 64) (queue : Fin 16) (window : Nat) (s : State) : Host.Outcome State Fault Refusal :=
  s.go (transferStart ctx.val queue.val window)

/-- The requests of a local transfer are performed, in an order that is open, but for those that meet a held channel: these are performed
when the command is given again. With the last of them the transfer completes. -/
def localTransferPerformed (id : Nat) (m : Module) : Module :=
  match m.xfer id with
  | none => m
  | some t =>
    if t.state != 1 || !m.isLocal t then m
    else
      let todo := if t.next < t.nreq then List.range t.nreq else t.openTags.map (fun e => e.2)
      let m1 := m.modXfer id (fun x => { x with next := x.nreq, openTags := todo.map (fun i => (0, i)) })
      let r := m1.drawOrder todo todo.length
      (r.1.each r.2 (fun m i => m.localReq id i)).xferCheck id

def execLocalTransferPerformed (xfer : Nat) (s : State) : Host.Outcome State Fault Refusal := s.go (localTransferPerformed xfer)

/-! ### Packets delivered to this module (15 R389) -/

/-- The oldest delivered packet of an op that no earlier packet of its source and channel precedes, and the rest. -/
def takePacket (op : Nat) : List (Nat × Packet) → List (Nat × Packet) → Option ((Nat × Packet) × List (Nat × Packet))
  | _, [] => none
  | before, x :: t =>
    if x.2.op.toNat == op && !before.any (fun y => y.1 == x.1 && y.2.src == x.2.src) then some (x, before ++ t)
    else takePacket op (before ++ [x]) t

def Module.takeOp (m : Module) (op : Nat) : Option (Nat × Packet × Module) :=
  (takePacket op [] m.fab.inbox).map (fun r => (r.1.1, r.1.2, m.setFab { m.fab with inbox := r.2 }))

/-- Serve a request: without a context of the job it is a violation that answers DONE (02 R41), a context that is not live answers
CTX_DEAD (15 R396); `zero` is the data that a violation reads. A request that waits for a held channel stays delivered. -/
def Module.serve (m : Module) (op : Nat) (zero : Packet → List Byte) (f : Module → Who → Packet → Dest) : Module :=
  match m.takeOp op with
  | none => m
  | some (vc, p, m1) =>
    match m1.jobCtx p.job.toNat with
    | none => (m1.remoteViol p.src.toNat p.job.toNat).respond vc p (respOp op) sDone (zero p)
    | some ctx =>
      let m2 := m1.touchDev ctx p.src.toNat
      if !m2.ctxLive ctx then m2.respond vc p (respOp op) sCtxDead []
      else
        let r := f m2 { ctx := ctx, master := 8, lc := false } p
        if r.wait then m
        else
          let m3 := if r.viol then r.m.remoteViol p.src.toNat p.job.toNat else r.m
          m3.respond vc p (respOp op) r.status r.data

def execRead (s : State) : Host.Outcome State Fault Refusal :=
  s.go (fun m => m.serve 1 (fun p => leBytes p.len.toNat 0) (fun m w p => m.destRead w p.addr.toNat p.len.toNat))

def execWrite (s : State) : Host.Outcome State Fault Refusal :=
  s.go (fun m => m.serve 2 (fun _ => []) (fun m w p => m.destWrite w p.addr.toNat p.data))

/-- The operands of an ATOMIC or REDUCE packet: b, then c. -/
def amoArg (p : Packet) (i : Nat) : Nat :=
  let n := atomicBytes p.awidth.toNat
  leVal ((p.data.drop (i * n)).take n)

def execAtomic (s : State) : Host.Outcome State Fault Refusal :=
  s.go (fun m => m.serve 3 (fun p => leBytes (atomicBytes p.awidth.toNat) 0) (fun m w p =>
    m.destAtomic w p.addr.toNat p.aop.toNat p.awidth.toNat (amoArg p 0) (amoArg p 1) true))

def execReduce (s : State) : Host.Outcome State Fault Refusal :=
  s.go (fun m => m.serve 4 (fun _ => []) (fun m w p =>
    m.destAtomic w p.addr.toNat p.aop.toNat p.awidth.toNat (amoArg p 0) 0 false))

/-! ### Responses and timeouts (15 R391, R392) -/

/-- A response ends the request that carries its tag; a late response is discarded. -/
def Module.response (m : Module) (op : Nat) : Module :=
  match m.takeOp op with
  | none => m
  | some (_, p, m1) =>
    match m1.fab.reqs.find? (fun r => r.tag == p.tag.toNat && r.dev == p.src.toNat && respOp r.op == op) with
    | none => m1
    | some r =>
      if p.status.toNat = sDone && m1.respHeld r then m
      else (m1.finishReq r p.status.toNat p.data).tearPoke

def execReadResp (s : State) : Host.Outcome State Fault Refusal := s.go (fun m => m.response 0x11)
def execWriteAck (s : State) : Host.Outcome State Fault Refusal := s.go (fun m => m.response 0x12)
def execAtomicResp (s : State) : Host.Outcome State Fault Refusal := s.go (fun m => m.response 0x13)
def execReduceAck (s : State) : Host.Outcome State Fault Refusal := s.go (fun m => m.response 0x14)

/-- A request times out 50,000,000 ticks after it was sent. -/
def requestTimeout (tag : Nat) (m : Module) : Module :=
  match m.fab.reqs.find? (fun r => r.tag == tag) with
  | none => m
  | some r => ((m.toTick (r.sentAt + 50000000)).finishReq r sTimedOut []).tearPoke

def execRequestTimeout (tag : BitVec 32) (s : State) : Host.Outcome State Fault Refusal := s.go (requestTimeout tag.toNat)

/-! ### SNUFF and QUIET (15 R397, R398; 17 R427) -/

/-- SNUFF: new requests of the job toward the sender end CTX_DEAD, its Blanket slots are freed, and QUIET follows when no request of
the job toward it is open. -/
def snuff (m : Module) : Module :=
  match m.takeOp 0x20 with
  | none => m
  | some (_, p, m1) =>
    let job := p.job.toNat
    let src := p.src.toNat
    let m2 := m1.freeBlanket src job
    let f := m2.fab
    let m3 := if (m2.jobCtx job).isNone || f.snuffed.contains (job, src) then m2
      else m2.setFab { f with snuffed := f.snuffed ++ [(job, src)] }
    (m3.setFab { m3.fab with quietDue := m3.fab.quietDue ++ [(job, src)] }).sendQuiets

def execSnuff (s : State) : Host.Outcome State Fault Refusal := s.go snuff

/-- QUIET: a touched device of a dying context answers. -/
def quiet (m : Module) : Module :=
  match m.takeOp 0x21 with
  | none => m
  | some (_, p, m1) =>
    match m1.jobCtx p.job.toNat with
    | none => m1
    | some n =>
      match (m1.ctx n).teardown with
      | none => m1
      | some t =>
        let d := p.src.toNat
        if !t.asked.contains d || t.quiet.contains d then m1
        else (m1.setCtx n { m1.ctx n with teardown := some { t with quiet := t.quiet ++ [d] } }).tearCheck n

def execQuiet (s : State) : Host.Outcome State Fault Refusal := s.go quiet

end Sys2Proof.Machine
end

