-- ==== Sys2Proof/Machine/HostIf.lean ====
section
/-! DEFINITION. The host interface (22): resets, MSI-X masks, host queues and their commands, fault rings, the BAR2 window, and reads of
host memory that fail. -/

namespace Sys2Proof.Machine

/-! ### Resets (R532-R534) -/

/-- Is a register kept when the host interface returns to its power-up values: HIF_ID, HIF_LINK, a dying context's HIF_CTXSTAT, and
every register of another block? -/
def Module.hifKept (m : Module) (off : Nat) : Bool :=
  decide (off < 0x10) || decide (0x100000 ≤ off) ||
  (decide (0x10000 ≤ off) && off % 0x1000 == 0 && m.ctxState ((off - 0x10000) / 0x1000) == 2)

/-- Configuration space, MSI-X tables and HIF registers at their power-up values. -/
def Module.hifReset (m : Module) : Module :=
  { m with fields := SMap.keep m.fields (fun k => m.hifKept (k / 64)),
           hif := { msix := [], pba := [], msixEn := [], fnMask := [], vfEn := false, numVfs := 0, running := [] } }

/-- Every context is torn down by the Snuffer sequence and no record is written. -/
def Module.tearAll (m : Module) : Module :=
  let m1 := { m with hif := { m.hif with running := [] } }
  let m2 := m1.each (List.range 64) (fun m n =>
    match (m.ctx n).teardown with
    | none => m
    | some t => m.setCtx n { m.ctx n with teardown := some { t with queue := none } })
  m2.each (List.range 64) (fun m n => m.tearStart n none)

/-- PERST_N asserted, a Hot Reset or DL_Down. -/
def conventionalReset (kind : ResetKind) (m : Module) : Module :=
  if kind = .perst && m.pwr.perst || (kind != .perst && !m.linkUp) then m
  else
    let m0 := if kind = .perst then { m with pwr := { m.pwr with perst := true } } else m
    if !m0.pwr.mainGood then m0
    else
      let m1 := (m0.linkDown.tearAll.hifReset).addF Reg.HIF_LINK.resets 1
      match kind with
      | .perst => m1
      | .hot => m1.linkTrain
      | .dlDown => (m1.addF Reg.HIF_LINK.sdown 1).linkTrain

def execConventionalReset (kind : ResetKind) (s : State) : Host.Outcome State Fault Refusal := s.go (conventionalReset kind)

/-- PERST_N deasserted: WAKE_N is released, W4 is left with code 2, and otherwise the link trains. -/
def perstDeassert (m : Module) : Module :=
  if !m.pwr.perst then m
  else
    let m1 := { m with pwr := { m.pwr with perst := false, wakeN := false } }
    if !m1.pwr.mainGood then m1
    else
      let m2 := m1.wake 2 0
      if m2.getF Reg.PWR_STATE.state = 4 || m2.getF Reg.HIF_LINK.state != 0 then m2 else m2.linkTrain

def execPerstDeassert (s : State) : Host.Outcome State Fault Refusal := s.go perstDeassert

/-- The registers of context n's page return to their power-up values, but for those that `keep` names by their offset in the page. -/
def Module.pageReset (m : Module) (n : Nat) (keep : Nat → Bool) : Module :=
  let lo := 0x10000 + 0x1000 * n
  { m with fields := SMap.keep m.fields (fun k => decide (k / 64 < lo) || decide (lo + 0x1000 ≤ k / 64) || keep (k / 64 - lo)) }

/-- A function's MSI-X table, pending bits, enable and mask return to their power-up values. -/
def Module.msixReset (m : Module) (fn : Nat) : Module :=
  { m with hif := { m.hif with msix := SMap.keep m.hif.msix (fun k => k / 2048 != fn), pba := SMap.keep m.hif.pba (fun k => k / 2048 != fn),
                               msixEn := SMap.set false m.hif.msixEn fn false, fnMask := SMap.set false m.hif.fnMask fn false } }

/-- An FLR of virtual function n. -/
def vfFlr (n : Nat) (m : Module) : Module :=
  if !m.linkUp || !m.vfOn n || !m.pwr.mainGood then m
  else
    let m1 := m.each (List.range 4) (fun m q => { m with hif := { m.hif with running := SMap.set [] m.hif.running (hqKey n q) [] } })
    let m2 := m1.tearStart n none
    (m2.pageReset n (fun off => off == 0 && m2.ctxState n == 2)).msixReset n

/-- `n` counts the virtual functions from 0. -/
def execVfFlr (n : Fin 63) (s : State) : Host.Outcome State Fault Refusal := s.go (vfFlr (n.val + 1))

/-- An FLR of the physical function: a conventional reset with the link up. -/
def pfFlr (m : Module) : Module := if !m.linkUp || !m.pwr.mainGood then m else m.tearAll.hifReset

def execPfFlr (s : State) : Host.Outcome State Fault Refusal := s.go pfFlr

/-! ### MSI-X (R529) -/

/-- The pending messages of a function that nothing masks any more are sent. -/
def Module.msixFlush (m : Module) (fn : Nat) : Module :=
  if !SMap.get false m.hif.msixEn fn || SMap.get false m.hif.fnMask fn || m.recovery then m
  else
    let due := m.hif.pba.filter (fun e => e.1 / 2048 == fn && !(SMap.get MsixEntry.empty m.hif.msix e.1).masked)
    m.each due (fun m e =>
      let x := SMap.get MsixEntry.empty m.hif.msix e.1
      { m with hif := { m.hif with pba := SMap.set false m.hif.pba e.1 false } }.emit (.msix fn (e.1 % 2048) x.addr x.data))

/-- A function of the host as a requester. -/
def fnReq (fn : Fin 64) : Requester :=
  if h : fn.val = 0 then .pf else .vf ⟨fn.val - 1, by omega⟩

/-- Write an entry of a function's table. -/
def Module.setMsix (m : Module) (fn i : Nat) (e : MsixEntry) : Module :=
  { m with hif := { m.hif with msix := SMap.set MsixEntry.empty m.hif.msix (fn * 2048 + i) e } }

/-- The host clears a mask: an entry's by a BAR0 write, the function's by a configuration write. -/
def msixUnmask (mask : MsixMask) (m : Module) : Module :=
  match mask with
  | .entry fn i =>
    if !m.reaches (fnReq fn) || m.recovery then m
    else
      let m1 := m.barAccess fn.val
      let e := SMap.get MsixEntry.empty m1.hif.msix (fn.val * 2048 + i.val)
      (m1.setMsix fn.val i.val { e with masked := false }).msixFlush fn.val
  | .function fn =>
    if !m.reaches (fnReq fn) then m
    else { m with hif := { m.hif with fnMask := SMap.set false m.hif.fnMask fn.val false } }.msixFlush fn.val

def execMsixUnmask (mask : MsixMask) (s : State) : Host.Outcome State Fault Refusal := s.go (msixUnmask mask)

/-! ### Context pages: doorbells, ring bases, fault rings (R514, R519, R520, R523, R528) -/

/-- May a requester reach context n's page: a virtual function only its own (R514)? -/
def mayPage (r : Requester) (n : Nat) : Bool :=
  match r with
  | .vf k => n == k.val + 1
  | _ => true

/-- The BAR0 offset at which a requester sees a register of context n's page: a virtual function has its own page at 0x1_0000. -/
def pageOffset (r : Requester) (n off : Nat) : Nat := 0x10000 + off + (if mayPage r n && r != .pf && r != .lamplighter then 0 else 0x1000 * n)

/-- A violation of a doorbell or a host command of context n's queue, with HIF_VLOG unit 5. -/
def Module.hqViolation (m : Module) (r : Requester) (n addr : Nat) : Module :=
  match r with
  | .lamplighter => m.accessViolation r 5 addr
  | _ => (m.violate n 5 addr).count pmcHost 4 1 { Ev.none with ctx := some n, master := some 6 }

/-- A write of t to HIF_HQTAILq. -/
def hqDoorbell (r : Requester) (n q t : Nat) (m : Module) : Module :=
  let off := pageOffset r n (0x110 + 0x20 * q)
  let head := m.hqHead n q
  let tail := m.getF (Reg.HIF_HQTAIL.tail n q)
  if !mayPage r n then m.accessViolation r 3 off
  else if m.bit (Reg.HIF_HQSTAT.err n q) then m
  else if !m.hqOn n q || decide (m.hqN n q < (t + 2 ^ 32 - head) % 2 ^ 32) || decide (2 ^ 31 ≤ (t + 2 ^ 32 - tail) % 2 ^ 32) then
    m.hqViolation r n off
  else m.setF (Reg.HIF_HQTAIL.tail n q) t

def execHqDoorbell (r : Requester) (ctx : Fin 64) (queue : Fin 4) (t : BitVec 32) (s : State) : Host.Outcome State Fault Refusal :=
  s.goBy r (hqDoorbell r ctx.val queue.val t.toNat)

/-- A write of HIF_HQBASEq: ignored while a command runs, else head and tail are 0 and err is clear. -/
def hqBaseWrite (r : Requester) (n q v : Nat) (m : Module) : Module :=
  if !mayPage r n then m.accessViolation r 3 (pageOffset r n (0x100 + 0x20 * q))
  else if m.bit (Reg.HIF_HQSTAT.busy n q) then m
  else
    let m1 := (m.setF (Reg.HIF_HQBASE.base n q) (v / 4096)).setF (Reg.HIF_HQBASE.k n q) v
    ((m1.setF (Reg.HIF_HQSTAT.head n q) 0).setF (Reg.HIF_HQTAIL.tail n q) 0).setF (Reg.HIF_HQSTAT.err n q) 0

def execHqBaseWrite (r : Requester) (ctx : Fin 64) (queue : Fin 4) (v : Word) (s : State) : Host.Outcome State Fault Refusal :=
  s.goBy r (hqBaseWrite r ctx.val queue.val v.toNat)

/-- A write of HIF_FPTR.tail frees entries of the fault ring. -/
def faultRingTailWrite (r : Requester) (n v : Nat) (m : Module) : Module :=
  if !mayPage r n then m.accessViolation r 3 (pageOffset r n 0x10)
  else
    let m1 := m.setF (Reg.HIF_FPTR.tail n) v
    m1.drainRecords n (m1.ctx n).waitRecs.length

def execFaultRingTailWrite (r : Requester) (ctx : Fin 64) (v : BitVec 32) (s : State) : Host.Outcome State Fault Refusal :=
  s.goBy r (faultRingTailWrite r ctx.val v.toNat)

/-! ### Host commands: reading an entry, and what refuses it (R519-R527) -/

/-- The entry that a queue's next command has: the one that it runs and that waits, or the one at its head. A queue whose context is
dying accepts nothing further (15 R396), and nothing is read while the link is down. -/
def Module.hqNext (m : Module) (n q : Nat) : Option (List Word) :=
  let e := m.hqEntry n q
  if !e.isEmpty then (if entryOp e = 0x02 || entryOp e = 0x0A then none else some e)
  else if m.bit (Reg.HIF_HQSTAT.err n q) || !m.hqOn n q || m.hqHead n q == m.getF (Reg.HIF_HQTAIL.tail n q) || !m.linkUp ||
      !m.pwr.mainGood || (m.ctxState n == 2 && !m.oos) then none
  else
    let a := m.getF (Reg.HIF_HQBASE.base n q) * 4096 + m.hqHead n q % m.hqN n q * 64
    some ((List.range 8).map (fun i => BitVec.ofNat 64 (m.readPlace (.host (a + 8 * i)) 8)))

/-- Are words i to 7 zero? -/
def entryZero (e : List Word) (i : Nat) : Bool := (e.drop i).all (fun w => w == 0)

/-- Is an entry well formed: a known op, reserved and unused bits zero, operands in range (Table 22-4, R527)? -/
def Module.entryOk (m : Module) (e : List Word) : Bool :=
  let w := entryWord e
  let pages := w 1 % 2 ^ 21 == 0 && decide (w 1 < 2 ^ 48) && decide (w 2 < 2 ^ 32)
  w 0 % 2 ^ 49 == 0 &&
  (match entryOp e with
   | 0 => entryZero e 1
   | 1 => pages && (w 1 == 0 || decide (w 1 + 2 ^ 21 ≤ m.spreadBytes)) && w 4 / 2 ^ 4 % 2 ^ 8 == 0 && entryZero e 5
   | 2 => entryZero e 1
   | 3 => pages && entryZero e 3
   | 4 => decide (w 1 < 2 ^ 14) && entryZero e 2
   | op => decide (op ≤ 0x0A) && entryZero e 2)

/-- Is context 0 idle, but for the command of queue (n, q)? -/
def Module.idle0 (m : Module) (n q : Nat) : Bool :=
  !(m.threads.any (fun t => t.2.run != .free && t.2.ctx == 0) || m.grids.any (fun g => g.ctx == 0) ||
    (List.range 128).any (fun g => m.getF (Reg.SQ_LOWN.state g) != 0 && m.getF (Reg.SQ_LOWN.owner g) == 0) ||
    m.transfers.any (fun t => t.ctx == 0) || m.sq.subs.any (fun x => x.ctx == 0) || m.cp.colls.any (fun c => c.ctx == 0) ||
    m.hmp.posted.any (fun h => h.ctx == 0) || m.hmp.queue.any (fun h => h.ctx == 0) || m.hmp.upd.any (fun u => u.ctx == 0) ||
    m.hmp.flq.any (fun f => f.ctx == 0) || m.hmp.copies.any (fun c => c.ctx == 0) ||
    m.hif.running.any (fun r => r.1 != hqKey n q && entryTarget r.2 == 0))

/-- The refusal detail of a command (Table 22-5), tested in ascending code; 0 when nothing refuses it. -/
def Module.refusal (m : Module) (n q : Nat) (e : List Word) : Nat :=
  let op := entryOp e
  let t := entryTarget e
  if !m.entryOk e then 1
  else if (n != 0 && (t != n || op == 1 || op == 2)) || (op == 2 && t == 0) then 2
  else if op != 1 then (if m.ctxState t = 0 then 3 else 0)
  else if (if t = 0 then m.ctxState 0 != 1 || !m.idle0 n q else m.ctxState t != 0) then 4
  else if (List.range 64).any (fun c => c != t && m.ctxState c != 0 && m.jobOf c == entryWord e 2) then 5
  else if m.bit Reg.MEM_CTRL.maint then 6
  else if !m.vfOn t then 7
  else 0

/-- The row that an entry belongs to: an unknown op belongs to NOP's. -/
def entryRow (e : List Word) : Nat := if entryOp e ≤ 0x0A then entryOp e else 0

/-- The record kind of a command. -/
def entryKind (e : List Word) : Nat := if entryOp e = 0x02 then 8 else 9

/-- Start the command of a queue: it runs with this entry. -/
def Module.hqStart (m : Module) (n q : Nat) (e : List Word) : Module :=
  ({ m with hif := { m.hif with running := SMap.set [] m.hif.running (hqKey n q) e } }).setF (Reg.HIF_HQSTAT.busy n q) 1

/-- Count the read of a queue's next entry, 64 bytes of host memory (20 Table 20-2). A command that waits has been read. -/
def Module.countEntry (m : Module) (n q : Nat) : Module :=
  if (m.hqEntry n q).isEmpty then
    m.touch { ctx := n, master := 6, lc := false } (.host (m.getF (Reg.HIF_HQBASE.base n q) * 4096 + m.hqHead n q % m.hqN n q * 64)) 64 false
  else m

/-- The next command of a queue, when it has op `op`: decided in the order of R526, and then run by `body`, which gets the target and the
entry; while `waits` holds it stays busy. -/
def Module.hostCommand (m : Module) (n q op : Nat) (waits : Module → Nat → Bool) (body : Module → Nat → List Word → Module) : Module :=
  match m.hqNext n q with
  | none => m
  | some e =>
    if entryRow e != op then m
    else
      let t := entryTarget e
      let m1 := (m.countEntry n q).hqStart n q e
      if m1.oos then m1.hostDone n q sCtxDead (entryKind e) 0
      else
        let d := m1.refusal n q e
        if d != 0 then (m1.hqViolation .pf n (0x10110 + 0x20 * q)).hostDone n q sViolation (entryKind e) d
        else if op != 1 && m1.ctxState t == 2 then m1.hostDone n q sCtxDead (entryKind e) 0
        else if waits m1 t then m1
        else body m1 t e

def noWait (_ : Module) (_ : Nat) : Bool := false

/-- A command that submits as a thread of its target would: its record's count is the submission's code. Its descriptor reads wait for a
held channel (12 R293). -/
def Module.hostSubmit (m : Module) (n q op : Nat) (waits : Module → Nat → Bool) (f : Module → Nat → Nat → Module × Nat) : Module :=
  m.whenOpen (fun m => m.hostCommand n q op waits (fun m t e =>
    let r := f m t (entryWord e 1)
    r.1.hostDone n q sDone 9 r.2))

def execNopCommand (ctx : Fin 64) (queue : Fin 4) (s : State) : Host.Outcome State Fault Refusal :=
  s.go (fun m => m.hostCommand ctx.val queue.val 0 noWait (fun m _ _ => m.hostDone ctx.val queue.val sDone 9 0))

/-! ### Contexts (R527; 15 R396; 02 R38, R52) -/

/-- Context t becomes a new one with the parameters of an entry; its job begins at epoch 0 (14 R364). -/
def Module.ctxCreate (m : Module) (t : Nat) (e : List Word) : Module :=
  let m1 := m.pageReset t (fun off => t == 0 && decide (0x100 ≤ off))
  let m2 := ((m1.setF (Reg.HIF_CTXSTAT.state t) 1).setF (Reg.HIF_CTXSTAT.job t) (entryWord e 2))
  let m3 := (m2.setF (Reg.HIF_FRING.base t) (entryWord e 4 / 4096)).setF (Reg.HIF_FRING.size t) (entryWord e 4)
  let m4 := m3.setCtx t { Context.empty with gen := (m3.ctx t).gen + 1, root := entryWord e 1, seed := e.getD 3 0, wdSince := m3.pilot }
  let m5 := m4.setF (Reg.LMP_WDOG.state t) (if m4.getF (Reg.LMP_WDOG.period t) = 0 then 0 else 1)
  { m5 with fab := { m5.fab with snuffed := m5.fab.snuffed.filter (fun x => x.1 != entryWord e 2) },
            cp := { m5.cp with seqs := m5.cp.seqs.filter (fun x => x.1 != t), layouts := SMap.set none m5.cp.layouts t none } }.setF
    (Reg.FAB_CP_EP.epoch t) 0

def execCtxCreate (ctx : Fin 64) (queue : Fin 4) (s : State) : Host.Outcome State Fault Refusal :=
  s.go (fun m => m.hostCommand ctx.val queue.val 1 noWait (fun m t e => (m.ctxCreate t e).hostDone ctx.val queue.val sDone 9 0))

/-- The record is written when the teardown is complete. -/
def execCtxTeardown (ctx : Fin 64) (queue : Fin 4) (s : State) : Host.Outcome State Fault Refusal :=
  s.go (fun m => m.hostCommand ctx.val queue.val 2 noWait (fun m t _ => m.tearStart t (some (ctx.val, queue.val))))

/-- Does the thread hold an x.wait, whose later reads use the translation of its first (15 R379)? -/
def Thread.waitsAt (t : Thread) : Bool :=
  match t.run with
  | .waitWord _ (some _) _ _ _ _ _ => true
  | _ => false

/-- Does a context have an access that used a translation and has not completed: one that waits for a held channel, an x.wait, or a matrix
operation that has begun? -/
def Module.xlatInUse (m : Module) (t : Nat) : Bool :=
  m.ms.waiting.any (fun w => w.ctx == t) || m.threads.any (fun x => x.2.ctx == t && x.2.waitsAt) ||
  m.cores.any (fun c => c.2.last.any (fun l => l.1 == t) && c.2.mq.any (fun o => o.started && !o.done))

/-- The cores that hold a context's translations drop those of a range of 2 MiB pages, or all. -/
def Module.invalidate (m : Module) (t first len : Nat) : Module :=
  { m with cores := SMap.mapAll Core.empty m.cores (fun _ c =>
      if c.last.any (fun l => l.1 == t) then
        { c with tlb := SMap.keep c.tlb (fun k => !(len == 0 || (decide (first ≤ k) && decide (k < first + len)))) }
      else c) }

def execInvalidate (ctx : Fin 64) (queue : Fin 4) (s : State) : Host.Outcome State Fault Refusal :=
  s.go (fun m => m.hostCommand ctx.val queue.val 3 Module.xlatInUse (fun m t e =>
    (m.invalidate t (entryWord e 1 / 2 ^ 21) (entryWord e 2)).hostDone ctx.val queue.val sDone 9 0))

/-- Resume a stopped thread: it runs again at its instruction from VIDX, and its waiting matrix operations retry (02 R52, 06 R154). In W1-W4
the command is a wake event, and reaches its core in W0 (18 R443, R449). -/
def Module.resumeThread (m : Module) (k : Nat) : Module :=
  let t := m.th k
  let m1 := (m.setTh k { t with run := .running }).wake 5 t.ctx
  (m1.setCore (k / 8) { m1.core (k / 8) with clockOn := true }).mRetry k

def execResume (ctx : Fin 64) (queue : Fin 4) (s : State) : Host.Outcome State Fault Refusal :=
  s.go (fun m => m.hostCommand ctx.val queue.val 4 noWait (fun m t e =>
    let k := entryWord e 1
    if (m.th k).run = .stopped && (m.th k).ctx == t then
      if keyKind k == 0 && m.getF Reg.PWR_STATE.state != 0 then m.wake 5 t else (m.resumeThread k).hostDone ctx.val queue.val sDone 9 1
    else m.hostDone ctx.val queue.val sDone 9 0))

/-! ### Submissions by the host (R525) -/

def execLaunch (ctx : Fin 64) (queue : Fin 4) (s : State) : Host.Outcome State Fault Refusal :=
  s.go (fun m => m.hostSubmit ctx.val queue.val 5 noWait Module.launchGrid)

/-- Submissions to the sequencer and to the collective processors are held during W3 and W4 (18 R447). -/
def heldWait (m : Module) (_ : Nat) : Bool := m.subHeld

def execSolve (ctx : Fin 64) (queue : Fin 4) (s : State) : Host.Outcome State Fault Refusal :=
  s.go (fun m => m.hostSubmit ctx.val queue.val 6 heldWait Module.sqSubmit)

def execAdjoint (ctx : Fin 64) (queue : Fin 4) (s : State) : Host.Outcome State Fault Refusal :=
  s.go (fun m => m.hostSubmit ctx.val queue.val 7 heldWait Module.adjSubmit)

def execCollective (ctx : Fin 64) (queue : Fin 4) (s : State) : Host.Outcome State Fault Refusal :=
  s.go (fun m => m.hostSubmit ctx.val queue.val 8 heldWait Module.collSubmit)

def execXfer (ctx : Fin 64) (queue : Fin 4) (s : State) : Host.Outcome State Fault Refusal :=
  s.go (fun m => m.hostSubmit ctx.val queue.val 9 noWait Module.xferSubmit)

/-- The record waits until the transfer's open requests have ended (15 R393). -/
def execAbort (ctx : Fin 64) (queue : Fin 4) (s : State) : Host.Outcome State Fault Refusal :=
  s.go (fun m => m.hostCommand ctx.val queue.val 0x0A noWait (fun m t e =>
    let r := m.abort t (entryWord e 1)
    match r.2 with
    | some code => r.1.hostDone ctx.val queue.val sDone 9 code
    | none => r.1))

/-! ### BAR2 (R515-R517) -/

/-- Translate a BAR2 TLP; a page of target 0b10 denies it. -/
def Module.bar2Xlat (m : Module) (fn va len : Nat) (acc : Access) : List ((Nat × Nat) × Xlat) :=
  (m.xlatRange fn va len acc).map (fun x => match x.2 with | .ok (.host _) _ => (x.1, .viol) | _ => x)

/-- Can a TLP reach function `fn`? -/
def Module.bar2Up (m : Module) (fn : Nat) : Bool := m.pwr.mainGood && m.linkUp && m.vfOn fn

def Module.bar2Va (m : Module) (fn off : Nat) : Nat := m.getF (Reg.HIF_B2BASE.base fn) * 2 ^ 30 + off

/-- A BAR2 access that fails outright. -/
def Module.b2Fail (m : Module) (fn va : Nat) : Module := (m.addF (Reg.HIF_B2ERR.count fn) 1).setF (Reg.HIF_B2ERR.va fn) va

/-- One violation for a TLP that met a page that denies it. -/
def Module.bar2Viol (m : Module) (fn va : Nat) (viol : Bool) : Module :=
  if viol then (m.violate fn 4 va).count pmcHost 4 1 { Ev.none with ctx := some fn, master := some 6 } else m

def bar2Who (fn : Nat) : Who := { ctx := fn, master := 6, lc := false }

/-- The bytes of the pieces; a poisoned sector's are not stated and are free. -/
def Module.bar2Bytes (m : Module) (l : List ((Nat × Nat) × Xlat)) : Module × List Byte :=
  l.foldl (fun (r : Module × List Byte) x =>
    match x.2 with
    | .ok p _ =>
      if r.1.badPlace p x.1.2 then
        let f := r.1.freeWord
        (f.1, r.2 ++ leBytes x.1.2 f.2.toNat)
      else (r.1, r.2 ++ leBytes x.1.2 (r.1.readPlace p x.1.2))
    | _ => (r.1, r.2 ++ leBytes x.1.2 0)) (m, [])

/-- A read of `len` bytes, 1 to 4,096 within the window; one that waits for a held channel is performed later. -/
def bar2Read (fn off len : Nat) (m : Module) : Module :=
  if !m.bar2Up fn || len == 0 || decide (4096 < len) || decide (2 ^ 36 < off + len) then m
  else
    let m1 := m.barAccess fn
    let va := m1.bar2Va fn off
    let l := m1.bar2Xlat fn va len .load
    if !m1.ctxLive fn || decide (2 ^ 48 < va + len) || !(faultsOf l).isEmpty then
      (m1.b2Fail fn va).emit (.readData (2 ^ (8 * len) - 1))
    else if m1.rangeHeld fn va len .load then m
    else
      let m2 := ((m1.askWalks (bar2Who fn) va len).touchRange (bar2Who fn) l).bar2Viol fn va (violsIn l)
      let r := m2.bar2Bytes l
      r.1.emit (.readData (leVal r.2))

def execBar2Read (fn : Fin 64) (off : BitVec 36) (len : BitVec 13) (s : State) : Host.Outcome State Fault Refusal :=
  s.go (bar2Read fn.val off.toNat len.toNat)

/-- A write of 1 to 512 bytes. -/
def bar2Write (fn off : Nat) (data : List Byte) (m : Module) : Module :=
  let len := data.length
  if !m.bar2Up fn || len == 0 || decide (512 < len) || decide (2 ^ 36 < off + len) then m
  else
    let m1 := m.barAccess fn
    let va := m1.bar2Va fn off
    let l := m1.bar2Xlat fn va len .store
    if !m1.ctxLive fn || decide (2 ^ 48 < va + len) || !(faultsOf l).isEmpty then m1.b2Fail fn va
    else if m1.rangeHeld fn va len .store then m
    else ((m1.askWalks (bar2Who fn) va len).writeRange (bar2Who fn) l data).bar2Viol fn va (violsIn l)

def execBar2Write (fn : Fin 64) (off : BitVec 36) (data : List Byte) (s : State) : Host.Outcome State Fault Refusal :=
  s.go (bar2Write fn.val off.toNat data)

/-! ### Reads of host memory that fail (R512, R523) -/

def Place.isHost : Place → Bool
  | .host _ => true
  | _ => false

/-- What a submission answers whose descriptor read fails: code 4, and none when it would read nothing (09 R195, 10 R240, 14 R344, 15 R378,
R381). `op` is the host command's. -/
def Module.submitFails (m : Module) (op va : Nat) : Option (Module × Nat) :=
  let sq := !(m.oos || !m.bit Reg.SQ_CTRL.accept)
  match op with
  | 5 => if va % 32 = 0 then some (m, 4) else none
  | 6 => if sq && va % 64 == 0 then some (m.sqRefuse 4) else none
  | 7 => if sq && va % 32 == 0 then some (m.sqRefuse 4) else none
  | 8 => if !m.oos && m.bit Reg.FAB_CP_CTRL.accept && va % 64 == 0 then some (m.collRefuse 4) else none
  | 9 => if va % 32 = 0 then some (m, 4) else none
  | _ => none

/-- The host command that a thread's instruction submits as. -/
def submitOp (w : Word) : Option Nat :=
  match classify w with
  | some .xLaunch => some 5
  | some .xSqsub => some 6
  | some .xSqadj => some 7
  | some .xColl => some 8
  | some .xXfer => some 9
  | _ => none

/-- A thread's submission whose descriptor read fails. -/
def submissionFails (th : ThreadId) (w : Word) (m : Module) : Module :=
  match submitOp w with
  | none => m
  | some op =>
    m.issue th w (fun m k =>
      if m.subHeld && decide (6 ≤ op) && decide (op ≤ 8) then m
      else m.afterDrain k (fun m =>
        match m.submitFails op ((m.th k).getS (Word.ra w)).toNat with
        | none => m
        | some r => r.1.retireS k (Word.rd w) (BitVec.ofNat 64 r.2)))

/-- A host command whose descriptor read fails. -/
def commandFails (n q : Nat) (m : Module) : Module :=
  match m.hqNext n q with
  | none => m
  | some e =>
    let op := entryOp e
    m.hostCommand n q op (fun m _ => m.subHeld && decide (6 ≤ op) && decide (op ≤ 8)) (fun m1 _ e =>
      match m1.submitFails op (entryWord e 1) with
      | none => m
      | some r => r.1.hostDone n q sDone 9 r.2)

def hostReadFail (what : HostRead) (m : Module) : Module :=
  match what with
  | .thread th elem =>
    let k := ThreadId.key th
    match (m.th k).run with
    | .waitWord va (some (.host _, _)) _ _ _ _ _ => m.faultStop k cMedia va 0
    | _ =>
      match (m.th k).lastLoad Place.isHost elem.val with
      | none => m
      | some (o, g) => m.loadFails k o g
  | .submission th w => submissionFails th w m
  | .entry n q =>
    if (m.hqEntry n q).isEmpty && (m.hqNext n q).isSome then m.setF (Reg.HIF_HQSTAT.err n q) 1 else m
  | .command n q => commandFails n q m
  | .part id j =>
    match m.xfer id with
    | none => m
    | some t =>
      let len := partLen t.length j
      let l := m.xlatRange t.ctx (t.src % 2 ^ 48 + j * partBytes t.length) len .load
      if t.state != 1 || t.op == 1 || t.failed.contains j.val ||
          !l.any (fun x => match x.2 with | .ok p _ => p.isHost | _ => false) then m
      else m.modXfer id (fun x => { x with failed := x.failed ++ [j.val] })

def execHostReadFail (what : HostRead) (s : State) : Host.Outcome State Fault Refusal := s.go (hostReadFail what)

end Sys2Proof.Machine
end

