-- ==== Sys2Proof/Machine/MemSysCmd.lean ====
section
/-! DEFINITION. Maintenance of the memory system (12 R292-R300): retrain, repair, scrubbing, and bring-up through the test port. -/

namespace Sys2Proof.Machine

/-! ### Retrain and repair (R293-R296) -/

/-- Is the partition under a reset whose memory phase has not ended? -/
def Module.resetMemory (m : Module) (n : Nat) : Bool :=
  let s := m.getF (Reg.PART_STAT.state n)
  s == 1 || s == 2 || m.esc.holds.contains n

/-- Start an accepted operation: its channel is held. -/
def Module.startOp (m : Module) (o : MaintOp) : Module :=
  (m.setMs { m.ms with ops := m.ms.ops.map (fun x => if x.pc = o.pc then { x with running := true } else x) }).setHeld o.pc true

/-- Start the operations deferred behind a partition's reset. -/
def Module.startDeferred (m : Module) (n : Nat) : Module :=
  m.each (m.ms.ops.filter (fun o => o.pc / 64 == n && !o.running)) Module.startOp

/-- A maintenance command (R296): refused in bring-up mode, refused when it would break a limit, else accepted; deferred while its
partition's reset is in progress. -/
def maintCmd (op pc bank row : Nat) (m0 : Module) : Module :=
  let m := m0.setF Reg.MEM_MAINT_CMD.row row
  if m.bit Reg.MEM_CTRL.maint then m.setF Reg.MEM_MAINT_STAT.outcome 2
  else if m.ms.ops.any (fun o => o.pc == pc) || decide (4 ≤ m.ms.ops.length) then m.setF Reg.MEM_MAINT_STAT.outcome 1
  else
    let o : MaintOp := { op := op, pc := pc, bank := bank, row := row, running := false }
    let m1 := ((m.setF Reg.MEM_MAINT_STAT.outcome 0).addF Reg.MEM_MAINT_STAT.active 1).setMs { m.ms with ops := m.ms.ops ++ [o] }
    if m1.resetMemory (pc / 64) then m1 else m1.startOp o

def execRetrain (pc : Fin 512) (s : State) : Host.Outcome State Fault Refusal := s.goBar (maintCmd 1 pc.val 0 0)

def execRepair (pc : Fin 512) (bank : BitVec 6) (row : BitVec 18) (s : State) : Host.Outcome State Fault Refusal :=
  s.goBar (maintCmd 2 pc.val bank.toNat row.toNat)

/-- The key of a row's corrected-error count. -/
def rowKey (pc bank row : Nat) : Nat := (pc * 64 + bank) * 2 ^ 18 + row

/-- A repaired row takes a spare of its stack (32 channels a stack). -/
def Module.repaired (m : Module) (o : MaintOp) : Module :=
  let s := o.pc / 32
  let m1 := (m.addF (Reg.MEM_PPR.repairs s) 1).setF (Reg.MEM_PPR.spares_free s) (m.getF (Reg.MEM_PPR.spares_free s) - 1)
  m1.setMs { m1.ms with ceRow := SMap.set 0 m1.ms.ceRow (rowKey o.pc o.bank o.row) 0 }

/-- The sector of a waiting access. -/
def Waiting.sector (e : Waiting) : Nat :=
  match e.place with
  | .hbm pc off => hbmKey pc off / 32
  | _ => 0

/-- The read of a word that a thread waits on and that waits for a held channel: the thread, the word's place and its address. -/
def Module.waitReads (m : Module) (pc : Nat) : List (Nat × Place × Nat) :=
  m.threads.filterMap (fun e =>
    match e.2.run with
    | .waitWord va (some (.hbm q off, _)) _ _ _ _ _ => if q = pc && m.mustWait (.hbm q off) then some (e.1, .hbm q off, va) else none
    | _ => none)

/-- A failed channel (R298): its waiting requests meet uncorrectable errors, source 161, and the module leaves service. What waits only to
be given again has made no request (DEDUCED, log 67). -/
def Module.channelFailed (m : Module) (pc : Nat) : Module :=
  let reads := m.waitReads pc
  let m1 := m.each (m.ms.waiting.filter (fun e => e.pc == pc)) (fun m e => m.mediaError e.sector e.ctx)
  let m1 := m1.each reads (fun m x => (m.errorAt x.2.1 (m.th x.1).ctx).faultStop x.1 cMedia x.2.2 0)
  let m2 := (m1.setMs { m1.ms with failed := m1.ms.failed ++ [pc] }).endHold pc
  ((m2.xferPoke).raise 161).leaveService

/-- A reset that waited for the last retrain or repair on the partition's channels goes on: its bound is extended by the wait (16 R411). -/
def Module.resetWaits (m : Module) (n : Nat) : Module :=
  if m.ms.ops.any (fun o => o.running && o.pc / 64 == n) then m
  else { m with esc := { m.esc with resets := m.esc.resets.map (fun r =>
    match r.waitFrom with
    | some t => if r.part = n then { r with waitFrom := none, wait := r.wait + (m.pilot - t) } else r
    | none => r) } }

/-- A retrain or repair ends: 0 done, 1 no spare row (also where `result` says 0 and the stack has none left, R295), 2 verification failed,
3 channel failed. A reset of the partition that waits for it keeps the hold (R296). -/
def maintOpEnd (pc : Nat) (result : Nat) (m : Module) : Module :=
  match m.ms.ops.find? (fun o => o.pc == pc && o.running) with
  | none => m
  | some o =>
    let result := if o.op = 2 && result = 0 && m.getF (Reg.MEM_PPR.spares_free (pc / 32)) = 0 then 1 else result
    let m1 := (m.setMs { m.ms with ops := m.ms.ops.filter (fun x => x.pc != pc) }).resetWaits (pc / 64)
    let m2 := ((m1.setF Reg.MEM_MAINT_STAT.result result).addF Reg.MEM_MAINT_STAT.done 1).setF Reg.MEM_MAINT_STAT.active m1.ms.ops.length
    let m3 := if result != 0 then m2 else if o.op = 2 then m2.repaired o else m2.trained [pc]
    let m4 := if m3.resetMemory (pc / 64) || result = 3 then m3 else (m3.endHold pc).xferPoke
    let m5 := m4.raise 162
    if result = 3 then m5.channelFailed pc else m5

def execMaintOpEnd (pc : Fin 512) (result : Fin 4) (s : State) : Host.Outcome State Fault Refusal :=
  s.go (maintOpEnd pc.val result.val)

/-! ### Patrol scrub (R290-R292) -/

/-- A row is read and corrected: `corrected` errors, and `bad` is the offset of a sector that cannot be corrected. -/
def scrubRow (pc bank row corrected : Nat) (bad : Option Nat) (m : Module) : Module :=
  if !m.bit Reg.MEM_CTRL.scrub || m.held pc then m
  else
    let k := rowKey pc bank row
    let old := SMap.get 0 m.ms.ceRow k
    let th := m.getF Reg.MEM_CTRL.ce_thresh
    let m1 := (m.setMs { m.ms with ceRow := SMap.set 0 m.ms.ceRow k (old + corrected) }).corrected corrected
    let m2 :=
      if th != 0 && decide (old < th) && decide (th ≤ old + corrected) then
        let m2 := if m1.bit Reg.MEM_CELOG.valid then m1
          else (((m1.setF Reg.MEM_CELOG.valid 1).setF Reg.MEM_CELOG.pc pc).setF Reg.MEM_CELOG.bank bank).setF Reg.MEM_CELOG.row row
        m2.raise 163
      else m1
    match bad with
    | none => m2
    | some off =>
      let sec := hbmKey pc off / 32
      if pcBytes ≤ off || SMap.get false m2.ms.poison sec then m2 else m2.mediaError sec 0

def execScrubRow (pc : Fin 512) (bank : BitVec 6) (row : BitVec 18) (corrected : BitVec 16) (bad : Option (BitVec 31)) (s : State) :
    Host.Outcome State Fault Refusal :=
  s.go (scrubRow pc.val bank.toNat row.toNat corrected.toNat (bad.map BitVec.toNat))

/-! ### Bring-up (R299, R300) -/

/-- Does a context other than context 0 exist? -/
def Module.otherContexts (m : Module) : Bool := (List.range 64).any (fun n => n != 0 && m.ctxState n != 0)

/-- MEM_CTRL.maint: set only while no context but context 0 exists; clearing it initializes every controller as at power-up, after
which the contents of HBM are undefined (DEDUCED, log 51). -/
def memMaint (v : Bool) (m : Module) : Module :=
  if v then (if m.otherContexts then m else m.setF Reg.MEM_CTRL.maint 1)
  else if m.bit Reg.MEM_CTRL.maint then ((m.setF Reg.MEM_CTRL.maint 0).trained memoryUnits).loseHbm
  else m

def execMemMaintModeWrite (v : Bool) (s : State) : Host.Outcome State Fault Refusal := s.goBar (memMaint v)

/-- One step of a stack's wrapper (R300): the instruction is loaded; the bits go into the selected data register, which is updated with what
has been shifted in unless it is held. -/
def TestPort.step (x : TestPort) (instr : Nat) (bits : List Bool) (hold : Bool) : TestPort :=
  let got := (if x.instr = instr then x.shift else []) ++ bits
  if hold then { instr := instr, shift := got, data := x.data } else { instr := instr, shift := [], data := got }

/-- A start of the test port: with maint = 1 the step begins and HBM is undefined. The bits shifted out of the stack are free, and take the
places in MEM_TP_DATA of those shifted in (DESIGN CHOICE, log 75). -/
def testPortStart (m : Module) : Module :=
  if !m.bit Reg.MEM_CTRL.maint || m.bit Reg.MEM_TP_CMD.busy then m
  else
    let n := m.getF Reg.MEM_TP_CMD.len_m1 + 1
    let d := m.getF Reg.MEM_TP_DATA.data
    let (m1, w) := (m.setF Reg.MEM_TP_CMD.busy 1).loseHbm.freeWord
    let s := m.getF Reg.MEM_TP_CMD.stack
    let bits := (List.range n).map (fun i => Nat.testBit d i)
    m1.setMs { m1.ms with tpOut := BitVec.ofNat 64 (d / 2 ^ n * 2 ^ n + w.toNat % 2 ^ n),
                          tp := SMap.modify TestPort.empty m1.ms.tp s (fun x =>
                            x.step (m.getF Reg.MEM_TP_CMD.instr) bits (m.bit Reg.MEM_TP_CMD.hold)) }

/-- A write of MEM_TP_CMD with start = 1: its other fields are written, and the step begins. -/
def testPortStep (hold : Bool) (stack len instr : Nat) (m : Module) : Module :=
  let m1 := ((((m.setF Reg.MEM_TP_CMD.start 1).setF Reg.MEM_TP_CMD.hold (if hold then 1 else 0)).setF Reg.MEM_TP_CMD.stack stack).setF Reg.MEM_TP_CMD.len_m1 len).setF
    Reg.MEM_TP_CMD.instr instr
  testPortStart m1

def execTestPortStep (hold : Bool) (stack : BitVec 4) (len : BitVec 6) (instr : BitVec 32) (s : State) : Host.Outcome State Fault Refusal :=
  s.goBar (testPortStep hold stack.toNat len.toNat instr.toNat)

def testPortStepEnd (m : Module) : Module :=
  if m.bit Reg.MEM_TP_CMD.busy then (m.setF Reg.MEM_TP_CMD.busy 0).setF Reg.MEM_TP_DATA.data m.ms.tpOut.toNat else m

def execTestPortStepEnd (s : State) : Host.Outcome State Fault Refusal := s.go testPortStepEnd

end Sys2Proof.Machine
end

