-- ==== Sys2Proof/Machine/Power.lean ====
section
/-! DEFINITION. Power control (18): the choice of a Wick state, entry, wake and exit, voltage requests; and the supplies and junction
temperatures of the module (23). -/

namespace Sys2Proof.Machine

/-! ### Refusers (18 R445) -/

/-- The first number below `n` that satisfies `p`. -/
def firstOf (n : Nat) (p : Nat → Bool) : Option Nat := (List.range n).find? p

/-- The refusers that hold, with the detail of each, in ascending code. -/
def Module.refusers (m : Module) : List (Nat × Nat) :=
  let on (code : Nat) (d : Option Nat) : List (Nat × Nat) := match d with | none => [] | some x => [(code, x)]
  let flag (code : Nat) (b : Bool) : List (Nat × Nat) := if b then [(code, 0)] else []
  let thread (n : Nat) : Bool := m.threads.any (fun e => e.2.run != .free && keyKind e.1 == 0 && partOf (keyCore e.1) == n) ||
    m.grids.any (fun g => g.waiting.any (fun c => partOf c == n))
  let reset (n : Nat) : Bool := decide (1 ≤ m.getF (Reg.PART_STAT.state n)) && decide (m.getF (Reg.PART_STAT.state n) ≤ 3)
  let maint (n : Nat) : Bool := m.getF (Reg.MEM_HOLD.held n) != 0 || m.ms.ops.any (fun o => o.pc / 64 == n)
  on 1 (firstOf 8 thread) ++ on 2 (firstOf 8 reset) ++ on 3 (firstOf 8 maint) ++
  on 4 (firstOf 64 (fun n => m.sq.probs.any (fun p => p.ctx == n) || m.sq.entries.any (fun e => e.ctx == n))) ++
  on 5 (firstOf 64 (fun n => m.hmp.queue.any (fun h => h.ctx == n) || m.hmp.upd.any (fun u => u.ctx == n) ||
    m.hmp.flq.any (fun f => f.ctx == n))) ++
  on 6 (firstOf 64 (fun n => m.transfers.any (fun t => t.ctx == n) || m.cp.colls.any (fun c => c.ctx == n) ||
    m.hif.running.any (fun e => e.1 / 4 == n))) ++
  flag 8 (m.getF Reg.HIF_LINK.state != 5 && !m.pwr.perst) ++
  on 9 (firstOf 64 (fun n => n != 0 && m.ctxState n != 0)) ++
  flag 10 (m.getF Reg.HMP_BLK_USE.slots != 0 || !m.hmp.copies.isEmpty) ++
  flag 11 (m.getF Reg.SQ_FS_USE.handles != 0) ++
  flag 12 (m.bit Reg.LMP_CORE.alt_ready) ++
  flag 13 (m.bit Reg.PWR_CTRL.debug) ++
  on 14 (firstOf 13 (fun r => (m.rail r).pending || (m.rail r).failed))

/-- Which states a refuser refuses (Table 18-4). -/
def refuses (code s : Nat) : Bool :=
  match code with
  | 1 | 4 => decide (2 ≤ s)
  | 2 | 12 | 14 => true
  | 3 | 5 | 6 | 7 | 13 => decide (3 ≤ s)
  | _ => s == 4

/-- Count a refusal of a state, once in an idle period (R446). -/
def Module.refuse (m : Module) (s : Nat) (l : List (Nat × Nat)) : Module :=
  match l with
  | [] => m
  | (c, d) :: _ =>
    if m.pwr.refused.contains s then m
    else
      let m1 := ((m.addF (Reg.PWR_REFUSE.count s) 1).setF (Reg.PWR_REFUSE.code s) c).setF (Reg.PWR_REFUSE.detail s) d
      let m2 := m1.each l (fun m x => m.addF (Reg.PWR_RCNT.count x.1) 1)
      { m2 with pwr := { m2.pwr with refused := s :: m2.pwr.refused } }

/-! ### Choosing and entering a state (18 R444, R447; 13 R333) -/

/-- The exit latency of a state in microseconds, rounded as Table 18-3 states it. -/
def latencyUs (s : Nat) : Nat := wickLatency s / 25

/-- The dwell of a state in ticks. -/
def Module.dwell (m : Module) (s : Nat) : Nat :=
  match s with
  | 2 => m.getF Reg.PWR_DWELL.w2 * 25
  | 3 => m.getF Reg.PWR_DWELL.w3 * 25000
  | 4 => m.getF Reg.PWR_DWELL.w4 * 25000000
  | _ => 0

/-- Is every core's clock stopped (02 R47)? -/
def Module.clocksStopped (m : Module) : Bool :=
  (List.range 8).all (fun n => m.getF (Reg.PART_STAT.state n) != 0 ||
    (m.cores.filter (fun e => !e.2.clockOn && e.1 / 256 == n)).length == 256)

/-- Do the tolerances and dwells admit a state? -/
def Module.admits (m : Module) (s : Nat) : Bool :=
  decide (latencyUs s ≤ m.getF Reg.PWR_LAT_TOL.value) && decide (s ≤ m.getF Reg.PWR_CTRL.max_state) &&
  decide (m.dwell s ≤ m.pilot - m.pwr.idleSince) && (s != 1 || m.clocksStopped)

/-- The target of R444, from state `s` downward; refusals are counted on the way. -/
def Module.chooseFrom (m : Module) : Nat → Module × Nat
  | 0 => (m, 0)
  | s + 1 =>
    let l := m.refusers.filter (fun r => refuses r.1 (s + 1))
    if !m.admits (s + 1) then Module.chooseFrom m s
    else if l.isEmpty then (m, s + 1)
    else Module.chooseFrom (m.refuse (s + 1) l) s

/-- Begin an entry: W3 and W4 send DOZE on every ACTIVE port with the detect mask; a pairing of SPDM responses ends (21 R505). -/
def Module.enterState (m : Module) (t : Nat) : Module :=
  let m1 := (m.setF Reg.PWR_STATE.target t).setF Reg.PWR_STATE.entering 1
  let m2 := { m1 with lmp := { m1.lmp with pair := none } }
  if t < 3 then m2
  else
    let m3 := { m2 with pwr := { m2.pwr with dozeSent := some m2.pilot } }
    m3.each (m3.portsIn 0xFFFF pActive) (fun m p =>
      let l := { m.lanternOf p (m.lanternFlags p + if t = 4 then 32 else 0) [] with detect := if t = 4 then 0x1111#16 else 0xFFFF#16 }
      (m.setPort p { m.port p with dozeSent := some (m.pilot, t == 4) }).sendFree p (.lantern 3 l))

/-- An entry is refused because a replay buffer is not empty 100 µs after DOZE was sent (refuser 0x07). -/
def Module.dozeRefused (m : Module) : Option Nat :=
  match m.pwr.dozeSent with
  | some t => if t + 2500 ≤ m.pilot then firstOf 16 (fun p => !(m.port p).replay.isEmpty) else none
  | none => none

/-- The module returns to the state that it left. -/
def Module.leaveEntry (m : Module) : Module :=
  let m1 := ((m.setF Reg.PWR_STATE.entering 0).setF Reg.PWR_STATE.target (m.getF Reg.PWR_STATE.state)).dozedTrain
  { m1 with pwr := { m1.pwr with dozeSent := none } }

/-- The evaluation of a pilot tick (R444). -/
def wickEvaluate (m : Module) : Module :=
  if m.pwr.wake.isSome then m
  else if m.bit Reg.PWR_STATE.entering then
    match m.dozeRefused with
    | some p =>
      let t := m.getF Reg.PWR_STATE.target
      let l := m.refusers.filter (fun r => refuses r.1 t)
      (m.refuse t (l.filter (fun r => r.1 < 7) ++ [(7, p)] ++ l.filter (fun r => 7 < r.1))).leaveEntry
    | none => m
  else
    let m1 := if m.active then m.idleFrom else m
    let (m2, t) := m1.chooseFrom 4
    if m2.getF Reg.PWR_STATE.state < t then m2.enterState t else m2

def execWickEvaluate (s : State) : Host.Outcome State Fault Refusal := s.go wickEvaluate

/-- The shared cache writes back every dirty sector and is empty (12 R280). -/
def Module.flushCache (m : Module) : Module :=
  (m.setMs { m.ms with sets := [] }).writeBacks (m.ms.sets.flatMap (fun e => e.2))

/-- The contents of HBM, the capacity tier and the core stores are lost (18 R442, 23 R541). -/
def Module.loseMemories (m : Module) : Module :=
  let m1 := m.loseHbm
  m1.setMs { m1.ms with ctier := [], ctPoison := [], ctScr := m1.ms.ctScr + 1, store := [], hstore := [] }

/-- The rails that a state lowers or turns off (R450). -/
def railsOff (s : Nat) : List Nat :=
  let parts := List.range 8
  if s = 2 then parts else if s = 3 then parts ++ [10] else if s = 4 then parts ++ [8, 9, 10, 11, 12] else []

/-- A flash area is erased: its bytes read zero. -/
def Memory.clear (mem : List Host.Cell) (lo hi : Nat) : List Host.Cell := SMap.keep mem (fun a => decide (a < lo) || decide (hi ≤ a))

/-- Before the commit point of W3 and W4 the Hamper writes the whole row-state table to its save range in the reserved flash (11 R266). -/
def Module.saveRows (m : Module) : Module :=
  let f := Memory.clear m.ms.flash rowSaveBase (rowSaveBase + 2 ^ 24)
  m.setMs { m.ms with flash := m.hmp.rowState.foldl (fun f e => Memory.write f (rowSaveBase + 8 * e.1) 8 e.2.toNat) f }

/-- The first byte of the W4 register save in the reserved flash, 1 GiB long (21 Table 21-6). -/
def regSaveBase : Nat := 2 ^ 30

/-- Before the commit point of W4 the registers are saved (R442). The spec gives the range and no layout: a register field that is not at
its literal value takes 16 bytes, its number and its value (DESIGN CHOICE, log 73). -/
def Module.saveRegs (m : Module) : Module :=
  let f := Memory.clear m.ms.flash regSaveBase (2 * regSaveBase)
  let r := m.fields.foldl (fun (r : List Host.Cell × Nat) e =>
    (Memory.write (Memory.write r.1 r.2 8 e.1) (r.2 + 8) 8 e.2, r.2 + 16)) (f, regSaveBase)
  m.setMs { m.ms with flash := r.1 }

/-- A voltage request: its AVSBus write, which `target` names (R450). -/
def Module.avsWrite (m : Module) (r : Nat) (target : Option Nat) : Module :=
  (m.setRail r { m.rail r with pending := true, trimUp := false, attempts := 0, since := m.pilot, target := target }).emit
    (.avs r (railMv r target))

/-- An entry turns a rail off in W4, and lowers it in W2 and W3 to a voltage below the nominal that the spec leaves open (R450). -/
def Module.lowerRail (m : Module) (r s : Nat) : Module :=
  let x := m.freePick
  let m1 := if s = 4 then m.avsWrite r (some 0) else x.1.avsWrite r (some (x.2 % railNominal r))
  m1.setRail r { m1.rail r with lowered := true }

/-- The host link in a Wick state: in L2 in W4 (22 R534). -/
def Module.linkEnters (m : Module) (s : Nat) : Module := if s = 4 then m.setF Reg.HIF_LINK.state 5 else m.linkDozes

/-- The commit point of an entry, and the rest of it (R440, R447). -/
def wickEntryCommit (m : Module) : Module :=
  let t := m.getF Reg.PWR_STATE.target
  let ready := t < 3 || ((m.portsIn 0xFFFF pActive).isEmpty && (List.range 16).all (fun p => (m.port p).replay.isEmpty))
  if !m.bit Reg.PWR_STATE.entering || !ready then m
  else
    let m1 := if t < 3 then m else m.flushCache.saveRows
    let m2 := if t = 4 then m1.saveRegs.mirrorAll.loseMemories else m1
    let m3 := if t < 2 then m2 else m2.each (List.range 8) (fun m n => (m.zeroPart n).setF (Reg.PART_STAT.state n) 5)
    let due := (railsOff t).filter (fun r => !(m3.rail r).failed && (!(m3.rail r).lowered || (t == 4 && (m3.rail r).target != some 0)))
    let m4 := ((m3.each due (fun m r => m.lowerRail r t)).setDomains t).linkEnters t
    let m5 := (m4.setF Reg.PWR_STATE.state t).setF Reg.PWR_STATE.entering 0
    { m5 with pwr := { m5.pwr with dozeSent := none } }

def execWickEntryCommit (s : State) : Host.Outcome State Fault Refusal := s.go wickEntryCommit

/-! ### Wake and exit (18 R448, R449) -/

def execWakeEvent (code : Fin 10) (detail : BitVec 8) (s : State) : Host.Outcome State Fault Refusal :=
  s.go (fun m => m.wake code.val detail.toNat)

/-- The exit reaches W0 once its rails are up or failed. -/
def execWickExitDone (s : State) : Host.Outcome State Fault Refusal := s.go (fun m => if m.railsUp then m.exitDone else m)

/-- PILOT reaches PWR_TIMER; it is cleared when it fires. -/
def pwrTimerExpiry (m : Module) : Module :=
  let t := m.getF Reg.PWR_TIMER.atTick
  if t = 0 then m else ((m.toTick t).setF Reg.PWR_TIMER.atTick 0).wake 6 0

def execPwrTimerExpiry (s : State) : Host.Outcome State Fault Refusal := s.go pwrTimerExpiry

/-- Does the policy exclude the current state? -/
def Module.excluded (m : Module) : Bool :=
  let s := if m.bit Reg.PWR_STATE.entering then m.getF Reg.PWR_STATE.target else m.getF Reg.PWR_STATE.state
  decide (m.getF Reg.PWR_LAT_TOL.value < latencyUs s) || decide (m.getF Reg.PWR_CTRL.max_state < s)

/-- Write PWR_LAT_TOL or PWR_CTRL: a max_state above 4 leaves the field unchanged; debug powers PD19 in W0-W2; a value that excludes
the current state wakes the module with code 9. -/
def pwrPolicy (reg : PwrPolicy) (v : Word) (m : Module) : Module :=
  let m1 := match reg with
    | .latTol => m.setRet Reg.PWR_LAT_TOL.value (v.toNat % 2 ^ 32)
    | .ctrl =>
      let k := v.toNat % 8
      let m0 := m.setF Reg.PWR_CTRL.debug (v.toNat / 256 % 2)
      let m1 := if k ≤ 4 then m0.setRet Reg.PWR_CTRL.max_state k else m0
      let on := m1.getF Reg.PWR_DOM.on % 2 ^ 19
      m1.setF Reg.PWR_DOM.on (if m1.bit Reg.PWR_CTRL.debug && decide (m1.getF Reg.PWR_STATE.state ≤ 2) then on + 2 ^ 19 else on)
  if m1.excluded then m1.wake 9 0 else m1

/-- The Lamplighter writes a policy register; a host's write is a REGISTER_WRITE, a BAR access that wakes the module by itself. -/
def execPwrPolicyWrite (reg : PwrPolicy) (v : Word) (s : State) : Host.Outcome State Fault Refusal := s.go (pwrPolicy reg v)

/-! ### Voltage requests (18 R450-R452) -/

/-- A rail reports its target reached (R450): a request of an exit raises it. -/
def avsAck (r : Nat) (m : Module) : Module :=
  let x := m.rail r
  if !x.pending then m
  else (m.setRail r { x with pending := false, trimUp := false, attempts := 0,
                             lowered := x.lowered && m.pwr.wake.isNone, mv := x.target }).addF Reg.PWR_AVS.requests 1

def execAvsAck (rail : Fin 13) (s : State) : Host.Outcome State Fault Refusal := s.go (avsAck rail.val)

/-- 250 µs without acknowledgement: the request is repeated; after 3 attempts the rail has failed, and during a wake a failed VDD_SOC,
VDD_HBM or VDD_HMP takes the module out of service. -/
def avsTimeout (r : Nat) (m : Module) : Module :=
  let x := m.rail r
  if !x.pending then m
  else
    let m1 := (m.toTick (x.since + 6250)).addF Reg.PWR_AVS.timeouts 1
    if x.attempts + 1 < 3 then (m1.setRail r { x with attempts := x.attempts + 1, since := m1.pilot }).emit (.avs r (railMv r x.target))
    else
      let m2 := (m1.setRail r { x with pending := false, failed := true, trimUp := false, attempts := 3 }).setF Reg.PWR_AVS.failed 1
      let m3 := (m2.setF Reg.PWR_AVS.last_rail r).raise 4
      if m.pwr.wake.isSome && (r == 8 || r == 10 || r == 12) then m3.leaveService else m3

def execAvsTimeout (rail : Fin 13) (s : State) : Host.Outcome State Fault Refusal := s.go (avsTimeout rail.val)

/-- The margin monitors of a running partition lead to a trim of VDD_Pn within its range, by a step that the spec leaves open; at the bound
there is none. A trim up takes the place of a trim down that is not acknowledged (R452). -/
def marginMonitor (n : Nat) (up : Bool) (m : Module) : Module :=
  let x := m.rail n
  let (lo, hi) := railRange n
  let v := railMv n x.mv
  let bound := if up then decide (hi ≤ v) else decide (v ≤ lo)
  if (x.pending && (!up || x.trimUp || x.lowered)) || x.failed || bound || m.getF (Reg.PART_STAT.state n) != 0 ||
      m.getF Reg.PWR_STATE.state != 0 then m
  else
    let (m1, k) := m.freePick
    let m2 := m1.avsWrite n (some (if up then v + 1 + k % (hi - v) else v - 1 - k % (v - lo)))
    m2.setRail n { m2.rail n with trimUp := up }

def execMarginMonitor (n : Fin 8) (up : Bool) (s : State) : Host.Outcome State Fault Refusal := s.go (marginMonitor n.val up)

/-! ### Junction temperature (23 R547) -/

/-- Throttling of the wide ports starts at 105 °C and ends below 100 °C. -/
def execThermalThrottle (hot : Bool) (s : State) : Host.Outcome State Fault Refusal :=
  s.go (fun m => { m with pwr := { m.pwr with throttled := hot } })

/-! ### Supplies (23 R539-R541; 18 R438; 21 R488, R489, R500) -/

/-- The fields that are fused or fixed for a part. -/
def fusedFlds : List Fld := [Reg.SEC_DEVSN.serial, Reg.SEC_SVN.floor, Reg.LMP_ID.rom, Reg.HMP_ID.flash_tib]

/-- What a module without main power holds: the pilot domain, the Thermos, flash, fuses, and the host's own memory; everything else is at
its literal value (00 R12). Memories that lost their contents hold free values after it. -/
def Module.unpowered (m : Module) : Module :=
  let z := Module.reset
  let kept := { z with
    pilot := m.pilot, free := m.free, lmp := { m.lmp with mbx := none, staged := none, other := none, pair := none },
    esc := { z.esc with entries := m.esc.entries },
    fab := { z.fab with level := m.fab.level, edgeAt := m.fab.edgeAt, beatAt := m.fab.beatAt, toggledAt := m.fab.toggledAt, aliveOn := false },
    ms := { z.ms with flash := m.ms.flash, host := m.ms.host, scr := m.ms.scr + 1, ctScr := m.ms.ctScr + 1 },
    pwr := { z.pwr with mainGood := false, converter := false, standby := m.pwr.standby, perst := m.pwr.perst, wakeN := m.pwr.wakeN, telem := m.pwr.telem,
                        tripped := m.pwr.tripped, lostAt := m.pwr.lostAt } }
  let l := fusedFlds ++ serviceFlds
  kept.setFields l (m.fieldMap l)

/-- Main power ends: a commit in progress leaves no valid image (21 R496), and a mirror in progress a copy that is not valid. -/
def Module.mainOff (m : Module) : Module := m.commitLost.mirrorsCut.unpowered

/-- Main power good is lost without request: the converter restarts only once the 54 V input has been cycled (R541). -/
def mainPowerLoss (m : Module) : Module := if m.mainOn then { m with pwr := { m.pwr with lostAt := some m.pilot } }.mainOff else m

def execMainPowerLoss (s : State) : Host.Outcome State Fault Refusal := s.go mainPowerLoss

/-- A junction monitor reaches 115 °C: the main converter shuts down, also in its soft start. -/
def thermalTrip (m : Module) : Module :=
  let m1 := { m with pwr := { m.pwr with tripped := true, lostAt := some m.pilot } }
  if m.mainOn then m1.mainOff
  else if m.pwr.converter && !m.pwr.mainGood then { m1 with pwr := { m1.pwr with converter := false } }
  else m

def execThermalTrip (s : State) : Host.Outcome State Fault Refusal := s.go thermalTrip

def execStandbyPowerOn (s : State) : Host.Outcome State Fault Refusal :=
  s.go (fun m => { m with pwr := { m.pwr with standby := true } })

/-- Standby power is lost: main power, and W4 with it, ends, PILOT restarts, the Thermos SRAM and the core RAMs are empty, and the service ticks resume from the newest
flash copy. -/
def standbyPowerLoss (m : Module) : Module :=
  let m1 := if m.pwr.mainGood then m.mainOff else m
  let m2 := { m1 with pilot := 0, lmp := { m1.lmp with sram := [], settings := [], training := [], seqs := [], dirty := [], owner := none, ram := [] },
                      fab := { m1.fab with edgeAt := [], beatAt := 0, toggledAt := 0 },
                      pwr := { m1.pwr with standby := false, converter := false, softAt := 0, lostAt := m1.pwr.lostAt.map (fun _ => 0), telem := List.replicate 32 0#8 } }
  m2.setF Reg.LMP_SVC_TICKS.ticks (match m2.newest secService with
    | none => 0
    | some x => SMap.get 0 x.flds Reg.LMP_SVC_TICKS.ticks.key)

def execStandbyPowerLoss (s : State) : Host.Outcome State Fault Refusal := s.go standbyPowerLoss

/-- The ROM enables the converter: as the command says, the 54 V input has been in range for 10 ms, and standby power for 50 ms; after a loss
that input has also been below 20 V for 1 s, and returned, so that PILOT is at least there; after a trip only below 60 °C (R540, R541,
R547). -/
def converterStart (below60 : Bool) (m : Module) : Module :=
  if m.pwr.standby && !m.pwr.mainGood && !m.pwr.converter && (!m.pwr.tripped || below60) then
    let m1 := m.toTick (max 1250000 (match m.pwr.lostAt with | some t => t + 25250000 | none => 0))
    { m1 with pwr := { m1.pwr with converter := true, lostAt := none, softAt := m1.pilot } }
  else m

def execConverterStart (below60 : Bool) (s : State) : Host.Outcome State Fault Refusal := s.go (converterStart below60)

/-- Boot raises VDD_SOC and VDD_HMP to their nominal voltages, and the rails acknowledge (21 Table 21-4, step 1; 18 R450). -/
def Module.socUp (m : Module) : Module :=
  m.each [8, 10] (fun m r => (m.emit (.avs r (railNominal r))).addF Reg.PWR_AVS.requests 1)

/-- The source of a section at power-up: 0 SRAM, 1 flash, 2 defaults (R500). -/
def Module.sectionSource (m : Module) (sec : Nat) : Nat :=
  if m.lmp.sram.contains sec then 0 else if (m.newest sec).isSome then 1 else 2

/-- Restore the settings section and load every retained field from it. -/
def Module.restoreSettings (m : Module) : Module :=
  let s := match m.sectionSource secSettings with
    | 0 => m.lmp.settings
    | 1 => match m.newest secSettings with | some x => x.flds | none => []
    | _ => []
  let m1 := { m with lmp := { m.lmp with settings := s } }
  { m1 with fields := s.foldl (fun f e => SMap.insert e.1 e.2 (SMap.erase f e.1)) m1.fields }

/-- Restore the service section; with no valid copy the module is out of service and its incarnation is random. -/
def Module.restoreService (m : Module) : Module :=
  match m.sectionSource secService with
  | 0 => m
  | 1 =>
    match m.newest secService with
    | none => m
    | some x =>
      let t := m.getF Reg.LMP_SVC_TICKS.ticks
      let m1 := ({ m with esc := { m.esc with entries := x.entries } }).setFields serviceFlds x.flds
      m1.setF Reg.LMP_SVC_TICKS.ticks t
  | _ =>
    let (m1, w) := ({ m with esc := { m.esc with entries := [] } }.setFields serviceFlds []).freeWord
    (m1.setF Reg.LMP_ESC_STAT.oos 1).setF Reg.FAB_DEVID.incarnation w.toNat

/-- Restore the training section; with no valid copy it holds no values. -/
def Module.restoreTraining (m : Module) : Module :=
  let t := match m.sectionSource secTraining with
    | 0 => m.lmp.training
    | 1 => match m.newest secTraining with | some x => x.flds | none => []
    | _ => []
  { m with lmp := { m.lmp with training := t } }

/-- The sequence number of each section in SRAM, of those that come from flash the copy's (21 R498). -/
def Module.restoreSeqs (m : Module) : Module :=
  m.each (List.range 4) (fun m sec =>
    if m.sectionSource sec = 0 then m
    else { m with lmp := { m.lmp with seqs := SMap.set 0 m.lmp.seqs sec (match m.newest sec with | some x => x.seq | none => 0) } })

/-- Restore the owner keys. -/
def Module.restoreSecurity (m : Module) : Module :=
  let o := match m.sectionSource secSecurity with
    | 0 => m.lmp.owner
    | 1 => match m.newest secSecurity with | some x => x.keys | none => none
    | _ => none
  let m1 := { m with lmp := { m.lmp with owner := o } }
  match o with
  | none => (m1.setF Reg.SEC_STAT.owner 0).setF Reg.SEC_STAT.owner_id 0
  | some (ed, ml) =>
    (m1.setF Reg.SEC_STAT.owner 1).setF Reg.SEC_STAT.owner_id (leVal ((Config.sha384 (ed ++ ml)).take 6))

/-- The module serves: its incarnation has advanced, which the service section keeps, the die-to-die link is in service (11 R248), the
memories train, partitions and ports start unless it is
out of service (16 R418), and a section that took its defaults raises source 10. -/
def Module.bootDone (m : Module) : Module :=
  let m1 := ((m.addF Reg.FAB_DEVID.incarnation 1).touchSection secService).setF Reg.HMP_D2D.up 1
  let m2 := if m1.oos then
      (m1.each (List.range 8) (fun m n => m.setF (Reg.PART_STAT.state n) 5)).setF Reg.PWR_DOM.on 0x7FF00
    else (m1.trained memoryUnits).each (List.range 16) Module.portEval
  let m3 := { m2 with pwr := { m2.pwr with idleSince := m2.pilot } }
  if (List.range 4).any (fun i => m3.getF Reg.LMP_THERMOS.source / 4 ^ i % 4 == 2) then m3.raise 10 else m3

/-- A retained factor store that does not lie wholly within the spread space has its size set to zero (12 R277). -/
def Module.checkStore (m : Module) : Module :=
  if m.spreadBytes < (m.getF Reg.SQ_FS_BASE.base + m.getF Reg.SQ_FS_SIZE.units) * 2 ^ 21 then m.setRet Reg.SQ_FS_SIZE.units 0 else m

/-- Main power good rises 10 ms after the converter's start (R540): a power-up (R539). VDD_SOC and VDD_HMP are raised (21 Table 21-4, step 1).
Every literal value is loaded (00 R12), the quad straps are sampled, retained fields restored,
the factor store checked, the image in flash started, or recovery entered when there is none. -/
def powerUp (inQuad : Bool) (qpos : Nat) (m : Module) : Module :=
  if !m.pwr.converter || !m.pwr.standby || m.pwr.mainGood then m
  else
    let m := m.toTick (m.pwr.softAt + 250000)
    let src := (List.range 4).foldl (fun v i => v + m.sectionSource i * 4 ^ i) 0
    let m1 := m.unpowered.socUp.restoreSeqs.restoreService.restoreSettings.restoreTraining.restoreSecurity
    let (m2, nonce) := m1.freeWord
    let m3 := { m2 with lmp := { m2.lmp with sram := [0, 1, 2, 3], dirty := [] },
                        fab := { m2.fab with aliveOn := true, edgeAt := [(1, m2.pilot), (2, m2.pilot), (3, m2.pilot)].filter (fun e => e.2 != 0) },
                        pwr := { m2.pwr with mainGood := true, converter := true, tripped := false } }
    let m4 := (((m3.setF Reg.LMP_THERMOS.source src).setF Reg.LMP_AUTH_NONCE.nonce nonce.toNat).setF Reg.FAB_QUAD.in_quad
      (if inQuad then 1 else 0)).setF Reg.FAB_QUAD.qpos qpos
    let m5 := (m4.setF Reg.MEM_CARVE.active (m4.getF Reg.MEM_CARVE.pending)).checkStore
    let m6 := m5.each (List.range 16) (fun m s =>
      let (m1, k) := m.freePick
      m1.setF (Reg.MEM_PPR.spares_free s) k)
    let m6 := m6.readFlash
    let m7 := match m6.committed with
      | some x => (m6.runImage x none).bootDone
      | none => m6.setF Reg.LMP_FW_STAT.state 5
    if m7.pwr.perst then m7 else m7.linkTrain

def execPowerUp (inQuad : Bool) (qpos : BitVec 2) (s : State) : Host.Outcome State Fault Refusal := s.go (powerUp inQuad qpos.toNat)

end Sys2Proof.Machine
end

