-- ==== Sys2Proof/Machine/Service.lean ====
section
/-! DEFINITION. Context watchdogs (16 R399-R402), partition faults and resets (R403-R415), and escalation (R416, R417). -/

namespace Sys2Proof.Machine

/-! ### Context watchdogs -/

/-- Word 0 of a record with cause 0x20-0x22 (Table 16-2). -/
def resetWord (cls : Nat) (named : Bool) (part seq : Nat) : Nat :=
  cls * 2 ^ 40 + (if named then 2 ^ 39 else 0) + part * 2 ^ 32 + seq % 2 ^ 32

/-- Does the watchdog of a context count: a period, a context, no pause by a partition reset that is under way, and no thread or running
problem of it on a partition that is not READY (R399, R402)? -/
def Module.wdCounts (m : Module) (n : Nat) : Bool :=
  m.getF (Reg.LMP_WDOG.period n) != 0 && m.ctxState n != 0 && (m.ctx n).wdHold.isNone &&
  !m.threads.any (fun e => e.2.run != .free && e.2.ctx == n && keyKind e.1 == 0 && !m.partReady (partOf (keyCore e.1))) &&
  !m.sq.runs.any (fun r => r.ctx == n && r.cores.any (fun c => !m.partReady (partOf c)))

/-- Watchdogs that a reset paused count on once no reset lists their context any more (Table 16-3, step 7): the ticks of the pause are left
out of the count. -/
def Module.wdResume (m : Module) : Module :=
  m.each m.ctxs (fun m e =>
    match e.2.wdHold with
    | none => m
    | some h =>
      if m.esc.resets.any (fun r => r.affected.contains e.1) then m
      else m.setCtx e.1 { e.2 with wdHold := none, wdSince := e.2.wdSince + (m.pilot - max h e.2.wdSince) })

/-- The watchdogs of contexts pause (R402). -/
def Module.wdPause (m : Module) (l : List Nat) : Module :=
  m.each l (fun m c => if (m.ctx c).wdHold.isSome then m else m.setCtx c { m.ctx c with wdHold := some m.pilot })

/-- The thread of a context that has gone longest without retiring; ties go to the lowest core, then the lowest thread. -/
def Module.oldestThread (m : Module) (n : Nat) : Option (Nat × Thread) :=
  (m.threads.filter (fun e => e.2.run != .free && e.2.ctx == n)).foldl (fun r e =>
    match r with
    | none => some e
    | some x => if e.2.retiredAt < x.2.retiredAt then some e else r) none

/-- The VIDX that a record names for the instruction at a thread's IP: that of a vector instruction or a vector reduction, and zero for any other
(02 Table 2-4). -/
def Module.vidxOf (m : Module) (k : Nat) : Nat :=
  let t := m.th k
  match (m.thXlat k t.ip.toNat .fetch).2 with
  | .ok p _ =>
    let w := BitVec.ofNat 64 (m.readPlace p 8)
    if majorV (Word.major w) || wordIs .redv w || wordIs .redvi w then t.vidx.toNat else 0
  | _ => 0

/-- The count reaches the period: a HANG record (R400). -/
def watchdogWarn (n : Nat) (m : Module) : Module :=
  if !m.wdCounts n || decide (2 ≤ m.getF (Reg.LMP_WDOG.state n)) then m
  else
    let m1 := (m.toTick ((m.ctx n).wdSince + m.getF (Reg.LMP_WDOG.period n))).setF (Reg.LMP_WDOG.state n) 2
    match m1.oldestThread n with
    | none => m1.faultRecord n (mkRecord (resetWord 0 false 0 0) 0x22 n 0 0 0 0 0)
    | some (k, t) => m1.faultRecord n (mkRecord (resetWord 0 true 0 0) 0x22 n (keyCore k) (keyThread k) (m1.vidxOf k) t.ip.toNat 0)

def execWatchdogWarn (ctx : Fin 64) (s : State) : Host.Outcome State Fault Refusal := s.go (watchdogWarn ctx.val)

/-- The count reaches twice the period with action 1: every thread of the context stops, without a record (R401). -/
def watchdogStop (n : Nat) (m : Module) : Module :=
  if !m.wdCounts n || m.getF (Reg.LMP_WDOG.state n) != 2 || m.getF (Reg.LMP_WDOG.action n) != 1 then m
  else
    let m1 := (m.toTick ((m.ctx n).wdSince + 2 * m.getF (Reg.LMP_WDOG.period n))).setF (Reg.LMP_WDOG.state n) 3
    m1.each (m1.threads.filter (fun e => e.2.run != .free && e.2.ctx == n)) (fun m e => m.setTh e.1 { e.2 with run := .stopped })

def execWatchdogStop (ctx : Fin 64) (s : State) : Host.Outcome State Fault Refusal := s.go (watchdogStop ctx.val)

/-! ### Isolation (R405-R411, R413, R553) -/

def clsHost : Nat := 6

/-- The keys of a partition's threads. -/
def Module.partThreads (m : Module) (n : Nat) : List (Nat × Thread) :=
  m.threads.filter (fun e => e.2.run != .free && keyKind e.1 == 0 && partOf (keyCore e.1) == n)

/-- The contexts that have a thread, or a running problem or adjoint entry, on a partition (R407). -/
def Module.affected (m : Module) (n : Nat) : List Nat :=
  distinct ((m.partThreads n).map (fun e => e.2.ctx) ++
    (m.sq.runs.filter (fun r => r.cores.any (fun c => partOf c == n))).map (fun r => r.ctx) ++
    (m.sq.entries.filter (fun e => e.phase == 1 && e.cores.any (fun c => partOf c == n))).map (fun e => e.ctx))

/-- Every thread of a partition is lost, also those not yet admitted; grids, problems and entries count them (R409; 02 R28). The bytes that
they had stored stay (DESIGN CHOICE within what R28 leaves undefined, log 42). -/
def Module.losePartition (m : Module) (n : Nat) : Module :=
  let keys := m.partThreads n
  let lostOf (g : Grid) : Nat := (keys.filter (fun e => e.2.work == .grid g.id)).length +
    g.threads * (g.waiting.filter (fun c => partOf c == n)).length
  let hit := m.grids.filter (fun g => lostOf g != 0)
  let m1 := m.each (keys.map (fun e => e.1)) Module.discard
  let m2 := m1.each hit (fun m g => m.modGrid g.id (fun x => { x with live := x.live - lostOf g, lost := Nat.lor x.lost (2 ^ n),
                                                                        waiting := x.waiting.filter (fun c => partOf c != n) }))
  let m3 := { m2 with cores := SMap.mapAll Core.empty m2.cores (fun c x =>
    if partOf c = n then { x with grids := [], mq := [], inflight := [] } else x) }
  let m4 := (m3.each (hit.map (fun g => g.id)) Module.gridCheck).solverLost n
  m4.each ((List.range 16).map (fun i => n * 16 + i)) Module.leaseSettle

def Module.preset (m : Module) (n : Nat) : Option PReset := m.esc.resets.find? (fun r => r.part == n)

/-- Enter a reset in place of any other of the partition: ISOLATED, source 32 + 8n, threads lost, the watchdogs of the affected contexts
paused (Table 16-3, steps 1 and 2; R402). -/
def Module.isolate (m : Module) (r : PReset) : Module :=
  let n := r.part
  let m1 := m.setF (Reg.PART_STAT.state n) 1
  let m2 := { m1 with esc := { m1.esc with resets := m1.esc.resets.filter (fun (x : PReset) => x.part != n) ++ [r] } }
  ((m2.losePartition n).wdPause r.affected).wdResume.raise (32 + 8 * n)

/-- Log a fault in PART_FLOG0-PART_FLOG2 and PART_STAT.class. -/
def Module.logFault (m : Module) (r : PReset) : Module :=
  let n := r.part
  let m1 := ((m.setF (Reg.PART_STAT.cls n) r.cls).setF (Reg.PART_FLOG0.valid n) 1).setF (Reg.PART_FLOG0.cls n) r.cls
  let m2 := ((m1.setF (Reg.PART_FLOG0.named n) (if r.named then 1 else 0)).setF (Reg.PART_FLOG0.context n) (r.fctx.getD 0)).setF
    (Reg.PART_FLOG0.core n) r.core
  ((m2.setF (Reg.PART_FLOG0.thread n) r.thread).setF (Reg.PART_FLOG1.instruction n) r.instr).setF (Reg.PART_FLOG2.ticks n) m.pilot

/-- The context of a running problem or adjoint entry that a leased core performs operations of. -/
def Module.solverOn (m : Module) (core : Nat) : Option Nat :=
  match m.sq.runs.find? (fun r => r.cores.contains core && decide (2 ≤ r.stage) && decide (r.stage ≤ 5)) with
  | some r => some r.ctx
  | none => (m.sq.entries.find? (fun e => e.phase == 1 && e.cores.contains core)).map (fun e => e.ctx)

/-- What a fault names (R406): the core's context, the thread, its instruction and VIDX; nothing when the core is empty. A leased core on
which a problem runs names its context; the rule gives no thread or instruction address for the solver's own operations, which read as
zero (DESIGN CHOICE, log 42). -/
def Module.faultOf (m : Module) (n cls : Nat) (core : Option (Nat × Nat)) : PReset :=
  let blank : PReset := { part := n, cls := cls, since := m.pilot, named := false, core := 0, thread := 0, instr := 0, fctx := none,
                          affected := m.affected n, second := false, vidx := 0, waitFrom := none, wait := 0 }
  match core with
  | none => blank
  | some (c, t) =>
    let g := 256 * n + c
    let live := (coreKeys g).filter (fun k => (m.th k).run != .free)
    match (if live.contains (8 * g + t) then some (8 * g + t) else live.head?) with
    | none =>
      match m.solverOn g with
      | none => blank
      | some x => { blank with named := true, core := g, fctx := some x }
    | some k =>
      { blank with named := true, core := g, thread := keyThread k, instr := (m.th k).ip.toNat % 2 ^ 48, fctx := some (m.th k).ctx,
                   vidx := m.vidxOf k }

/-- Channels kept held for a reset that will not come are released, and deferred operations start (12 R296). -/
def Module.releaseHeld (m : Module) (n : Nat) : Module :=
  if m.esc.holds.contains n then m
  else
    let free := ((List.range 64).map (fun i => 64 * n + i)).filter (fun pc => m.held pc && !m.ms.ops.any (fun o => o.pc == pc && o.running))
    ((m.each free Module.endHold).startDeferred n).xferPoke

/-- A reset fails (R413): source 32 + 8n + 2; a new reset starts at once, or the partition is FAILED when this one was already the
second. A new reset carries the contexts that the first one had not told yet. -/
def Module.resetFails (m : Module) (old new : PReset) : Module :=
  let n := old.part
  if old.second then
    let m1 := m.setF (Reg.PART_STAT.state n) 4
    let m2 := { m1 with esc := { m1.esc with resets := m1.esc.resets.filter (fun (x : PReset) => x.part != n), failed := m1.esc.failed ++ [n] } }
    (m2.releaseHeld n).wdResume.raise (32 + 8 * n + 2)
  else
    let told := m.getF (Reg.PART_STAT.state n) != 1
    let r := { new with second := true, affected := if told then new.affected else distinct (old.affected ++ new.affected) }
    (m.raise (32 + 8 * n + 2)).isolate r

/-- A partition fault aborts an entry of W2 or deeper (18 R448). -/
def Module.faultAbort (m : Module) (n : Nat) : Module :=
  if m.bit Reg.PWR_STATE.entering && decide (2 ≤ m.getF Reg.PWR_STATE.target) then m.abortEntry 7 n else m

/-- A partition fault (R405, R411, R413, R553). -/
def partFault (n cls : Nat) (core : Option (Nat × Nat)) (m : Module) : Module :=
  let r := m.faultOf n cls core
  let m1 := m.logFault r
  let st := m.getF (Reg.PART_STAT.state n)
  if m.oos || decide (4 ≤ st) then m1
  else if st = 0 then (m1.faultAbort n).isolate r
  else match m1.preset n with
    | none => m1
    | some old => (m1.faultAbort n).resetFails old r

def execPartitionFaultDetect (n : Fin 8) (fault : PartFault) (s : State) : Host.Outcome State Fault Refusal :=
  s.go (match fault with
    | .coreParity c t => partFault n.val 1 (some (c.val, t.val))
    | .storeEcc c t => partFault n.val 2 (some (c.val, t.val))
    | .netStop => partFault n.val 4 none
    | .power => partFault n.val 5 none)

/-- A unit of the partition has advanced none of its work for 10 ms (R403); no core is named for the network stop. -/
def execUnitHang (n : Fin 8) (unit : Option (Fin 256 × Fin 8)) (s : State) : Host.Outcome State Fault Refusal :=
  s.go (partFault n.val 3 (unit.map (fun u => (u.1.val, u.2.val))))

/-- The driver requests a reset (R415). -/
def partCmdReset (n : Nat) (m : Module) : Module :=
  if m.getF (Reg.PART_STAT.state n) = 0 && !m.oos then partFault n clsHost none m else m

def execPartCmdReset (n : Fin 8) (s : State) : Host.Outcome State Fault Refusal := s.goBar (fun m => partCmdReset n.val (m.setF (Reg.PART_CMD.reset n.val) 1))

/-! ### Escalation (R416, R417) -/

/-- Is an entry in the window that ends at service tick `t`? -/
def Module.inWindow (m : Module) (t : Nat) (e : Nat × Nat) : Bool :=
  decide (t ≤ e.2 + m.getF Reg.LMP_ESC_LIMIT.window * 90000000000)

/-- The last `k` of a list. -/
def lastN {α : Type} (k : Nat) (l : List α) : List α := l.drop (l.length - k)

/-- The entries kept: the last limit - 1 of each partition and of the module. -/
def Module.pruneEntries (m : Module) (l : List (Nat × Nat)) : List (Nat × Nat) :=
  let mine (n : Nat) : List (Nat × Nat) := lastN (m.getF Reg.LMP_ESC_LIMIT.part_limit - 1) (l.filter (fun e => e.1 == n))
  let all := lastN (m.getF Reg.LMP_ESC_LIMIT.mod_limit - 1) l
  l.filter (fun e => all.contains e || (mine e.1).contains e)

/-- Write the counts of the window to LMP_ESC_STAT. -/
def Module.escCounts (m : Module) (l : List (Nat × Nat)) : Module :=
  let counts := (List.range 8).foldl (fun v n => v + min 15 (l.filter (fun e => e.1 == n)).length * 16 ^ n) 0
  (m.setF Reg.LMP_ESC_STAT.part_count counts).setF Reg.LMP_ESC_STAT.mod_count l.length

/-- The resets in the window now (R416). -/
def Module.windowResets (m : Module) : List (Nat × Nat) := m.esc.entries.filter (m.inWindow (m.getF Reg.LMP_SVC_TICKS.ticks))

/-- LMP_ESC_STAT as it is read: the counted resets in the window at this tick (R416, R420). The fault that takes the module out of service is no
reset (R417). -/
def Module.escStat (m : Module) : Module := m.escCounts m.windowResets

/-- The records of a reset (R408). -/
def Module.resetRecords (m : Module) (r : PReset) : Module :=
  let seq := m.getF Reg.LMP_RESET_SEQ.seq
  m.each r.affected (fun m c =>
    if r.named && r.fctx == some c then
      m.faultRecord c (mkRecord (resetWord r.cls true r.part seq) 0x20 c r.core r.thread r.vidx r.instr 0)
    else m.faultRecord c (mkRecord (resetWord r.cls false r.part seq) 0x21 c 0 0 0 0 0))

/-- Step 3: the new fault is counted with the entries in the window, but for a HOST reset, and also for the new reset that follows its failure
(R413, R415); at a limit the module leaves service, else the reset goes on, and waits
from here for a retrain or repair on its channels (R411). -/
def escalationCheck (n : Nat) (m : Module) : Module :=
  match m.preset n with
  | none => m
  | some r =>
    if m.getF (Reg.PART_STAT.state n) != 1 || m.oos then m
    else
      let t := m.getF Reg.LMP_SVC_TICKS.ticks
      let now := m.windowResets
      let counted := r.cls != clsHost || r.second
      let all := if counted then now ++ [(n, t)] else now
      if counted && (decide (m.getF Reg.LMP_ESC_LIMIT.part_limit ≤ (all.filter (fun e => e.1 == n)).length) ||
          decide (m.getF Reg.LMP_ESC_LIMIT.mod_limit ≤ all.length)) then (m.touchSection secService).leaveService
      else
        let m1 := if counted then m.escCounts all else m
        let m2 := if counted then { m1 with esc := { m1.esc with entries := m1.pruneEntries (m1.esc.entries ++ [(n, t)]) } } else m1
        let m3 := ((m2.addF (Reg.PART_STAT.resets n) 1).addF Reg.LMP_RESET_SEQ.seq 1).touchSection secService
        let m4 := if m3.ms.ops.any (fun o => o.running && o.pc / 64 == n) then
            { m3 with esc := { m3.esc with resets := m3.esc.resets.map (fun x => if x.part = n then { x with waitFrom := some m.pilot } else x) } }
          else m3
        (m4.resetRecords r).setF (Reg.PART_STAT.state n) 2

def execEscalationCheck (n : Fin 8) (s : State) : Host.Outcome State Fault Refusal := s.go (escalationCheck n.val)

/-! ### The rest of the reset (R411, R412; 12 R293-R298) -/

/-- Step 4: once no retrain or repair runs on its channels, the reset is applied and the channels are held. -/
def partitionResetApply (n : Nat) (m : Module) : Module :=
  if m.getF (Reg.PART_STAT.state n) != 2 || (m.preset n).isNone || m.ms.ops.any (fun o => o.running && o.pc / 64 == n) then m
  else
    let m1 := (m.zeroPart n).each ((List.range 64).map (fun i => 64 * n + i)) (fun m pc => m.setHeld pc true)
    let m2 := { m1 with esc := { m1.esc with holds := m1.esc.holds.filter (fun x => x != n) ++ [n] } }
    m2.setF (Reg.PART_STAT.state n) 3

def execPartitionResetApply (n : Fin 8) (s : State) : Host.Outcome State Fault Refusal := s.go (partitionResetApply n.val)

/-- Step 5: the memory phase ends; waiting requests are performed and deferred operations start. Channels that could not be trained have
failed. -/
def partitionHoldEnd (n : Nat) (failed : List Nat) (m : Module) : Module :=
  if !m.esc.holds.contains n then m
  else
    let m1 := { m with esc := { m.esc with holds := m.esc.holds.filter (fun x => x != n) } }
    let good := ((List.range 64).filter (fun i => !failed.contains i)).map (fun i => 64 * n + i)
    let m2 := ((m1.each good Module.endHold).startDeferred n).xferPoke
    m2.each (failed.map (fun i => 64 * n + i)) Module.channelFailed

def execPartitionHoldEnd (n : Fin 8) (failed : List (Fin 64)) (s : State) : Host.Outcome State Fault Refusal :=
  s.go (partitionHoldEnd n.val (failed.map (fun i => i.val)))

/-- Step 7: READY, after the memory phase. -/
def partitionSelfTestEnd (n : Nat) (m : Module) : Module :=
  if m.getF (Reg.PART_STAT.state n) != 3 || m.esc.holds.contains n || (m.preset n).isNone then m
  else
    let m1 := (m.zeroPart n).setF (Reg.PART_STAT.state n) 0
    ({ m1 with esc := { m1.esc with resets := m1.esc.resets.filter (fun (x : PReset) => x.part != n) } }).wdResume.raise (32 + 8 * n + 1)

def execPartitionSelfTestEnd (n : Fin 8) (s : State) : Host.Outcome State Fault Refusal := s.go (partitionSelfTestEnd n.val)

/-- A self-test failure, or the 30 ms bound (`bound`), which a wait for a retrain or repair extends, fails a reset (R411, R413). -/
def resetFailure (n : Nat) (bound : Bool) (m : Module) : Module :=
  match m.preset n with
  | none => m
  | some r =>
    if (!bound && m.getF (Reg.PART_STAT.state n) != 3) || (bound && r.waitFrom.isSome) then m
    else
      let m1 := if bound then m.toTick (r.since + 750000 + r.wait) else m
      m1.resetFails r (m1.faultOf n r.cls none)

def execResetFailure (n : Fin 8) (bound : Bool) (s : State) : Host.Outcome State Fault Refusal := s.go (resetFailure n.val bound)

end Sys2Proof.Machine
end

