-- ==== Sys2Proof/Machine/Lamplighter.lean ====
section
/-! DEFINITION. The Lamplighter and the security block (21; 16 R419): mailbox commands, the firmware image, the Thermos, and SPDM. -/

namespace Sys2Proof.Machine

/-! ### The mailbox (R484, Table 21-2) -/

/-- The op of the mailbox command in progress. -/
def Module.mbxOp (m : Module) : Option Nat := m.lmp.mbx.map (fun x => x.1)

/-- A command ends: its outcome is written before busy clears, source 6 is raised; a refusal is a violation of the physical function, and a
signature or nonce failure is counted and raises source 9. -/
def Module.mbxEnd (m : Module) (status detail : Nat) : Module :=
  match m.lmp.mbx with
  | none => m
  | some (op, _, _, _) =>
    let m1 := if status = sViolation then m.accessViolation .pf 3 0x2000010 else m
    let m2 := if 2 ≤ detail && detail ≤ 5 then (m1.addF Reg.SEC_VIOL.auth_fail 1).raise 9 else m1
    let m3 := (((m2.setF Reg.LMP_MBX_STAT.status status).setF Reg.LMP_MBX_STAT.detail detail).setF Reg.LMP_MBX_STAT.op op).addF
      Reg.LMP_MBX_STAT.count 1
    ({ m3 with lmp := { m3.lmp with mbx := none } }.setF Reg.LMP_MBX_STAT.busy 0).raise 6

/-- Run a mailbox command that is in progress: its argument, address and length. -/
def Module.mbxRun (m : Module) (op : Nat) (f : Module → Nat → Nat → Nat → Module) : Module :=
  match m.lmp.mbx with
  | none => m
  | some (o, arg, addr, len) => if o = op then f m arg addr len else m

/-- The ops of Table 21-1. -/
def mbxOps : List Nat := [1, 2, 3, 4, 0x10, 0x11, 0x12, 0x13]

/-- The signed commands of Table 21-1. -/
def signedOps : List Nat := [0x10, 0x11, 0x12, 0x13]

/-- A fresh nonce after every signed command, accepted or refused (R487). -/
def Module.freshNonce (m : Module) : Module :=
  let (m1, w) := m.freeWord
  m1.setF Reg.LMP_AUTH_NONCE.nonce w.toNat

/-- The quad partner that a FW_RECOVER from a partner names (Table 21-1), when it is one and is not lost (R497). -/
def Module.recoverFrom (m : Module) (arg : Nat) : Option Nat :=
  let dev := arg % 2 ^ 16
  if [1, 2, 3].any (fun j => m.partner j == some dev) && !m.routeLost dev then some dev else none

/-- A FW_RECOVER from a partner asks it for its container, on VC7 (R497). -/
def Module.askPartner (m : Module) (arg : Nat) : Module :=
  match m.recoverFrom arg with
  | some dev => if arg / 2 ^ 16 % 2 = 1 && m.getF Reg.LMP_FW_STAT.commit = 2 then m.emitMessage 7 dev 0 (.coll 7 dev 0 [] .askImage) else m
  | none => m

/-- A write of 1 to LMP_MBX_CMD.go: ignored while a command runs; an unknown op ends at once with detail 1, and in ROM recovery every command
but FW_STAGE and FW_RECOVER with detail 8 (R489; DEDUCED, log 54). -/
def mbxStart (m : Module) : Module :=
  if m.bit Reg.LMP_MBX_STAT.busy then m
  else
    let op := m.getF Reg.LMP_MBX_CMD.op
    let x := (op, m.getF Reg.LMP_MBX_CMD.arg, m.getF Reg.LMP_MBX_ADDR.addr, m.getF Reg.LMP_MBX_LEN.len)
    let m1 := { m with lmp := { m.lmp with mbx := some x } }.setF Reg.LMP_MBX_STAT.busy 1
    if !mbxOps.contains op then m1.mbxEnd sViolation 1
    else if m.recovery then (if op = 1 || op = 3 then m1 else (if signedOps.contains op then m1.freshNonce else m1).mbxEnd sViolation 8)
    else if op = 1 then m1.setF Reg.LMP_FW_STAT.state 1
    else if op = 2 && m1.lmp.staged.isSome then m1.setF Reg.LMP_FW_STAT.state 3
    else if op = 3 then m1.askPartner (m.getF Reg.LMP_MBX_CMD.arg)
    else m1

/-- The firmware state between commands: STAGED with a staged image, else COMMITTING or RUNNING. -/
def Module.fwIdle (m : Module) : Module :=
  m.setF Reg.LMP_FW_STAT.state
    (if m.lmp.staged.isSome then 2 else if m.getF Reg.LMP_FW_STAT.commit = 1 then 4 else 0)

/-! ### Firmware (R489-R497) -/

/-- A container is refused. -/
def Module.refuseImage (m : Module) (detail : Nat) : Module := (m.addF Reg.SEC_VIOL.fw_fail 1).mbxEnd sViolation detail

/-- The container of a command's host buffer; none when the host cannot be reached. -/
def Module.hostContainer (m : Module) (addr len : Nat) : Option (List Byte) :=
  if m.linkUp then some (Memory.bytes m.ms.host addr len) else none

/-- Count the read of a container from host memory (20 Table 20-2). -/
def Module.countContainer (m : Module) (addr len : Nat) : Module := m.touch { ctx := 0, master := 4, lc := false } (.host addr) len false

/-- A recovery's write of a container to the spare blocks (R497): one that fails leaves the commit FAILED, one that succeeds sets commit to 0;
source 8 says that it ended. -/
def Module.recoverWrite (m : Module) (l : List Byte) (ok : Bool) : Module :=
  if ok then ((m.writeImage imageMax l).setF Reg.LMP_FW_STAT.commit 0).raise 8
  else (m.breakImage.setF Reg.LMP_FW_STAT.commit 2).raise 8

/-- In ROM recovery a valid container is committed and started (R489, R497). -/
def Module.romCommit (m : Module) (l : List Byte) (ok : Bool) : Module :=
  let d := imageDetail (m.getF Reg.SEC_SVN.floor) l
  if d != 0 then m.refuseImage d
  else if !ok then (m.recoverWrite l false).mbxEnd sPartFailed 0x0A
  else
    let m1 := ((m.recoverWrite l true).runImage (imageOf l) none).setF Reg.LMP_FW_STAT.state 0
    ((m1.raiseFloor).bootDone.evalLines).mbxEnd sDone 0

/-- FW_STAGE: the container is verified and loaded beside the running image, its programs into the inactive banks (R492); `ok` says whether the flash write of a recovery succeeds. -/
def fwStage (ok : Bool) (m : Module) : Module :=
  m.mbxRun 1 (fun m _ addr len =>
    let idle (m : Module) : Module := if m.recovery then m else m.fwIdle
    if addr % 4096 != 0 then (idle m).mbxEnd sViolation 1
    else match m.hostContainer addr len with
      | none => (idle m).mbxEnd sPeerLost 0x0B
      | some l =>
        let m := m.countContainer addr len
        if m.recovery then m.romCommit l ok
        else
          let d := imageDetail (m.getF Reg.SEC_SVN.floor) l
          if d != 0 then m.fwIdle.refuseImage d
          else
            let x := imageOf l
            let m1 := { m with lmp := { m.lmp with staged := some x, stagedSource := (addr, len), other := some x } }
            (((m1.setF Reg.LMP_CORE.alt_ready 1).setF Reg.LMP_FW_STAT.staged_svn x.svn).fwIdle).mbxEnd sDone 0)

def execFwStage (ok : Bool) (s : State) : Host.Outcome State Fault Refusal := s.go (fwStage ok)

/-- Nothing is staged any more. -/
def Module.dropStaged (m : Module) : Module :=
  (({ m with lmp := { m.lmp with staged := none, other := none } }).setF Reg.LMP_CORE.alt_ready 0).setF Reg.LMP_FW_STAT.staged_svn 0

/-- FW_SWITCH: waits from a partition's isolation until it is READY or FAILED (16 R414); holds delivery, and waits while a voltage request
is open (R493); then the alternate core serves with the staged image, the processors' banks change for work that starts from now on (R494), source 7 is raised, and
the commit begins. -/
def fwSwitch (m : Module) : Module :=
  m.mbxRun 2 (fun m _ _ _ =>
    match m.lmp.staged with
    | none => m.mbxEnd sViolation 8
    | some x =>
      let busy := (List.range 8).any (fun n => decide (1 ≤ m.getF (Reg.PART_STAT.state n)) && decide (m.getF (Reg.PART_STAT.state n) ≤ 3))
      if busy then m
      else if m.pwr.rails.any (fun e => e.2.pending) then m.setF Reg.EVC_GATE.lhold 1
      else
        let m1 := (m.dropStaged.runImage x (some m.lmp.stagedSource)).setF Reg.LMP_CORE.serving
          (1 - m.getF Reg.LMP_CORE.serving)
        let m1 := { m1 with lmp := { m1.lmp with bank := !m1.lmp.bank, other := some m.lmp.image } }
        let m2 := (m1.setF Reg.LMP_FW_STAT.commit 1).fwIdle.unholdEvents
        (m2.raise 7).mbxEnd sDone 0)

def execFwSwitch (s : State) : Host.Outcome State Fault Refusal := s.go fwSwitch

/-- The commit fails: the module keeps running the image from RAM. -/
def Module.commitFails (m : Module) : Module := ((m.setF Reg.LMP_FW_STAT.commit 2).fwIdle).raise 8

/-- The commit after a switch: the container is read again and written to flash; `ok` says whether the write and the read-back succeed. -/
def fwCommit (ok : Bool) (m : Module) : Module :=
  if m.getF Reg.LMP_FW_STAT.commit != 1 then m
  else match m.lmp.source.bind (fun a => m.hostContainer a.1 a.2) with
    | none => m.commitFails
    | some l =>
      let m := m.lmp.source.elim m (fun a => m.countContainer a.1 a.2)
      if Config.sha384 (l.drop 4096) != m.lmp.image.digest then m.commitFails
      else if !ok then m.breakImage.commitFails
      else ((m.writeImage 0 l).setF Reg.LMP_FW_STAT.commit 0).raiseFloor.fwIdle

def execFwCommit (ok : Bool) (s : State) : Host.Outcome State Fault Refusal := s.go (fwCommit ok)

/-- FW_RECOVER: from the host buffer, or from the quad partner that the argument names (`partner` is what it sent, none when it has no such
image or cannot be reached); a failed commit is made good in the spare blocks. -/
def fwRecover (partner : Option (List Byte)) (ok : Bool) (m : Module) : Module :=
  m.mbxRun 3 (fun m arg addr len =>
    let fromPartner := arg / 2 ^ 16 % 2 == 1
    let src := if fromPartner then (m.recoverFrom arg).bind (fun _ => partner) else m.hostContainer addr len
    if !fromPartner && addr % 4096 != 0 then m.mbxEnd sViolation 1
    else if m.recovery then
      if fromPartner then m.mbxEnd sViolation 8
      else match src with
        | none => m.mbxEnd sPeerLost 0x0B
        | some l => (m.countContainer addr len).romCommit l ok
    else if m.getF Reg.LMP_FW_STAT.commit != 2 then m.mbxEnd sViolation 8
    else match src with
      | none => m.mbxEnd sPeerLost 0x0B
      | some l =>
        let m := if fromPartner then m else m.countContainer addr len
        let d := imageDetail (m.getF Reg.SEC_SVN.floor) l
        if d != 0 then m.refuseImage d
        else if (imageOf l).digest != m.lmp.image.digest then m.mbxEnd sPeerLost 0x0B
        else if !ok then (m.recoverWrite l false).fwIdle.mbxEnd sPartFailed 0x0A
        else (m.recoverWrite l true).raiseFloor.fwIdle.mbxEnd sDone 0)

def execFwRecover (partner : Option (List Byte)) (ok : Bool) (s : State) : Host.Outcome State Fault Refusal := s.go (fwRecover partner ok)

/-! ### The Thermos (R499) -/

/-- THERMOS_SYNC ends when every section is written. -/
def execThermosSync (s : State) : Host.Outcome State Fault Refusal :=
  s.go (fun m => m.mbxRun 4 (fun m _ _ _ => m.mirrorAll.mbxEnd sDone 0))

/-- A scheduled mirror, which needs flash and so main power; the service section's also comes every 2²⁶ ticks (R416). -/
def thermosMirror (sec : Nat) (m : Module) : Module :=
  if m.mainOn && (m.lmp.dirty.contains sec || sec = secService) then m.mirrorSection sec else m

def execThermosMirror (sec : Fin 4) (s : State) : Host.Outcome State Fault Refusal := s.go (thermosMirror sec.val)

/-! ### Signed commands (R486, R487) -/

/-- The keys that signed blocks are checked with: the owner's, else the service keys. -/
def Module.blockKeys (m : Module) : List Byte × List Byte := m.lmp.owner.getD (Config.serviceKey, Config.servicePqKey)

/-- The detail of the first check of a signed block that fails: form, signatures, nonce and serial. `used` counts the parameter bytes. -/
def Module.blockDetail (m : Module) (op addr len used : Nat) (l : List Byte) : Nat :=
  let n := if op = 0x13 then 5445 else 3461
  if addr % 4096 != 0 || len != n || numAt l 0 1 != op || !allZero ((l.drop 1).take 7) || !allZero ((l.drop (24 + used)).take (64 - used)) then 1
  else
    let d := Config.sha384 (l.take 88)
    let s := sigDetail (Config.ed25519Ok m.blockKeys.1 d ((l.drop 88).take 64)) (Config.mldsaOk m.blockKeys.2 d ((l.drop 152).take 3309))
    if s != 0 then s
    else if numAt l 8 8 != m.getF Reg.SEC_DEVSN.serial || numAt l 16 8 != m.getF Reg.LMP_AUTH_NONCE.nonce then 5
    else 0

/-- Run a signed command: `check` gives detail 7 or 8, `act` its effect. -/
def Module.signed (m : Module) (op used : Nat) (check : Module → List Byte → Nat) (act : Module → List Byte → Module) : Module :=
  m.mbxRun op (fun m _ addr len =>
    match m.hostContainer addr len with
    | none => m.freshNonce.mbxEnd sPeerLost 0x0B
    | some l =>
      let m := m.countContainer addr len
      let d := m.blockDetail op addr len used l
      let e := if d = 0 then check m l else d
      if e != 0 then m.freshNonce.mbxEnd sViolation e else (act m l).freshNonce.mbxEnd sDone 0)

/-- R419: entries cleared, every partition reset, a new incarnation, the ports enabled, source 1. -/
def Module.returnToService (m : Module) : Module :=
  let m1 := { m with esc := { resets := [], holds := [], entries := [], failed := [] }, ms := { m.ms with failed := [] } }
  let m2 := ((m1.setF Reg.LMP_ESC_STAT.oos 0).setF Reg.LMP_ESC_STAT.mod_count 0).setF Reg.LMP_ESC_STAT.part_count 0
  let m3 := m2.setDomains (m2.getF Reg.PWR_STATE.state)
  let m4 := m3.each (List.range 8) (fun m n =>
    let m1 := ((m.zeroPart n).setF (Reg.PART_STAT.state n) (if m.domOn n then 0 else 5)).addF (Reg.PART_STAT.resets n) 1
    (m1.addF Reg.LMP_RESET_SEQ.seq 1).releaseHeld n)
  let m5 := (m4.addF Reg.FAB_DEVID.incarnation 1).touchSection secService
  let m6 := m5.setFab { m5.fab with noData := false, exitAt := none, exitOwed := [], aliveOn := true }
  (((m6.each (List.range 16) Module.portEval).tearPoke).wdResume).raise 1

def execReturnToService (s : State) : Host.Outcome State Fault Refusal :=
  s.go (fun m => m.signed 0x10 0 (fun m _ => if m.oos then 0 else 8) (fun m _ => m.returnToService))

/-- SET_LIMITS: window 1-255, mod_limit and part_limit 2-15. -/
def setLimits (m : Module) : Module :=
  m.signed 0x11 3
    (fun _ l => if decide (1 ≤ numAt l 24 1) && decide (2 ≤ numAt l 25 1) && decide (numAt l 25 1 ≤ 15) && decide (2 ≤ numAt l 26 1) &&
      decide (numAt l 26 1 ≤ 15) then 0 else 7)
    (fun m l =>
      let m1 := ((m.setF Reg.LMP_ESC_LIMIT.window (numAt l 24 1)).setF Reg.LMP_ESC_LIMIT.mod_limit (numAt l 25 1)).setF
        Reg.LMP_ESC_LIMIT.part_limit (numAt l 26 1)
      ({ m1 with esc := { m1.esc with entries := m1.pruneEntries m1.esc.entries } }).escStat.touchSection secService)

def execSetLimits (s : State) : Host.Outcome State Fault Refusal := s.go setLimits

/-- FACTORY_DEFAULTS: the settings and training sections are cleared in SRAM and in both mirrors (R501). -/
def Module.clearSettings (m : Module) : Module :=
  let l := m.lmp
  let drop (x : SMap (Option Mirror)) : SMap (Option Mirror) := SMap.set none (SMap.set none x secSettings none) secTraining none
  ({ m with lmp := { l with settings := [], training := [], sram := l.sram.filter (fun s => s != secSettings && s != secTraining),
                            dirty := l.dirty.filter (fun s => s != secSettings && s != secTraining),
                            mirA := drop l.mirA, mirB := drop l.mirB } }).addF Reg.LMP_THERMOS.mirrors 4

def execFactoryDefaults (s : State) : Host.Outcome State Fault Refusal :=
  s.go (fun m => m.signed 0x12 0 (fun _ _ => 0) (fun m _ => m.clearSettings))

/-- ENROL_OWNER: the parameter is the digest of the new keys. -/
def enrolOwner (m : Module) : Module :=
  m.signed 0x13 48
    (fun _ l => if Config.sha384 ((l.drop 3461).take 1984) == (l.drop 24).take 48 then 0 else 7)
    (fun m l =>
      let ed := (l.drop 3461).take 32
      let ml := (l.drop 3493).take 1952
      let m1 := { m with lmp := { m.lmp with owner := some (ed, ml) } }
      ((m1.setF Reg.SEC_STAT.owner 1).setF Reg.SEC_STAT.owner_id (numAt l 24 6)).touchSection secSecurity)

def execEnrolOwner (s : State) : Host.Outcome State Fault Refusal := s.go enrolOwner

/-! ### Takeover (R483) -/

/-- 50,000 ticks without a beat: the alternate core takes over with the image in flash; a staged image is discarded, partition resets fail,
and with no valid image in flash the module leaves service. -/
def takeover (m : Module) : Module :=
  if m.recovery || !m.pwr.mainGood then m
  else
    let m0 := (m.toTick (m.fab.beatAt + 50000)).commitCut
    let m1 := if m0.lmp.staged.isNone then m0 else m0.dropStaged
    let m2 := match m1.mbxOp with
      | some 1 => m1.fwIdle.mbxEnd sTimedOut 9
      | some 2 => m1.unholdEvents.fwIdle.mbxEnd sTimedOut 9
      | _ => m1
    let m2 := m2.readFlash
    match m2.committed with
    | none => m2.leaveService
    | some x =>
      let m3 := ((m2.runImage x none).setF Reg.LMP_FW_STAT.commit 0).fwIdle
      let m4 := ((m3.setF Reg.LMP_CORE.serving (1 - m3.getF Reg.LMP_CORE.serving)).setF Reg.LMP_CORE.took_over 1).beat.raise 11
      m4.each m4.esc.resets (fun m r => m.resetFails r (m.faultOf r.part r.cls none))

def execLamplighterTakeover (s : State) : Host.Outcome State Fault Refusal := s.go takeover

/-! ### SPDM (R505-R507) -/

/-- A request through the DOE mailbox: it wakes the module, and it is answered while the keys are derived; it ends any pairing of
GET_PQ_SIG with an earlier response. -/
def Module.spdm (m : Module) (f : Module → Module × SpdmResp) : Module :=
  if !m.linkUp || m.recovery || !m.pwr.mainGood then m
  else
    let m1 := m.hostWake
    if 3 ≤ m1.getF Reg.PWR_STATE.state then m1
    else
      let (m2, r) := f { m1 with lmp := { m1.lmp with pair := none } }
      m2.emit (.spdm r)

def execGetVersion (s : State) : Host.Outcome State Fault Refusal := s.go (fun m => m.spdm (fun m => (m, .version (m.getF Reg.SEC_ID.spdm))))

/-- The capabilities and algorithms of Table 21-9: slot 0 only, and neither secure sessions, mutual authentication, SET_CERTIFICATE nor GET_CSR. -/
def spdmCaps : SpdmCaps :=
  { certificates := true, challenge := true, signedMeasurements := true, slots := [0], keyExchange := false, pskExchange := false,
    mutualAuth := false, setCertificate := false, csr := false }

def spdmAlgs : SpdmResp := .algorithms .eddsaEd25519 .sha384 .sha384 .dmtf

def execGetCapabilities (s : State) : Host.Outcome State Fault Refusal := s.go (fun m => m.spdm (fun m => (m, .capabilities spdmCaps)))

def execNegotiateAlgorithms (s : State) : Host.Outcome State Fault Refusal := s.go (fun m => m.spdm (fun m => (m, spdmAlgs)))

def execGetDigests (s : State) : Host.Outcome State Fault Refusal :=
  s.go (fun m => m.spdm (fun m => (m, .digests (Config.sha384 m.chain))))

/-- A portion of a chain: its bytes and how many follow it. -/
def portion (l : List Byte) (off len : Nat) : List Byte × Nat := ((l.drop off).take len, l.length - (off + len))

/-- Only slot 0 is supported. -/
def execGetCertificate (slot : BitVec 8) (off len : BitVec 16) (s : State) : Host.Outcome State Fault Refusal :=
  s.go (fun m => m.spdm (fun m =>
    if slot != 0 then (m, .error true)
    else
      let p := portion m.chain off.toNat len.toNat
      (m, .certificate p.1 p.2)))

/-- The message of a signed response: the requester's nonce, a fresh one, and what is answered. -/
def Module.signedMessage (m : Module) (nonce data : List Byte) : Module × List Byte :=
  let (m1, fresh) := m.freeByteList 32
  let msg := nonce ++ fresh ++ data
  ({ m1 with lmp := { m1.lmp with pair := some msg } }, msg)

def execChallenge (slot : BitVec 8) (nonce : List Byte) (s : State) : Host.Outcome State Fault Refusal :=
  s.go (fun m => m.spdm (fun m =>
    if slot != 0 then (m, .error true)
    else
      let r := m.signedMessage nonce (Config.sha384 m.chain)
      (r.1, .challengeAuth r.2 (Config.ed25519Sign m.attKeys.ed r.2))))

/-- The bytes of the Thermos settings section: field keys and values. -/
def Module.settingsBytes (m : Module) : List Byte := m.lmp.settings.flatMap (fun e => leBytes 8 e.1 ++ leBytes 8 e.2)

/-- The measurement blocks of Table 21-10. -/
def Module.measurement (m : Module) (i : Nat) : List Byte :=
  match i with
  | 1 => Config.romDigest
  | 2 => Config.sha384 m.lmp.image.hdr
  | 3 => m.lmp.image.digest
  | 4 => leBytes 2 m.lmp.image.svn ++ leBytes 2 (m.getF Reg.SEC_SVN.floor)
  | 5 => Config.sha384 m.settingsBytes
  | _ => leBytes 1 (m.getF Reg.PWR_CTRL.debug) ++ leBytes 1 (m.getF Reg.MEM_CTRL.maint)

/-- Measurement blocks by index, all of them for 0xFF, none for 0; with a signature when asked. -/
def getMeasurements (index : Nat) (sign : Bool) (nonce : List Byte) (m : Module) : Module × SpdmResp :=
  if 7 ≤ index && index != 255 then (m, .error false)
  else
    let ids := if index = 0 then [] else if index = 255 then [1, 2, 3, 4, 5, 6] else [index]
    let blocks := ids.map (fun i => (i, m.measurement i))
    if !sign then (m, .measurements blocks none)
    else
      let r := m.signedMessage nonce (blocks.flatMap (fun b => leBytes 1 b.1 ++ b.2))
      (r.1, .measurements blocks (some (Config.ed25519Sign m.attKeys.ed r.2)))

def execGetMeasurements (index : BitVec 8) (sign : Bool) (nonce : List Byte) (s : State) : Host.Outcome State Fault Refusal :=
  s.go (fun m => m.spdm (getMeasurements index.toNat sign nonce))

def execGetPqChain (off len : BitVec 16) (s : State) : Host.Outcome State Fault Refusal :=
  s.go (fun m => m.spdm (fun m =>
    let p := portion m.pqChain off.toNat len.toNat
    (m, .pqChain p.1 p.2)))

/-- GET_PQ_SIG is answered only as the next request after a signed response. -/
def execGetPqSig (s : State) : Host.Outcome State Fault Refusal :=
  s.go (fun m =>
    let kept := m.hostWake.lmp.pair
    m.spdm (fun m => match kept with
      | some msg => (m, .pqSig (Config.mldsaSign m.attKeys.pq msg))
      | none => (m, .error false)))

def execSpdmUnsupported (s : State) : Host.Outcome State Fault Refusal := s.go (fun m => m.spdm (fun m => (m, .error true)))

end Sys2Proof.Machine
end

