-- ==== Sys2Proof/Machine/Pmc.lean ====
section
/-! DEFINITION. The performance-counter reader (20 R468, R474-R479). A virtual function reads zero there, its writes are ignored, and the
access is a violation (R476). -/

namespace Sys2Proof.Machine

def Module.setPmc (m : Module) (x : Pmc) : Module := { m with pmc := x }

/-- Run a PMC access of a requester at an offset of BAR0. -/
def State.goPmc (s : State) (r : Requester) (off : Nat) (isRead : Bool) (f : Module → Module) : Host.Outcome State Fault Refusal :=
  s.goByAs r isRead (fun m => match r with
    | .vf _ => if isRead then (m.accessViolation r 3 off).emit (.readData 0) else m.accessViolation r 3 off
    | _ => f m)

/-- A counter in the selected view: 0b01 is the shadow, every other value the live view; an index above 263 reads zero. -/
def Module.counter (m : Module) (k : Nat) : Nat :=
  if 264 ≤ k then 0 else if m.getF Reg.PMC_SEL.view = 1 then SMap.get 0 m.pmc.shadow k else SMap.get 0 m.pmc.live k

/-- A read of PMC_DATA latches the odd partner of a chained pair. -/
def pmcDataRead (m : Module) : Module :=
  let k := m.getF Reg.PMC_SEL.index
  let hi := if k % 2 = 0 && m.bit (Reg.PMC_CFG.chain (k + 1)) then m.counter (k + 1) else 0
  (m.setF Reg.PMC_DATA_HI.value hi).readOut 0x300020 (m.counter k)

def execPmcDataRead (r : Requester) (s : State) : Host.Outcome State Fault Refusal := s.goPmc r 0x300020 true pmcDataRead

/-- A write of PMC_DATA replaces a counter of the live view; by how much is kept for a snapshot of the same tick (R478). -/
def pmcDataWrite (v : Nat) (m : Module) : Module :=
  let k := m.getF Reg.PMC_SEL.index
  let m := m.endCapture 0x300020
  if 264 ≤ k || m.getF Reg.PMC_SEL.view = 1 then m
  else
    let by_ := v % 2 ^ 48 + 2 ^ 48 - SMap.get 0 m.pmc.live k
    m.setPmc { m.pmc with live := SMap.set 0 m.pmc.live k (v % 2 ^ 48),
                          wrote := SMap.modify 0 m.pmc.wrote k (fun x => (x + by_) % 2 ^ 48) }

def execPmcDataWrite (r : Requester) (v : BitVec 48) (s : State) : Host.Outcome State Fault Refusal :=
  s.goPmc r 0x300020 false (pmcDataWrite v.toNat)

/-- The counters without the writes of this pilot tick, which do not reach a copy made in it (R478). -/
def Module.unwritten (m : Module) : SMap Nat :=
  m.pmc.wrote.foldl (fun l e => SMap.modify 0 l e.1 (fun x => (x + 2 ^ 48 - e.2) % 2 ^ 48)) m.pmc.live

/-- A write of 1 to PMC_CTRL.snap: the copy is taken and its tick stored; ignored while a copy runs. -/
def pmcSnap (m : Module) : Module :=
  if m.bit Reg.PMC_STAT.snap_busy then m
  else
    let m1 := m.setPmc { m.pmc with shadow := m.unwritten, snapAt := some m.pilot }
    (m1.setF Reg.PMC_STAT.snap_busy 1).setF Reg.PMC_SNAPT.tick m.pilot

def execPmcSnap (r : Requester) (s : State) : Host.Outcome State Fault Refusal :=
  s.goPmc r 0x300008 false (fun m => pmcSnap (m.setF Reg.PMC_CTRL.snap 1))

/-- The snapshot completes: source 334. -/
def pmcSnapDone (m : Module) : Module :=
  if m.pmc.snapAt.isSome then
    (((m.setPmc { m.pmc with snapAt := none }).setF Reg.PMC_STAT.snap_busy 0).setF Reg.PMC_STAT.snap_valid 1).raise 334
  else m

def execPmcSnapDone (s : State) : Host.Outcome State Fault Refusal := s.go pmcSnapDone

/-- A window begins with empty byte counts. -/
def Module.openWindow (m : Module) (at' : Nat) : Module :=
  (m.setPmc { m.pmc with tx := [], rx := [], winEnd := at' + max 1 (m.getF Reg.PMC_WIN.ticks) }).setF Reg.PMC_WIN.active 1

/-- A write of 1 to PMC_WIN.start; ignored while a window runs. -/
def pmcWinStart (m : Module) : Module := if m.bit Reg.PMC_WIN.active then m else m.openWindow m.pilot

def execPmcWinStart (r : Requester) (s : State) : Host.Outcome State Fault Refusal :=
  s.goPmc r 0x300048 false (fun m => pmcWinStart (m.setF Reg.PMC_WIN.start 1))

/-- A window ends: bytes in units of 256, source 335, and with repeat the next window in the same tick. -/
def pmcWindowEnd (m : Module) : Module :=
  if !m.bit Reg.PMC_WIN.active then m
  else
    let m1 := m.toTick m.pmc.winEnd
    let m2 := m1.each (List.range 16) (fun m p =>
      (m.setF (Reg.PMC_PBW.tx p) (SMap.get 0 m.pmc.tx p / 256)).setF (Reg.PMC_PBW.rx p) (SMap.get 0 m.pmc.rx p / 256))
    let m3 := if m2.bit Reg.PMC_WIN.rep then m2.openWindow m.pmc.winEnd else m2.setF Reg.PMC_WIN.active 0
    m3.raise 335

def execPmcWindowEnd (s : State) : Host.Outcome State Fault Refusal := s.go pmcWindowEnd

end Sys2Proof.Machine
end

