-- ==== Sys2Proof/Machine/RegWrite.lean ====
section
/-! DEFINITION. Access to BAR0 registers by offset (00 R5-R9, R13; 22 R513, R514, R529, R530): writes to registers that have no row of
their own, plain reads, and accesses that are violations. -/

namespace Sys2Proof.Machine

/-! ### Where an access lands (22 Table 22-2, R514, R529) -/

/-- What an offset of BAR0 reaches for a requester: a register, a byte of a function's MSI-X table and PBA, nothing, or what the function
may not reach. -/
inductive BarPlace where
  | reg (off : Nat)
  | msix (fn off : Nat)
  | nothing
  | denied
  deriving DecidableEq, Repr

def barPlace (r : Requester) (off : Nat) : BarPlace :=
  match r with
  | .vf k =>
    let n := k.val + 1
    if 0x10000 ≤ off ∧ off < 0x11000 then .reg (off + 0x1000 * n)
    else if 0x80000 ≤ off ∧ off < 0x100000 then .msix n (off - 0x80000)
    else if 0x101000 ≤ off ∧ off < 0x101018 then .reg (off + 0x100 * (n + 1))
    else .denied
  | _ =>
    if 0x80000 ≤ off ∧ off < 0x100000 then .msix 0 (off - 0x80000)
    else if off < 0x3800000 then .reg off
    else .nothing

/-- Is an access naturally aligned and of 4 or 8 bytes (R7, R8)? -/
def barAligned (off size : Nat) : Bool := (size == 4 || size == 8) && off % size == 0

/-- Does an offset lie in the LMP or the SEC block? -/
def inLmp (off : Nat) : Bool := decide (0x2000000 ≤ off) && decide (off < 0x3000000)

/-- Does ROM recovery leave an access unanswered (21 R489)? -/
def Module.unanswered (m : Module) (r : Requester) (off : Nat) : Bool := m.recovery && r != .lamplighter && !inLmp off

/-! ### Fields under a write (R7, R9) -/

/-- A write to a register: its 8-byte offset, the lowest and highest bits written, and the data in the register's bit positions. -/
structure RegW where
  off : Nat
  lo : Nat
  hi : Nat
  d : Nat

/-- The write of `size` bytes at an offset. -/
def regW (off size v : Nat) : RegW :=
  if size = 8 then { off := off, lo := 0, hi := 63, d := v % 2 ^ 64 }
  else if off % 8 = 0 then { off := off, lo := 0, hi := 31, d := v % 2 ^ 32 }
  else { off := off / 8 * 8, lo := 32, hi := 63, d := v % 2 ^ 32 * 2 ^ 32 }

/-- Does the write reach a bit of a field? -/
def RegW.touches (w : RegW) (f : Fld) : Bool := decide (f.lo ≤ w.hi) && decide (w.lo ≤ f.hi)

/-- Does a side effect of a field fire: the written half holds its highest bit? -/
def RegW.fires (w : RegW) (f : Fld) : Bool := f.reg == w.off && decide (w.lo ≤ f.hi) && decide (f.hi ≤ w.hi)

/-- A field's value after the write: the written bits replaced. -/
def RegW.merge (w : RegW) (f : Fld) (cur : Nat) : Nat :=
  let a := max f.lo w.lo - f.lo
  let b := min f.hi w.hi + 1 - f.lo
  cur / 2 ^ b * 2 ^ b + w.d / 2 ^ f.lo % 2 ^ b / 2 ^ a * 2 ^ a + cur % 2 ^ a

/-- Is a one-bit field written with 1? -/
def RegW.one (w : RegW) (f : Fld) : Bool := w.fires f && w.d / 2 ^ f.lo % 2 == 1

/-- Is a field of a family of registers at `base` with 8 bytes each? -/
def Fld.inFamily (f : Fld) (base count : Nat) : Bool := decide (base ≤ f.reg) && decide (f.reg < base + 8 * count)

/-- Does a written value leave a field unchanged: the limits of single fields (10 R235; 12 R274; 13 R324; 16 R420; 17 R435; 18 R453; 19 R467;
20 R472; 22 R519), and fields whose change is an operation of their own? -/
def Module.keeps (m : Module) (f : Fld) (v : Nat) : Bool :=
  let page := f.reg - 0x10000
  let inPage := decide (0x10000 ≤ f.reg) && decide (f.reg < 0x50000)
  let q := (page % 0x1000 - 0x100) / 0x20
  (f.inFamily 0x2001000 64 && f.lo == 62 && decide (2 ≤ v)) || (f.inFamily 0x108000 512 && f.lo == 8 && decide (64 < v)) ||
  (f.key == Reg.MEM_CARVE.pending.key && decide (24 < v)) ||
  ((f.reg == Reg.SQ_FS_BASE.base.reg || f.reg == Reg.SQ_FS_SIZE.units.reg) && m.getF Reg.SQ_FS_USE.handles != 0) ||
  (f.reg == Reg.HMP_BLK_RGN.base.reg && m.getF Reg.HMP_BLK_USE.slots != 0) ||
  (f.reg == Reg.FAB_DEVID.id.reg && !(m.portsIn 0xFFFF pVerify ++ m.portsIn 0xFFFF pActive).isEmpty) ||
  f.key == Reg.MEM_CTRL.maint.key || f.reg == Reg.PWR_CTRL.max_state.reg || f.reg == Reg.PWR_LAT_TOL.value.reg ||
  f.reg == Reg.PMC_DATA.value.reg ||
  (f.lo == 62 && decide (0x100000030 ≤ f.reg) && decide (f.reg < 0x100004230) && f.reg % 0x80 == 0x30) || f.reg == Reg.HMP_RS_DATA.entry.reg || f.reg == Reg.FAB_RT_DATA.entry.reg ||
  (inPage && page % 0x20 == 0x10 && decide (0x100 ≤ page % 0x1000)) ||
  (inPage && page % 0x20 == 0 && decide (0x100 ≤ page % 0x1000) && m.bit (Reg.HIF_HQSTAT.busy (page / 0x1000) q))

/-- What a written value is stored as: a window of 0 ticks as 1 (20 R479), and freeze stays set when hardware set it in this pilot tick
(20 R473). -/
def Module.storedAs (m : Module) (f : Fld) (v : Nat) : Nat :=
  if f.key = Reg.PMC_WIN.ticks.key then max 1 v
  else if f.key = Reg.PMC_CTRL.freeze.key && m.pmc.frzAt == some m.pilot then 1
  else v

/-- Where the low half of a write to PMC_OVFk waits for the write of the high half, which clears (R7). -/
def ovfLatch (k : Nat) : Fld := { reg := 0x200000000 + 8 * k, hi := 31, lo := 0, acc := .rw, rst := 0, ret := false }

/-- Write one field by its access code (R9). A W1S bit written with 1 is set; hardware clears it at the next pilot tick (DESIGN CHOICE,
log 74). -/
def Module.writeField (m : Module) (w : RegW) (f : Fld) : Module :=
  let v := w.merge f (m.getF f)
  if !w.touches f then m
  else
    match f.acc with
    | .rw => if m.keeps f v then m else m.setRet f (m.storedAs f v)
    | .wo => m.setF f v
    | .w1c =>
      if f.inFamily 0x300100 5 then
        let latch := ovfLatch ((f.reg - 0x300100) / 8)
        let ones := if w.lo = 32 then w.d + m.getF latch else w.d
        if w.fires f then (m.setF f (m.getF f - Nat.land (m.getF f) ones)).setF latch 0 else m.setF latch w.d
      else if w.one f then m.setF f 0 else m
    | .w1s => if w.one f then m.setF f 1 else m
    | _ => m

/-- The fields that a register's offset names: the per-counter registers of PMC are those of the selected counter (20 R475). -/
def Module.fieldsAt (m : Module) (off : Nat) : List Fld :=
  if off = 0x300030 ∨ off = 0x300038 ∨ off = 0x300040 then
    let k := m.getF Reg.PMC_SEL.index
    if 264 ≤ k then [] else regFieldsAt (0x100000000 + off % 0x100 + 0x40 * k)
  else regFieldsAt off

/-- The value that a register holds, write-only fields included. -/
def Module.stored (m : Module) (off : Nat) : Nat := (m.fieldsAt off).foldl (fun v f => v + m.getF f * 2 ^ f.lo) 0

/-! ### Side effects (R7): each block's registers -/

/-- SQ (09 R191, R193; 10 R221). -/
def Module.sqEffect (m : Module) (w : RegW) : Module :=
  let g := m.getF
  if w.fires Reg.SQ_LEASE_CMD.op then
    let c := g Reg.SQ_LEASE_CMD.context
    let p := g Reg.SQ_LEASE_CMD.partition
    let k := g Reg.SQ_LEASE_CMD.cluster
    if g Reg.SQ_LEASE_CMD.op = 1 then lease c p k m else if g Reg.SQ_LEASE_CMD.op = 2 then release c p k m else m
  else if w.one Reg.SQ_CUTOFF.fire then sqCutoff (g Reg.SQ_CUTOFF.context) m
  else m

/-- HMP (11 R251, R256, R265, R269). HMP_RS_DATA is the entry at HMP_RS_ADDR: a lower half changes only that half of it. A write of the
fault ring may make room for records that wait (02 R53), and one of HMP_CTRL.accept lets held hand-overs come forward (11 R259). -/
def Module.hmpEffect (m : Module) (w : RegW) : Module :=
  let g := m.getF
  let n := (w.off - 0x1801000) / 8 % 64
  if w.off = 0x1801000 + 8 * n ∧ w.fires (Reg.HMP_STEP.step n) then hmpStepWrite n (BitVec.ofNat 64 (m.stored w.off)) m
  else if w.off = 0x1801400 + 8 * ((w.off - 0x1801400) / 8 % 64) then hmpRswinWrite ((w.off - 0x1801400) / 8 % 64) (BitVec.ofNat 64 (m.stored w.off)) m
  else if w.off = Reg.HMP_RS_DATA.entry.reg then
    let i := g Reg.HMP_RS_ADDR.index
    let v := BitVec.ofNat 64 (w.merge Reg.HMP_RS_DATA.entry (SMap.get 0 m.hmp.rowState i).toNat)
    if w.fires Reg.HMP_RS_DATA.entry then hmpRsDataAccess (some v) m
    else (hmpRsDataAccess (some v) m).setF Reg.HMP_RS_ADDR.index i
  else if w.fires Reg.HMP_RESUME.core then hmpResume (g Reg.HMP_RESUME.core) (g Reg.HMP_RESUME.thread) m
  else if w.fires Reg.HMP_FPTR.tail then hmpFptrTailWrite (g Reg.HMP_FPTR.tail) m
  else if w.off = Reg.HMP_FRING.size.reg then m.drainHmp m.hmp.waitRecs.length
  else if w.fires Reg.HMP_CTRL.accept then m.handSettle m.hmp.queue.length
  else if w.fires Reg.HMP_FLSUB.va then flashSubmit (g Reg.HMP_FLSUB.context) (g Reg.HMP_FLSUB.va) m
  else m

/-- MEM (12 R294-R300). -/
def Module.memEffect (m : Module) (w : RegW) : Module :=
  let g := m.getF
  if w.fires Reg.MEM_CTRL.maint then memMaint (w.one Reg.MEM_CTRL.maint) m
  else if w.fires Reg.MEM_MAINT_CMD.op then
    let pc := g Reg.MEM_MAINT_CMD.pc
    if g Reg.MEM_MAINT_CMD.op = 1 then maintCmd 1 pc 0 0 m
    else if g Reg.MEM_MAINT_CMD.op = 2 then maintCmd 2 pc (g Reg.MEM_MAINT_CMD.bank) (g Reg.MEM_MAINT_CMD.row) m
    else m
  else if w.one Reg.MEM_TP_CMD.start then testPortStart m
  else m

/-- FAB (13 R324, R325, R328, R331, R338). -/
def Module.fabEffect (m : Module) (w : RegW) : Module :=
  let g := m.getF
  let p := (w.off - 0x1000100) / 8 % 16
  if w.fires Reg.FAB_CTRL.enable then m.each (List.range 16) Module.portEval
  else if w.one Reg.FAB_QUAD.beat then m.beat
  else if w.off = Reg.FAB_RT_DATA.entry.reg then
    let i := g Reg.FAB_RT_ADDR.index
    let v := BitVec.ofNat 64 (w.merge Reg.FAB_RT_DATA.entry (SMap.get 0 m.fab.routes i).toNat)
    if w.fires Reg.FAB_RT_DATA.entry then fabRtData (some v) m else (fabRtData (some v) m).setF Reg.FAB_RT_ADDR.index i
  else if w.one Reg.FAB_DECLARE.go then fabDeclare (g Reg.FAB_DECLARE.device) (g Reg.FAB_DECLARE.incarnation) m
  else if w.fires (Reg.FAB_PSTAT.port_en p) then
    let m1 := m.portEval p
    if w.one (Reg.FAB_PSTAT.retrain p) then portRetrainRequest p m1 else m1
  else m

/-- PART and LMP (16 R399, R415; 21 R484). Writing a watchdog's period is progress of its context. -/
def Module.lmpEffect (m : Module) (w : RegW) : Module :=
  let n := (w.off - 0x2001000) / 8 % 64
  let p := (w.off - 0x3000000) / 0x100000 % 8
  if w.one (Reg.PART_CMD.reset p) then partCmdReset p m
  else if w.fires (Reg.LMP_WDOG.period n) then
    (m.setCtx n { m.ctx n with wdSince := m.pilot }).setF (Reg.LMP_WDOG.state n) (if m.getF (Reg.LMP_WDOG.period n) = 0 then 0 else 1)
  else if w.one Reg.LMP_MBX_CMD.go then mbxStart m
  else m

/-- PWR (18 R449, R453). -/
def Module.pwrEffect (m : Module) (w : RegW) : Module :=
  if w.fires Reg.PWR_CTRL.max_state then pwrPolicy .ctrl (BitVec.ofNat 64 w.d) m
  else if w.fires Reg.PWR_LAT_TOL.value then pwrPolicy .latTol (BitVec.ofNat 64 w.d) m
  else m

/-- EVC (19 R457, R461, R462, R465): new thresholds and routes are evaluated at once. -/
def Module.evcEffect (m : Module) (r : Requester) (w : RegW) : Module :=
  let i := (w.off - 0x101000) / 0x100 % 65
  let s := (w.off - 0x108000) / 8 % 512
  if w.fires Reg.EVC_GATE.closed then m.evalLines
  else if w.fires Reg.EVC_RAISE.source then evcRaise r (m.getF Reg.EVC_RAISE.source) m
  else if w.fires (Reg.EVC_DONE.source i) then evcDone r i (m.getF (Reg.EVC_DONE.source i)) m
  else if w.off = 0x108000 + 8 * s then m.updateSource s (m.source s)
  else m

/-- PMC (20 R474, R478, R479). PMC_DATA is the selected counter: a half changes that half of it. -/
def Module.pmcEffect (m : Module) (w : RegW) : Module :=
  if w.one Reg.PMC_CTRL.snap then pmcSnap m
  else if w.off = Reg.PMC_DATA.value.reg then pmcDataWrite (w.merge Reg.PMC_DATA.value (m.counter (m.getF Reg.PMC_SEL.index))) m
  else if w.one Reg.PMC_WIN.start then pmcWinStart m
  else m

/-- HIF (22 R519, R520, R528). -/
def Module.hifEffect (m : Module) (r : Requester) (w : RegW) : Module :=
  let n := (w.off - 0x10000) / 0x1000 % 64
  let q := (w.off % 0x1000 - 0x100) / 0x20 % 4
  if w.fires (Reg.HIF_FPTR.tail n) then faultRingTailWrite r n (m.getF (Reg.HIF_FPTR.tail n)) m
  else if w.fires (Reg.HIF_HQTAIL.tail n q) then hqDoorbell r n q w.d m
  else if w.off = 0x10100 + 0x1000 * n + 0x20 * q then hqBaseWrite r n q (m.stored w.off) m
  else m

/-- The side effects of a write, by block. -/
def Module.regEffect (m : Module) (r : Requester) (w : RegW) : Module :=
  if w.off < 0x100000 then m.hifEffect r w
  else if w.off < 0x200000 then m.evcEffect r w
  else if w.off < 0x300000 then m.pwrEffect w
  else if w.off < 0x400000 then m.pmcEffect w
  else if w.off < 0x800000 then m.sqEffect w
  else if w.off < 0x1000000 then m.memEffect w
  else if w.off < 0x1800000 then m.fabEffect w
  else if w.off < 0x2000000 then m.hmpEffect w
  else m.lmpEffect w

/-- Write a register: its fields, then its side effects. An offset that no table lists is ignored (R6). -/
def Module.writeReg (m : Module) (r : Requester) (w : RegW) : Module :=
  if (m.fieldsAt w.off).isEmpty then m
  else (((m.fieldsAt w.off).foldl (fun m f => m.writeField w f) (m.endCapture w.off))).regEffect r w

/-! ### MSI-X (22 R529) -/

/-- Write an MSI-X table: entry i has its address at byte 16·i, its data at 16·i + 8, and its mask in bit 0 of the word at 16·i + 12; the
pending bits are read-only. -/
def Module.msixWrite (m : Module) (fn off size v : Nat) : Module :=
  if 0x8000 ≤ off then m
  else
    let i := off / 16
    let e := SMap.get MsixEntry.empty m.hif.msix (fn * 2048 + i)
    let a := e.addr.toNat
    let new : MsixEntry :=
      match off % 16, size with
      | 0, 8 => { e with addr := BitVec.ofNat 64 v }
      | 0, _ => { e with addr := BitVec.ofNat 64 (a / 2 ^ 32 * 2 ^ 32 + v % 2 ^ 32) }
      | 4, _ => { e with addr := BitVec.ofNat 64 (v % 2 ^ 32 * 2 ^ 32 + a % 2 ^ 32) }
      | 8, 8 => { e with data := BitVec.ofNat 32 v, masked := v / 2 ^ 32 % 2 == 1 }
      | 8, _ => { e with data := BitVec.ofNat 32 v }
      | _, _ => { e with masked := v % 2 == 1 }
    (m.setMsix fn i new).msixFlush fn

/-- The words of an MSI-X table entry and of the PBA. -/
def Module.msixRead (m : Module) (fn off size : Nat) : Nat :=
  if off < 0x8000 then
    let e := SMap.get MsixEntry.empty m.hif.msix (fn * 2048 + off / 16)
    let all := e.addr.toNat + e.data.toNat * 2 ^ 64 + (if e.masked then 2 ^ 96 else 0)
    all / 256 ^ (off % 16) % 256 ^ size
  else if 0x10000 ≤ off ∧ off < 0x10100 then
    (List.range (8 * size)).foldl (fun v i =>
      if SMap.get false m.hif.pba (fn * 2048 + (off - 0x10000) * 8 + i) then v + 2 ^ i else v) 0
  else 0

/-! ### Writes -/

/-- The W1C fields of a register that hardware sets in the step of a requester's access: those that the access sets when they start at
zero (R10). -/
def Module.hwSet (m : Module) (r : Requester) (off : Nat) : List (Fld × Nat) :=
  let fs := (m.fieldsAt off).filter (fun f => f.acc == .w1c)
  let a := (m.each fs (fun m f => m.setF f 0)).access r
  (fs.map (fun f => (f, a.getF f))).filter (fun x => x.2 != 0)

/-- W1C bits that hardware sets in the step of the write that clears them end the step set (R10). -/
def Module.keepSet (m : Module) (l : List (Fld × Nat)) : Module := m.each l (fun m x => m.setF x.1 (Nat.lor (m.getF x.1) x.2))

/-- A BAR0 write by a requester. -/
def barWrite (r : Requester) (off size v : Nat) (m : Module) : Module :=
  if !m.reaches r then m
  else
    let m1 := m.access r
    if !barAligned off size then m1.accessViolation r 3 off
    else if m1.unanswered r off then m1
    else match barPlace r off with
      | .reg o => (m1.writeReg r (regW o size v)).keepSet (m.hwSet r (o / 8 * 8))
      | .msix fn o => m1.msixWrite fn o size v
      | .nothing => m1
      | .denied => m1.accessViolation r 3 off

/-- A write to a register, or to the controls of configuration space. -/
def registerWrite (t : RegTarget) (v : Nat) (m : Module) : Module :=
  match t with
  | .bar0 r off size => barWrite r off.toNat size.toNat v m
  | .msixControl fn en mask =>
    if !m.reaches (fnReq fn) then m
    else { m with hif := { m.hif with msixEn := SMap.set false m.hif.msixEn fn.val en,
                                      fnMask := SMap.set false m.hif.fnMask fn.val mask } }.msixFlush fn.val
  | .vfEnable en num => if !m.reaches .pf then m else { m with hif := { m.hif with vfEn := en, numVfs := num.val } }

def execRegisterWrite (target : RegTarget) (v : Word) (s : State) : Host.Outcome State Fault Refusal :=
  s.go (fun m => m.whenOpen (registerWrite target v.toNat))

/-! ### Reads -/

/-- The value that a plain read of a register returns: write-only and reserved bits are zero; the window registers read what they select,
and LMP_ESC_STAT the counts of the window (16 R420). -/
def Module.regValue (m0 : Module) (off : Nat) : Nat :=
  let m := if off = Reg.LMP_ESC_STAT.oos.reg then m0.escStat else m0
  if off = Reg.PMC_DATA.value.reg then m.counter (m.getF Reg.PMC_SEL.index)
  else if off = Reg.HMP_RS_DATA.entry.reg then (SMap.get 0 m.hmp.rowState (m.getF Reg.HMP_RS_ADDR.index)).toNat
  else if off = Reg.FAB_RT_DATA.entry.reg then (SMap.get 0 m.fab.routes (m.getF Reg.FAB_RT_ADDR.index)).toNat
  else (m.fieldsAt off).foldl (fun v f =>
    if f.acc = .wo then v
    else if f.inFamily 0x100100 8 then
      (List.range 64).foldl (fun v i => if (m.source ((off - 0x100100) / 8 * 64 + i)).pending then v + 2 ^ i else v) v
    else v + m.getF f * 2 ^ f.lo) 0

/-- What a BAR0 read without a side effect returns (R5-R9): a half that directly follows a capturing read is the capture's; a virtual
function's HIF_VIOL and HIF_VLOG read zero (22 R530). -/
def Module.barRead (m : Module) (r : Requester) (off size : Nat) : Nat :=
  if !barAligned off size || m.unanswered r off then 0
  else match barPlace r off with
    | .reg o =>
      let q := o / 8 * 8
      let own := match r with | .vf _ => q % 0x1000 == 0x28 || q % 0x1000 == 0x30 | _ => false
      let full := match SMap.get none m.capture q with
        | some v => if size = 4 && o % 8 == 4 then v.toNat else m.regValue q
        | none => m.regValue q
      if own && decide (q < 0x100000) then 0 else full / 256 ^ (o % 8) % 256 ^ size
    | .msix fn o => m.msixRead fn o size
    | _ => 0

/-- The read side effect of a register (R7): an event claim, or the read of an indexed window; each answers the whole value and captures it.
The field that carries it starts at bit 0 in each of these registers, so the read fires with the lower half. -/
def Module.readEffect (r : Requester) (q : Nat) : Option (Module → Module) :=
  let i := (q - 0x101000) / 0x100
  if q = Reg.PMC_DATA.value.reg then some pmcDataRead
  else if q = Reg.HMP_RS_DATA.entry.reg then some (hmpRsDataAccess none)
  else if q = Reg.FAB_RT_DATA.entry.reg then some (fabRtData none)
  else if i < 65 && q = evcOffset i then some (evcClaim r i)
  else none

/-- The last answer is cut to its lower half: a 32-bit read returns that half (R7). -/
def Module.lowHalf (m : Module) : Module :=
  { m with out := (match m.out.reverse with
    | .readData v :: t => (.readData (v % 2 ^ 32) :: t).reverse
    | _ => m.out) }

/-- A read of a register at byte offset `o`: its side effect with the half that holds the lowest bit of the field, else its value, which
ends the register's capture (R7). -/
def Module.readAt (m : Module) (r : Requester) (off o size : Nat) : Module :=
  let q := o / 8 * 8
  match Module.readEffect r q with
  | some f =>
    if o % 8 = 0 then (if size = 4 then (f m).lowHalf else f m)
    else (m.emit (.readData (m.barRead r off size))).endCapture q
  | none => m.emit (.readData (m.barRead r off size))

/-- A BAR0 read (R5-R9). One of another size or alignment, or where the function may not reach, is a violation and reads zero; a read that
is no violation returns what the offset reads, since the table has no row of its own for a plain read (DESIGN CHOICE, log 76). -/
def bar0ReadViolation (r : Requester) (off size : Nat) (m : Module) : Module :=
  if !m.reaches r then m
  else
    let m1 := m.access r
    if !barAligned off size then (m1.accessViolation r 3 off).emit (.readData 0)
    else if m1.unanswered r off then m1.emit (.readData 0)
    else match barPlace r off with
      | .denied => (m1.accessViolation r 3 off).emit (.readData 0)
      | .reg o => m1.readAt r off o size
      | _ => m1.emit (.readData (m1.barRead r off size))

def execBar0ReadViolation (r : Requester) (off : BitVec 26) (size : BitVec 13) (s : State) : Host.Outcome State Fault Refusal :=
  s.go (bar0ReadViolation r off.toNat size.toNat)

end Sys2Proof.Machine
end

