-- ==== Sys2Proof/Machine/Dispatch.lean ====
section
/-! DEFINITION. One arm for each command: a direct call of its meaning. -/

namespace Sys2Proof.Machine

def exec (i : Instr) (s : State) : Host.Outcome State Fault Refusal :=
  match i with
  | .integerOp th w => Sys2Proof.Machine.execIntegerOp th w s
  | .divRem th w => Sys2Proof.Machine.execDivRem th w s
  | .liL th w => Sys2Proof.Machine.execLiL th w s
  | .liH th w => Sys2Proof.Machine.execLiH th w s
  | .fpArith th w => Sys2Proof.Machine.execFpArith th w s
  | .fdivFsqrt th w => Sys2Proof.Machine.execFdivFsqrt th w s
  | .fminFmax th w => Sys2Proof.Machine.execFminFmax th w s
  | .fsgnj th w => Sys2Proof.Machine.execFsgnj th w s
  | .fclass th w => Sys2Proof.Machine.execFclass th w s
  | .faddP th w => Sys2Proof.Machine.execFaddP th w s
  | .fmulP th w => Sys2Proof.Machine.execFmulP th w s
  | .fmaP th w => Sys2Proof.Machine.execFmaP th w s
  | .padd th w => Sys2Proof.Machine.execPadd th w s
  | .pround th w => Sys2Proof.Machine.execPround th w s
  | .convert th w => Sys2Proof.Machine.execConvert th w s
  | .intCompare th w => Sys2Proof.Machine.execIntCompare th w s
  | .fpCompare th w => Sys2Proof.Machine.execFpCompare th w s
  | .branch th w => Sys2Proof.Machine.execBranch th w s
  | .jal th w => Sys2Proof.Machine.execJal th w s
  | .jalr th w => Sys2Proof.Machine.execJalr th w s
  | .nop th w => Sys2Proof.Machine.execNop th w s
  | .halt th w => Sys2Proof.Machine.execHalt th w s
  | .yield th w => Sys2Proof.Machine.execYield th w s
  | .pause th w => Sys2Proof.Machine.execPause th w s
  | .pauseEnd th => Sys2Proof.Machine.execPauseEnd th s
  | .trap th w => Sys2Proof.Machine.execTrap th w s
  | .tret th w => Sys2Proof.Machine.execTret th w s
  | .srd th w => Sys2Proof.Machine.execSrd th w s
  | .swr th w => Sys2Proof.Machine.execSwr th w s
  | .sset th w => Sys2Proof.Machine.execSset th w s
  | .sclr th w => Sys2Proof.Machine.execSclr th w s
  | .vintOp th w => Sys2Proof.Machine.execVintOp th w s
  | .vfixedOp th w => Sys2Proof.Machine.execVfixedOp th w s
  | .vfloatOp th w => Sys2Proof.Machine.execVfloatOp th w s
  | .vpairOp th w => Sys2Proof.Machine.execVpairOp th w s
  | .vcvt th w => Sys2Proof.Machine.execVcvt th w s
  | .vcompare th w => Sys2Proof.Machine.execVcompare th w s
  | .maskOp th w => Sys2Proof.Machine.execMaskOp th w s
  | .vbcast th w => Sys2Proof.Machine.execVbcast th w s
  | .vext th w => Sys2Proof.Machine.execVext th w s
  | .vins th w => Sys2Proof.Machine.execVins th w s
  | .vmerge th w => Sys2Proof.Machine.execVmerge th w s
  | .vperm th w => Sys2Proof.Machine.execVperm th w s
  | .vslideup th w => Sys2Proof.Machine.execVslideup th w s
  | .vslidedn th w => Sys2Proof.Machine.execVslidedn th w s
  | .vreduce th w => Sys2Proof.Machine.execVreduce th w s
  | .vld th w => Sys2Proof.Machine.execVld th w s
  | .vst th w => Sys2Proof.Machine.execVst th w s
  | .vlds th w => Sys2Proof.Machine.execVlds th w s
  | .vsts th w => Sys2Proof.Machine.execVsts th w s
  | .vgather th w => Sys2Proof.Machine.execVgather th w s
  | .vscatter th w => Sys2Proof.Machine.execVscatter th w s
  | .msLd th w => Sys2Proof.Machine.execMsLd th w s
  | .msSwap th w => Sys2Proof.Machine.execMsSwap th w s
  | .mma th w => Sys2Proof.Machine.execMma th w s
  | .mmaSlot core => Sys2Proof.Machine.execMmaSlot core s
  | .slotResultLand core => Sys2Proof.Machine.execSlotResultLand core s
  | .mstCfg th w => Sys2Proof.Machine.execMstCfg th w s
  | .mstSeek th w => Sys2Proof.Machine.execMstSeek th w s
  | .maccZero th w => Sys2Proof.Machine.execMaccZero th w s
  | .maccLd th w => Sys2Proof.Machine.execMaccLd th w s
  | .maccDrain th w => Sys2Proof.Machine.execMaccDrain th w s
  | .maccStat th w => Sys2Proof.Machine.execMaccStat th w s
  | .mwait th w => Sys2Proof.Machine.execMwait th w s
  | .mOpRetire core => Sys2Proof.Machine.execMOpRetire core s
  | .qCholTile th w => Sys2Proof.Machine.execQCholTile th w s
  | .qTrsm th w => Sys2Proof.Machine.execQTrsm th w s
  | .qSchur th w => Sys2Proof.Machine.execQSchur th w s
  | .qHhPanel th w => Sys2Proof.Machine.execQHhPanel th w s
  | .qHhApply th w => Sys2Proof.Machine.execQHhApply th w s
  | .ld th w => Sys2Proof.Machine.execLd th w s
  | .st th w => Sys2Proof.Machine.execSt th w s
  | .gld th w => Sys2Proof.Machine.execGld th w s
  | .gst th w => Sys2Proof.Machine.execGst th w s
  | .amo th w => Sys2Proof.Machine.execAmo th w s
  | .red th w => Sys2Proof.Machine.execRed th w s
  | .redv th w => Sys2Proof.Machine.execRedv th w s
  | .redvi th w => Sys2Proof.Machine.execRedvi th w s
  | .xFence th w => Sys2Proof.Machine.execXFence th w s
  | .xXfer th w => Sys2Proof.Machine.execXXfer th w s
  | .xAbort th w => Sys2Proof.Machine.execXAbort th w s
  | .xLaunch th w => Sys2Proof.Machine.execXLaunch th w s
  | .xWait th w => Sys2Proof.Machine.execXWait th w s
  | .xWaitRecheck th => Sys2Proof.Machine.execXWaitRecheck th s
  | .xWaitLimit th => Sys2Proof.Machine.execXWaitLimit th s
  | .xSqsub th w => Sys2Proof.Machine.execXSqsub th w s
  | .xSqadj th w => Sys2Proof.Machine.execXSqadj th w s
  | .xColl th w => Sys2Proof.Machine.execXColl th w s
  | .memoryResponse th answer => Sys2Proof.Machine.execMemoryResponse th answer s
  | .coreClockStop core => Sys2Proof.Machine.execCoreClockStop core s
  | .gridAdmit core => Sys2Proof.Machine.execGridAdmit core s
  | .lease ctx part cluster => Sys2Proof.Machine.execLease ctx part cluster s
  | .release ctx part cluster => Sys2Proof.Machine.execRelease ctx part cluster s
  | .sqCutoff ctx => Sys2Proof.Machine.execSqCutoff ctx s
  | .deadlineExpiry sub => Sys2Proof.Machine.execDeadlineExpiry sub s
  | .problemStart ctx => Sys2Proof.Machine.execProblemStart ctx s
  | .solverStageEnd prob => Sys2Proof.Machine.execSolverStageEnd prob s
  | .problemEnd prob => Sys2Proof.Machine.execProblemEnd prob s
  | .adjointEntryStart ctx => Sys2Proof.Machine.execAdjointEntryStart ctx s
  | .adjointEntryEnd entry => Sys2Proof.Machine.execAdjointEntryEnd entry s
  | .seqProcFault k => Sys2Proof.Machine.execSeqProcFault k s
  | .seqProcRestart k => Sys2Proof.Machine.execSeqProcRestart k s
  | .flashSubmit ctx va => Sys2Proof.Machine.execFlashSubmit ctx va s
  | .flashCommandComplete ctx fail => Sys2Proof.Machine.execFlashCommandComplete ctx fail s
  | .hmpStepWrite ctx v => Sys2Proof.Machine.execHmpStepWrite ctx v s
  | .handoverRecord => Sys2Proof.Machine.execHandoverRecord s
  | .layerUpdateStart => Sys2Proof.Machine.execLayerUpdateStart s
  | .chunkThreadStart core => Sys2Proof.Machine.execChunkThreadStart core s
  | .layerUpdateEnd => Sys2Proof.Machine.execLayerUpdateEnd s
  | .hmpRswinWrite ctx v => Sys2Proof.Machine.execHmpRswinWrite ctx v s
  | .hmpRsDataAccess write => Sys2Proof.Machine.execHmpRsDataAccess write s
  | .hmpResume core thread => Sys2Proof.Machine.execHmpResume core thread s
  | .hmpFptrTailWrite v => Sys2Proof.Machine.execHmpFptrTailWrite v s
  | .d2dRetrain => Sys2Proof.Machine.execD2dRetrain s
  | .d2dLinkLost => Sys2Proof.Machine.execD2dLinkLost s
  | .retrain pc => Sys2Proof.Machine.execRetrain pc s
  | .repair pc bank row => Sys2Proof.Machine.execRepair pc bank row s
  | .maintOpEnd pc result => Sys2Proof.Machine.execMaintOpEnd pc result s
  | .scrubRow pc bank row corrected bad => Sys2Proof.Machine.execScrubRow pc bank row corrected bad s
  | .memMaintModeWrite v => Sys2Proof.Machine.execMemMaintModeWrite v s
  | .testPortStep hold stack len instr => Sys2Proof.Machine.execTestPortStep hold stack len instr s
  | .testPortStepEnd => Sys2Proof.Machine.execTestPortStepEnd s
  | .data p h pkt => Sys2Proof.Machine.execData p h pkt s
  | .idle p h => Sys2Proof.Machine.execIdle p h s
  | .nak p h => Sys2Proof.Machine.execNak p h s
  | .credit p h counts => Sys2Proof.Machine.execCredit p h counts s
  | .rescue p h pkt => Sys2Proof.Machine.execRescue p h pkt s
  | .oos p h w => Sys2Proof.Machine.execOos p h w s
  | .hello p l => Sys2Proof.Machine.execHello p l s
  | .proof p l => Sys2Proof.Machine.execProof p l s
  | .doze p h l => Sys2Proof.Machine.execDoze p h l s
  | .dozeAck p h => Sys2Proof.Machine.execDozeAck p h s
  | .dozeTimeout p => Sys2Proof.Machine.execDozeTimeout p s
  | .replayTimeout p => Sys2Proof.Machine.execReplayTimeout p s
  | .keepaliveSend p => Sys2Proof.Machine.execKeepaliveSend p s
  | .ackSend p => Sys2Proof.Machine.execAckSend p s
  | .creditSend p => Sys2Proof.Machine.execCreditSend p s
  | .nakHoldoffExpiry p => Sys2Proof.Machine.execNakHoldoffExpiry p s
  | .receiveSilence p => Sys2Proof.Machine.execReceiveSilence p s
  | .portRetrainEnd p ack => Sys2Proof.Machine.execPortRetrainEnd p ack s
  | .portSignalDetect p => Sys2Proof.Machine.execPortSignalDetect p s
  | .portTrainEnd p lanes => Sys2Proof.Machine.execPortTrainEnd p lanes s
  | .helloSend p => Sys2Proof.Machine.execHelloSend p s
  | .failedRetry p => Sys2Proof.Machine.execFailedRetry p s
  | .heldPacketSend => Sys2Proof.Machine.execHeldPacketSend s
  | .kindleBurst p => Sys2Proof.Machine.execKindleBurst p s
  | .wakeNeighbourTimeout p => Sys2Proof.Machine.execWakeNeighbourTimeout p s
  | .kindleDetect p light => Sys2Proof.Machine.execKindleDetect p light s
  | .aliveToggle => Sys2Proof.Machine.execAliveToggle s
  | .aliveSilence j => Sys2Proof.Machine.execAliveSilence j s
  | .lamplighterBeat => Sys2Proof.Machine.execLamplighterBeat s
  | .fabDeclare dev inc => Sys2Proof.Machine.execFabDeclare dev inc s
  | .fabRtDataAccess write => Sys2Proof.Machine.execFabRtDataAccess write s
  | .portRetrainRequest p => Sys2Proof.Machine.execPortRetrainRequest p s
  | .fabDevidWrite v => Sys2Proof.Machine.execFabDevidWrite v s
  | .allreduce coll => Sys2Proof.Machine.execAllreduce coll s
  | .reduceScatter coll => Sys2Proof.Machine.execReduceScatter coll s
  | .allgather coll => Sys2Proof.Machine.execAllgather coll s
  | .broadcast coll => Sys2Proof.Machine.execBroadcast coll s
  | .alltoall coll => Sys2Proof.Machine.execAlltoall coll s
  | .barrier coll => Sys2Proof.Machine.execBarrier coll s
  | .gradHandover coll => Sys2Proof.Machine.execGradHandover coll s
  | .shardPost coll j => Sys2Proof.Machine.execShardPost coll j s
  | .shardGather coll => Sys2Proof.Machine.execShardGather coll s
  | .unpin coll => Sys2Proof.Machine.execUnpin coll s
  | .permute coll => Sys2Proof.Machine.execPermute coll s
  | .ringPass coll => Sys2Proof.Machine.execRingPass coll s
  | .collectiveMessage src job group msg => Sys2Proof.Machine.execCollectiveMessage src job group msg s
  | .collectiveTimeout coll => Sys2Proof.Machine.execCollectiveTimeout coll s
  | .collectiveComplete coll => Sys2Proof.Machine.execCollectiveComplete coll s
  | .drainBoundExpiry coll => Sys2Proof.Machine.execDrainBoundExpiry coll s
  | .cprocFault k => Sys2Proof.Machine.execCprocFault k s
  | .blanketCopyArrive b => Sys2Proof.Machine.execBlanketCopyArrive b s
  | .blanketCopyAck ctx entry gen ok => Sys2Proof.Machine.execBlanketCopyAck ctx entry gen ok s
  | .transferStart ctx queue window => Sys2Proof.Machine.execTransferStart ctx queue window s
  | .read => Sys2Proof.Machine.execRead s
  | .write => Sys2Proof.Machine.execWrite s
  | .atomic => Sys2Proof.Machine.execAtomic s
  | .reduce => Sys2Proof.Machine.execReduce s
  | .readResp => Sys2Proof.Machine.execReadResp s
  | .writeAck => Sys2Proof.Machine.execWriteAck s
  | .atomicResp => Sys2Proof.Machine.execAtomicResp s
  | .reduceAck => Sys2Proof.Machine.execReduceAck s
  | .requestTimeout tag => Sys2Proof.Machine.execRequestTimeout tag s
  | .snuff => Sys2Proof.Machine.execSnuff s
  | .quiet => Sys2Proof.Machine.execQuiet s
  | .watchdogWarn ctx => Sys2Proof.Machine.execWatchdogWarn ctx s
  | .watchdogStop ctx => Sys2Proof.Machine.execWatchdogStop ctx s
  | .unitHang n unit => Sys2Proof.Machine.execUnitHang n unit s
  | .partitionFaultDetect n fault => Sys2Proof.Machine.execPartitionFaultDetect n fault s
  | .escalationCheck n => Sys2Proof.Machine.execEscalationCheck n s
  | .partitionResetApply n => Sys2Proof.Machine.execPartitionResetApply n s
  | .partitionHoldEnd n failed => Sys2Proof.Machine.execPartitionHoldEnd n failed s
  | .partitionSelfTestEnd n => Sys2Proof.Machine.execPartitionSelfTestEnd n s
  | .resetFailure n bound => Sys2Proof.Machine.execResetFailure n bound s
  | .partCmdReset n => Sys2Proof.Machine.execPartCmdReset n s
  | .nonpartitionFault => Sys2Proof.Machine.execNonpartitionFault s
  | .wickEvaluate => Sys2Proof.Machine.execWickEvaluate s
  | .wickEntryCommit => Sys2Proof.Machine.execWickEntryCommit s
  | .wakeEvent code detail => Sys2Proof.Machine.execWakeEvent code detail s
  | .wickExitDone => Sys2Proof.Machine.execWickExitDone s
  | .pwrTimerExpiry => Sys2Proof.Machine.execPwrTimerExpiry s
  | .pwrPolicyWrite reg v => Sys2Proof.Machine.execPwrPolicyWrite reg v s
  | .avsAck rail => Sys2Proof.Machine.execAvsAck rail s
  | .avsTimeout rail => Sys2Proof.Machine.execAvsTimeout rail s
  | .marginMonitor n up => Sys2Proof.Machine.execMarginMonitor n up s
  | .thermalThrottle hot => Sys2Proof.Machine.execThermalThrottle hot s
  | .thermalTrip => Sys2Proof.Machine.execThermalTrip s
  | .mainPowerLoss => Sys2Proof.Machine.execMainPowerLoss s
  | .standbyPowerOn => Sys2Proof.Machine.execStandbyPowerOn s
  | .converterStart below60 => Sys2Proof.Machine.execConverterStart below60 s
  | .powerUp inQuad qpos => Sys2Proof.Machine.execPowerUp inQuad qpos s
  | .conventionalReset kind => Sys2Proof.Machine.execConventionalReset kind s
  | .perstDeassert => Sys2Proof.Machine.execPerstDeassert s
  | .vfFlr n => Sys2Proof.Machine.execVfFlr n s
  | .pfFlr => Sys2Proof.Machine.execPfFlr s
  | .eventTimerExpiry source => Sys2Proof.Machine.execEventTimerExpiry source s
  | .evcClaim r inst => Sys2Proof.Machine.execEvcClaim r inst s
  | .evcDone r inst source => Sys2Proof.Machine.execEvcDone r inst source s
  | .evcRaise r source => Sys2Proof.Machine.execEvcRaise r source s
  | .evcGateWrite r closed => Sys2Proof.Machine.execEvcGateWrite r closed s
  | .msixUnmask mask => Sys2Proof.Machine.execMsixUnmask mask s
  | .pmcDataRead r => Sys2Proof.Machine.execPmcDataRead r s
  | .pmcDataWrite r v => Sys2Proof.Machine.execPmcDataWrite r v s
  | .pmcSnap r => Sys2Proof.Machine.execPmcSnap r s
  | .pmcSnapDone => Sys2Proof.Machine.execPmcSnapDone s
  | .pmcWinStart r => Sys2Proof.Machine.execPmcWinStart r s
  | .pmcWindowEnd => Sys2Proof.Machine.execPmcWindowEnd s
  | .fwStage ok => Sys2Proof.Machine.execFwStage ok s
  | .fwSwitch => Sys2Proof.Machine.execFwSwitch s
  | .fwCommit ok => Sys2Proof.Machine.execFwCommit ok s
  | .fwRecover partner ok => Sys2Proof.Machine.execFwRecover partner ok s
  | .thermosSync => Sys2Proof.Machine.execThermosSync s
  | .returnToService => Sys2Proof.Machine.execReturnToService s
  | .setLimits => Sys2Proof.Machine.execSetLimits s
  | .factoryDefaults => Sys2Proof.Machine.execFactoryDefaults s
  | .enrolOwner => Sys2Proof.Machine.execEnrolOwner s
  | .lamplighterTakeover => Sys2Proof.Machine.execLamplighterTakeover s
  | .thermosMirror sec => Sys2Proof.Machine.execThermosMirror sec s
  | .getVersion => Sys2Proof.Machine.execGetVersion s
  | .getCapabilities => Sys2Proof.Machine.execGetCapabilities s
  | .negotiateAlgorithms => Sys2Proof.Machine.execNegotiateAlgorithms s
  | .getDigests => Sys2Proof.Machine.execGetDigests s
  | .getCertificate slot off len => Sys2Proof.Machine.execGetCertificate slot off len s
  | .challenge slot nonce => Sys2Proof.Machine.execChallenge slot nonce s
  | .getMeasurements index sign nonce => Sys2Proof.Machine.execGetMeasurements index sign nonce s
  | .getPqChain off len => Sys2Proof.Machine.execGetPqChain off len s
  | .getPqSig => Sys2Proof.Machine.execGetPqSig s
  | .spdmUnsupported => Sys2Proof.Machine.execSpdmUnsupported s
  | .hqDoorbell r ctx queue t => Sys2Proof.Machine.execHqDoorbell r ctx queue t s
  | .hqBaseWrite r ctx queue v => Sys2Proof.Machine.execHqBaseWrite r ctx queue v s
  | .nopCommand ctx queue => Sys2Proof.Machine.execNopCommand ctx queue s
  | .ctxCreate ctx queue => Sys2Proof.Machine.execCtxCreate ctx queue s
  | .ctxTeardown ctx queue => Sys2Proof.Machine.execCtxTeardown ctx queue s
  | .invalidate ctx queue => Sys2Proof.Machine.execInvalidate ctx queue s
  | .resume ctx queue => Sys2Proof.Machine.execResume ctx queue s
  | .launch ctx queue => Sys2Proof.Machine.execLaunch ctx queue s
  | .solve ctx queue => Sys2Proof.Machine.execSolve ctx queue s
  | .adjoint ctx queue => Sys2Proof.Machine.execAdjoint ctx queue s
  | .collective ctx queue => Sys2Proof.Machine.execCollective ctx queue s
  | .xfer ctx queue => Sys2Proof.Machine.execXfer ctx queue s
  | .abort ctx queue => Sys2Proof.Machine.execAbort ctx queue s
  | .faultRingTailWrite r ctx v => Sys2Proof.Machine.execFaultRingTailWrite r ctx v s
  | .bar2Read fn off len => Sys2Proof.Machine.execBar2Read fn off len s
  | .bar2Write fn off data => Sys2Proof.Machine.execBar2Write fn off data s
  | .hostReadFail what => Sys2Proof.Machine.execHostReadFail what s
  | .registerWrite target v => Sys2Proof.Machine.execRegisterWrite target v s
  | .illegalInstruction th w => Sys2Proof.Machine.execIllegalInstruction th w s
  | .fetchFault th => Sys2Proof.Machine.execFetchFault th s
  | .frameCrcError p => Sys2Proof.Machine.execFrameCrcError p s
  | .flitReplay => Sys2Proof.Machine.execFlitReplay s
  | .aliveEdge j => Sys2Proof.Machine.execAliveEdge j s
  | .standbyPowerLoss => Sys2Proof.Machine.execStandbyPowerLoss s
  | .bar0ReadViolation r off size => Sys2Proof.Machine.execBar0ReadViolation r off size s
  | .oosAckTimeout => Sys2Proof.Machine.execOosAckTimeout s
  | .localTransferPerformed xfer => Sys2Proof.Machine.execLocalTransferPerformed xfer s

end Sys2Proof.Machine
end

