-- ==== Sys2Proof/Machine/Tick.lean ====
section
/-! DEFINITION. What happens at a pilot tick whatever is commanded (04 Table 4-8; 16 R416; 18 R453). -/

namespace Sys2Proof.Machine

/-- One pilot tick on an empty queue; without standby power the pilot domain is off and nothing counts (16 R416, 18 R438). -/
def Module.tick (m : Module) : Module := if m.pwr.standby then { m with out := [] }.pass 1 else { m with out := [] }

end Sys2Proof.Machine
end

