-- ==== Sys2Proof/Safety.lean ====
section
/-! DEFINITION. The terms that the statements use: the canonical form of the memories, that a command completes, that a thread can issue
an instruction, and what an instruction leaves unchanged. -/

namespace Sys2Proof.Machine

/-- Every byte memory of the module is in canonical form: addresses strictly rising, no entry equal to what an unlisted address
reads as. -/
def Module.memoriesWf (m : Module) : Bool :=
  Memory.wf m.ms.hbm && Memory.wf m.ms.ctier && Memory.wf m.ms.host && Memory.wf m.ms.flash && Memory.wf m.ms.store &&
  Memory.wf m.ms.hstore

/-- The byte memories, the threads and the cores are in canonical form. -/
def Module.canonical (m : Module) : Bool := m.memoriesWf && SMap.wf Thread.empty m.threads && SMap.wf Core.empty m.cores

/-- The module with no output: a command starts from it. -/
def Module.fresh (m : Module) : Module := { m with out := [] }

/-- A command answers a next state whose queue is what it was and whose module satisfies `p`. -/
def Completes (i : Instr) (s : State) (p : Module → Prop) : Prop :=
  ∃ t, exec i s = .next t ∧ t.pending = s.pending ∧ p t.m

/-- The module in which an instruction of a thread issues: the accesses that have been performed are delivered to its registers (15 R371). -/
def State.issuing (s : State) (th : ThreadId) : Module := s.m.fresh.settle (ThreadId.key th)

/-- A thread in the state in which its instruction issues. -/
def State.thread (s : State) (th : ThreadId) : Thread := (s.issuing th).th (ThreadId.key th)

/-- The thread issues the word (04 R89, R104; 18 Table 18-2): it runs, a compute core is in W0, no register that the word names waits for an
access, and the processor implements the class. -/
def State.canIssue (s : State) (th : ThreadId) (w : Word) : Bool :=
  (s.m.th (ThreadId.key th)).run == .running &&
  !(keyKind (ThreadId.key th) == 0 && s.m.getF Reg.PWR_STATE.state != 0) &&
  !(s.thread th).blockedBy w && classOk (keyKind (ThreadId.key th)) (Word.major w)

/-- The instruction is of row `r` and issues. -/
def State.issues (s : State) (r : Row) (th : ThreadId) (w : Word) : Bool := wordIs r w && s.canIssue th w

/-- A field that counting an event, raising a source, waking the module or the progress of a context may change: those of EVC, PWR and PMC,
a port's state (a port that this module dozed trains again when an entry is aborted, 13 R339) and a watchdog's state. -/
def sideField (key : Nat) : Bool :=
  (decide (0x100000 * 64 ≤ key) && decide (key < 0x400000 * 64)) ||
  (List.range 16).any (fun p => (Reg.FAB_PSTAT.state p).key == key) || (List.range 64).any (fun n => (Reg.LMP_WDOG.state n).key == key)

/-- Nothing differs but thread `k`, its core's clock and round-robin positions, the progress of contexts, the counters, the event
controller, the power state, MSI-X pending bits and what was sent: no byte of memory, no other thread, no register field outside
`sideField`. -/
structure SameBut (m m' : Module) (k : Nat) : Prop where
  pilot : m'.pilot = m.pilot
  threads : ∀ j, j ≠ k → m'.th j = m.th j
  cores : ∀ c, c ≠ k / 8 → m'.core c = m.core c
  core : { m'.core (k / 8) with lastScalar := 0, lastWide := 0, clockOn := true } =
    { m.core (k / 8) with lastScalar := 0, lastWide := 0, clockOn := true }
  ctxs : ∀ n, { m'.ctx n with wdSince := 0 } = { m.ctx n with wdSince := 0 }
  fields : ∀ f, sideField (Fld.key f) = false → m'.getF f = m.getF f
  ms : m'.ms = m.ms
  grids : m'.grids = m.grids
  nextGrid : m'.nextGrid = m.nextGrid
  transfers : m'.transfers = m.transfers
  nextXfer : m'.nextXfer = m.nextXfer
  fab : m'.fab = m.fab
  hif : { m'.hif with pba := [] } = { m.hif with pba := [] }
  sq : m'.sq = m.sq
  hmp : m'.hmp = m.hmp
  cp : m'.cp = m.cp
  esc : m'.esc = m.esc
  lmp : m'.lmp = m.lmp
  capture : m'.capture = m.capture
  free : m'.free = m.free

/-- The instruction completes: its thread is left as `t`, and nothing else differs but what `SameBut` names. -/
def Leaves (i : Instr) (s : State) (th : ThreadId) (t : Thread) : Prop :=
  Completes i s (fun m => m.th (ThreadId.key th) = t ∧ SameBut s.m m (ThreadId.key th))

/-- The instruction completes: its thread is left as `t`, moved to the next instruction, and nothing else differs but what `SameBut`
names. -/
def Retires (i : Instr) (s : State) (th : ThreadId) (t : Thread) : Prop :=
  Leaves i s th { t with ip := t.ip + 8, retiredAt := s.m.pilot }

/-- The parts of the module, for saying what a command leaves alone. What was sent is no part. -/
inductive Part where
  | pilot
  | fields
  | threads
  | cores
  | ctxs
  | grids
  | transfers
  | memories
  | evc
  | pmc
  | fab
  | pwr
  | hif
  | sq
  | hmp
  | cp
  | esc
  | lmp
  | capture
  | free
  deriving DecidableEq, Repr

/-- The part is the same in two modules. -/
def Part.same (p : Part) (m m' : Module) : Prop :=
  match p with
  | .pilot => m'.pilot = m.pilot
  | .fields => m'.fields = m.fields
  | .threads => m'.threads = m.threads
  | .cores => m'.cores = m.cores
  | .ctxs => m'.ctxs = m.ctxs
  | .grids => m'.grids = m.grids ∧ m'.nextGrid = m.nextGrid
  | .transfers => m'.transfers = m.transfers ∧ m'.nextXfer = m.nextXfer
  | .memories => m'.ms = m.ms
  | .evc => m'.evc = m.evc
  | .pmc => m'.pmc = m.pmc
  | .fab => m'.fab = m.fab
  | .pwr => m'.pwr = m.pwr
  | .hif => m'.hif = m.hif
  | .sq => m'.sq = m.sq
  | .hmp => m'.hmp = m.hmp
  | .cp => m'.cp = m.cp
  | .esc => m'.esc = m.esc
  | .lmp => m'.lmp = m.lmp
  | .capture => m'.capture = m.capture
  | .free => m'.free = m.free

/-- Nothing differs between two modules but the parts listed, and what was sent. -/
def Only (ps : List Part) (m m' : Module) : Prop := ∀ p, p ∉ ps → p.same m m'

/-- Every register field is the same in two modules but those whose key is listed. -/
def FieldsBut (ks : List Nat) (m m' : Module) : Prop := ∀ f : Fld, f.key ∉ ks → m'.getF f = m.getF f

/-- The command completes, its effect satisfies `p`, and nothing differs but the parts listed and what was sent. -/
def Does (i : Instr) (s : State) (ps : List Part) (p : Module → Prop) : Prop :=
  Completes i s (fun m => p m ∧ Only ps s.m m)

/-- A fault record of a live context: kept when its ring is full, and otherwise written at the head of the ring in host memory, when the
host can be reached (02 R50, R53; 22 R528). A record that is kept changes nothing of the memories but the lines that a cache holds. -/
def Recorded (m m' : Module) (n : Nat) (r : FaultRec) : Prop :=
  (m.ringFull n = true → (m'.ctx n).waitRecs = (m.ctx n).waitRecs ++ [r] ∧ m'.ms = { m.ms with sets := m'.ms.sets }) ∧
  (m.ringFull n = false →
    let a := m.getF (Reg.HIF_FRING.base n) * 4096 + m.getF (Reg.HIF_FPTR.head n) % 2 ^ (m.getF (Reg.HIF_FRING.size n) + 4) * 32
    m'.getF (Reg.HIF_FPTR.head n) = (m.getF (Reg.HIF_FPTR.head n) + 1) % 2 ^ 32 ∧
    (m.linkUp = true → m'.readPlace (.host a) 8 = r.w0.toNat ∧ m'.readPlace (.host (a + 8)) 8 = r.w1.toNat ∧
      m'.readPlace (.host (a + 16)) 8 = r.w2.toNat ∧ m'.readPlace (.host (a + 24)) 8 = r.w3.toNat))

/-- Element `j` of a vector destination of elements of `dw` bits after an instruction whose result there is `v`: an element below VIDX keeps
its value, an inactive one keeps its value or becomes zero under z = 1 (05 R111). -/
def Thread.elementAfter (t : Thread) (w : Word) (d dw j v : Nat) : Nat :=
  if j < t.vidx.toNat then velem (t.getV d) dw j
  else if t.active w j then v % 2 ^ dw
  else if Word.slice w 4 4 = 1 then 0
  else velem (t.getV d) dw j

/-- The flags that the performed elements raise, each bit when some performed element raises it (05 R113). -/
def Thread.FlagsOf (t : Thread) (w : Word) (n : Nat) (f : Nat → Flags) (fl : Flags) : Prop :=
  ∀ b, fl.getLsbD b = true ↔ ∃ j, j < n ∧ t.performs w j = true ∧ (f j).getLsbD b = true

/-- The vector instruction completes with one destination register of `n` elements: VIDX becomes zero, the flags of the performed elements
are ORed into FSR, and nothing else differs but what `SameBut` names. -/
def VectorResult (i : Instr) (s : State) (th : ThreadId) (w : Word) (dw n : Nat) (f : Nat → Nat × Flags) : Prop :=
  let t := s.thread th
  ∃ (x : VReg) (fl : Flags),
    Retires i s th { (t.setV (Word.rd w) x) with flags := t.flags ||| fl, vidx := 0 } ∧
    (∀ j, j < n → velem x dw j = t.elementAfter w (Word.rd w) dw j (f j).1) ∧ t.FlagsOf w n (fun j => (f j).2) fl

/-- The memory that a place lies in, and its byte there. -/
def Place.cell (p : Place) : Nat × Nat :=
  match p with
  | .hbm pc off => (0, hbmKey pc off)
  | .ctier a => (1, a)
  | .host a => (2, a)
  | .store c off => (3, c * storeBytes + off)
  | .hstore c off => (4, c * storeBytes + off)

/-- One byte of a memory, as the machine reads it. -/
def Module.byteAt (m : Module) (c : Nat × Nat) : Nat :=
  match c.1 with
  | 0 => lostRead m.ms.scr m.ms.hbm c.2 1
  | 1 => lostRead m.ms.ctScr m.ms.ctier c.2 1
  | 2 => Memory.read m.ms.host c.2 1
  | 3 => Memory.read m.ms.store c.2 1
  | 4 => Memory.read m.ms.hstore c.2 1
  | _ => 0

/-- Every byte of every memory reads as before. -/
def SameBytes (m m' : Module) : Prop := (∀ c, m'.byteAt c = m.byteAt c) ∧ m'.ms.flash = m.ms.flash

/-- The `n` bytes at a place hold the low bytes of `v`, the first at the lowest address (a host that cannot be reached keeps its own), and
every other byte of every memory reads as before. -/
def StoresAt (m m' : Module) (p : Place) (n v : Nat) : Prop :=
  (∀ c, m'.byteAt c =
    if c.1 = p.cell.1 ∧ p.cell.2 ≤ c.2 ∧ c.2 < p.cell.2 + n ∧ (c.1 = 2 → m.linkUp = true) then v / 256 ^ (c.2 - p.cell.2) % 256
    else m.byteAt c) ∧ m'.ms.flash = m.ms.flash

/-- The instruction completes by stopping its thread before it (02 R50): no other thread changes, and a live context receives the record
of the cause, the address, the element and the device. -/
def Stops (i : Instr) (s : State) (th : ThreadId) (t : Thread) (cause addr elem dev : Nat) : Prop :=
  let k := ThreadId.key th
  Completes i s (fun m => m.th k = { t with run := .stopped } ∧ (∀ j, j ≠ k → m.th j = s.m.th j) ∧
    (keyKind k ≠ 1 → t.ctx < 64 → s.m.ctxLive t.ctx = true →
      Recorded s.m m t.ctx (mkRecord addr cause t.ctx (keyCore k) (keyThread k) elem t.ip.toNat dev)))

/-- One permission violation is counted against a context, with its unit and address (22 R530). -/
def Violates (m m' : Module) (n unit addr : Nat) : Prop :=
  m'.getF (Reg.HIF_VIOL.count n) = (m.getF (Reg.HIF_VIOL.count n) + 1) % 2 ^ 48 ∧ m'.getF (Reg.HIF_VLOG.unit n) = unit ∧
  m'.getF (Reg.HIF_VLOG.address n) = addr % 2 ^ 48

/-- The thread may make an access of ordering `ord`: no earlier acquire is open, and before a release everything earlier has completed
(15 R373). -/
def State.mayAccess (s : State) (th : ThreadId) (ord : Nat) : Prop :=
  (s.issuing th).acqPending (ThreadId.key th) = false ∧
  (2 ≤ ord → (s.issuing th).drained (ThreadId.key th) = true ∧ (s.thread th).deferred = [])

/-- What translation answers the thread for an address. -/
def State.xlat (s : State) (th : ThreadId) (va : Nat) (acc : Access) : Xlat := ((s.issuing th).thXlat (ThreadId.key th) va acc).2

/-- The module after that translation: the core holds it, and a walk has looked up the entries that it read. -/
def State.walked (s : State) (th : ThreadId) (va : Nat) (acc : Access) : Module :=
  ((s.issuing th).thXlat (ThreadId.key th) va acc).1

/-- No walk of the address waits for a held channel (12 R293). -/
def State.walkOpen (s : State) (th : ThreadId) (va : Nat) : Prop := (s.issuing th).walkHeld (ThreadId.key th) va = false

/-- While a walk of the address waits for a held channel, the instruction only delivers what has been performed: it is given again. -/
def WaitsAtWalk (i : Instr) (s : State) (th : ThreadId) (va : Nat) : Prop :=
  (s.issuing th).walkHeld (ThreadId.key th) va = true → Completes i s (fun m => m = s.issuing th)

/-- A command whose engine reads or writes memory completes with `p`; while a channel is held, it may be given again instead, the module
being `m0` as before it (12 R293; log 67). -/
def CompletesOpen (i : Instr) (s : State) (m0 : Module) (p : Module → Prop) : Prop :=
  Completes i s (fun m => (s.m.noHolds = false ∧ m = m0) ∨ p m)

/-- The thread has moved to the next instruction with one more outstanding access, whose number of elements not yet performed is `left`. -/
def Issued (s : State) (th : ThreadId) (m : Module) (left : Nat) : Prop :=
  let t := s.thread th
  ∃ o : Outst, o.left = left ∧ m.th (ThreadId.key th) =
    { t with ip := t.ip + 8, retiredAt := s.m.pilot, outst := t.outst ++ [o], issued := t.issued + 1 }

/-- A scalar register of the thread once the accesses that have been performed are delivered: the value that its next instruction reads. -/
def Module.settledS (m : Module) (th : ThreadId) (r : Nat) : Word := ((m.settle (ThreadId.key th)).th (ThreadId.key th)).getS r

/-- No other thread than `th`, and no register field outside `sideField`, differs. -/
def Alone (m m' : Module) (th : ThreadId) : Prop :=
  (∀ j, j ≠ ThreadId.key th → m'.th j = m.th j) ∧ ∀ f : Fld, sideField f.key = false → m'.getF f = m.getF f

/-- The thread's address translates, with no walk that waits, to a place whose channel, if it has one, is not held (12 R293). -/
def State.openPlace (s : State) (th : ThreadId) (va : Nat) (acc : Access) (p : Place) : Prop :=
  (∃ lc, s.xlat th va acc = .ok p lc) ∧ s.walkOpen th va ∧ ∀ pc off, p = .hbm pc off → s.m.held pc = false

/-- Such a place that later stores cannot change: core store, or a page whose translation the core holds (02 R38). -/
def State.fixedPlace (s : State) (th : ThreadId) (va : Nat) (acc : Access) (p : Place) : Prop :=
  s.openPlace th va acc p ∧
  (va < windowBase → (SMap.get none ((s.issuing th).core (ThreadId.key th / 8)).tlb (va / 2 ^ 21)).isSome = true)

/-- The `n` bytes at a place include the cell. -/
def Place.covers (p : Place) (n : Nat) (c : Nat × Nat) : Prop := c.1 = p.cell.1 ∧ p.cell.2 ≤ c.2 ∧ c.2 < p.cell.2 + n

/-- A vector memory instruction has moved its thread on with VIDX zero; only its accesses and its count of them may differ besides. -/
def VectorMoved (s : State) (th : ThreadId) (m : Module) : Prop :=
  let t := s.thread th
  ∃ os c, m.th (ThreadId.key th) = { t with ip := t.ip + 8, retiredAt := s.m.pilot, vidx := 0, outst := os, issued := c }

/-- A completion record of a live context can be written at `r`, where the address lies; `r` is outside HBM, so that writing the record
leaves the translation of its own words alone, and no entry of its walk lies on a held channel (15 R385, R387; 12 R293). -/
def Module.recordPlace (m : Module) (ctx va : Nat) (r : Place) : Prop :=
  m.ctxLive ctx = true ∧ ctx < 64 ∧ va % 32 = 0 ∧ r.isHbm = false ∧ (∃ lc, m.ctxXlat ctx va .store = .ok r lc) ∧
  (∀ a, r = .host a → m.linkUp = true) ∧ ∀ pc off, Place.hbm pc off ∈ m.walkPlaces ctx va → m.held pc = false

/-- The record of Table 15-4 stands at a place: done, status, kind and count; the parts; the pilot tick; zero. -/
def HasRecord (m : Module) (r : Place) (status kind count parts pilot : Nat) : Prop :=
  m.readPlace r 8 = 2 ^ 63 + status * 2 ^ 48 + kind * 2 ^ 40 + count ∧ m.readPlace (r.plus 8) 8 = parts ∧
  m.readPlace (r.plus 16) 8 = pilot % 2 ^ 64 ∧ m.readPlace (r.plus 24) 8 = 0

/-- The thread retires with a code in d: nothing else of it differs. -/
def State.withCode (s : State) (th : ThreadId) (w : Word) (code : Nat) : Thread :=
  let t := s.thread th
  { (t.setS (Word.rd w) (BitVec.ofNat 64 code)) with ip := t.ip + 8, retiredAt := s.m.pilot }

/-- A register access answers at once: main power is good, the Lamplighter is not in ROM recovery, and the module is in W0 with no entry under
way (21 R489, 22 R515). -/
def State.barReady (s : State) : Prop :=
  s.m.pwr.mainGood = true ∧ s.m.recovery = false ∧ s.m.getF Reg.PWR_STATE.state = 0 ∧ s.m.getF Reg.PWR_STATE.entering = 0

/-- What this module sends to a device leaves on an ACTIVE port (13 R327). -/
def Module.activeTo (m : Module) (dev : Nat) : Prop :=
  m.routeLost dev = false ∧ m.routeValid dev = true ∧ ∃ p, p < 16 ∧ Nat.testBit (m.routePorts dev) p = true ∧ m.pstate p = pActive

/-- A field that has changed because PILOT has moved: a W1S bit that hardware cleared (00 R11), or the state of a link that has trained (22
R532); the times are the model's choice (log 58, log 74). -/
def TickChanged (m m' : Module) (f : Fld) : Prop :=
  m.pilot < m'.pilot ∧ ((f.key ∈ w1sFlds.map Fld.key ∧ m'.getF f = 0) ∨
    (f.key = Reg.HIF_LINK.state.key ∧ m.getF Reg.HIF_LINK.state = 1 ∧ m'.getF Reg.HIF_LINK.state = 2))

/-- Nothing differs but the parts listed, the register fields whose key is listed, what was sent, what a tick changed, and what
counting an event, raising a source and waking change: fields of `sideField`, EVC, PMC, PWR and the MSI-X pending bits. -/
def Changes (ks : List Nat) (ps : List Part) (m m' : Module) : Prop :=
  Only (ps ++ [.fields, .evc, .pmc, .pwr, .hif]) m m' ∧
  (∀ f : Fld, f.key ∉ ks → sideField f.key = false → m'.getF f = m.getF f ∨ TickChanged m m' f) ∧
  (Part.hif ∉ ps → { m'.hif with pba := [] } = { m.hif with pba := [] })

/-- The command completes, its effect satisfies `p`, and nothing differs but what `Changes` allows. -/
def Effect (i : Instr) (s : State) (ks : List Nat) (ps : List Part) (p : Module → Prop) : Prop :=
  Completes i s (fun m => p m ∧ Changes ks ps s.m m)

/-- The 8-byte words from an address on can be stored in the context, each at its place outside HBM, so that storing them leaves the
translation alone. -/
def Module.wordPlaces (m : Module) (ctx va n : Nat) (p : Nat → Place) : Prop :=
  ∀ i, i < n → (∃ lc, m.ctxXlat ctx (va + 8 * i) .store = .ok (p i) lc) ∧ (p i).isHbm = false ∧ ∀ a, p i = .host a → m.linkUp = true

/-- Two runs of words lie apart. -/
def Apart (n n' : Nat) (p p' : Nat → Place) : Prop := ∀ i j c, i < n → j < n' → (p i).covers 8 c → ¬ (p' j).covers 8 c

/-- The words of a run lie apart from one another. -/
def ApartSelf (n : Nat) (p : Nat → Place) : Prop := ∀ i j c, i < n → j < n → i ≠ j → (p i).covers 8 c → ¬ (p j).covers 8 c

/-- The elements of `size` bytes at an address can be read in the context, and read as the list. -/
def Module.elems (m : Module) (ctx va size : Nat) (xs : List Nat) : Prop :=
  ∀ i, i < xs.length → let l := m.xlatRange ctx (va + size * i) size .load
    (∀ x ∈ l, ∃ p lc, x.2 = .ok p lc ∧ m.badPlace p x.1.2 = false) ∧ leVal (m.rangeBytes l) = xs.getD i 0

/-- The `n` elements of `size` bytes at an address can be stored in the context, one after another from the place `p` on, outside HBM. -/
def Module.destAt (m : Module) (ctx va size n : Nat) (p : Place) : Prop :=
  p.isHbm = false ∧ (∀ a, p = .host a → m.linkUp = true) ∧
  ∀ i, i < n → ∀ x ∈ m.xlatRange ctx (va + size * i) size .store, ∃ lc, x.2 = .ok (p.plus (x.1.1 - va)) lc

/-- The elements stand one after another from a place on. -/
def Module.holds (m : Module) (p : Place) (size : Nat) (xs : List Nat) : Prop :=
  ∀ i, i < xs.length → m.readPlace (p.plus (size * i)) size = xs.getD i 0 % 256 ^ size

/-- Every byte outside the `n` bytes at a place reads as before. -/
def SameOutside (m m' : Module) (p : Place) (n : Nat) : Prop := ∀ c, ¬ p.covers n c → m'.byteAt c = m.byteAt c

end Sys2Proof.Machine
end

