-- ==== Sys2Proof/Certificates/Slice0/Obligations.lean ====
section
/-! DEFINITION. The statements for the provers: what each command does under hypotheses on the state and its operands alone, what it leaves
unchanged, the rules of the specification that a whole module keeps, and invariants of every step. -/

open Sys2Proof Sys2Proof.Machine

/-- O1. A step takes the command at the front of the queue and runs it on the state whose queue is the rest. The queue is the interface of the model as a block. -/
def Obligations.StepRunsTheFrontCommand : Prop :=
  ∀ (c : Instr) (s : State), step { s with pending := c :: s.pending } = exec c s

/-- O2. With no command waiting, a step is one tick of the pilot, which counts on standby power. That a step on an empty queue is a tick is the choice of log entry 2; that the pilot counts, with standby power, is 04 Table 4-8 and 18 R438; that an instance whose service ended is evaluated in the next tick is 19 R461. -/
def Obligations.EmptyQueueIsOnePilotTick : Prop :=
  ∀ s : State, s.pending = [] →
    ∃ t, step s = .next t ∧ t.pending = [] ∧ t.m.pilot = s.m.pilot + (if s.m.pwr.standby then 1 else 0) ∧
      (s.m.pwr.standby = true → s.m.pwr.mainGood = true → t.m.evc.due = []) ∧
      Only [.pilot, .fields, .pmc, .evc, .pwr, .hif] s.m t.m

/-- O3. Every failure that the specification describes is a next state (02 R49-R53, 04 R100, 16 R405), so a run of well-formed commands serves the whole queue, whatever state it starts from. -/
def Obligations.QueueOfWellFormedCommandsRunsToItsEnd : Prop :=
  ∀ s : State, s.pending.all Instr.wf = true → ∃ t, core.run s.pending.length s = .next t ∧ t.pending = []

/-- O4. R86 and R88 give the rows of a word. That a command whose word is of another row is refused by name, and only then, is the model's choice (log 1, DESIGN CHOICE; log 14). -/
def Obligations.RefusedExactlyWhenIllFormed : Prop :=
  ∀ (i : Instr) (s : State),
    (i.wf = true → ∃ t, exec i s = .next t ∧ t.pending = s.pending) ∧ (i.wf = false → exec i s = .refused .illFormed)

/-- O5. 00 R12, R13; 22 R527. That a field whose After power-up column gives a word (fused, strap, random, running, set, per ROM or per image), and PILOT, read 0 is the choice of log entry 3 (DESIGN CHOICE); that memory and the registers of a thread read 0 that of log entries 4 and 5. -/
def Obligations.ResetHoldsThePowerUpValues : Prop :=
  let m := State.reset.m
  State.reset.pending = [] ∧ m.pilot = 0 ∧ m.pwr.mainGood = true ∧ m.pwr.perst = true ∧ m.canonical = true ∧
  (∀ f : Fld, m.getF f = f.rst % 2 ^ f.width) ∧ (∀ n, n < 64 → (m.ctxLive n = true ↔ n = 0)) ∧
  m.getF Reg.SQ_QUEUE.free = 65536 ∧ m.getF Reg.FAB_CP_QUEUE.free = 4096 ∧ m.getF Reg.FAB_CP_TMO.ticks = 0x0EE6B280 ∧
  m.getF Reg.PWR_STATE.state = 0 ∧ m.oos = false ∧
  (∀ k, (m.th k).run = .free ∧ ∀ r, (m.th k).getS r = 0) ∧ m.grids = [] ∧ m.transfers = [] ∧ m.sq.subs = [] ∧ m.cp.colls = [] ∧
  (∀ c, m.byteAt c = 0) ∧ ∀ q : Fin 64 × Fin 4, m.hqEntry q.1.val q.2.val = []

/-- O6. The canonical form is how the model holds the byte memories of 12 and 02 and the threads and cores of 02; it holds after reset (ResetHoldsThePowerUpValues). -/
def Obligations.EveryStepKeepsTheCanonicalForm : Prop :=
  ∀ s t : State, s.m.canonical = true → step s = .next t → t.m.canonical = true

/-- O7. 04 Table 4-4. The destination value is stated minor by minor, not by the function that computes it. -/
def Obligations.IntegerInstructionsWriteTheTableResult : Prop :=
  ∀ (s : State) (th : ThreadId) (w : Word), s.issues .integerOp th w = true →
    let t := s.thread th
    let a := t.getS (Word.ra w)
    let b := intB t w
    let n := Word.minor w
    ∃ v : Word, Retires (.integerOp th w) s th (t.setS (Word.rd w) v) ∧
      (n = 0x00 → v = a + b) ∧ (n = 0x01 → v = a - b) ∧ (n = 0x02 → v = a &&& b) ∧ (n = 0x03 → v = a ||| b) ∧
      (n = 0x04 → v = a ^^^ b) ∧
      (n = 0x05 → ∀ i < 64, v.getLsbD i = (decide (b.toNat % 64 ≤ i) && a.getLsbD (i - b.toNat % 64))) ∧
      (n = 0x06 → ∀ i, v.getLsbD i = a.getLsbD (b.toNat % 64 + i)) ∧
      (n = 0x07 → v.toInt = a.toInt / 2 ^ (b.toNat % 64)) ∧
      (n = 0x08 → v.toNat = a.toNat * b.toNat % 2 ^ 64) ∧
      (n = 0x09 → v.toInt = a.toInt * b.toInt / 2 ^ 64) ∧
      (n = 0x0A → v.toNat = a.toNat * b.toNat / 2 ^ 64) ∧
      (n = 0x0F → v.toInt = min a.toInt b.toInt) ∧ (n = 0x10 → v.toInt = max a.toInt b.toInt) ∧
      (n = 0x11 → v.toNat = min a.toNat b.toNat) ∧ (n = 0x12 → v.toNat = max a.toNat b.toNat) ∧
      (n = 0x13 → v.toNat ≤ 64 ∧ (∀ i, 64 - v.toNat ≤ i → a.getLsbD i = false) ∧
        (v.toNat < 64 → a.getLsbD (63 - v.toNat) = true)) ∧
      (n = 0x14 → v.toNat ≤ 64 ∧ (∀ i, i < v.toNat → a.getLsbD i = false) ∧ (v.toNat < 64 → a.getLsbD v.toNat = true)) ∧
      (n = 0x15 → v.toNat = ((List.range 64).filter (fun i => a.getLsbD i)).length) ∧
      (n = 0x16 → Word.major w = 1 →
        ∀ i, v.getLsbD i = (decide (i < (t.getS (Word.rc w)).toNat % 64 + 1) && a.getLsbD (b.toNat % 64 + i))) ∧
      (n = 0x16 → Word.major w = 2 →
        ∀ i, v.getLsbD i = (decide (i < Word.slice w 11 6 + 1) && a.getLsbD (Word.slice w 5 0 + i))) ∧
      (n = 0x17 → v = if t.getS (Word.rc w) ≠ 0 then a else b)

/-- O8. R93: integer division never traps. The last four clauses are Table 4-4 for the other operands. -/
def Obligations.DivisionByZeroAndOverflowHaveResults : Prop :=
  ∀ (s : State) (th : ThreadId) (w : Word), s.issues .divRem th w = true →
    let t := s.thread th
    let a := t.getS (Word.ra w)
    let b := intB t w
    let n := Word.minor w
    ∃ v : Word, Retires (.divRem th w) s th (t.setS (Word.rd w) v) ∧
      (b = 0 → (n = 0x0B ∨ n = 0x0C → v = BitVec.allOnes 64) ∧ (n = 0x0D ∨ n = 0x0E → v = a)) ∧
      (a.toInt = -2 ^ 63 → b.toInt = -1 → (n = 0x0B → v.toInt = -2 ^ 63) ∧ (n = 0x0D → v = 0)) ∧
      (b ≠ 0 → n = 0x0C → v.toNat = a.toNat / b.toNat) ∧ (b ≠ 0 → n = 0x0E → v.toNat = a.toNat % b.toNat) ∧
      (b ≠ 0 → ¬ (a.toInt = -2 ^ 63 ∧ b.toInt = -1) →
        (n = 0x0B → v.toInt = a.toInt.tdiv b.toInt) ∧ (n = 0x0D → v.toInt = a.toInt.tmod b.toInt))

/-- O9. 04 Tables 4-3 and 4-6a. -/
def Obligations.ImmediatesAndComparesWriteTheirValue : Prop :=
  ∀ (s : State) (th : ThreadId) (w : Word),
    let t := s.thread th
    let old := t.getS (Word.rd w)
    let a := t.getS (Word.ra w)
    let b := t.getS (Word.rb w)
    let n := Word.minor w
    (s.issues .liL th w = true → ∃ v : Word, Retires (.liL th w) s th (t.setS (Word.rd w) v) ∧
      (∀ i < 40, v.getLsbD i = w.getLsbD i) ∧ (∀ i, 40 ≤ i → i < 64 → v.getLsbD i = w.getLsbD 39)) ∧
    (s.issues .liH th w = true → ∃ v : Word, Retires (.liH th w) s th (t.setS (Word.rd w) v) ∧
      (∀ i < 40, v.getLsbD i = old.getLsbD i) ∧ (∀ i, 40 ≤ i → i < 64 → v.getLsbD i = w.getLsbD (i - 40))) ∧
    (s.issues .intCompare th w = true → ∃ c : Bool,
      Retires (.intCompare th w) s th (t.setS (Word.rd w) (if c then 1 else 0)) ∧
      (n = 0 → (c = true ↔ a = b)) ∧ (n = 1 → (c = true ↔ a ≠ b)) ∧ (n = 2 → (c = true ↔ a.toInt < b.toInt)) ∧
      (n = 3 → (c = true ↔ b.toInt ≤ a.toInt)) ∧ (n = 4 → (c = true ↔ a.toNat < b.toNat)) ∧
      (n = 5 → (c = true ↔ b.toNat ≤ a.toNat)))

/-- O10. 04 Tables 4-5 and 4-6, 03 R57-R76: the result and the flags are those of the number rules on the operand patterns. -/
def Obligations.FloatingInstructionsWriteResultAndFlags : Prop :=
  ∀ (s : State) (th : ThreadId) (w : Word),
    let t := s.thread th
    let u := (s.issuing th).draw t w 0
    let f := if Word.major w = 4 then fp64 else fp32
    let a := (t.getS (Word.ra w)).toNat
    let b := (t.getS (Word.rb w)).toNat
    let c := (t.getS (Word.rc w)).toNat
    let n := Word.minor w
    let rm := t.rmOf (Word.rm w) false
    let put (r : Nat × Flags) : Thread := (t.orFlags r.2).setS (Word.rd w) (BitVec.ofNat 64 r.1)
    (s.issues .fpArith th w = true →
      Retires (.fpArith th w) s th (put (fArith f (arithOpOf n) (t.rmOf (Word.rm w) true) u a b c))) ∧
    (s.issues .fdivFsqrt th w = true → (n = 6 → Retires (.fdivFsqrt th w) s th (put (fDiv f rm a b))) ∧
      (n = 7 → Retires (.fdivFsqrt th w) s th (put (fSqrt f rm a)))) ∧
    (s.issues .fminFmax th w = true → Retires (.fminFmax th w) s th (put (fMinMax f (n == 9) a b))) ∧
    (s.issues .fsgnj th w = true → Retires (.fsgnj th w) s th (t.setS (Word.rd w) (BitVec.ofNat 64 (fSgnj f a b)))) ∧
    (s.issues .fclass th w = true → Retires (.fclass th w) s th (t.setS (Word.rd w) (BitVec.ofNat 64 (fClass f a)))) ∧
    (s.issues .fpCompare th w = true →
      let r := fCompare (if n ≤ 0x0A then fp64 else fp32) (cmpOf n) a b
      Retires (.fpCompare th w) s th (put (if r.1 then 1 else 0, r.2))) ∧
    (s.issues .pround th w = true →
      Retires (.pround th w) s th (put (finishF f rm 0 ((t.pairOperand w (Word.ra w)).value (rdnOf rm))))) ∧
    (s.issues .convert th w = true →
      let dst := FCode.ofCode (n / 8)
      let iw := if Word.slice w 16 16 = 1 then 32 else 64
      let r := convert dst (FCode.ofCode (n % 8)) (t.rmOf (Word.rm w) true) u iw (Word.slice w 15 15 == 1) (signedOf 8 b) a
      Retires (.convert th w) s th
        (put (if dst = .sint ∧ iw = 32 then ((BitVec.ofNat 32 r.1).signExtend 64).toNat else r.1, r.2)))

/-- O11. 03 R79-R82, 04 R92: where the two components of a pair destination lie. -/
def Obligations.PairInstructionsWriteBothComponents : Prop :=
  ∀ (s : State) (th : ThreadId) (w : Word),
    let t := s.thread th
    let f := if Word.major w = 4 then fp64 else fp32
    let x (r : Nat) : FVal := f.decode (t.getS r).toNat
    let y (r : Nat) : Pair := t.pairOperand w r
    let d := Word.rd w
    let put (p : Pair) (fl : Flags) : Thread :=
      let q := p.bits f
      if Word.major w = 4 then ((t.orFlags fl).setS d (BitVec.ofNat 64 q.1)).setS (d + 1) (BitVec.ofNat 64 q.2)
      else (t.orFlags fl).setS d (BitVec.ofNat 64 (q.1 % 2 ^ 32 + q.2 % 2 ^ 32 * 2 ^ 32))
    (s.issues .faddP th w = true →
      Retires (.faddP th w) s th
        (put (twoSum f (x (Word.ra w)) (x (Word.rb w))).1 (twoSum f (x (Word.ra w)) (x (Word.rb w))).2)) ∧
    (s.issues .fmulP th w = true →
      Retires (.fmulP th w) s th
        (put (twoProd f (x (Word.ra w)) (x (Word.rb w))).1 (twoProd f (x (Word.ra w)) (x (Word.rb w))).2.1)) ∧
    (s.issues .fmaP th w = true →
      let r := fmaPair f (x (Word.ra w)) (x (Word.rb w)) (x (Word.rc w))
      Retires (.fmaP th w) s th (put r.1 r.2.1)) ∧
    (s.issues .padd th w = true →
      let r := pairAdd f (y (Word.ra w)) (y (Word.rb w))
      Retires (.padd th w) s th (put r.1 r.2))

/-- O12. R95, with the conditions and the link register of Table 4-6a; R103 for the unhandled trap. FETCH_FAULT is the fetch of a thread whose IP is not canonical. -/
def Obligations.BranchesAndJumpsTakeTheirTarget : Prop :=
  ∀ (s : State) (th : ThreadId) (w : Word),
    let t := s.thread th
    let k := ThreadId.key th
    let a := t.getS (Word.ra w)
    let b := t.getS (Word.rb w)
    let n := Word.minor w
    let goTo (x : Thread) (ip : Word) : Thread := { x with ip := ip, retiredAt := s.m.pilot }
    (s.issues .branch th w = true →
      ∃ c : Bool, Leaves (.branch th w) s th (goTo t (if c then t.ip + 8 * imm28 w else t.ip + 8)) ∧
      (n = 0 → (c = true ↔ a = b)) ∧ (n = 1 → (c = true ↔ a ≠ b)) ∧ (n = 2 → (c = true ↔ a.toInt < b.toInt)) ∧
      (n = 3 → (c = true ↔ b.toInt ≤ a.toInt)) ∧ (n = 4 → (c = true ↔ a.toNat < b.toNat)) ∧
      (n = 5 → (c = true ↔ b.toNat ≤ a.toNat))) ∧
    (s.issues .jal th w = true → Leaves (.jal th w) s th (goTo (t.setS (Word.rd w) (t.ip + 8)) (t.ip + 8 * imm40 w))) ∧
    (s.issues .jalr th w = true → (a + imm28 w).toNat % 8 = 0 →
      Leaves (.jalr th w) s th (goTo (t.setS (Word.rd w) (t.ip + 8)) (a + imm28 w))) ∧
    (s.issues .jalr th w = true → (a + imm28 w).toNat % 8 ≠ 0 → t.inTrap = false → t.tvec ≠ 0 →
      Leaves (.jalr th w) s th { t with tepc := t.ip.setWidth 48, tcause := 4, tval := a + imm28 w, inTrap := true, ip := t.tvec }) ∧
    (s.issues .jalr th w = true → (a + imm28 w).toNat % 8 ≠ 0 → t.inTrap = true ∨ t.tvec = 0 →
      Stops (.jalr th w) s th t 0x14 ((a + imm28 w).toNat % 2 ^ 48) 0 0) ∧
    ((s.m.th k).run = .running → s.m.getF Reg.PWR_STATE.state = 0 → 2 ^ 48 ≤ (s.m.th k).ip.toNat →
      Stops (.fetchFault th) s th (s.m.th k) 3 (s.m.th k).ip.toNat 0 0)

/-- O13. R101 but for the six cycles, which are timing, with the values of Table 4-8; R103 with the record of Table 2-4. An update core has a ring of its own. That an illegal word gives ILLEGAL also on a processor that lacks its class is log 66 (DESIGN CHOICE). -/
def Obligations.TrapsEnterTheHandlerOrStopTheThread : Prop :=
  ∀ (s : State) (th : ThreadId) (w : Word),
    let t := s.thread th
    let k := ThreadId.key th
    let canRun := (s.m.th k).run = .running ∧ (keyKind k = 0 → s.m.getF Reg.PWR_STATE.state = 0)
    let enter (cause : BitVec 8) (epc tval : Word) : Thread :=
      { t with tepc := epc.setWidth 48, tcause := cause, tval := tval, inTrap := true, ip := t.tvec }
    let stop (i : Instr) (cause : Nat) (ip : Word) (v elem : Nat) : Prop :=
      Completes i s (fun m => m.th k = { t with run := .stopped, ip := ip } ∧ (∀ j, j ≠ k → m.th j = s.m.th j) ∧
        Recorded s.m m t.ctx (mkRecord (v % 2 ^ 48) (0x10 + cause) t.ctx (keyCore k) (keyThread k) elem t.ip.toNat 0))
    let elem : Nat := if majorV (Word.major w) then t.vidx.toNat else 0
    (t.inTrap = false → t.tvec ≠ 0 →
      (s.issues .trap th w = true → Leaves (.trap th w) s th (enter 3 (t.ip + 8) (BitVec.ofNat 64 (Word.mod28 w)))) ∧
      (wordIllegal w = true → canRun → Leaves (.illegalInstruction th w) s th (enter 1 t.ip w)) ∧
      (wordIs .vintOp w = true → canRun → t.blockedBy w = false → 2 ≤ keyKind k →
        Leaves (.vintOp th w) s th (enter 2 t.ip w))) ∧
    (t.inTrap = true ∨ t.tvec = 0 → keyKind k ≠ 1 → t.ctx < 64 → s.m.ctxLive t.ctx = true →
      (s.issues .trap th w = true → stop (.trap th w) 3 (t.ip + 8) (Word.mod28 w) 0) ∧
      (wordIllegal w = true → canRun → stop (.illegalInstruction th w) 1 t.ip w.toNat elem) ∧
      (wordIs .vintOp w = true → canRun → t.blockedBy w = false → 2 ≤ keyKind k → stop (.vintOp th w) 2 t.ip w.toNat elem))

/-- O14. R102. The retirement tick, which a watchdog reads, is the one further change of the thread. -/
def Obligations.TretReturnsFromTheTrap : Prop :=
  ∀ (s : State) (th : ThreadId) (w : Word), s.issues .tret th w = true →
    let t := s.thread th
    (t.inTrap = true → t.tepc.toNat % 8 = 0 →
      Leaves (.tret th w) s th { t with ip := t.tepc.setWidth 64, inTrap := false, retiredAt := s.m.pilot }) ∧
    (t.inTrap = false → t.tvec ≠ 0 →
      Leaves (.tret th w) s th { t with tepc := t.ip.setWidth 48, tcause := 1, tval := w, inTrap := true, ip := t.tvec }) ∧
    (t.inTrap = false → t.tvec = 0 → Stops (.tret th w) s th t 0x11 (w.toNat % 2 ^ 48) 0 0) ∧
    (t.inTrap = true → t.tepc.toNat % 8 ≠ 0 →
      Stops (.tret th w) s th t 0x14 t.tepc.toNat 0 0)

/-- O15. R97 and Table 4-8, register by register; R99 for what they wait for. -/
def Obligations.StatusRegisterInstructions : Prop :=
  ∀ (s : State) (th : ThreadId) (w : Word),
    let t := s.thread th
    let k := ThreadId.key th
    let a := t.getS (Word.ra w)
    let num := Word.slice w 11 0
    let old : Word :=
      if num = 0x000 then BitVec.ofNat 64 (t.frm.toNat * 256 + t.flags.toNat) else if num = 0x001 then t.srctr
      else if num = 0x002 then t.vidx.setWidth 64 else if num = 0x008 then t.tvec else if num = 0x009 then t.tepc.setWidth 64
      else if num = 0x00A then t.tcause.setWidth 64 else if num = 0x00B then t.tval
      else if num = 0x00C then (if t.inTrap then 1 else 0)
      else if num = 0x010 then BitVec.ofNat 64 (keyKind k * 2 ^ 20 + t.ctx % 64 * 2 ^ 14 + keyCore k * 8 + keyThread k)
      else if num = 0x011 then BitVec.ofNat 64 s.m.pilot else 0
    let put (v : Word) : Thread :=
      if num = 0x000 then { t with flags := v.setWidth 7, frm := if v.extractLsb' 8 3 = 7 then t.frm else v.extractLsb' 8 3 }
      else if num = 0x001 then { t with srctr := v } else if num = 0x002 then { t with vidx := v.setWidth 8 }
      else if num = 0x008 then { t with tvec := v &&& 0x0000FFFFFFFFFFF8 } else if num = 0x009 then { t with tepc := v.setWidth 48 }
      else if num = 0x00A then { t with tcause := v.setWidth 8 } else if num = 0x00B then { t with tval := v }
      else if num = 0x00C then { t with inTrap := v.getLsbD 0 } else t
    let settled : Prop := (s.issuing th).vecPending k = false
    (∀ i ∈ [.srd th w, .swr th w, .sset th w, .sclr th w], Instr.wf i = true → s.canIssue th w = true →
      (s.issuing th).vecPending k = true → Completes i s (fun m => m = s.issuing th)) ∧
    (settled → s.issues .srd th w = true → Retires (.srd th w) s th (t.setS (Word.rd w) old)) ∧
    (settled → s.issues .swr th w = true → Retires (.swr th w) s th (put a)) ∧
    (settled → s.issues .sset th w = true → Retires (.sset th w) s th ((put (old ||| a)).setS (Word.rd w) old)) ∧
    (settled → s.issues .sclr th w = true → Retires (.sclr th w) s th ((put (old &&& ~~~a)).setS (Word.rd w) old))

/-- O16. 04 Table 4-6a, R96, R104; 02 R27. -/
def Obligations.ThreadControlInstructions : Prop :=
  ∀ (s : State) (th : ThreadId) (w : Word),
    let t := s.thread th
    let k := ThreadId.key th
    let after : Thread := { t with ip := t.ip + 8, retiredAt := s.m.pilot }
    (s.issues .nop th w = true → Retires (.nop th w) s th t) ∧
    (s.issues .yield th w = true → Retires (.yield th w) s th t ∧ Completes (.yield th w) s (fun m => m.ctxs = s.m.ctxs)) ∧
    (s.issues .pause th w = true → Leaves (.pause th w) s th { after with run := .paused } ∧
      Completes (.pause th w) s (fun m => m.ctxs = s.m.ctxs)) ∧
    ((s.m.th k).run = .paused → Does (.pauseEnd th) s [.threads] (fun m => m.th k = { s.m.th k with run := .running } ∧
      ∀ j, j ≠ k → m.th j = s.m.th j)) ∧
    (s.issues .halt th w = true → (s.issuing th).drained k = true → t.deferred = [] →
      Completes (.halt th w) s (fun m => (keyKind k = 1 ∧ s.m.noHolds = false ∧ m = s.issuing th) ∨ (m.th k = Thread.empty ∧ (∀ j, j ≠ k → m.th j = s.m.th j) ∧
        ∀ id g, t.work = .grid id → s.m.grid id = some g →
          (1 < g.live → m.grid id = some { g with live := g.live - 1 }) ∧ (g.live = 1 → m.grid id = none))))

/-- O17. 03 R54-R58, R62: decoding and rounding agree on every representable value, subnormals and signed zeros included. -/
def Obligations.FinitePatternsRoundToThemselves : Prop :=
  ∀ (f : Fmt), f ∈ [fp64, fp32, bf16, fp16, e4m3, e5m2] → ∀ (rm : Rm) (u bits : Nat), bits < 2 ^ f.width →
    (f.decode bits).isFin = true → f.round rm u (f.decode bits) = (bits, fNone)

/-- O18. 03 Table 3-3 and R66, for the one rounding step that every result passes through. -/
def Obligations.RoundingModesChooseTheirNeighbour : Prop :=
  ∀ (u : Nat) (neg : Bool) (m s : Nat),
    let k (rm : Rm) : Nat := (roundMag rm u neg m 0 false s).1
    let gap (rm : Rm) : Int := ((k rm * 2 ^ s : Nat) : Int) - m
    (∀ rm, (roundMag rm u neg m 0 false s).2 = true ↔ m % 2 ^ s ≠ 0) ∧
    (∀ rm, m % 2 ^ s = 0 → gap rm = 0) ∧
    (2 * (gap .rne).natAbs ≤ 2 ^ s ∧ (2 * (gap .rne).natAbs = 2 ^ s → k .rne % 2 = 0)) ∧
    (gap .rtz ≤ 0 ∧ -(2 ^ s : Int) < gap .rtz) ∧
    (neg = true → 0 ≤ gap .rdn ∧ gap .rdn < 2 ^ s) ∧ (neg = false → gap .rdn ≤ 0 ∧ -(2 ^ s : Int) < gap .rdn) ∧
    (neg = false → 0 ≤ gap .rup ∧ gap .rup < 2 ^ s) ∧ (neg = true → gap .rup ≤ 0 ∧ -(2 ^ s : Int) < gap .rup) ∧
    (2 * (gap .rna).natAbs ≤ 2 ^ s ∧ (2 * (gap .rna).natAbs = 2 ^ s → 0 < gap .rna)) ∧
    ((gap .rto).natAbs < 2 ^ s ∧ (m % 2 ^ s ≠ 0 → k .rto % 2 = 1)) ∧
    k .sr = m / 2 ^ s + (if u < m % 2 ^ s * 2 ^ 24 / 2 ^ s then 1 else 0)

/-- O19. R80: the error term of two_sum is always exact; R79: e needs no rounding. Values are compared exactly, so the sign of a zero does not matter. -/
def Obligations.TwoSumErrorTermIsExact : Prop :=
  ∀ (f : Fmt), f = fp64 ∨ f = fp32 → ∀ (x y : Nat),
    let a := f.decode x
    let b := f.decode y
    let r := twoSum f a b
    a.isFin = true → b.isFin = true → r.1.s.isFin = true →
      r.2 = fNone ∧ cmpF (addF false r.1.s r.1.e).1 (addF false a b).1 = some .eq

/-- O20. 05 Tables 5-2 and 5-4, R111, R113, R116. x and y are the elements under the signedness of the type. -/
def Obligations.VectorIntegerAndFixedPointElements : Prop :=
  ∀ (s : State) (th : ThreadId) (w : Word),
    let t := s.thread th
    let ty := vtype w
    let ew := vWidth ty
    let n := Word.minor w
    let a (j : Nat) : Nat := velem (t.getV (Word.ra w)) ew j
    let b (j : Nat) : Nat := velem (t.getV (Word.rb w)) ew j
    let d (j : Nat) : Nat := velem (t.getV (Word.rd w)) ew j
    let sg (v : Nat) : Int := intOf (decide (ty < 4)) ew v
    (s.issues .vintOp th w = true → VectorResult (.vintOp th w) s th w ew (2048 / ew) (fun j =>
      (if n = 0 then (a j + b j) % 2 ^ ew else if n = 1 then (a j + 2 ^ ew - b j) % 2 ^ ew
       else if n = 2 then a j &&& b j else if n = 3 then a j ||| b j else if n = 4 then a j ^^^ b j
       else if n = 5 then a j * 2 ^ (b j % ew) % 2 ^ ew else if n = 6 then a j / 2 ^ (b j % ew)
       else if n = 7 then (intOf true ew (a j) / 2 ^ (b j % ew) % 2 ^ ew).toNat
       else if n = 8 then a j * b j % 2 ^ ew else if n = 9 then (sg (a j) * sg (b j) / 2 ^ ew % 2 ^ ew).toNat
       else if n = 10 then (if sg (a j) ≤ sg (b j) then a j else b j)
       else (if sg (b j) ≤ sg (a j) then a j else b j), fNone))) ∧
    (s.issues .vfixedOp th w = true → VectorResult (.vfixedOp th w) s th w ew (2048 / ew) (fun j =>
      let f := Word.slice w 16 12
      let v : Int × Int :=
        if n = 0 then (sg (a j) + sg (b j), -f) else if n = 1 then (sg (a j) - sg (b j), -f)
        else if n = 2 then (sg (a j) * sg (b j), -(2 * f)) else if n = 3 then (sg (d j) * 2 ^ f + sg (a j) * sg (b j), -(2 * f))
        else if n = 4 then (sg (d j) * 2 ^ f - sg (a j) * sg (b j), -(2 * f)) else if n = 5 then (sg (a j), -(f + b j))
        else if n = 6 then (sg (a j) + sg (b j), -(f + 1)) else if n = 7 then ((sg (a j)).natAbs, -f) else (-(sg (a j)), -f)
      let r := roundInt (t.rmOf (Word.rm w) true) ((s.issuing th).draw t w j) (decide (v.1 < 0)) v.1.natAbs (v.2 + f)
      let lo : Int := if ty < 4 then -2 ^ (ew - 1) else 0
      let hi : Int := if ty < 4 then 2 ^ (ew - 1) - 1 else 2 ^ ew - 1
      let k := max lo (min hi r.1)
      ((k % 2 ^ ew).toNat, (if k ≠ r.1 then fSAT ||| fNX else 0) ||| (if r.2 then fNX else 0))))

/-- O21. 05 R114, R115 with R111 and R113. The bit of mx where s is infinite or NaN is log 66 (DESIGN CHOICE). -/
def Obligations.VectorFloatingElementsAndPairs : Prop :=
  ∀ (s : State) (th : ThreadId) (w : Word),
    let t := s.thread th
    let ty := vtype w
    let ew := vWidth ty
    let f := vFmt ty
    let n := Word.minor w
    let a (j : Nat) : Nat := velem (t.getV (Word.ra w)) ew j
    let b (j : Nat) : Nat := velem (t.getV (Word.rb w)) ew j
    let c (j : Nat) : Nat := velem (t.getV (Word.rc w)) ew j
    let pr (r j : Nat) : Pair := Pair.ofBits f (velem (t.getV r) ew j) (velem (t.getV (r + 1)) ew j)
    let rm := t.rmOf (Word.rm w) false
    (s.issues .vfloatOp th w = true → VectorResult (.vfloatOp th w) s th w ew (2048 / ew) (fun j =>
      if n = 6 then fDiv f rm (a j) (b j) else if n = 7 then fSqrt f rm (a j)
      else if n = 8 ∨ n = 9 then fMinMax f (n == 9) (a j) (b j) else if n = 10 then (fSgnj f (a j) (b j), 0)
      else fArith f (arithOpOf n) (t.rmOf (Word.rm w) true) ((s.issuing th).draw t w j) (a j) (b j) (c j))) ∧
    (s.issues .vpairOp th w = true → n = 4 → VectorResult (.vpairOp th w) s th w ew (2048 / ew) (fun j =>
      finishF f rm 0 ((pr (Word.ra w) j).value (rm == .rdn)))) ∧
    (s.issues .vpairOp th w = true → n < 4 →
      let r (j : Nat) : Pair × Flags × Bool :=
        if n = 0 then ((twoSum f (f.decode (a j)) (f.decode (b j))).1, (twoSum f (f.decode (a j)) (f.decode (b j))).2, true)
        else if n = 1 then twoProd f (f.decode (a j)) (f.decode (b j))
        else if n = 2 then fmaPair f (f.decode (a j)) (f.decode (b j)) (f.decode (c j))
        else ((pairAdd f (pr (Word.ra w) j) (pr (Word.rb w) j)).1, (pairAdd f (pr (Word.ra w) j) (pr (Word.rb w) j)).2, true)
      let xe := decide (n = 1 ∨ n = 2) && Word.slice w 15 15 == 1
      let mx := Word.slice w 14 12
      ∃ (x y : VReg) (z : MReg) (fl : Flags),
        let u := (t.setV (Word.rd w) x).setV (Word.rd w + 1) y
        Retires (.vpairOp th w) s th { (if xe then u.setM mx z else u) with flags := t.flags ||| fl, vidx := 0 } ∧
        (∀ j, j < 2048 / ew → velem x ew j = t.elementAfter w (Word.rd w) ew j ((r j).1.bits f).1 ∧
          velem y ew j = t.elementAfter w (Word.rd w + 1) ew j ((r j).1.bits f).2) ∧
        (∀ j, z.getLsbD j = if j < 2048 / ew ∧ t.performs w j = true then (r j).2.2 else (t.getM mx).getLsbD j) ∧
        t.FlagsOf w (2048 / ew) (fun j => (r j).2.1) fl)

/-- O22. 05 R117, R118, with the rows of 03 Table 3-6. -/
def Obligations.VectorConversions : Prop :=
  ∀ (s : State) (th : ThreadId) (w : Word), s.issues .vcvt th w = true →
    let t := s.thread th
    let kind := Word.minor w / 16
    let src := Word.minor w % 16
    let dst := vtype w
    let sw := vWidth src
    let dw := vWidth dst
    let n := 2048 / max sw dw
    let a (j : Nat) : Nat := velem (t.getV (Word.ra w)) sw j
    let e (j : Nat) : Nat := velem (t.getV (Word.ra w + 1)) sw j
    let rm := t.rmOf (Word.rm w) (!(vIsPair src || vIsPair dst))
    let after (d : Nat) (x : VReg) (v : Nat → Nat) : Prop :=
      (∀ j, j < n → velem x dw j = t.elementAfter w d dw j (v j)) ∧ (dw < sw → ∀ i, dw * n ≤ i → x.getLsbD i = false)
    (vIsPair dst = false → ∃ (x : VReg) (fl : Flags),
      let r (j : Nat) : Nat × Flags :=
        if vIsPair src then finishF (vFmt dst) rm 0 ((Pair.ofBits (vFmt src) (a j) (e j)).value (rm == .rdn))
        else vcvtElem kind dst src rm ((s.issuing th).draw t w j) (Word.slice w 16 12)
          (signedOf 8 (t.getS (Word.rb w)).toNat) (a j)
      Retires (.vcvt th w) s th { (t.setV (Word.rd w) x) with flags := t.flags ||| fl, vidx := 0 } ∧
      after (Word.rd w) x (fun j => (r j).1) ∧ t.FlagsOf w n (fun j => (r j).2) fl) ∧
    (vIsPair dst = true → ∃ (x y : VReg) (fl : Flags),
      let r (j : Nat) : Pair × Flags := vcvtPairOk dst src (a j) (e j)
      Retires (.vcvt th w) s th
        { ((t.setV (Word.rd w) x).setV (Word.rd w + 1) y) with flags := t.flags ||| fl, vidx := 0 } ∧
      after (Word.rd w) x (fun j => ((r j).1.bits (vFmt dst)).1) ∧ after (Word.rd w + 1) y (fun j => ((r j).1.bits (vFmt dst)).2) ∧
      t.FlagsOf w n (fun j => (r j).2) fl)

/-- O23. R112. The comparisons of VCOMPARE are Table 5-2's; n is the element count of the type. -/
def Obligations.MaskOperationsAndCompares : Prop :=
  ∀ (s : State) (th : ThreadId) (w : Word),
    let t := s.thread th
    let a := t.getM (Word.ra w)
    let b := t.getM (Word.rb w)
    let m := Word.minor w
    let ty := vtype w
    let ew := vWidth ty
    let n := 2048 / ew
    let d := Word.rd w
    let fin (x : Thread) : Thread := { x with vidx := 0 }
    (s.issues .maskOp th w = true →
      (m < 6 → ∃ z : MReg, Retires (.maskOp th w) s th (fin (t.setM d z)) ∧
        (m = 0 → ∀ i < 256, z.getLsbD i = (a.getLsbD i && b.getLsbD i)) ∧
        (m = 1 → ∀ i < 256, z.getLsbD i = (a.getLsbD i || b.getLsbD i)) ∧
        (m = 2 → ∀ i < 256, z.getLsbD i = (a.getLsbD i ^^ b.getLsbD i)) ∧
        (m = 3 → ∀ i < 256, z.getLsbD i = (a.getLsbD i && !b.getLsbD i)) ∧
        (m = 4 → ∀ i < 256, z.getLsbD i = !a.getLsbD i) ∧
        (m = 5 → ∀ i < 256, z.getLsbD i = decide (i < (t.getS (Word.ra w)).toNat))) ∧
      (m = 6 → Retires (.maskOp th w) s th (fin (t.setS d (BitVec.ofNat 64 ((List.range n).filter (fun i => a.getLsbD i)).length)))) ∧
      (m = 7 → ∃ v : Nat, Retires (.maskOp th w) s th (fin (t.setS d (BitVec.ofNat 64 v))) ∧ v ≤ n ∧
        (∀ i < v, a.getLsbD i = false) ∧ (v < n → a.getLsbD v = true))) ∧
    (s.issues .vcompare th w = true →
      let x (j : Nat) : Nat := velem (t.getV (Word.ra w)) ew j
      let y (j : Nat) : Nat := velem (t.getV (Word.rb w)) ew j
      let sg (v : Nat) : Int := intOf (decide (ty < 4)) ew v
      let r (j : Nat) : Bool × Flags :=
        if m = 0 then (x j == y j, 0) else if m = 1 then (x j != y j, 0)
        else if m = 2 then (decide (sg (x j) < sg (y j)), 0) else if m = 3 then (decide (sg (y j) ≤ sg (x j)), 0)
        else fCompare (vFmt ty) (if m = 8 then .eq else if m = 9 then .lt else .le) (x j) (y j)
      ∃ (z : MReg) (fl : Flags), Retires (.vcompare th w) s th (fin { (t.setM d z) with flags := t.flags ||| fl }) ∧
        (∀ j < n, z.getLsbD j =
          if j < t.vidx.toNat then (t.getM d).getLsbD j else if t.active w j then (r j).1
          else if Word.slice w 4 4 = 1 then false else (t.getM d).getLsbD j) ∧
        (∀ j, n ≤ j → z.getLsbD j = false) ∧ t.FlagsOf w n (fun j => (r j).2) fl)

/-- O24. 05 Table 5-5. VMERGE and VSLIDEUP under z = 1 are log 66 (DESIGN CHOICE), VINS below VIDX log 17 (DEDUCED). -/
def Obligations.VectorMovesAndPermutes : Prop :=
  ∀ (s : State) (th : ThreadId) (w : Word),
    let t := s.thread th
    let ew := vWidth (vtype w)
    let n := 2048 / ew
    let d := Word.rd w
    let a (j : Nat) : Nat := velem (t.getV (Word.ra w)) ew j
    let b (j : Nat) : Nat := velem (t.getV (Word.rb w)) ew j
    let old (j : Nat) : Nat := velem (t.getV d) ew j
    let sb := (t.getS (Word.rb w)).toNat
    let one (i : Instr) (v : Nat → Nat) : Prop :=
      ∃ x : VReg, Retires i s th { (t.setV d x) with vidx := 0 } ∧ ∀ j, j < n → velem x ew j = v j
    (s.issues .vbcast th w = true →
      VectorResult (.vbcast th w) s th w ew n (fun _ => ((t.getS (Word.ra w)).toNat % 2 ^ ew, 0))) ∧
    (s.issues .vperm th w = true → VectorResult (.vperm th w) s th w ew n (fun j => (a (b j % n), 0))) ∧
    (s.issues .vslideup th w = true →
      VectorResult (.vslideup th w) s th w ew n (fun j => (if sb ≤ j then a (j - sb) else old j, 0))) ∧
    (s.issues .vslidedn th w = true →
      VectorResult (.vslidedn th w) s th w ew n (fun j => (if j + sb < n then a (j + sb) else 0, 0))) ∧
    (s.issues .vext th w = true → Retires (.vext th w) s th { (t.setS d (BitVec.ofNat 64 (a (sb % n)))) with vidx := 0 }) ∧
    (s.issues .vins th w = true → one (.vins th w) (fun j =>
      if j = sb % n ∧ t.vidx.toNat ≤ j then (t.getS (Word.ra w)).toNat % 2 ^ ew else old j)) ∧
    (s.issues .vmerge th w = true → one (.vmerge th w) (fun j =>
      if j < t.vidx.toNat then old j else if t.active w j then a j else b j))

/-- O25. 05 R119. That element 0 and the zeros beside it are written whatever VIDX is, against R111, is the choice of log entry 17. -/
def Obligations.VectorReductionsFoldTheFixedTree : Prop :=
  ∀ (s : State) (th : ThreadId) (w : Word), s.issues .vreduce th w = true →
    let t := s.thread th
    let ty := vtype w
    let ew := vWidth ty
    let n := 2048 / ew
    let m := Word.minor w
    let f := vFmt ty
    let d := Word.rd w
    let a (j : Nat) : Nat := velem (t.getV (Word.ra w)) ew j
    let e (j : Nat) : Nat := velem (t.getV (Word.ra w + 1)) ew j
    let zero : Pair := { s := .fin true 0 0, e := .zero }
    (m ≠ 11 → ∃ v : Nat, ∃ fl : Flags,
      ([v], fl) = treeFold (redOp m ty (t.rmOf (Word.rm w) false)) (Nat.log2 n)
        ((List.range n).map (fun j => if t.performs w j then a j else redIdentity m ty)) ∧
      Retires (.vreduce th w) s th { (t.setV d (BitVec.ofNat 2048 v)) with flags := t.flags ||| fl, vidx := 0 } ∧
      (vIsInt ty = true → m = 8 →
        v = (((List.range n).filter (fun j => t.performs w j)).map a).sum % 2 ^ ew ∧ fl = 0)) ∧
    (m = 11 → ∃ p : Pair, ∃ fl : Flags,
      ([p], fl) = treeFold (pairAdd f) (Nat.log2 n)
        ((List.range n).map (fun j => if t.performs w j then Pair.ofBits f (a j) (e j) else zero)) ∧
      Retires (.vreduce th w) s th
        { ((t.setV d (BitVec.ofNat 2048 (p.bits f).1)).setV (d + 1) (BitVec.ofNat 2048 (p.bits f).2)) with
          flags := t.flags ||| fl, vidx := 0 })

/-- O26. 12 R281, 02 R49-R51, 12 R290-R293, 11 R249. The value is read through settledS, what the thread's next instruction sees. -/
def Obligations.LoadsDeliverTheBytesAtTheirAddress : Prop :=
  ∀ (s : State) (th : ThreadId) (w : Word),
    let t := s.thread th
    let k := ThreadId.key th
    let va := (xAddr t w).toNat
    let mn := Word.minor w
    let n := 2 ^ (if mn < 4 then mn else mn - 4)
    let d := Word.rd w
    (s.issues .ld th w = true → va % n = 0 → WaitsAtWalk (.ld th w) s th va) ∧
    (s.issues .ld th w = true → va % n = 0 → s.mayAccess th (ordOf w) → s.walkOpen th va →
      (∀ p lc, s.xlat th va .load = .ok p lc → s.m.badPlace p n = false → (s.walked th va .load).mustWait p = false →
        Completes (.ld th w) s (fun m => Issued s th m 0 ∧ SameBytes s.m m ∧ Alone s.m m th ∧
          (d ≠ 0 → m.settledS th d =
            if mn < 4 then BitVec.ofNat 64 (s.m.readPlace p n) else (BitVec.ofNat (8 * n) (s.m.readPlace p n)).signExtend 64))) ∧
      (∀ p lc, s.xlat th va .load = .ok p lc → (s.walked th va .load).mustWait p = true →
        Completes (.ld th w) s (fun m => Issued s th m 1 ∧ SameBytes s.m m ∧ Alone s.m m th ∧
          ∃ e, m.ms.waiting = s.m.ms.waiting ++ [e] ∧ e.thread = k ∧ e.place = p ∧ e.size = n)) ∧
      (s.xlat th va .load = .viol → t.ctx < 64 → Completes (.ld th w) s (fun m => Issued s th m 0 ∧ SameBytes s.m m ∧
        (d ≠ 0 → m.settledS th d = 0) ∧ Violates s.m m t.ctx 1 va)) ∧
      (∀ p lc, s.xlat th va .load = .ok p lc → s.m.badPlace p n = true → (s.walked th va .load).mustWait p = false →
        Stops (.ld th w) s th t 6 va 0 0) ∧
      (∀ c, s.xlat th va .load = .fault c → Stops (.ld th w) s th t c va 0 0)) ∧
    (∀ (o : Outst) (g : Got), (s.m.th k).outst = [o] → o.left = 0 → o.got = [g] →
      (g.vec = false → g.reg ≠ 0 → g.viol = false → Does (.memoryResponse th .clean) s [.threads, .cores] (fun m =>
        (m.th k).getS g.reg = BitVec.ofNat 64 g.val ∧ (m.th k).outst = [] ∧ ∀ j, j ≠ k → m.th j = s.m.th j)) ∧
      (g.vec = false → g.reg ≠ 0 → g.viol = true → (s.m.th k).ctx < 64 → Completes (.memoryResponse th .clean) s (fun m =>
        (m.th k).getS g.reg = BitVec.ofNat 64 g.val ∧ (m.th k).outst = [] ∧ Violates s.m m (s.m.th k).ctx 1 g.va)) ∧
      (∀ (e : Fin 256) a, g.idx = e.val → o.isLoad = true → g.src = some (.ctier a) → keyKind k ≠ 1 →
        Completes (.memoryResponse th (.error (.element e))) s (fun m => (m.th k).run = .stopped ∧ (m.th k).ip = o.ip ∧
          (m.th k).outst = [] ∧ SMap.get false m.ms.ctPoison (a / 32) = true ∧
          m.getF Reg.HMP_CT.uncorrected = (s.m.getF Reg.HMP_CT.uncorrected + 1) % 2 ^ 32)) ∧
      (∀ (e : Fin 256) pc off, g.idx = e.val → o.isLoad = true → g.src = some (.hbm pc off) →
        Completes (.memoryResponse th (.error (.element e))) s (fun m => (m.th k).run = .stopped ∧ (m.th k).ip = o.ip ∧ (m.th k).outst = [] ∧
          SMap.get false m.ms.poison (hbmKey pc off / 32) = true ∧ (∀ j, j ≠ k → m.th j = s.m.th j)))) ∧
    (∀ c d : BitVec 16, Completes (.memoryResponse th ⟨c, d, none⟩) s (fun m => SameBytes s.m m ∧
        m.getF Reg.HMP_CT.corrected = (s.m.getF Reg.HMP_CT.corrected + d.toNat) % 2 ^ 32 ∧
      m.getF Reg.MEM_ERRCNT.corrected = (s.m.getF Reg.MEM_ERRCNT.corrected + c.toNat) % 2 ^ 32)) ∧
    (∀ (pc : Fin 512) (off : BitVec 31), off.toNat < pcBytes → s.m.badPlace (.hbm pc.val off.toNat) 1 = false →
      Completes (.memoryResponse th (.error (.sector pc off))) s (fun m => m.threads = s.m.threads ∧ SameBytes s.m m ∧
        SMap.get false m.ms.poison (hbmKey pc.val off.toNat / 32) = true ∧
        m.getF Reg.MEM_ERRCNT.uncorrected = (s.m.getF Reg.MEM_ERRCNT.uncorrected + 1) % 2 ^ 32))

/-- O27. 12 R281, R293; 02 R33, R49-R51. StoresAt computes the place with the translation that the store itself uses. -/
def Obligations.StoresWriteTheBytesAtTheirAddress : Prop :=
  ∀ (s : State) (th : ThreadId) (w : Word), s.issues .st th w = true →
    let t := s.thread th
    let va := (xAddr t w).toNat
    let n := 2 ^ Word.minor w
    let v := (t.getS (Word.rb w)).toNat
    let next : Thread := { t with ip := t.ip + 8, retiredAt := s.m.pilot }
    va % n = 0 → WaitsAtWalk (.st th w) s th va ∧ (s.mayAccess th (ordOf w) → s.walkOpen th va →
      (∀ p lc, s.xlat th va .store = .ok p lc → (s.walked th va .store).mustWait p = false →
        Completes (.st th w) s (fun m => m.th (ThreadId.key th) = next ∧ StoresAt s.m m p n v ∧ Alone s.m m th)) ∧
      (∀ p lc, s.xlat th va .store = .ok p lc → (s.walked th va .store).mustWait p = true →
        Completes (.st th w) s (fun m => Issued s th m 1 ∧ SameBytes s.m m ∧ Alone s.m m th ∧
          ∃ e, m.ms.waiting = s.m.ms.waiting ++ [e] ∧ e.place = p ∧ e.size = n ∧ e.act = .store v)) ∧
      (s.xlat th va .store = .viol → t.ctx < 64 → Completes (.st th w) s (fun m => m.th (ThreadId.key th) = next ∧
        SameBytes s.m m ∧ Violates s.m m t.ctx 1 va)) ∧
      (∀ c, s.xlat th va .store = .fault c → Stops (.st th w) s th t c va 0 0) ∧
      (keyKind (ThreadId.key th) = 0 → windowBase ≤ va → va < windowBase + storeBytes →
        s.xlat th va .store = .ok (.store (keyCore (ThreadId.key th)) (va - windowBase)) false))

/-- O28. 12 R281, 02 R40, 15 R389-R392. -/
def Obligations.GlobalAccessesGoToTheirDevice : Prop :=
  ∀ (s : State) (th : ThreadId) (w : Word),
    let t := s.thread th
    let k := ThreadId.key th
    let mn := Word.minor w
    let p := t.getS (Word.ra w)
    let n := 2 ^ (if mn < 4 then mn else mn - 4)
    let dev := p.toNat / 2 ^ 48
    let sum : Int := ((p.toNat % 2 ^ 48 : Nat) : Int) + signedOf 26 (Word.slice w 25 0)
    let va := sum.toNat
    let inside := 0 ≤ sum ∧ sum < 2 ^ 48
    let sends (i : Instr) (op : Nat) : Prop :=
      Completes i s (fun m => Issued s th m 1 ∧ SameBytes s.m m ∧ ∃ q : Req, m.fab.reqs = s.m.fab.reqs ++ [q] ∧ q.dev = dev ∧
        q.ctx = t.ctx ∧ q.op = op ∧ q.vc = 1 ∧ q.tag = s.m.fab.nextTag % 2 ^ 32)
    (xAddr t w).toNat % n = 0 → s.mayAccess th (ordOf w) →
      (s.issues .gld th w = true → inside → dev ≠ s.m.myId → s.m.refusedAtOnce t.ctx dev = none → sends (.gld th w) 1) ∧
      (s.issues .gst th w = true → inside → dev ≠ s.m.myId → s.m.refusedAtOnce t.ctx dev = none → sends (.gst th w) 2) ∧
      (s.issues .gld th w = true → inside → dev = s.m.myId → n = 8 → ∀ q lc, s.m.ctxXlat t.ctx va .load = .ok q lc →
        s.m.badPlace q 8 = false → s.m.rangeHeld t.ctx va 8 .load = false →
        Completes (.gld th w) s (fun m => Issued s th m 0 ∧ SameBytes s.m m ∧
          (Word.rd w ≠ 0 → m.settledS th (Word.rd w) = BitVec.ofNat 64 (s.m.readPlace q 8)))) ∧
      (s.issues .gld th w = true → inside → dev = s.m.myId → s.m.rangeHeld t.ctx va n .load = true →
        Completes (.gld th w) s (fun m => m = s.issuing th)) ∧
      (s.issues .gst th w = true → inside → dev = s.m.myId → s.m.rangeHeld t.ctx va n .store = true →
        Completes (.gst th w) s (fun m => m = s.issuing th)) ∧
      (s.issues .gst th w = true → inside → dev = s.m.myId → n = 8 → ∀ q lc, s.m.ctxXlat t.ctx va .store = .ok q lc →
        s.m.rangeHeld t.ctx va 8 .store = false →
        Completes (.gst th w) s (fun m => m.th k = { t with ip := t.ip + 8, retiredAt := s.m.pilot } ∧
          StoresAt s.m m q 8 (t.getS (Word.rb w)).toNat)) ∧
      (s.issues .gld th w = true → ¬ inside → Stops (.gld th w) s th t 3 (xAddr t w).toNat 0 0) ∧
      (s.issues .gld th w = true → inside → dev ≠ s.m.myId → s.m.routeLost dev = true → Stops (.gld th w) s th t 7 va 0 dev) ∧
      (s.issues .gst th w = true → inside → dev ≠ s.m.myId → s.m.routeLost dev = true →
        Leaves (.gst th w) s th { t with ip := t.ip + 8, retiredAt := s.m.pilot,
                                         deferred := t.deferred ++ [{ cause := 7, addr := va, device := dev }] })

/-- O29. 12 R283, R284 and Table 12-3. A form with g = 1 takes a global pointer (02 R40, 15 R389-R392). -/
def Obligations.AtomicsApplyTheOperationOfTheirTable : Prop :=
  ∀ (s : State) (th : ThreadId) (w : Word),
    let t := s.thread th
    let k := ThreadId.key th
    let op := Word.minor w / 4
    let wd := Word.minor w % 4
    let n := 4 * 2 ^ wd
    let bits := 8 * n
    let va := (t.getS (Word.ra w)).toNat
    let opnd (r : Nat) : Nat :=
      if wd = 2 then (t.getS r).toNat + 2 ^ 64 * (t.getS (r + 1)).toNat else (t.getS r).toNat % 2 ^ bits
    let b := opnd (Word.rb w)
    let c := opnd (Word.rc w)
    let d := Word.rd w
    let f := if wd = 0 then fp32 else fp64
    let sg (x : Nat) : Int := intOf true bits x
    let next (m : Module) : Prop := (m.th k).ip = t.ip + 8 ∧ (m.th k).run = .running
    let new (old : Nat) : Nat × Flags :=
      if op = 0 then (b, 0) else if op = 1 then (if old = c then b else old, 0) else if op = 2 then ((old + b) % 2 ^ bits, 0)
      else if op = 3 then (if sg old ≤ sg b then old else b, 0) else if op = 4 then (if sg b ≤ sg old then old else b, 0)
      else if op = 5 then (min old b, 0) else if op = 6 then (max old b, 0) else if op = 7 then (old &&& b, 0)
      else if op = 8 then (old ||| b, 0) else if op = 9 then (old ^^^ b, 0) else if op = 10 then fArith f .add .rne 0 old b 0
      else if op = 11 ∨ op = 12 then fMinMax f (op == 12) old b else pairAddBits (if wd = 1 then fp32 else fp64) old b
    let dev := va / 2 ^ 48
    let ga := va % 2 ^ 48
    let sends (i : Instr) (o : Nat) : Prop :=
      Completes i s (fun m => Issued s th m 1 ∧ SameBytes s.m m ∧ ∃ q : Req, m.fab.reqs = s.m.fab.reqs ++ [q] ∧ q.dev = dev ∧
        q.ctx = t.ctx ∧ q.op = o ∧ q.vc = 1 ∧ q.aop = op ∧ q.width = wd ∧ q.tag = s.m.fab.nextTag % 2 ^ 32)
    va % n = 0 → (Word.slice w 0 0 = 1 → s.mayAccess th (ordOf w) →
      (dev ≠ s.m.myId → s.m.refusedAtOnce t.ctx dev = none →
        (s.issues .amo th w = true → sends (.amo th w) 3) ∧ (s.issues .red th w = true → sends (.red th w) 4)) ∧
      (dev ≠ s.m.myId → s.m.routeLost dev = true →
        (s.issues .amo th w = true → Stops (.amo th w) s th t 7 ga 0 dev) ∧
        (s.issues .red th w = true → Leaves (.red th w) s th { t with
          ip := t.ip + 8, retiredAt := s.m.pilot, deferred := t.deferred ++ [{ cause := 7, addr := ga, device := dev }] })) ∧
      (dev = s.m.myId → s.m.rangeHeld t.ctx ga n .atomic = true → ∀ i ∈ [Instr.amo th w, .red th w], Instr.wf i = true →
        s.canIssue th w = true → Completes i s (fun m => m = s.issuing th)) ∧
      (dev = s.m.myId → s.m.rangeHeld t.ctx ga n .atomic = false →
        (∀ p lc, s.m.ctxXlat t.ctx ga .atomic = .ok p lc → p.isHbm = true → s.m.badPlace p n = false →
          let old := s.m.readPlace p n
          (s.issues .amo th w = true → Completes (.amo th w) s (fun m => next m ∧ StoresAt s.m m p n (new old).1 ∧
            (m.th k).flags = t.flags ||| (new old).2 ∧
            (d ≠ 0 → m.settledS th d = BitVec.ofNat 64 old ∧ (wd = 2 → m.settledS th (d + 1) = BitVec.ofNat 64 (old / 2 ^ 64))))) ∧
          (s.issues .red th w = true → op ≠ 0 → op ≠ 1 → Completes (.red th w) s (fun m => StoresAt s.m m p n (new old).1 ∧
            m.th k = { t with ip := t.ip + 8, retiredAt := s.m.pilot }))) ∧
        (s.m.ctxXlat t.ctx ga .atomic = .viol → t.ctx < 64 →
          (s.issues .amo th w = true → Completes (.amo th w) s (fun m => next m ∧ SameBytes s.m m ∧ Violates s.m m t.ctx 1 ga ∧
            (d ≠ 0 → m.settledS th d = 0))) ∧
          (s.issues .red th w = true → Completes (.red th w) s (fun m => next m ∧ SameBytes s.m m ∧ Violates s.m m t.ctx 1 ga))))) ∧
    (Word.slice w 0 0 = 0 →
      (s.issues .amo th w = true → WaitsAtWalk (.amo th w) s th va) ∧ (s.issues .red th w = true → WaitsAtWalk (.red th w) s th va) ∧
      (s.mayAccess th (ordOf w) → s.walkOpen th va →
      (∀ p lc, s.xlat th va .atomic = .ok p lc → p.isHbm = true → (s.walked th va .atomic).mustWait p = true → ∀ i ∈ [Instr.amo th w, .red th w], Instr.wf i = true → s.canIssue th w = true →
          Completes i s (fun m => Issued s th m 1 ∧ SameBytes s.m m ∧ Alone s.m m th)) ∧
      (∀ p lc, s.xlat th va .atomic = .ok p lc → p.isHbm = true → s.m.badPlace p n = false →
        (s.walked th va .atomic).mustWait p = false →
        let old := s.m.readPlace p n
        (s.issues .amo th w = true → Completes (.amo th w) s (fun m => next m ∧ StoresAt s.m m p n (new old).1 ∧ Alone s.m m th ∧
          (m.th k).flags = t.flags ||| (new old).2 ∧
          (d ≠ 0 → m.settledS th d = BitVec.ofNat 64 old ∧ (wd = 2 → m.settledS th (d + 1) = BitVec.ofNat 64 (old / 2 ^ 64))))) ∧
        (s.issues .red th w = true → op ≠ 0 → op ≠ 1 → Completes (.red th w) s (fun m => StoresAt s.m m p n (new old).1 ∧
          m.th k = { t with ip := t.ip + 8, retiredAt := s.m.pilot } ∧ Alone s.m m th))) ∧
      (s.xlat th va .atomic = .viol ∨ (∃ p lc, s.xlat th va .atomic = .ok p lc ∧ p.isHbm = false) → t.ctx < 64 →
        (s.issues .amo th w = true → Completes (.amo th w) s (fun m => next m ∧ SameBytes s.m m ∧ Violates s.m m t.ctx 1 va ∧
          (d ≠ 0 → m.settledS th d = 0))) ∧
        (s.issues .red th w = true → Completes (.red th w) s (fun m => next m ∧ SameBytes s.m m ∧ Violates s.m m t.ctx 1 va))) ∧
      (∀ cc, s.xlat th va .atomic = .fault cc →
        (s.issues .amo th w = true → Stops (.amo th w) s th t cc va 0 0) ∧
        (s.issues .red th w = true → Stops (.red th w) s th t cc va 0 0)) ∧
      (∀ p lc, s.xlat th va .atomic = .ok p lc → p.isHbm = true → s.m.badPlace p n = true → (s.walked th va .atomic).mustWait p = false →
        (s.issues .amo th w = true → Stops (.amo th w) s th t 6 va 0 0) ∧
        (s.issues .red th w = true → Completes (.red th w) s (fun m => next m ∧ SameBytes s.m m ∧
          m.getF Reg.MEM_ERRCNT.uncorrected = (s.m.getF Reg.MEM_ERRCNT.uncorrected + 1) % 2 ^ 32)))))

/-- O30. 05 R120, R121 with R111, and 02 R50 at an element. -/
def Obligations.VectorLoadsFillTheirElements : Prop :=
  ∀ (s : State) (th : ThreadId) (w : Word),
    let t := s.thread th
    let k := ThreadId.key th
    let ew := vWidth (vtype w)
    let n := 2048 / ew
    let base := t.getS (Word.ra w) + (BitVec.ofNat 16 (Word.slice w 27 12)).signExtend 64
    let sb := t.getS (Word.rb w)
    let idx (j : Nat) : Nat := velem (t.getV (Word.rb w)) ew j
    let loaded (m : Module) : VReg := ((m.settle k).th k).getV (Word.rd w)
    let good (ad : Nat → Word) (p : Nat → Place) (e : Nat) : Prop := ∀ j, j < e → t.performs w j = true →
      s.openPlace th (ad j).toNat .load (p j) ∧ s.m.badPlace (p j) (ew / 8) = false
    let form (i : Instr) (ad : Nat → Word) : Prop := base.toNat % (ew / 8) = 0 →
      (∀ j, j < n → t.performs w j = true → WaitsAtWalk i s th (ad j).toNat) ∧ (s.mayAccess th 0 →
      (∀ p : Nat → Place, good ad p n →
        Completes i s (fun m => VectorMoved s th m ∧ SameBytes s.m m ∧ Alone s.m m th ∧
          ∀ j, j < n → velem (loaded m) ew j = t.elementAfter w (Word.rd w) ew j (s.m.readPlace (p j) (ew / 8)))) ∧
      (∀ (p : Nat → Place) (e c : Nat), e < n → t.performs w e = true → good ad p e → s.xlat th (ad e).toNat .load = .fault c →
          (∀ j, j < n → t.performs w j = true → s.walkOpen th (ad j).toNat) →
        Completes i s (fun m => (m.th k).run = .stopped ∧ (m.th k).ip = t.ip ∧ (m.th k).vidx = BitVec.ofNat 8 e ∧
          (∀ j, j < e → t.performs w j = true → velem (loaded m) ew j = s.m.readPlace (p j) (ew / 8)) ∧
          (keyKind k ≠ 1 → t.ctx < 64 → s.m.ctxLive t.ctx = true → s.m.ringFull t.ctx = true →
            (m.ctx t.ctx).waitRecs = (s.m.ctx t.ctx).waitRecs ++
              [mkRecord (ad e).toNat c t.ctx (keyCore k) (keyThread k) e t.ip.toNat 0]))))
    (s.issues .vld th w = true → form (.vld th w) (fun j => base + BitVec.ofNat 64 (j * (ew / 8)))) ∧
    (s.issues .vlds th w = true → sb.toNat % (ew / 8) = 0 → form (.vlds th w) (fun j => base + BitVec.ofNat 64 j * sb)) ∧
    (s.issues .vgather th w = true → form (.vgather th w) (fun j => base + BitVec.ofNat 64 (idx j * (ew / 8))))

/-- O31. 05 R120-R125: elements are performed in ascending order; 02 R49, R50 and 12 R293 at an element. -/
def Obligations.VectorStoresWriteTheirElements : Prop :=
  ∀ (s : State) (th : ThreadId) (w : Word),
    let t := s.thread th
    let k := ThreadId.key th
    let ew := vWidth (vtype w)
    let n := 2048 / ew
    let base := t.getS (Word.ra w) + (BitVec.ofNat 16 (Word.slice w 27 12)).signExtend 64
    let sb := t.getS (Word.rb w)
    let idx (j : Nat) : Nat := velem (t.getV (Word.rb w)) ew j
    let x (j : Nat) : Nat := velem (t.getV (Word.rd w)) ew j
    let form (q : Instr) (ad : Nat → Word) : Prop :=
      let denied (j : Nat) : Bool := t.performs w j && s.xlat th (ad j).toNat .store == .viol
      let stores (p : Nat → Place) (e : Nat) : Prop := ∀ j, j < e → t.performs w j = true → s.walkOpen th (ad j).toNat ∧
        (denied j = false → s.fixedPlace th (ad j).toNat .store (p j) ∧ ∀ a, p j = .host a → s.m.linkUp = true)
      let stored (p : Nat → Place) (e : Nat) (m : Module) : Prop :=
        let puts (j : Nat) (c : Nat × Nat) : Prop := j < e ∧ t.performs w j = true ∧ denied j = false ∧ (p j).covers (ew / 8) c
        m.ms.flash = s.m.ms.flash ∧ ∀ c, ((∀ j, ¬ puts j c) → m.byteAt c = s.m.byteAt c) ∧
          (∀ j, puts j c → (∀ i, j < i → ¬ puts i c) → m.byteAt c = x j / 256 ^ (c.2 - (p j).cell.2) % 256)
      base.toNat % (ew / 8) = 0 →
      (∀ j, j < n → t.performs w j = true → WaitsAtWalk q s th (ad j).toNat) ∧ (s.mayAccess th 0 →
      (∀ p : Nat → Place, stores p n →
        Completes q s (fun m => VectorMoved s th m ∧ ((∀ j, j < n → denied j = false) → Alone s.m m th) ∧ stored p n m ∧
          (t.ctx < 64 → m.getF (Reg.HIF_VIOL.count t.ctx) =
            (s.m.getF (Reg.HIF_VIOL.count t.ctx) + ((List.range n).filter denied).length) % 2 ^ 48))) ∧
      (∀ (p : Nat → Place) (e c : Nat), e < n → t.performs w e = true → stores p e → s.xlat th (ad e).toNat .store = .fault c →
          (∀ j, j < n → t.performs w j = true → s.walkOpen th (ad j).toNat) →
        Completes q s (fun m => (m.th k).run = .stopped ∧ (m.th k).ip = t.ip ∧ (m.th k).vidx = BitVec.ofNat 8 e ∧ stored p e m ∧
          (keyKind k ≠ 1 → t.ctx < 64 → s.m.ctxLive t.ctx = true → s.m.ringFull t.ctx = true →
            (m.ctx t.ctx).waitRecs = (s.m.ctx t.ctx).waitRecs ++
              [mkRecord (ad e).toNat c t.ctx (keyCore k) (keyThread k) e t.ip.toNat 0]))) ∧
      (∀ (e : Nat) (p : Place) (lc : Bool), e < n → (∀ j, j < n → (t.performs w j = true ↔ j = e)) → s.walkOpen th (ad e).toNat →
          s.xlat th (ad e).toNat .store = .ok p lc → (s.walked th (ad e).toNat .store).mustWait p = true →
        Completes q s (fun m => VectorMoved s th m ∧ Alone s.m m th ∧ SameBytes s.m m ∧ ∃ y, m.ms.waiting = s.m.ms.waiting ++ [y] ∧
          y.place = p ∧ y.size = ew / 8 ∧ y.act = .store (x e))))
    (s.issues .vst th w = true → form (.vst th w) (fun j => base + BitVec.ofNat 64 (j * (ew / 8)))) ∧
    (s.issues .vsts th w = true → sb.toNat % (ew / 8) = 0 → form (.vsts th w) (fun j => base + BitVec.ofNat 64 j * sb)) ∧
    (s.issues .vscatter th w = true → form (.vscatter th w) (fun j => base + BitVec.ofNat 64 (idx j * (ew / 8))))

/-- O32. 12 R285 with the operations of Table 12-3. VIDX stays, as 04 R98 has only V-class instructions set it to zero (log 17). -/
def Obligations.VectorReductionsReachTheirAddresses : Prop :=
  ∀ (s : State) (th : ThreadId) (w : Word),
    let t := s.thread th
    let ty := vtype w
    let ew := vWidth ty
    let n := 2048 / ew
    let sz := if ty = 12 ∨ ty = 13 then ew / 4 else ew / 8
    let base := t.getS (Word.ra w)
    let op := Word.slice w 55 52
    let wd := if sz = 4 then 0 else if sz = 8 then 1 else 2
    let x (j : Nat) : Nat := velem (t.getV (Word.rb w)) ew j +
      (if ty = 12 ∨ ty = 13 then 2 ^ ew * velem (t.getV (Word.rb w + 1)) ew j else 0)
    let form (q : Instr) (ad : Nat → Word) : Prop := base.toNat % sz = 0 → s.mayAccess th 0 →
      ∀ p : Nat → Place, (∀ j, j < n → t.performs w j = true → s.fixedPlace th (ad j).toNat .atomic (p j) ∧ (p j).isHbm = true ∧
          s.m.badPlace (p j) sz = false) →
        ((∀ i j c, i < j → j < n → t.performs w i = true → t.performs w j = true → (p i).covers sz c → ¬ (p j).covers sz c) →
          Completes q s (fun m => m.th (ThreadId.key th) = { t with ip := t.ip + 8, retiredAt := s.m.pilot } ∧
            Alone s.m m th ∧ m.ms.flash = s.m.ms.flash ∧ ∀ c,
            ((∀ j, j < n → t.performs w j = true → ¬ (p j).covers sz c) → m.byteAt c = s.m.byteAt c) ∧
            (∀ j, j < n → t.performs w j = true → (p j).covers sz c → m.byteAt c =
              (atomicOp op wd (s.m.readPlace (p j) sz) (x j) 0).1 / 256 ^ (c.2 - (p j).cell.2) % 256))) ∧
        (∀ i j, i < j → j < n → op = 2 → (∀ l, l < n → (t.performs w l = true ↔ l = i ∨ l = j)) → p i = p j →
          Completes q s (fun m => StoresAt s.m m (p i) sz (s.m.readPlace (p i) sz + x i + x j)))
    (s.issues .redv th w = true → form (.redv th w) (fun j => base + BitVec.ofNat 64 (j * sz))) ∧
    (s.issues .redvi th w = true →
      form (.redvi th w) (fun j => base + BitVec.ofNat 64 (velem (t.getV (Word.rc w)) 32 j * sz)))

/-- O33. 15 R373, R375, R379, R392; 18 R443. -/
def Obligations.FenceAndWaitHoldTheThread : Prop :=
  ∀ (s : State) (th : ThreadId) (w : Word),
    let t := s.thread th
    let k := ThreadId.key th
    let a := t.getS (Word.ra w)
    let b := t.getS (Word.rb w)
    let c := (t.getS (Word.rc w)).toNat
    let d := Word.rd w
    let limit : Option Nat := if c = 0 then none else some (s.m.pilot + c)
    let ended (x : Thread) (d : Nat) (v : Word) (at_ : Nat) : Thread :=
      { (x.setS d v) with run := .running, ip := x.ip + 8, retiredAt := at_ }
    (s.issues .xFence th w = true →
      ((s.issuing th).drained k = true → t.deferred = [] → Retires (.xFence th w) s th t) ∧
      (∀ f rest, (s.issuing th).drained k = true → t.deferred = f :: rest →
        Stops (.xFence th w) s th { t with deferred := rest } f.cause f.addr 0 f.device) ∧
      ((s.issuing th).drained k = false → Leaves (.xFence th w) s th t)) ∧
    (s.issues .xWait th w = true → a.toNat % 8 = 0 → WaitsAtWalk (.xWait th w) s th a.toNat) ∧
    (s.issues .xWait th w = true → a.toNat % 8 = 0 → s.mayAccess th 1 → s.walkOpen th a.toNat →
      (∀ p lc, s.xlat th a.toNat .load = .ok p lc → s.m.badPlace p 8 = false → (s.walked th a.toNat .load).mustWait p = false →
        let v := BitVec.ofNat 64 (s.m.readPlace p 8)
        Completes (.xWait th w) s (fun m => SameBytes s.m m ∧ Alone s.m m th ∧
          m.th k = if v ≠ b then ended t d v s.m.pilot else { t with run := .waitWord a.toNat (some (p, lc)) b v limit d s.m.pilot })) ∧
      (s.xlat th a.toNat .load = .viol → t.ctx < 64 → Completes (.xWait th w) s (fun m => SameBytes s.m m ∧ Violates s.m m t.ctx 1 a.toNat ∧
        m.th k = if b ≠ 0 then ended t d 0 s.m.pilot else { t with run := .waitWord a.toNat none b 0 limit d s.m.pilot })) ∧
      (∀ p lc, s.xlat th a.toNat .load = .ok p lc → (s.walked th a.toNat .load).mustWait p = true →
        Completes (.xWait th w) s (fun m => SameBytes s.m m ∧ m.th k = t)) ∧
      (∀ p lc, s.xlat th a.toNat .load = .ok p lc → s.m.badPlace p 8 = true → (s.walked th a.toNat .load).mustWait p = false →
        Stops (.xWait th w) s th t 6 a.toNat 0 0) ∧
      (∀ cc, s.xlat th a.toNat .load = .fault cc → Stops (.xWait th w) s th t cc a.toNat 0 0)) ∧
    (∀ (x : Thread) (va : Nat) (p : Place) (lc : Bool) (e v0 : Word) (lim : Option Nat) (dd at_ : Nat),
      s.m.th k = x → x.run = .waitWord va (some (p, lc)) e v0 lim dd at_ →
      let awake := keyKind k = 0 → s.m.getF Reg.PWR_STATE.state = 0
      (v0 ≠ e → (awake → Completes (.xWaitRecheck th) s (fun m => SameBytes s.m m ∧ m.th k = ended x dd v0 s.m.pilot)) ∧
        (¬ awake → Completes (.xWaitRecheck th) s (fun m => SameBytes s.m m ∧ m.th k = x))) ∧
      (v0 = e → s.m.badPlace p 8 = false → s.m.mustWait p = false →
        let v := BitVec.ofNat 64 (s.m.readPlace p 8)
        let now := if p.isHbm = true then s.m.pilot else max s.m.pilot (at_ + 256)
        Completes (.xWaitRecheck th) s (fun m => m.pilot = now ∧ SameBytes s.m m ∧ (∀ j, j ≠ k → m.th j = s.m.th j) ∧
          (v ≠ e → awake → m.th k = ended x dd v now) ∧
          (v = e ∨ ¬ awake → m.th k = { x with run := .waitWord va (some (p, lc)) e v lim dd now }))) ∧
      (∀ tl, lim = some tl → Completes (.xWaitLimit th) s (fun m => m.pilot = max s.m.pilot tl ∧ SameBytes s.m m ∧
        (∀ j, j ≠ k → m.th j = s.m.th j) ∧ (awake → m.th k = ended x dd v0 (max s.m.pilot tl)) ∧ (¬ awake → m.th k = x))))

/-- O34. R381. xferValid says R380; descRead reads the descriptor in the context of the thread. A queue holds 64 transfers. -/
def Obligations.XxferRetiresWithTheFirstCodeThatApplies : Prop :=
  ∀ (s : State) (th : ThreadId) (w : Word), s.issues .xXfer th w = true →
    (s.issuing th).drained (ThreadId.key th) = true → (s.thread th).deferred = [] → (s.thread th).ctx < 64 →
    let t := s.thread th
    let a := (t.getS (Word.ra w)).toNat
    let d := (s.issuing th).descRead t.ctx a 4
    let q := d.1.getD 0 0 / 2 ^ 56 % 16
    let full := 64 ≤ (s.m.transfers.filter (fun x => x.ctx == t.ctx && x.queue == q)).length
    let retires (code : Nat) (p : Module → Prop) : Prop :=
      CompletesOpen (.xXfer th w) s (s.issuing th) (fun m => m.th (ThreadId.key th) = s.withCode th w code ∧ SameBytes s.m m ∧ p m)
    let same (m : Module) : Prop := m.transfers = s.m.transfers
    let none_ (m : Module) : Prop := m.getF (Reg.HIF_VIOL.count t.ctx) = s.m.getF (Reg.HIF_VIOL.count t.ctx)
    (a % 32 ≠ 0 → retires 2 (fun m => same m ∧ Violates s.m m t.ctx 2 a)) ∧
    (a % 32 = 0 → d.2.1 = true → retires 4 (fun m => same m ∧ none_ m)) ∧
    (a % 32 = 0 → d.2.1 = false → (d.2.2 = true ∨ xferValid d.1 = false) →
      retires 2 (fun m => same m ∧ Violates s.m m t.ctx 2 a)) ∧
    (a % 32 = 0 → d.2.1 = false → d.2.2 = false → xferValid d.1 = true → full → retires 1 (fun m => same m ∧ none_ m)) ∧
    (a % 32 = 0 → d.2.1 = false → d.2.2 = false → xferValid d.1 = true → ¬ full → retires 0 (fun m => none_ m ∧
      ∃ x : Transfer, m.transfers = s.m.transfers ++ [x] ∧ x.ctx = t.ctx ∧ x.queue = q ∧ x.state = 0 ∧
        x.op = d.1.getD 0 0 / 2 ^ 62 ∧ x.vc = d.1.getD 0 0 / 2 ^ 60 % 4 ∧ x.completion = d.1.getD 0 0 % 2 ^ 48 ∧
        x.src = d.1.getD 1 0 ∧ x.dst = d.1.getD 2 0 ∧ x.length = d.1.getD 3 0))

/-- O35. 15 R382-R386, R393. The order of a local copy's requests is drawn (log 48), which a copy of one request does not show. -/
def Obligations.TransfersStartCompleteAndAbort : Prop :=
  ∀ (s : State),
    (∀ (c : Fin 64) (q : Fin 16) (win : Nat) (t : Transfer),
      s.m.transfers.find? (fun x => x.ctx == c.val && x.queue == q.val) = some t → s.m.xfer t.id = some t → t.state = 0 →
      t.next = 0 → t.openTags = [] → 0 < t.length →
      (s.m.recordWaits c.val q.val = true → Completes (.transferStart c q win) s (fun m => m = s.m.fresh)) ∧
      (s.m.recordWaits c.val q.val = false → s.m.isLocal t = true → Does (.transferStart c q win) s [.transfers] (fun m =>
        m.transfers = s.m.transfers.map (fun x => if x.id = t.id then { x with state := 1, window := max 1 win } else x))) ∧
      (s.m.recordWaits c.val q.val = false → t.op = 1 → s.m.refusedAtOnce t.ctx t.device = none → Completes (.transferStart c q win) s (fun m => SameBytes s.m m ∧
        ∃ x l, m.xfer t.id = some x ∧ x.state = 1 ∧ x.next = min (max 1 win) t.nreq ∧ x.openTags.length = x.next ∧
          m.fab.reqs = s.m.fab.reqs ++ l ∧ l.length = x.next ∧ ∀ r ∈ l, r.op = 1 ∧ r.dev = t.device ∧ r.vc = t.vc))) ∧
    (∀ (id : Nat) (t : Transfer), s.m.xfer id = some t → t.state = 1 → s.m.isLocal t = true → s.m.localHeld t = false →
      t.openTags = [] →
      let ends (p : Module → Prop) : Prop :=
        Completes (.localTransferPerformed id) s (fun m => (s.m.noHolds = false ∧ (m.xfer id).isSome = true) ∨ p m)
      ends (fun m => m.xfer id = none) ∧
      (∀ p q r lc1 lc2, t.next = 0 → t.op = 2 → t.length = 8 → t.src < 2 ^ 48 → t.dst < 2 ^ 48 → t.src % 8 = 0 → t.dst % 8 = 0 →
        t.failed = [] → t.lost = false → t.dead = false → t.timedOut = false →
        s.m.ctxXlat t.ctx t.src .load = .ok p lc1 → s.m.ctxXlat t.ctx t.dst .store = .ok q lc2 → s.m.badPlace p 8 = false →
        q.isHbm = false → (∀ a, q = .host a → s.m.linkUp = true) → s.m.recordPlace t.ctx t.completion r →
        (∀ c, q.covers 8 c → ¬ r.covers 32 c) →
        ends (fun m => m.readPlace q 8 = s.m.readPlace p 8 ∧ HasRecord m r 0 2 8 0 s.m.pilot ∧
          ∀ c, ¬ q.covers 8 c → ¬ r.covers 32 c → m.byteAt c = s.m.byteAt c))) ∧
    (∀ (th : ThreadId) (w : Word), s.issues .xAbort th w = true →
      let x := s.thread th
      let a := (x.getS (Word.ra w)).toNat
      let k := ThreadId.key th
      let f := s.m.transfers.find? (fun t => t.ctx == x.ctx && t.completion == a)
      (f = none → Leaves (.xAbort th w) s th (s.withCode th w 2)) ∧
      (∀ t, f = some t → t.state = 0 → Completes (.xAbort th w) s (fun m => m.th k = s.withCode th w 1 ∧ SameBytes s.m m ∧
        m.transfers = s.m.transfers.filter (fun y => y.id != t.id))) ∧
      (∀ t, f = some t → t.state ≠ 0 → t.openTags ≠ [] → Completes (.xAbort th w) s (fun m =>
        m.th k = { x with run := .waitAbort a (Word.rd w) } ∧ SameBytes s.m m ∧
        m.transfers = s.m.transfers.map (fun y => if y.id = t.id then { y with state := 2 } else y))))

/-- O36. 02 R21-R26, R29, R47; 15 R378, R387. The hardware thread that an ordinal takes is left open by R25. -/
def Obligations.GridsLaunchAndStartTheirThreads : Prop :=
  ∀ (s : State),
    (∀ (th : ThreadId) (w : Word), s.issues .xLaunch th w = true → (s.issuing th).drained (ThreadId.key th) = true →
      (s.thread th).deferred = [] → (s.thread th).ctx < 64 →
      let t := s.thread th
      let a := (t.getS (Word.ra w)).toNat
      let d := (s.issuing th).descRead t.ctx a 4
      let x (i : Nat) : Nat := d.1.getD i 0
      let full := 1024 ≤ (s.m.grids.filter (fun g => !g.waiting.isEmpty)).length
      let ok := x 0 < 2 ^ 48 ∧ x 1 < 2 ^ 48 ∧ x 2 < 2 ^ 43 ∧ x 3 < 2 ^ 48 ∧ x 0 % 8 = 0 ∧ x 3 % 32 = 0
      let retires (code : Nat) (p : Module → Prop) : Prop :=
        CompletesOpen (.xLaunch th w) s (s.issuing th) (fun m => m.th (ThreadId.key th) = s.withCode th w code ∧ SameBytes s.m m ∧ p m)
      (a % 32 ≠ 0 → retires 2 (fun m => m.grids = s.m.grids ∧ Violates s.m m t.ctx 2 a)) ∧
      (a % 32 = 0 → d.2.1 = true → retires 4 (fun m => m.grids = s.m.grids)) ∧
      (a % 32 = 0 → d.2 = (false, false) → x 3 % 32 ≠ 0 → retires 0 (fun m => m.grids = s.m.grids ∧ Violates s.m m t.ctx 2 a)) ∧
      (∀ r : Place, a % 32 = 0 → d.2 = (false, false) → s.m.recordPlace t.ctx (x 3 % 2 ^ 48) r →
        let ends (status : Nat) (p : Module → Prop) : Prop := CompletesOpen (.xLaunch th w) s (s.issuing th) (fun m =>
          m.th (ThreadId.key th) = s.withCode th w 0 ∧ m.grids = s.m.grids ∧ HasRecord m r status 1 0 0 s.m.pilot ∧ SameOutside s.m m r 32 ∧ p m)
        (¬ ok → ends 9 (fun m => Violates s.m m t.ctx 2 a)) ∧ (ok → ¬ full → s.m.usedCores (x 2) = [] → ends 0 (fun _ => True))) ∧
      (a % 32 = 0 → d.2.1 = false → d.2.2 = false → ok → full → retires 1 (fun m => m.grids = s.m.grids)) ∧
      (a % 32 = 0 → d.2.1 = false → d.2.2 = false → ok → ¬ full → s.m.usedCores (x 2) ≠ [] → retires 0 (fun m =>
        ∃ g : Grid, m.grids = s.m.grids ++ [g] ∧ g.ctx = t.ctx ∧ g.entry = x 0 ∧ g.arg = x 1 ∧ g.completion = x 3 ∧
          g.threads = x 2 / 2 ^ 40 % 8 + 1 ∧ g.cores = s.m.usedCores (x 2) ∧ g.waiting = g.cores ∧
          g.live = g.threads * g.cores.length ∧
          (∀ c, (m.core c).grids = (s.m.core c).grids ++ (if g.cores.contains c then [g.id] else []))))) ∧
    (∀ (c : Fin 2048) (id : Nat) (rest : List Nat) (g : Grid), (s.m.core c.val).grids = id :: rest → s.m.grid id = some g →
      s.m.partReady (partOf c.val) = true → s.m.getF Reg.PWR_STATE.state = 0 →
      let free := (coreKeys c.val).filter (fun k => !s.m.busy k)
      let who := (g.ctx, (s.m.ctx g.ctx).gen)
      g.threads ≤ free.length →
      (∀ k ∈ coreKeys c.val, s.m.busy k = true → (s.m.th k).ctx = g.ctx ∧ (s.m.th k).gen = who.2) →
      Completes (.gridAdmit c) s (fun m => (m.core c.val).grids = rest ∧ (m.core c.val).clockOn = true ∧
        (m.core c.val).last = some who ∧
        (∃ f : Nat → Nat, (∀ o, o < g.threads → f o ∈ free) ∧ (∀ o o', o < o' → o' < g.threads → f o ≠ f o') ∧
          (∀ k, (∀ o, o < g.threads → f o ≠ k) → m.th k = s.m.th k) ∧
          (∀ o, o < g.threads → let t := m.th (f o)
            t.run = .running ∧ t.ctx = g.ctx ∧ t.ip = BitVec.ofNat 64 g.entry ∧ t.v = [] ∧ t.m = [] ∧ t.work = .grid g.id ∧
            ∀ r, t.getS r = if r = 1 then BitVec.ofNat 64 g.arg
              else if r = 2 then BitVec.ofNat 64 ((g.cores.takeWhile (fun y => y != c.val)).length * g.threads + o)
              else if r = 3 then BitVec.ofNat 64 (g.threads * g.cores.length) else 0)) ∧
        ((s.m.core c.val).last ≠ some who → (m.core c.val).acc = [] ∧ (m.core c.val).set0 = [] ∧ (m.core c.val).set1 = [] ∧
          ∀ off, off < storeBytes → m.byteAt (3, c.val * storeBytes + off) = 0))) ∧
    (∀ c : Fin 2048, (∀ k ∈ coreKeys c.val, (s.m.th k).runnable = false ∧ (s.m.th k).outst = []) → (s.m.core c.val).mq = [] →
      (∀ r ∈ s.m.sq.runs, c.val ∈ r.cores → r.stage < 2 ∨ 5 < r.stage) → (∀ e ∈ s.m.sq.entries, c.val ∈ e.cores → e.phase ≠ 1) →
      Does (.coreClockStop c) s [.cores] (fun m => m.core c.val = { s.m.core c.val with clockOn := false } ∧
        ∀ c', c' ≠ c.val → m.core c' = s.m.core c'))

/-- O37. 15 R389, R395, R396; 02 R40-R43; 12 R283. The response is the packet that respond sends; how a packet leaves is stated for the ports. -/
def Obligations.RequestsAreServedInTheContextOfTheirJob : Prop :=
  ∀ (s : State) (vc : Nat) (p : Packet), s.m.fab.inbox = [(vc, p)] →
    let job := p.job.toNat
    let dev := p.src.toNat
    let va := p.addr.toNat
    let wd := p.awidth.toNat
    let n := 4 * 2 ^ wd
    let b := leVal (p.data.take n)
    let c := leVal ((p.data.drop n).take n)
    let answers (i : Instr) (op status : Nat) (data : List Byte) (q : Module → Prop) : Prop :=
      Completes i s (fun m => ∃ m0, m = m0.respond vc p op status data ∧ m0.fab.inbox = [] ∧ q m0)
    let held (x op : Nat) : Bool := s.m.rangeHeld x va (if op = 1 then p.len.toNat else if op = 2 then p.data.length else n)
      (if op = 1 then .load else if op = 2 then .store else .atomic)
    let every (op : Nat) (i : Instr) (z : Nat) : Prop := p.op.toNat = op →
      (∀ x, s.m.jobCtx job = some x → s.m.ctxLive x = true → held x op = true → Completes i s (fun m => m = s.m.fresh)) ∧
      (s.m.jobCtx job = none → answers i (op + 0x10) 0 (List.replicate z 0) (fun m => SameBytes s.m m ∧
        m.getF Reg.HIF_RVIOL.count = (s.m.getF Reg.HIF_RVIOL.count + 1) % 2 ^ 48 ∧ m.getF Reg.HIF_RVLOG.device = dev ∧
        m.getF Reg.HIF_RVLOG.job = job)) ∧
      (∀ x, s.m.jobCtx job = some x → s.m.ctxLive x = false → answers i (op + 0x10) 4 [] (fun m => SameBytes s.m m)) ∧
      (∀ x cc, s.m.jobCtx job = some x → s.m.ctxLive x = true → p.len.toNat = 8 → p.data.length = 8 → va % 8 = 0 → cc ≠ 6 →
        held x op = false →
        s.m.ctxXlat x va (if op = 1 then .load else if op = 2 then .store else .atomic) = .fault cc →
        answers i (op + 0x10) (if cc = 1 then 0x81 else if cc = 2 then 0x82 else 0x86) [] (fun m => SameBytes s.m m))
    every 1 .read p.len.toNat ∧ every 2 .write 0 ∧ every 3 .atomic n ∧ every 4 .reduce 0 ∧
    (∀ x q lc, s.m.jobCtx job = some x → s.m.ctxLive x = true → held x p.op.toNat = false → va % 8 = 0 →
      (p.op.toNat = 1 → p.len.toNat = 8 → s.m.ctxXlat x va .load = .ok q lc → s.m.badPlace q 8 = false →
        answers .read 0x11 0 (leBytes 8 (s.m.readPlace q 8)) (fun m => SameBytes s.m m ∧ (m.ctx x).touched.contains dev = true)) ∧
      (p.op.toNat = 2 → p.data.length = 8 → s.m.ctxXlat x va .store = .ok q lc →
        answers .write 0x12 0 [] (fun m => StoresAt s.m m q 8 (leVal p.data) ∧ (m.ctx x).touched.contains dev = true)) ∧
      (p.op.toNat = 3 → s.m.ctxXlat x va .atomic = .ok q lc → q.isHbm = true → s.m.badPlace q n = false →
        answers .atomic 0x13 0 (leBytes n (s.m.readPlace q n)) (fun m =>
          StoresAt s.m m q n (atomicOp p.aop.toNat wd (s.m.readPlace q n) b c).1)) ∧
      (p.op.toNat = 4 → s.m.ctxXlat x va .atomic = .ok q lc → q.isHbm = true → s.m.badPlace q n = false →
        answers .reduce 0x14 0 [] (fun m => StoresAt s.m m q n (atomicOp p.aop.toNat wd (s.m.readPlace q n) b 0).1)))

/-- O38. 15 R389-R392, R397, R398, for the accesses of a thread; the requests of a transfer are stated with the transfers. -/
def Obligations.ResponsesEndTheirRequests : Prop :=
  ∀ (s : State),
    let key (r : Req) (k oid : Nat) (ld : Bool) : Prop := ∃ ad, r.origin = .thread k oid ld ad
    (∀ (vc : Nat) (p : Packet), s.m.fab.inbox = [(vc, p)] → (∀ n, s.m.ctxState n ≠ 2) → s.m.fab.quietDue = [] →
      let tag := p.tag.toNat
      let dev := p.src.toNat
      (∀ (i : Instr) (op : Nat), (i, op) ∈ [(Instr.readResp, 0x11), (.writeAck, 0x12), (.atomicResp, 0x13), (.reduceAck, 0x14)] →
        p.op.toNat = op → (∀ r ∈ s.m.fab.reqs, ¬ (r.tag = tag ∧ r.dev = dev ∧ r.op + 0x10 = op)) →
        Does i s [.fab] (fun m => m.fab = { s.m.fab with inbox := [] })) ∧
      (∀ (i : Instr) (op : Nat) (r : Req) (k oid : Nat) (o : Outst) (l : Bool),
        (i, op, l) ∈ [(Instr.readResp, 0x11, true), (.writeAck, 0x12, false), (.atomicResp, 0x13, true), (.reduceAck, 0x14, false)] →
        p.op.toNat = op → r.op + 0x10 = op → s.m.fab.reqs = [r] → r.tag = tag → r.dev = dev → key r k oid l →
        (s.m.th k).outst = [o] → o.tag = some tag → o.isLoad = l →
        (p.status.toNat = 0 → Completes i s (fun m => m.fab.reqs = [] ∧ m.fab.inbox = [] ∧ SameBytes s.m m ∧
          ∃ g, (m.th k).outst = [{ o with left := 0, got := g }] ∧ (m.th k).run = (s.m.th k).run ∧ (m.th k).ip = (s.m.th k).ip ∧
            (op = 0x11 → o.dstS = [1] → r.width = 0 → g = [gotOf false 1 0 64 (leVal p.data) none]) ∧ (l = false → g = []))) ∧
        (p.status.toNat = 0x81 → Completes i s (fun m => m.fab.reqs = [] ∧ m.fab.inbox = [] ∧ (m.th k).outst = [] ∧
          (l = true → (m.th k).run = .stopped ∧ (m.th k).ip = o.ip) ∧
          (l = false → (m.th k).run = (s.m.th k).run ∧
            (m.th k).deferred = (s.m.th k).deferred ++ [{ cause := 4, addr := o.addr, device := r.dev }])))) ∧
      (p.op.toNat = 0x20 → ∀ n, s.m.jobCtx p.job.toNat = some n → s.m.hmp.slots = [] →
        (s.m.fab.snuffed.contains (p.job.toNat, dev) = false) → s.m.fab.reqs = [] →
        Completes .snuff s (fun m => (p.job.toNat, dev) ∈ m.fab.snuffed ∧ m.fab.quietDue = [] ∧ SameBytes s.m m ∧
          ∃ m0 : Module, m = m0.sendPacket 7
            { Packet.blank with dst := BitVec.ofNat 16 dev, job := BitVec.ofNat 32 p.job.toNat, op := 0x21#6 }))) ∧
    (∀ (vc : Nat) (p : Packet) (n : Nat) (t : Teardown), s.m.fab.inbox = [(vc, p)] → p.op.toNat = 0x21 → n < 64 →
      s.m.jobCtx p.job.toNat = some n → (s.m.ctx n).teardown = some t → t.asked.contains p.src.toNat = true →
      t.quiet.contains p.src.toNat = false →
      (s.m.xferOpen n = true → Does .quiet s [.fab, .ctxs] (fun m => m.fab.inbox = [] ∧
        (m.ctx n).teardown = some { t with quiet := t.quiet ++ [p.src.toNat] })) ∧
      (s.m.xferOpen n = false → s.m.oos = false → s.m.ctxState n = 2 → n ≠ 0 → t.drained = true → t.queue = none →
        (∀ d ∈ t.asked, d = p.src.toNat ∨ t.quiet.contains d = true ∨ t.gone.contains d = true) →
        Completes .quiet s (fun m => m.ctxState n = 0 ∧ m.jobOf n = 0 ∧ (m.ctx n).teardown = none ∧ SameBytes s.m m))) ∧
    (∀ (tag : BitVec 32) (r : Req) (k oid : Nat) (o : Outst) (l : Bool), (∀ n, s.m.ctxState n ≠ 2) → s.m.fab.quietDue = [] → s.m.fab.reqs = [r] →
      r.tag = tag.toNat → key r k oid l → (s.m.th k).outst = [o] → o.tag = some r.tag → o.isLoad = l →
      Completes (.requestTimeout tag) s (fun m => m.fab.reqs = [] ∧ m.pilot = max s.m.pilot (r.sentAt + 50000000) ∧
        (m.th k).outst = [] ∧ (l = true → (m.th k).run = .stopped ∧ (m.th k).ip = o.ip) ∧
        (l = false → (m.th k).deferred = (s.m.th k).deferred ++ [{ cause := 8, addr := o.addr, device := r.dev }])))

/-- O39. 06 R134-R152, 09 R214; 15 R373 for the acquire. Each operation is shown on an empty queue; R151 makes a queue the same as performing its operations one at a time. That a drained NaN becomes canonical is log 68 (DESIGN CHOICE), and that an operation off the lane path is performed in one piece log 18 (DEDUCED). -/
def Obligations.MatrixInstructionsEnterTheirQueue : Prop :=
  ∀ (s : State) (th : ThreadId) (w : Word),
    let t := s.thread th
    let k := ThreadId.key th
    let core := k / 8
    let c := s.m.core core
    let d := Word.rd w
    let entry (dst : Nat) : MOp :=
                   { id := c.nextOp, thread := keyThread k, word := w, ip := t.ip, a := t.getS (Word.ra w), b := t.getS (Word.rb w),
                     c := t.getS (Word.rc w), rm := if Word.rm w = 7 then t.frm.toNat else Word.rm w, slots := 0, landed := 0,
                     flags := 0, done := false, blocked := false, started := false,
                     dst := if dst = 0 then none else some t.issued }
    let o := entry 0
    let behind := mAccesses w = true ∧ (s.issuing th).acqPending k = true
    let next (m : Module) : Prop := (m.th k).ip = t.ip + 8 ∧ (m.th k).run = .running ∧ (m.th k).retiredAt = t.retiredAt ∧
      (m.th k).s = t.s ∧ (m.th k).v = t.v ∧ (m.th k).m = t.m
    let unit (m : Module) : Prop := (m.core core).acc = c.acc ∧ (m.core core).tstat = c.tstat ∧ (m.core core).set0 = c.set0 ∧
      (m.core core).set1 = c.set1 ∧ (m.core core).active = c.active ∧ (m.core core).chans = c.chans
    let ops : List (Instr × Row × Nat) := [(.msLd th w, .msLd, 0), (.msSwap th w, .msSwap, 0), (.mma th w, .mma, 0), (.mstCfg th w, .mstCfg, 0),
      (.mstSeek th w, .mstSeek, 0), (.maccZero th w, .maccZero, 0), (.maccLd th w, .maccLd, 0), (.maccDrain th w, .maccDrain, 0),
      (.maccStat th w, .maccStat, d), (.qCholTile th w, .qCholTile, Word.slice w 5 0), (.qTrsm th w, .qTrsm, 0),
      (.qSchur th w, .qSchur, 0), (.qHhPanel th w, .qHhPanel, Word.slice w 5 0), (.qHhApply th w, .qHhApply, 0)]
    let aligned (r : Row) : Prop := r = .mstCfg → (t.getS (Word.ra w)).toNat % 64 = 0
    (∀ i r dst, (i, r, dst) ∈ ops → s.issues r th w = true → aligned r →
      (16 ≤ c.mq.length ∨ behind → Leaves i s th t) ∧
      (c.mq.length < 16 → ¬ behind → (∀ x ∈ c.mq, x.lane = true ∨ x.isMwait = true ∨ x.done = true ∨ x.blocked = true) →
        (o.lane = true ∨ Core.canStart { c with mq := c.mq ++ [o] } o = false) →
        Completes i s (fun m => next m ∧ (m.core core).mq = c.mq ++ [entry dst] ∧ unit m ∧ SameBytes s.m m ∧ Alone s.m m th ∧
          (dst = 0 → (m.th k).outst = t.outst) ∧
          (dst ≠ 0 → ∃ x : Outst, (m.th k).outst = t.outst ++ [x] ∧ x.id = t.issued ∧ x.dstS = [dst] ∧ x.left = 1)))) ∧
    (s.issues .mstCfg th w = true → ¬ aligned .mstCfg → 16 ≤ c.mq.length → Leaves (.mstCfg th w) s th t) ∧
    (s.issues .mstCfg th w = true → ¬ aligned .mstCfg → c.mq.length < 16 → t.inTrap = false → t.tvec ≠ 0 → Leaves (.mstCfg th w) s th
      { t with tepc := t.ip.setWidth 48, tcause := 4, tval := t.getS (Word.ra w), inTrap := true, ip := t.tvec }) ∧
    (c.mq = [] → ¬ behind →
      let runsAs (i : Instr) (r : Row) (dst : Nat) (p : Module → Prop) : Prop := s.issues r th w = true → Completes i s (fun m => next m ∧
        Alone s.m m th ∧ (∃ f, (m.core core).mq = [{ entry dst with done := true, flags := f }]) ∧ p m)
      let runs (i : Instr) (r : Row) (p : Module → Prop) : Prop := runsAs i r 0 p
      let tf := Word.slice w 12 11
      let nt := tfmtTiles tf
      let fmt := Word.slice w 16 13
      let n := mfmtBytes fmt
      let el (r col : Nat) : Nat := tileAddr o.a o.b n r col
      let flat := o.a.toNat % n = 0 ∧ (intOf true 32 o.b.toNat) % (n : Int) = 0
      let tiles (m : Module) (f : Nat → Nat → Nat) : Prop := ∀ r col, r < 32 → col < 32 →
        (m.core core).tileBits d nt r col = f r col ∧ ∀ x, x < d ∨ d + nt ≤ x → (m.core core).accWord x r col = c.accWord x r col
      let ci := Word.ra w
      let ch := c.chan ci
      let others (m : Module) (y : Nat) : Prop := ∀ x, x ≠ y → (m.core core).chan x = c.chan x
      runs (.msSwap th w) .msSwap (fun m => (m.core core).active = !c.active ∧ (m.core core).set0 = c.set0 ∧
        (m.core core).set1 = c.set1 ∧ (m.core core).acc = c.acc ∧ (m.core core).chans = c.chans ∧ SameBytes s.m m) ∧
      runs (.mstSeek th w) .mstSeek (fun m => (m.core core).chan d =
        { c.chan d with col := o.a.toNat % 2 ^ 32, kap := o.b.toNat % 2 ^ 32 } ∧ others m d ∧ SameBytes s.m m) ∧
      runs (.maccZero th w) .maccZero (fun m => tiles m (fun _ _ => 0) ∧
        (m.core core).stat d = (c.stat d &&& 0xFFFFFFFF00000000) ∧ SameBytes s.m m) ∧
      runsAs (.maccStat th w) .maccStat d (fun m => unit m ∧ SameBytes s.m m ∧
        (d ≠ 0 → m.settledS th d = c.stat (Word.ra w))) ∧
      (aligned .mstCfg → ∀ p : Nat → Place,
        (∀ i, i < 8 → s.openPlace th (o.a.toNat + 8 * i) .load (p i) ∧ s.m.badPlace (p i) 8 = false) →
        let ws := (List.range 8).map (fun i => BitVec.ofNat 64 (s.m.readPlace (p i) 8))
        runs (.mstCfg th w) .mstCfg (fun m =>
          (m.core core).chan d = { configured := true, words := ws, col := 0, kap := 0 } ∧ others m d ∧ SameBytes s.m m)) ∧
      (flat → ∀ p : Nat → Nat → Place,
        (∀ r col, r < 32 → col < 32 → s.openPlace th (el r col) .load (p r col) ∧ s.m.badPlace (p r col) n = false) →
        runs (.maccLd th w) .maccLd (fun m =>
          tiles m (fun r col => (widenTile tf fmt (s.m.readPlace (p r col) n) false).1 % 2 ^ (32 * nt)) ∧ SameBytes s.m m)) ∧
      (ch.valid = true → widens (Word.slice w 10 8) ch.src = true → ∀ p : Nat → Nat → Place,
        let ob := (FCode.fmt (FCode.ofCode (Word.slice w 10 8))).width / 8
        (∀ r i a, r < 32 → i < 256 / ob → ch.addr (ch.kap + i) (ch.col + r) = some a →
          s.openPlace th a .load (p r i) ∧ s.m.badPlace (p r i) ch.bytes = false) →
        runs (.msLd th w) .msLd (fun m => (m.core core).active = c.active ∧ (m.core core).acc = c.acc ∧ SameBytes s.m m ∧
          (if c.active then (m.core core).set1 = c.set1 else (m.core core).set0 = c.set0) ∧
          (∀ r i, r < 32 → i < 256 / ob →
            Memory.read (if c.active then (m.core core).set0 else (m.core core).set1) (r * 256 + i * ob) ob =
              match ch.addr (ch.kap + i) (ch.col + r) with
              | none => 0
              | some _ => (ch.widen (Word.slice w 10 8) (s.m.readPlace (p r i) ch.bytes)).1 % 2 ^ (8 * ob)) ∧ others m ci ∧
          (m.core core).chan ci = if Word.slice w 0 0 = 1 then { ch with col := (ch.col + 32) % 2 ^ 32 } else ch)) ∧
      (flat → Word.slice w 10 7 = 0 → ∀ p : Nat → Nat → Place,
        (∀ r col, r < 32 → col < 32 → s.fixedPlace th (el r col) .store (p r col) ∧
          (∀ a, p r col = .host a → s.m.linkUp = true) ∧
          ∀ r' col' x, r' < 32 → col' < 32 → (r, col) ≠ (r', col') → (p r col).covers n x → ¬ (p r' col').covers n x) →
        runs (.maccDrain th w) .maccDrain (fun m => m.ms.flash = s.m.ms.flash ∧
          tiles m (fun r col => if Word.slice w 4 4 = 1 then 0 else c.tileBits d nt r col) ∧
          ∀ x, ((∀ r col, r < 32 → col < 32 → ¬ (p r col).covers n x) → m.byteAt x = s.m.byteAt x) ∧
            (∀ r col, r < 32 → col < 32 → (p r col).covers n x → m.byteAt x =
              (drainStore fmt ((Rm.ofCode o.rm).getD .rne)
                (drawOf (s.m.ctx t.ctx).seed o.c (Word.srtag w) (r * 32 + col))
                ((tileValue (rdnOf ((Rm.ofCode o.rm).getD .rne)) tf (c.tileBits d nt r col)).1.scale (intOf true 8 (o.b.toNat / 2 ^ 32)))).1
                / 256 ^ (x.2 - (p r col).cell.2) % 256))))

/-- O40. 06 R130-R137, R148, R152; 03 R72; 09 R215. slotElem is the arithmetic of R131 for one element, cholesky that of R215. -/
def Obligations.SlotsEnterLandAndRetire : Prop :=
  ∀ (s : State),
    (∀ (th : ThreadId) (w : Word), s.issues .mwait th w = true →
      let t := s.thread th
      let k := ThreadId.key th
      let c := s.m.core (k / 8)
      let met := (c.mq.filter (fun o => o.thread == keyThread k && Word.major o.word != 0x24)).length ≤ Word.slice w 4 0
      let mine := c.mq.find? (fun o => Word.major o.word == 0x24 && o.thread == keyThread k)
      let clear := ∀ o ∈ c.mq, o.blocked = false
      (mine = none → 16 ≤ c.mq.length → Leaves (.mwait th w) s th t) ∧
      (mine = none → c.mq.length < 16 → met → clear → Retires (.mwait th w) s th t) ∧
      (mine = none → c.mq.length < 16 → ¬ (met ∧ clear) → Completes (.mwait th w) s (fun m => m.th k = t ∧ SameBytes s.m m ∧
        Alone s.m m th ∧ ∃ o : MOp, (m.core (k / 8)).mq = c.mq ++ [o] ∧ o.word = w ∧ o.thread = keyThread k ∧ o.done = false)) ∧
      (∀ o, mine = some o →
        (met → c.canStart o = true → Completes (.mwait th w) s (fun m => SameBytes s.m m ∧ Alone s.m m th ∧
          m.th k = { t with ip := t.ip + 8, retiredAt := s.m.pilot } ∧ (m.core (k / 8)).mq = c.mq.filter (fun x => x.id != o.id))) ∧
        (¬ (met ∧ c.canStart o = true) → Leaves (.mwait th w) s th t))) ∧
    (∀ core : Fin 2048,
      let c := s.m.core core.val
      let now (m : Module) : Core := m.core core.val
      (∀ x ∈ c.mq, x.lane = true ∨ x.isMwait = true ∨ x.done = true ∨ x.blocked = true) →
        (∀ o, c.mq = [o] → Word.major o.word = 0x21 → o.done = false → o.blocked = false → o.slots < o.total →
          let tile := Word.rd o.word
          let col := o.slots % o.n
          let pass := o.slots / (o.kc * o.n)
          let chunk := o.slots % (o.kc * o.n) / o.n
          let x := s.m.slotOperands core.val o (o.k0 + chunk) col
          let zi := Word.slice o.word 1 1 = 1 ∧ pass = 0 ∧ chunk = 0
          (o.started = true → c.columnBusy tile o.laneTiles col = false →
            Completes (.mmaSlot core) s (fun m => SameBytes s.m m ∧ (now m).acc = c.acc ∧
              (now m).mq = [{ o with slots := o.slots + 1 }] ∧ ∃ f : Inflight, f.op = o.id ∧ f.stat = true ∧
                (now m).inflight = (if Word.slice o.word 1 1 = 1 ∧ o.slots = 0
                  then c.inflight.map (fun y => if y.tile = tile then { y with stat := false } else y) else c.inflight) ++ [f] ∧
                f.tile = tile ∧ f.ntiles = o.laneTiles ∧ f.col = col ∧ f.vals.length = 32 ∧ ∀ r, r < 32 → f.vals.getD r 0 =
                  (slotElem o.mode pass (if zi then 0 else c.tileBits tile o.laneTiles r col) (x.1.getD r []) x.2.1).1)) ∧
          (o.started = true → c.columnBusy tile o.laneTiles col = true →
            Completes (.mmaSlot core) s (fun m => SameBytes s.m m ∧ now m = c)) ∧
          (o.started = false → (c.chan (Word.ra o.word)).valid = false → (s.m.th (o.key core.val)).ctx < 64 →
            Completes (.mmaSlot core) s (fun m => SameBytes s.m m ∧ (now m).acc = c.acc ∧
              (now m).mq = [{ o with done := true, flags := o.flags ||| fNV }] ∧ (now m).stat tile = (c.stat tile ||| 1) ∧
              Violates s.m m (s.m.th (o.key core.val)).ctx 1 o.ip.toNat))) ∧
        (∀ (f : Inflight) (rest : List Inflight) (o : MOp), c.inflight = f :: rest → c.mq.filter (fun x => x.id == f.op) = [o] → o.lane = true →
          let isDone := decide (o.landed + 1 = o.total)
          (f.col < 32 → f.vals.length = 32 → Completes (.slotResultLand core) s (fun m => SameBytes s.m m ∧
            (now m).inflight = rest ∧
            (now m).mq = c.mq.map (fun x =>
              if x.id = o.id then { x with flags := x.flags ||| f.flags, landed := x.landed + 1, done := isDone } else x) ∧
            (now m).stat f.tile = (if f.stat then c.stat f.tile ||| (f.flags.setWidth 64 &&& 0x3D) else c.stat f.tile) ∧
            ∀ r col, r < 32 → col < 32 →
              (col = f.col → (now m).tileBits f.tile f.ntiles r col = f.vals.getD r 0 % 2 ^ (32 * f.ntiles)) ∧
              ∀ x, (col ≠ f.col ∨ x < f.tile ∨ f.tile + f.ntiles ≤ x) → (now m).accWord x r col = c.accWord x r col)) ∧
          (f.col = 32 → Word.major o.word = 0x28 → Word.minor o.word = 0 → o.total = o.landed + 1 →
            let d := Word.rd o.word
            let l := cholesky false (floorOf o.a.toNat) (c.tileRows d 2) 32
            Completes (.slotResultLand core) s (fun m => SameBytes s.m m ∧ (now m).inflight = rest ∧
              (∀ r col, r < 32 → col < 32 → (now m).tileBits d 2 r col = at2 l.1.1 r col % 2 ^ 64) ∧
              (∀ q : Outst, (s.m.th (o.key core.val)).outst = [q] → o.dst = some q.id → Word.slice o.word 5 0 ≠ 0 →
                (m.settle (o.key core.val)).th (o.key core.val) =
                  ({ s.m.th (o.key core.val) with outst := [] }).setSN (Word.slice o.word 5 0) l.2)))) ∧
        ((∀ x ∈ c.mq, x.done = false) → Does (.mOpRetire core) s [] (fun _ => True)) ∧
        (∀ o, c.mq.find? (fun x => x.done) = some o → let k := o.key core.val
          Completes (.mOpRetire core) s (fun m => SameBytes s.m m ∧
          now m = { c with mq := c.mq.filter (fun x => x.id != o.id), clockOn := true } ∧
          m.th k = { (s.m.th k).orFlags o.flags with retiredAt := s.m.pilot } ∧
          (m.ctx (s.m.th k).ctx).wdSince = s.m.pilot ∧ (∀ f : Fld, sideField f.key = false → m.getF f = s.m.getF f) ∧
          ∀ j, j ≠ k → m.th j = s.m.th j)))

/-- O41. 09 R191, R192 but for the event source 192, which rises when a pending lease becomes effective. Outcome 6 while an adjoint entry runs, 4 before 3, and 3 for a FAILED partition are log 27 (DEDUCED, DESIGN CHOICE). -/
def Obligations.LeasesAnswerTheirOutcome : Prop :=
  ∀ (s : State) (x : Fin 64) (part : Fin 8) (cluster : Fin 16), s.barReady →
    let g := part.val * 16 + cluster.val
    let st := s.m.getF (Reg.SQ_LOWN.state g)
    let ow := s.m.getF (Reg.SQ_LOWN.owner g)
    let cmd := [Reg.SQ_LEASE_CMD.context.key, Reg.SQ_LEASE_CMD.partition.key, Reg.SQ_LEASE_CMD.cluster.key, Reg.SQ_LEASE_STAT.outcome.key]
    let own := [(Reg.SQ_LOWN.state g).key, (Reg.SQ_LOWN.owner g).key]
    let refused (i : Instr) (code : Nat) : Prop := Effect i s cmd [] (fun m => m.getF Reg.SQ_LEASE_STAT.outcome = code)
    let makes (i : Instr) (code st' ow' : Nat) : Prop := Effect i s (cmd ++ own) [] (fun m => m.getF Reg.SQ_LEASE_STAT.outcome = code ∧
      m.getF (Reg.SQ_LOWN.state g) = st' ∧ m.getF (Reg.SQ_LOWN.owner g) = ow')
    let taken := (clusterCores g).any s.m.coreTaken
    (s.m.ctxLive x.val = false → refused (.lease x part cluster) 4) ∧
    (s.m.ctxLive x.val = true → s.m.partReady part.val = false → refused (.lease x part cluster) 3) ∧
    (s.m.ctxLive x.val = true → s.m.partReady part.val = true → st ≠ 0 →
      refused (.lease x part cluster) (if ow = x.val then (if st = 1 then 1 else 0) else 2)) ∧
    (s.m.ctxLive x.val = true → s.m.partReady part.val = true → st = 0 →
      if s.m.clusterBusy g = true then makes (.lease x part cluster) 1 1 x.val else makes (.lease x part cluster) 0 2 x.val) ∧
    (st = 0 ∨ ow ≠ x.val → refused (.release x part cluster) 5) ∧
    (st ≠ 0 → ow = x.val → taken = false → makes (.release x part cluster) 0 0 0) ∧
    (st ≠ 0 → ow = x.val → taken = true → Effect (.release x part cluster) s cmd [.sq] (fun m =>
      m.getF Reg.SQ_LEASE_STAT.outcome = 6 ∧ m.sq.releasing.contains g = true))

/-- O42. 09 R195, R196; 10 R220, R221, R240. The checks of the descriptors are those of SqCheck.problem, which reads R198 to R200 in order; which code answers when two failures hold is log 22 (DEDUCED). -/
def Obligations.SolverSubmissionsAnswerTheirCode : Prop :=
  ∀ (s : State),
    (∀ (th : ThreadId) (w : Word), s.m.subHeld = false → (s.issuing th).drained (ThreadId.key th) = true →
      (s.thread th).deferred = [] → (s.thread th).ctx < 64 →
      let t := s.thread th
      let a := (t.getS (Word.ra w)).toNat
      let retires (i : Instr) (code : Nat) (p : Module → Prop) : Prop :=
        CompletesOpen i s (s.issuing th) (fun m => m.th (ThreadId.key th) = s.withCode th w code ∧ SameBytes s.m m ∧ p m)
      let refused (i : Instr) (code : Nat) (p : Module → Prop) : Prop := retires i code (fun m => m.sq = s.m.sq ∧ p m ∧
        m.getF Reg.SQ_REFUSED.count = (s.m.getF Reg.SQ_REFUSED.count + 1) % 2 ^ 48 ∧
        m.getF Reg.SQ_QUEUE.free = s.m.getF Reg.SQ_QUEUE.free)
      let accepts := s.m.oos = false ∧ s.m.getF Reg.SQ_CTRL.accept = 1
      let both (i : Instr) (row : Row) (align n : Nat) : Prop := s.issues row th w = true →
        let d := (s.issuing th).descRead t.ctx a n
        (¬ accepts → refused i 3 (fun _ => True)) ∧
        (accepts → a % align ≠ 0 → refused i 2 (fun m => Violates s.m m t.ctx 2 a)) ∧
        (accepts → a % align = 0 → d.2.1 = true → refused i 4 (fun _ => True)) ∧
        (accepts → a % align = 0 → d.2.1 = false → d.2.2 = true → refused i 2 (fun m => Violates s.m m t.ctx 2 a))
      let queued (m : Module) (x : Submission) (ctx cmp bud n : Nat) (cut adj : Bool) : Prop := m.sq.subs = s.m.sq.subs ++ [x] ∧ x.ctx = ctx ∧
        x.completion = cmp ∧ x.budget = bud ∧ x.cutoff = cut ∧ x.isAdj = adj ∧ x.accept = s.m.pilot ∧ x.count = n ∧ x.left = n ∧
        x.late = false ∧ (let q := s.m.sq.probs.length + s.m.sq.entries.length + n
          m.getF Reg.SQ_QUEUE.queued = q % 2 ^ 17 ∧ m.getF Reg.SQ_QUEUE.free = 65536 - q)
      both (.xSqsub th w) .xSqsub 64 8 ∧ both (.xSqadj th w) .xSqadj 32 4 ∧
      (s.issues .xSqsub th w = true → accepts → a % 64 = 0 →
        let d := (s.issuing th).descRead t.ctx a 8
        let h (i : Nat) : Nat := d.1.getD i 0
        let list := h 0 % 2 ^ 48
        let n := h 0 / 2 ^ 48 + 1
        let ok := list % 128 = 0 ∧ h 1 < 2 ^ 48 ∧ h 1 % 32 = 0 ∧ h 3 ≤ 1 ∧ h 4 = 0 ∧ h 5 = 0 ∧ h 6 = 0 ∧ h 7 = 0
        let c := (List.range n).foldl (fun c i => c.problem t.ctx (list + 128 * i)) ({ m := s.issuing th, code := 0, probs := [] } : SqCheck)
        d.2.1 = false → d.2.2 = false →
          (¬ ok → refused (.xSqsub th w) 2 (fun m => Violates s.m m t.ctx 2 a)) ∧
          (ok → c.code ≠ 0 → refused (.xSqsub th w) c.code (fun _ => True)) ∧
          (ok → c.code = 0 → s.m.getF Reg.SQ_QUEUE.free < n → refused (.xSqsub th w) 1 (fun _ => True)) ∧
          (ok → c.code = 0 → n ≤ s.m.getF Reg.SQ_QUEUE.free → retires (.xSqsub th w) 0 (fun m => ∃ (x : Submission) (l : List Problem),
            queued m x t.ctx (h 1) (h 2) n (h 3 == 1) false ∧ m.sq.probs = s.m.sq.probs ++ l ∧ l.length = n ∧
            ∀ y ∈ l, y.ctx = t.ctx ∧ y.sub = x.id ∧ y.phase = 0))) ∧
      (s.issues .xSqadj th w = true → accepts → a % 32 = 0 → ∀ (list n : Nat) (e : List Nat),
        let d := (s.issuing th).descRead t.ctx a 4
        let h (i : Nat) : Nat := d.1.getD i 0
        let x (i : Nat) : Nat := e.getD i 0
        list = h 0 % 2 ^ 48 → n = h 0 / 2 ^ 48 + 1 → d.2.1 = false → d.2.2 = false → list % 32 = 0 → h 1 < 2 ^ 48 → h 1 % 32 = 0 →
        h 2 = 0 → h 3 = 0 → n = 1 → (s.issuing th).descRead t.ctx list 4 = (e, false, false) → n ≤ s.m.getF Reg.SQ_QUEUE.free →
        x 0 / 2 % 2 ^ 31 = 0 → x 1 < 2 ^ 48 → x 2 < 2 ^ 48 → x 3 = 0 → x 1 % 8 = 0 → x 2 % 8 = 0 → (x 1 ≠ 0 ∨ x 0 % 2 = 1) →
        retires (.xSqadj th w) 0 (fun m => ∃ (y : Submission) (z : AdjEntry), queued m y t.ctx (h 1) 0 1 false true ∧
          m.sq.entries = s.m.sq.entries ++ [z] ∧ z.ctx = t.ctx ∧ z.sub = y.id ∧ z.va = list ∧ z.words = e ∧ z.phase = 0))) ∧
    (∀ (th : ThreadId) (w : Word), s.m.subHeld = true →
      (s.issues .xSqsub th w = true → Leaves (.xSqsub th w) s th (s.thread th)) ∧
      (s.issues .xSqadj th w = true → Leaves (.xSqadj th w) s th (s.thread th))) ∧
    (∀ c : Fin 64, s.barReady → Effect (.sqCutoff c) s [] [.sq] (fun m => m.sq = { s.m.sq with
      subs := s.m.sq.subs.map (fun x => if x.ctx = c.val ∧ x.cutoff = true then { x with late := true } else x) })) ∧
    (∀ (id : Nat) (x : Submission), s.m.sqSub id = some x → x.budget ≠ 0 → Completes (.deadlineExpiry id) s (fun m =>
      m.pilot = max s.m.pilot (x.accept + x.budget) ∧ SameBytes s.m m ∧
      m.sq = { s.m.sq with subs := s.m.sq.subs.map (fun y => if y.id = id then { y with late := true } else y) }))

/-- O43. 09 R194, R199-R212; 10 R222-R226. Shown for a problem on its own; cholPanel and solve64 are the arithmetic of R206 and R207. -/
def Obligations.ProblemsRunFromStartToEnd : Prop :=
  ∀ (s : State),
    (∀ c : Fin 64, (s.m.nextInLine c.val = none ∨ s.m.serving = [] ∨ s.m.subHeld = true) → Does (.problemStart c) s [] (fun _ => True)) ∧
    (∀ (c : Fin 64) (p : Problem), s.m.nextInLine c.val = some p.id → s.m.sqProb p.id = some p → s.m.serving ≠ [] → s.m.subHeld = false →
      s.m.sq.probs.filter (fun q => q.group == p.group) = [p] → p.ctx = c.val → pdSdesc p.words = 0 →
      (s.m.isLate p.sub = true → Completes (.problemStart c) s (fun m => SameBytes s.m m ∧
        m.sq.runs = s.m.sq.runs ∧ m.sq.subs = s.m.sq.subs ∧
        m.sq.probs = s.m.sq.probs.map (fun q => if q.id = p.id then { q with phase := 2, fin := some {
          x := none, record := resultWords 0x11 0 0 0 fp64.nanBits (pdLambda0 p.words) 0 false false false,
          lam := pdLambda0 p.words, lost := false } } else q))) ∧
      (s.m.isLate p.sub = false → s.m.getF Reg.PWR_STATE.state = 0 → (s.m.fresh.solverCores c.val (pdKind p.words)).2 ≠ [] →
          s.m.sqRun p.id = none →
        CompletesOpen (.problemStart c) s s.m.fresh (fun m => ∃ r : SolverRun, m.sq.runs = s.m.sq.runs ++ [r] ∧ r.id = p.id ∧ r.ctx = c.val ∧ r.stage = 1 ∧
          r.it = 0 ∧ r.lanes.length = 1 ∧ r.cores = (s.m.fresh.solverCores c.val (pdKind p.words)).2 ∧
          m.sq.probs = s.m.sq.probs.map (fun q => if q.group = p.group then { q with phase := 1 } else q) ∧
          ∀ k ∈ r.cores.flatMap coreKeys, (m.th k).run = .running ∧ (m.th k).ctx = c.val ∧
            (m.th k).ip = BitVec.ofNat 64 (pdProg p.words) ∧ (m.th k).work = .stage p.id))) ∧
    (∀ (r : SolverRun) (p : Problem) (l : Lane), s.m.sqRun r.id = some r → s.m.sqProb r.id = some p → r.lanes = [l] → l.prob = p.id →
      s.m.sq.runs = [r] →
      let i := Instr.solverStageEnd r.id
      let plain := pdKind p.words = 1 ∧ pdQr p.words = false
      (r.stage = 1 → s.m.stageThreads r.id ≠ [] → Does i s [] (fun _ => True)) ∧
      (r.stage = 1 → s.m.stageThreads r.id = [] → Does i s [.sq, .cores] (fun m => m.sq = { s.m.sq with runs := [{ r with stage := 2 }] } ∧
        ∀ c, m.core c = if c ∈ r.cores then { s.m.core c with clockOn := true } else s.m.core c)) ∧
      (r.stage = 2 → r.first = false → r.it + 1 = pdIters p.words →
        let f := s.m.fresh.formLane r.ctx 0 p
        let take := isFin64 f.2.1 && (!pdLm p.words || !isFin64 l.ca || below64 f.2.1 l.ca)
        CompletesOpen i s s.m.fresh (fun m => SameBytes s.m m ∧ ∃ l' : Lane, m.sq.runs = [{ r with it := r.it + 1, stage := 6, lanes := [l'] }] ∧
          l'.xa = (if take then l.xt else l.xa) ∧ l'.ca = (if take then f.2.1 else l.ca) ∧
          l'.lam = (if take then lamDown l.lam (pdDn p.words) else lamUp l.lam (pdUp p.words)) ∧
          m.sq.probs = s.m.sq.probs.map (fun q => if q.group = p.group then { q with phase := 2 } else q))) ∧
      (r.stage = 3 → plain → l.slots = [] → s.m.isLate p.sub = false →
        let q := cholPanel (pdPair p.words) l.fac.floor (pdDim p.words) r.panel l.fac.w
        let st := if pdTiles p.words ≤ r.panel + 1 then 4 else 3
        Effect i s [] [.sq] (fun m => m.sq = { s.m.sq with runs := [{ r with panel := r.panel + 1, stage := st, lanes :=
          [{ l with fac := { l.fac with w := q.1, cnt := l.fac.cnt + q.2 }, flTotal := l.flTotal + q.2 }] }] })) ∧
      (r.stage = 4 → plain → Does i s [.sq] (fun m => m.sq = { s.m.sq with runs := [{ r with stage := 5, lanes :=
        [{ l with delta := solve64 l.fac.w (l.sys.g.map (fun x => neg64 (entry64 (pdPair p.words) x))) }] }] })) ∧
      (r.stage = 5 → CompletesOpen i s s.m.fresh (fun m => ∃ l' : Lane, m.sq.runs = [{ r with stage := 1, lanes := [l'] }] ∧
        l'.xt = (l.xa.zip l.delta).map (fun y => (add64 y.1 y.2).1) ∧ l'.xa = l.xa ∧ l'.lam = l.lam))) ∧
    (∀ (p : Problem) (x : Submission) (xs : List Nat) (rec : List Nat) (px : Nat → Place) (q rc : Place), s.m.sqProb p.id = some p →
      s.m.serving ≠ [] → s.m.sqSub p.sub = some x → x.left = 1 → x.lostParts = 0 → x.isAdj = false → p.phase = 2 → pdSdesc p.words = 0 →
      p.ctx < 64 → s.m.endHeld p = false →
      ((∃ e, p.fin = some e ∧ (e.x = some xs ∨ e.x = none ∧ xs = []) ∧ e.record = rec) ∨
        (p.fin = none ∧ ∃ r l, s.m.sqRun p.group = some r ∧ r.lanes = [l] ∧ l.prob = p.id ∧ l.slots = [] ∧ l.kept = none ∧ xs = l.xa ∧
          rec = resultWords 0 r.it l.flLast l.flTotal l.ca l.lam 0 false l.nonfinite l.warmRej)) →
      rec.length = 4 → s.m.wordPlaces p.ctx (pdX p.words) xs.length px → ApartSelf xs.length px →
      s.m.recordPlace p.ctx (pdResult p.words) q → s.m.recordPlace x.ctx x.completion rc →
      (∀ j c, j < xs.length → (px j).covers 8 c → ¬ q.covers 32 c ∧ ¬ rc.covers 32 c) → (∀ c, q.covers 32 c → ¬ rc.covers 32 c) →
      CompletesOpen (.problemEnd p.id) s s.m.fresh (fun m => m.sqProb p.id = none ∧ m.sqSub p.sub = none ∧
        (∀ j, j < xs.length → m.readPlace (px j) 8 = xs.getD j 0 % 2 ^ 64) ∧
        (∀ j, j < 4 → m.readPlace (q.plus (8 * j)) 8 = rec.getD j 0 % 2 ^ 64) ∧
        HasRecord m rc 0 3 (x.count % 2 ^ 40) 0 s.m.pilot ∧
        (p.fin.isSome = true → rec.getD 0 0 / 2 ^ 56 = 0x11 → m.getF Reg.SQ_DLMISS.count = (s.m.getF Reg.SQ_DLMISS.count + 1) % 2 ^ 48) ∧
        (p.fin.isSome = true → rec.getD 0 0 / 2 ^ 56 = 0x10 → m.getF Reg.SQ_DLPART.count = (s.m.getF Reg.SQ_DLPART.count + 1) % 2 ^ 48))) ∧
    (∀ k : Fin 4,
      Does (.seqProcRestart k) s [.sq] (fun m => m.sq = { s.m.sq with down := s.m.sq.down.filter (fun y => y != k.val) }) ∧
      (s.m.sq.down.contains k.val = true → Does (.seqProcFault k) s [] (fun _ => True)) ∧
      (∀ r, s.m.sq.down.contains k.val = false → s.m.sq.runs = [r] → r.proc = k.val → s.m.sq.entries = [] → s.m.runWriting r = true →
        Effect (.seqProcFault k) s [] [.sq] (fun m => m.sq = { s.m.sq with down := s.m.sq.down ++ [k.val] })) ∧
      (∀ r, s.m.sq.down.contains k.val = false → s.m.sq.runs = [r] → r.proc = k.val → s.m.sq.entries = [] → s.m.runWriting r = false →
        (∀ l ∈ r.lanes, l.slots = []) → Completes (.seqProcFault k) s (fun m => SameBytes s.m m ∧ m.sq.runs = [] ∧
          m.sq.down = s.m.sq.down ++ [k.val] ∧ (∀ j, j ∈ s.m.stageThreads r.id → (m.th j).run = .free) ∧
          m.sq.probs = s.m.sq.probs.map (fun p => if p.group = r.id ∧ p.fin.isNone = true then { p with phase := 0 } else p))))

/-- O44. 10 R240-R243. Handle.adjoint is the pair of triangular solutions of R242. -/
def Obligations.AdjointEntriesReadAndReleaseTheirHandle : Prop :=
  ∀ (s : State),
    (∀ (c : Fin 64) (e : AdjEntry), s.m.nextInLine c.val = some e.id → s.m.sqEntry e.id = some e → s.m.serving ≠ [] →
      s.m.subHeld = false →
      let w (i : Nat) : Nat := e.words.getD i 0
      let h := s.m.handleOf c.val (w 0 / 2 ^ 32)
      let ends (word3 : Nat) (m : Module) : Prop := m.sq = { s.m.sq with
        entries := s.m.sq.entries.map (fun y => if y.id = e.id then { y with phase := 2, word3 := word3 } else y) }
      (h = none → Does (.adjointEntryStart c) s [.sq, .fields] (fun m => ends (2 ^ 55) m ∧
        m.getF Reg.SQ_FS_CNT.bad = (s.m.getF Reg.SQ_FS_CNT.bad + 1) % 2 ^ 16)) ∧
      (h.isSome = true → w 1 = 0 → Does (.adjointEntryStart c) s [.sq] (fun m => m.sq = { s.m.sq with
        entries := s.m.sq.entries.map (fun y => if y.id = e.id then { y with phase := 2 } else y) })) ∧
      (∀ (y : Handle) (xs : List Nat) (p : Nat → Place), h = some y → (y.qr = true ∨ y.held = true) → w 1 ≠ 0 → s.m.getF Reg.PWR_STATE.state = 0 → xs.length = y.n →
        (∀ j, j < y.n → (∃ lc, s.m.ctxXlat c.val (w 1 + 8 * j) .load = .ok (p j) lc) ∧ s.m.badPlace (p j) 8 = false ∧
          s.m.readPlace (p j) 8 = xs.getD j 0) → (s.m.fresh.solverCores c.val y.kind).2 ≠ [] →
        CompletesOpen (.adjointEntryStart c) s s.m.fresh (fun m => ∃ z : AdjEntry, m.sqEntry e.id = some z ∧ z.phase = 1 ∧ z.u = some (y.adjoint xs) ∧
          z.word3 = 0 ∧ z.cores = (s.m.fresh.solverCores c.val y.kind).2 ∧ z.words = e.words))) ∧
    (∀ (e : AdjEntry) (x : Submission) (us : List Nat) (pu : Nat → Place) (q rc : Place), s.m.sqEntry e.id = some e → e.phase ≠ 0 → s.m.serving ≠ [] →
      s.m.sqSub e.sub = some x → x.left = 1 → x.lostParts = 0 → x.isAdj = true → e.ctx < 64 →
      (e.u = some us ∨ (e.u = none ∧ us = [])) → s.m.wordPlaces e.ctx (e.words.getD 2 0) us.length pu → ApartSelf us.length pu →
      s.m.wordPlaces e.ctx (e.va + 24) 1 (fun _ => q) → s.m.recordPlace x.ctx x.completion rc →
      (∀ j c, j < us.length → (pu j).covers 8 c → ¬ q.covers 8 c ∧ ¬ rc.covers 32 c) → (∀ c, q.covers 8 c → ¬ rc.covers 32 c) →
      let h := s.m.handleOf e.ctx (e.words.getD 0 0 / 2 ^ 32)
      CompletesOpen (.adjointEntryEnd e.id) s s.m.fresh (fun m => m.sqEntry e.id = none ∧ m.sqSub e.sub = none ∧
        (∀ j, j < us.length → m.readPlace (pu j) 8 = us.getD j 0 % 2 ^ 64) ∧ m.readPlace q 8 = e.word3 % 2 ^ 64 ∧
        HasRecord m rc 0 4 (x.count % 2 ^ 40) 0 s.m.pilot ∧
        (∀ y, h = some y → e.words.getD 0 0 % 2 = 1 → e.word3 / 2 ^ 54 % 2 = 0 → ∀ z ∈ m.sq.handles, z.slot ≠ y.slot) ∧
        (∀ y, h = some y → e.words.getD 0 0 % 2 = 0 → e.word3 / 2 ^ 54 % 2 = 0 → e.u.isSome = true →
          m.sq.handles = s.m.sq.handles.map (fun z => if z.slot = y.slot then { z with busy := z.busy - 1 } else z)) ∧
        (e.word3 / 2 ^ 54 % 2 = 1 → m.sq.handles = s.m.sq.handles)))

/-- O45. 11 R248-R254, R256, R265, R269. A descriptor that cannot be read is the model's code 2 (log 47). -/
def Obligations.HamperRegistersAndFlashCommands : Prop :=
  ∀ (s : State),
    (∀ (c : Fin 64) (va : BitVec 48), s.barReady →
      let d := s.m.descRead c.val va.toNat 4
      let n := s.m.hmp.flq.length
      let ks := [Reg.HMP_FLSUB.context.key, Reg.HMP_FLSUB.va.key, Reg.HMP_FLSTAT.outcome.key]
      let vs := [(Reg.HIF_VIOL.count c.val).key, (Reg.HIF_VLOG.unit c.val).key, (Reg.HIF_VLOG.address c.val).key]
      let ok := va.toNat % 32 = 0 ∧ d.2.1 = false ∧ d.2.2 = false ∧ flashValid d.1 = true
      let given (m : Module) : Prop := s.m.noHolds = false ∧ Changes [] [] s.m m
      (¬ ok → Effect (.flashSubmit c va) s (ks ++ vs) [.memories] (fun m => given m ∨
        (m.getF Reg.HMP_FLSTAT.outcome = 2 ∧ Violates s.m m c.val 2 va.toNat ∧ SameBytes s.m m))) ∧
      (ok → s.m.oos = true ∨ 256 ≤ n → Effect (.flashSubmit c va) s ks [.memories] (fun m => given m ∨
        (m.getF Reg.HMP_FLSTAT.outcome = 1 ∧ SameBytes s.m m))) ∧
      (ok → s.m.oos = false → n < 256 → Effect (.flashSubmit c va) s (ks ++ [Reg.HMP_FLSTAT.outstanding.key]) [.hmp, .memories] (fun m => given m ∨
       (SameBytes s.m m ∧ m.getF Reg.HMP_FLSTAT.outcome = 0 ∧ m.getF Reg.HMP_FLSTAT.outstanding = n + 1 ∧
        m.hmp = { s.m.hmp with flq := s.m.hmp.flq ++ [{ ctx := c.val, words := d.1 }] })))) ∧
    (∀ (c : Fin 64) (x : FlashCmd), s.m.hmp.flq.find? (fun y => y.ctx == c.val) = some x →
      let w (i : Nat) : Nat := x.words.getD i 0
      let op := w 0 / 2 ^ 62
      let off := w 0 % 2 ^ 36
      let len := w 2
      let base := s.m.getF (Reg.HMP_FLEXT.base c.val) * 2 ^ 30 + off * 4096
      let inside := off + len ≤ s.m.getF (Reg.HMP_FLEXT.size c.val) * 2 ^ 18
      let word (m : Module) (i : Nat) : Nat := Memory.read m.ms.flash (base + 8 * i) 8
      let rest (m : Module) : Prop := m.hmp.flq = s.m.hmp.flq.erase x ∧
        ∀ a, (a < base ∨ base + 4096 * len ≤ a ∨ s.m.flashEnd ≤ a) → Memory.get m.ms.flash a = Memory.get s.m.ms.flash a
      ∀ r : Place, s.m.recordPlace c.val (w 3) r →
        (¬ inside → CompletesOpen (.flashCommandComplete c 0) s s.m.fresh (fun m => HasRecord m r 9 7 0 0 s.m.pilot ∧ m.ms.flash = s.m.ms.flash ∧
          m.getF (Reg.HIF_VIOL.count c.val) = (s.m.getF (Reg.HIF_VIOL.count c.val) + 1) % 2 ^ 48)) ∧
        (inside → op = 3 → CompletesOpen (.flashCommandComplete c 0) s s.m.fresh (fun m => HasRecord m r 0 7 (len % 2 ^ 40) 0 s.m.pilot ∧ rest m ∧
          ∀ i, i < 512 * len → base + 8 * i + 8 ≤ s.m.flashEnd → word m i = 0)) ∧
        (∀ p : Nat → Place, inside → op = 1 →
          (∀ i, i < 512 * len → (∃ lc, s.m.ctxXlat c.val (w 1 + 8 * i) .load = .ok (p i) lc) ∧
            s.m.badPlace (p i) 8 = false) → w 1 % 32 = 0 →
          CompletesOpen (.flashCommandComplete c 0) s s.m.fresh (fun m => HasRecord m r 0 7 (len % 2 ^ 40) 0 s.m.pilot ∧ rest m ∧
            ∀ i, i < 512 * len → base + 8 * i + 8 ≤ s.m.flashEnd → word m i = s.m.readPlace (p i) 8)) ∧
        (∀ p : Nat → Place, inside → op = 2 → s.m.wordPlaces c.val (w 1) (512 * len) p → ApartSelf (512 * len) p →
          (∀ i x, i < 512 * len → (p i).covers 8 x → ¬ r.covers 32 x) →
          CompletesOpen (.flashCommandComplete c 0) s s.m.fresh (fun m => HasRecord m r 0 7 (len % 2 ^ 40) 0 s.m.pilot ∧ m.ms.flash = s.m.ms.flash ∧
            ∀ i, i < 512 * len → m.readPlace (p i) 8 = word s.m i))) ∧
    (∀ (c : Fin 64) (v : Word), s.barReady →
      Effect (.hmpStepWrite c v) s [(Reg.HMP_STEP.step c.val).key, (Reg.HMP_STEP.size c.val).key] [.hmp] (fun m =>
        m.getF (Reg.HMP_STEP.step c.val) = v.toNat / 2 ^ 32 ∧ m.getF (Reg.HMP_STEP.size c.val) = v.toNat % 2 ^ 32 ∧
        m.stepSize c.val (v.toNat / 2 ^ 32) = some (v.toNat % 2 ^ 32) ∧
        ∀ (x : Fin 64) st, (x ≠ c ∨ st % 4 ≠ v.toNat / 2 ^ 32 % 4) → m.stepSize x.val st = s.m.stepSize x.val st) ∧
      (let b := v.toNat / 2 ^ 32 % 2 ^ 21
       let n := v.toNat % 2 ^ 22
       Effect (.hmpRswinWrite c v) s [(Reg.HMP_RSWIN.base c.val).key, (Reg.HMP_RSWIN.count c.val).key] [.hmp] (fun m =>
        m.getF (Reg.HMP_RSWIN.base c.val) = b ∧ m.getF (Reg.HMP_RSWIN.count c.val) = n ∧
        ∀ k, SMap.get 0 m.hmp.rowState k = if b + n ≤ 2097152 ∧ b ≤ k ∧ k < b + n then 0 else SMap.get 0 s.m.hmp.rowState k))) ∧
    (s.barReady →
      let i := s.m.getF Reg.HMP_RS_ADDR.index
      Effect (.hmpRsDataAccess none) s [Reg.HMP_RS_ADDR.index.key] [.capture] (fun m =>
        Output.readData (SMap.get 0 s.m.hmp.rowState i).toNat ∈ m.out ∧ m.getF Reg.HMP_RS_ADDR.index = (i + 1) % 2 ^ 21) ∧
      (∀ v : Word, s.m.getF Reg.HMP_STAT.active = 0 →
        Effect (.hmpRsDataAccess (some v)) s [Reg.HMP_RS_ADDR.index.key] [.hmp, .capture] (fun m =>
          m.getF Reg.HMP_RS_ADDR.index = (i + 1) % 2 ^ 21 ∧
          ∀ k, SMap.get 0 m.hmp.rowState k = if k = i then v else SMap.get 0 s.m.hmp.rowState k)) ∧
      (∀ v : Word, s.m.getF Reg.HMP_STAT.active ≠ 0 → Effect (.hmpRsDataAccess (some v)) s [Reg.HMP_RS_ADDR.index.key] [.capture] (fun m =>
        m.getF Reg.HMP_RS_ADDR.index = (i + 1) % 2 ^ 21)) ∧
      (∀ (core : Fin 32) (thread : Fin 8),
        let k := (2048 + core.val) * 8 + thread.val
        ((s.m.th k).run = .stopped → Effect (.hmpResume core thread) s [] [.threads, .cores] (fun m =>
          m.th k = { s.m.th k with run := .running } ∧ ∀ j, j ≠ k → m.th j = s.m.th j)) ∧
        ((s.m.th k).run ≠ .stopped → Effect (.hmpResume core thread) s [] [] (fun _ => True))) ∧
      (∀ (v : BitVec 32) (f : FaultRec),
        let b := s.m.getF Reg.HMP_FRING.base
        let hd := s.m.getF Reg.HMP_FPTR.head
        let sz := 2 ^ (s.m.getF Reg.HMP_FRING.size + 4)
        let a := b * 4096 + hd % sz * 32
        (s.m.hmp.waitRecs = [] → Effect (.hmpFptrTailWrite v) s [Reg.HMP_FPTR.tail.key] [] (fun m => m.getF Reg.HMP_FPTR.tail = v.toNat)) ∧
        (s.m.hmp.waitRecs = [f] → (hd + 2 ^ 32 - v.toNat) % 2 ^ 32 = sz → Effect (.hmpFptrTailWrite v) s [Reg.HMP_FPTR.tail.key] [] (fun m =>
          m.getF Reg.HMP_FPTR.tail = v.toNat ∧ m.hmp.waitRecs = [f])) ∧
        (s.m.hmp.waitRecs = [f] → (hd + 2 ^ 32 - v.toNat) % 2 ^ 32 ≠ sz → Completes (.hmpFptrTailWrite v) s (fun m =>
          m.getF Reg.HMP_FPTR.tail = v.toNat ∧ m.getF Reg.HMP_FPTR.head = (hd + 1) % 2 ^ 32 ∧ m.hmp.waitRecs = [] ∧ (a + 32 ≤ 2 ^ 40 →
          m.readPlace (.ctier a) 8 = f.w0.toNat ∧ m.readPlace (.ctier (a + 8)) 8 = f.w1.toNat ∧
          m.readPlace (.ctier (a + 16)) 8 = f.w2.toNat ∧ m.readPlace (.ctier (a + 24)) 8 = f.w3.toNat))))) ∧
    (s.m.hmp.d2dUp = true →
      Does .d2dRetrain s [.fields] (fun m => m.getF Reg.HMP_D2D.retrains = (s.m.getF Reg.HMP_D2D.retrains + 1) % 2 ^ 16 ∧
        FieldsBut [Reg.HMP_D2D.retrains.key] s.m m) ∧
      Does .flitReplay s [.fields] (fun m => m.getF Reg.HMP_D2D.replays = (s.m.getF Reg.HMP_D2D.replays + 1) % 2 ^ 32 ∧
        FieldsBut [Reg.HMP_D2D.replays.key] s.m m) ∧
      Completes .d2dLinkLost s (fun m => m.hmp.d2dUp = false ∧ m.getF Reg.HMP_D2D.up = 0 ∧ m.oos = true)) ∧
    (s.m.hmp.d2dUp = false → Does .d2dRetrain s [] (fun _ => True) ∧ Does .flitReplay s [] (fun _ => True) ∧
      Does .d2dLinkLost s [] (fun _ => True))

/-- O46. 11 R255-R271 with 08 R183, R186; 17 R424-R427. Stated for hand-overs without a collective, with nothing else queued where the end looks at the queue. The buffers' places are log 19, the outcomes and a reserved gradient word log 28, slots as records log 46, and the lanes of the sums log 70 (the model's choices). -/
def Obligations.LayerUpdatesRunFromHandOverToRecord : Prop :=
  ∀ (s : State),
    (∀ (h : HandOver) (rest : List HandOver), s.m.hmp.posted = h :: rest →
      (s.m.hmp.d2dUp = false ∨ s.m.oos = true ∨ s.m.subHeld = true ∨ 1024 ≤ s.m.hmp.queue.length → Does .handoverRecord s [] (fun _ => True)) ∧
      (s.m.hmp.d2dUp = true → s.m.oos = false → s.m.subHeld = false → s.m.hmp.queue.length < 1024 → h.coll = 0 →
        (h.completion % 32 ≠ 0 → h.ctx < 64 → Does .handoverRecord s [.hmp, .fields] (fun m => m.hmp = { s.m.hmp with posted := rest } ∧
          Violates s.m m h.ctx 2 h.completion)) ∧
        (∀ d, h.completion % 32 = 0 → s.m.hmp.queue = [] → s.m.handDesc h = some d → (isRepeat d h = false ∨ s.m.getF Reg.HMP_CTRL.accept = 0 ∨ s.m.stepSize h.ctx h.step = none) →
          Does .handoverRecord s [.hmp, .fields] (fun m => m.hmp = { s.m.hmp with posted := rest, queue := [h] } ∧
            m.getF Reg.HMP_STAT.held = 1)) ∧
        (∀ d r, h.completion % 32 = 0 → s.m.hmp.queue = [] → s.m.handDesc h = some d → isRepeat d h = true → s.m.getF Reg.HMP_CTRL.accept = 1 →
          (s.m.stepSize h.ctx h.step).isSome = true →
          s.m.hmp.upd.any (fun u => u.ctx == h.ctx && u.layer == h.layer) = false → s.m.recordPlace h.ctx h.completion r →
          Completes .handoverRecord s (fun m => m.hmp.posted = rest ∧ m.hmp.queue = [] ∧ m.hmp.upd = s.m.hmp.upd ∧
            HasRecord m r 2 6 0 0 s.m.pilot)))) ∧
    (s.m.subHeld = true ∨ (s.m.hmp.queue.find? s.m.endsAtOnce = none ∧ s.m.hmp.queue.find? s.m.handReady = none) →
      Does .layerUpdateStart s [] (fun _ => True)) ∧
    (∀ (h : HandOver) (d : List Nat), s.m.subHeld = false → s.m.hmp.queue.find? s.m.endsAtOnce = none → s.m.hmp.queue.find? s.m.handReady = some h → s.m.handDesc h = some d →
      let clear := h.gnw / 2 ^ 62 % 4 = 0 ∧ gnwReserved h.gnw = false
      let list : EngRead := if ldEmbed d then s.m.engRead h.ctx h.rowlist 4 h.nrows else { words := [], bad := false, viols := 0 }
      (clear → list.bad = false → list.viols = 0 → (∀ r ∈ list.words, r < ldRows d) →
        (∀ p ∈ list.words.zip (list.words.drop 1), p.1 < p.2) →
        (∀ r ∈ streamed d h list.words, ∀ a ∈ pagesOf r.1 r.2, isFaultX (s.m.ctxXlat h.ctx a .load) = false) →
        CompletesOpen .layerUpdateStart s s.m.fresh (fun m => m.hmp.queue = s.m.hmp.queue.erase h ∧ ∃ u : Upd, m.hmp.upd = s.m.hmp.upd ++ [u] ∧
          u.hand = h ∧ u.ctx = h.ctx ∧ u.layer = h.layer ∧ u.desc = d ∧ u.rowlist = list.words ∧ u.pass = 0 ∧ u.next = 0 ∧
          u.running = [] ∧ s.m.stepSize h.ctx h.step = some u.stepSize ∧ u.cores = s.m.freeUpdateCores.take (ldCores d))) ∧
      (∀ (ps : Nat → Place) (q r : Place), ¬ clear → s.m.hmp.queue = [h] → h.coll = 0 → s.m.wordPlaces h.ctx (ldStat d) 8 ps → ApartSelf 8 ps →
        s.m.wordPlaces h.ctx (s.m.layerVa h.ctx h.layer + 104) 1 (fun _ => q) → s.m.recordPlace h.ctx h.completion r →
        (∀ j c, j < 8 → (ps j).covers 8 c → ¬ q.covers 8 c ∧ ¬ r.covers 32 c) → (∀ c, q.covers 8 c → ¬ r.covers 32 c) →
        CompletesOpen .layerUpdateStart s s.m.fresh (fun m => m.hmp.queue = [] ∧ m.hmp.upd = s.m.hmp.upd ∧
          m.readPlace (ps 0) 8 = (h.step * 2 ^ 32 + h.layer) % 2 ^ 64 ∧
          m.readPlace (ps 1) 8 = (if h.gnw / 2 ^ 62 % 2 = 1 then 2 else 1) * 2 ^ 56 ∧
          m.readPlace q 8 = (h.step * 2 ^ 32 + 1) % 2 ^ 64 ∧ HasRecord m r 0 6 0 0 s.m.pilot ∧
          m.getF Reg.HMP_CNT.skipped = (s.m.getF Reg.HMP_CNT.skipped + 1) % 2 ^ 32))) ∧
    (∀ core : Fin 32,
      (s.m.hmp.upd.find? (fun u => u.cores.contains core.val) = none → Does (.chunkThreadStart core) s [] (fun _ => True)) ∧
      (∀ (u0 u : Upd) (t : Nat), s.m.hmp.upd.find? (fun y => y.cores.contains core.val) = some u0 →
        (u = u0 ∨ (u0.next = u0.chunks ∧ u0.running = [] ∧ u0.media = false ∧ u0.lastPass = false ∧
          u = { u0 with pass := u0.pass + 1, next := 0 })) →
        u.next < u.chunks → u.cores.getD (u.next % u.cores.length) 0 = core.val →
        (List.range 8).find? (fun i => !s.m.busy ((2048 + core.val) * 8 + i)) = some t →
        let d := u.desc
        let row := u.rowlist.getD u.next 0
        let n := if ldEmbed d then ldRowLen d else min 2048 (ldNelem d - 2048 * u.next)
        let from_ (i : Nat) : Nat := if ldEmbed d then ldRowLen d * i else 2048 * u.next
        let g := s.m.engRead u.ctx (u.hand.grad + 4 * from_ u.next) 4 n
        let wt := s.m.engRead u.ctx (ldWeight d + 2 * from_ row) 2 n
        let rm : EngRead := if u.lastPass then s.m.engRead u.ctx (ldRem d + from_ row) 1 n
          else { words := List.replicate n 0, bad := false, viols := 0 }
        let mom (j : Nat) : EngRead := s.m.engRead u.ctx (ldMom d j + 4 * from_ row) 4 n
        let k := (2048 + core.val) * 8 + t
        let x := (SMap.get 0 s.m.hmp.rowState ((s.m.rsWindow u.ctx).1 + ldRsBase d + row)).toNat
        let count := if ldEmbed d then (x % 2 ^ 32 + 1) % 2 ^ 32 else 0
        let since := if ldEmbed d && x % 2 ^ 32 != 0 then (u.hand.step + 2 ^ 32 - x / 2 ^ 32) % 2 ^ 32 else 0
        ldNmom d ≤ 4 → n ≤ 2048 →
        (g.bad = false → wt.bad = false → rm.bad = false → (∀ j, j < ldNmom d → (mom j).bad = false) →
          CompletesOpen (.chunkThreadStart core) s s.m.fresh (fun m =>
          (m.th k).run = .running ∧ (m.th k).ctx = u.ctx ∧ (m.th k).ip = BitVec.ofNat 64 (ldProg d) ∧ (m.th k).work = .chunk u.id u.next ∧
          (∀ r, (m.th k).getS r = BitVec.ofNat 64 (([0, ldArg d, u.next, n, windowBase + bufBase t, windowBase + bufBase t + 2 ^ 13,
            windowBase + bufX t, windowBase + bufMom t 0, u.stepSize, u.hand.step, u.hand.cnt, u.pass, count, since, u.layer]).getD r 0)) ∧
          (∀ e, e < n → m.readPlace (.hstore core.val (bufBase t + 4 * e)) 4 = deliverGrad (gnwK u.hand.gnw) (g.words.getD e 0) % 2 ^ 32 ∧
            m.readPlace (.hstore core.val (bufBase t + 2 ^ 13 + 4 * e)) 4 = wEff (wt.words.getD e 0) (rm.words.getD e 0) % 2 ^ 32 ∧
            ∀ j, j < ldNmom d → m.readPlace (.hstore core.val (bufMom t j + 4 * e)) 4 = (mom j).words.getD e 0 % 2 ^ 32) ∧
          (∀ j, j ≠ k → m.th j = s.m.th j))) ∧
        (u = u0 → (g.bad = true ∨ wt.bad = true ∨ rm.bad = true ∨ ∃ j, j < ldNmom d ∧ (mom j).bad = true) →
          CompletesOpen (.chunkThreadStart core) s s.m.fresh (fun m => SameBytes s.m m ∧ Changes [] [.hmp, .memories] s.m m ∧
          m.hmp = { s.m.hmp with upd := s.m.hmp.upd.map (fun y => if y.id = u.id then { y with media := true, next := y.chunks } else y) })))) ∧
    (s.m.hmp.upd.find? Upd.complete = none → Does .layerUpdateEnd s [] (fun _ => True)) ∧
    (∀ (u : Upd) (ps : Nat → Place) (q r : Place), s.m.hmp.upd.find? Upd.complete = some u → u.hand.coll = 0 → s.m.hmp.queue = [] →
      s.m.wordPlaces u.ctx (ldStat u.desc) 8 ps → ApartSelf 8 ps → s.m.wordPlaces u.ctx (s.m.layerVa u.ctx u.layer + 104) 1 (fun _ => q) →
      s.m.recordPlace u.ctx u.hand.completion r → (∀ j c, j < 8 → (ps j).covers 8 c → ¬ q.covers 8 c ∧ ¬ r.covers 32 c) →
      (∀ c, q.covers 8 c → ¬ r.covers 32 c) →
      let es := (List.range u.chunks).flatMap (fun c => ((u.stats.find? (fun x => x.1 == c)).map (fun x => x.2)).getD [])
      let st := layerStats es
      CompletesOpen .layerUpdateEnd s s.m.fresh (fun m => m.hmp.upd = s.m.hmp.upd.filter (fun x => x.id != u.id) ∧
        HasRecord m r (if u.media then 3 else 0) 6 (es.length % 2 ^ 40) 0 s.m.pilot ∧
        m.readPlace (ps 0) 8 = (u.hand.step * 2 ^ 32 + u.layer) % 2 ^ 64 ∧
        m.readPlace (ps 1) 8 / 2 ^ 56 = (if u.media then 5 else 0) ∧ m.readPlace (ps 2) 8 = st.w2 % 2 ^ 64 ∧
        m.readPlace (ps 3) 8 = st.d2 % 2 ^ 64 ∧ m.readPlace q 8 / 2 ^ 32 = u.hand.step % 2 ^ 32 ∧ m.readPlace q 8 % 2 = 1)) ∧
    (∀ b : BlanketMsg,
      let mine (x : BlanketSlot) : Bool := x.owner == b.owner.toNat && x.job == b.job.toNat && x.sidx == b.sidx.toNat
      let used := (s.m.hmp.slots.filter (fun x => !mine x)).foldl (fun n x => n + x.size) 0
      let size := max ((s.m.hmp.slots.find? mine).map (fun x => x.size) |>.getD 0) (shardSpace b)
      let room := used + size ≤ s.m.getF Reg.HMP_BLK_RGN.size * 2 ^ 30
      let ack (ok : Bool) : Output := .blanketAck b.owner.toNat b.job.toNat b.sidx.toNat b.gen.toNat ok
      let back (m : Module) (ok : Bool) : Prop := s.m.reachable b.owner.toNat = true → ack ok ∈ m.out
      (s.m.routeLost b.owner.toNat = true → Does (.blanketCopyArrive b) s [.fab] (fun m => m.fab = { s.m.fab with inbox := m.fab.inbox })) ∧
      (s.m.routeLost b.owner.toNat = false → ¬ room → Completes (.blanketCopyArrive b) s (fun m => m.hmp = s.m.hmp ∧ back m false)) ∧
      (s.m.routeLost b.owner.toNat = false → room → b.full = true → Completes (.blanketCopyArrive b) s (fun m =>
        back m true ∧ ∃ x : BlanketSlot, m.hmp = { s.m.hmp with slots := s.m.hmp.slots.filter (fun x => !mine x) ++ [x] } ∧
          mine x = true ∧ x.size = size ∧
          (if b.gen.toNat % 2 = 1 then x.odd else x.even) = some (blanketHeader b b.units, b.units)))) ∧
    (∀ (c : Fin 64) (e : BitVec 16) (g : BitVec 32) (x : BlanketCopy),
      s.m.hmp.copies.find? (fun y => y.ctx == c.val && y.entry == e.toNat && y.gen == g.toNat) = some x → s.m.coll x.coll = none →
      CompletesOpen (.blanketCopyAck c e g true) s s.m.fresh (fun m => m.hmp.copies = s.m.hmp.copies.filter (fun y => y != x) ∧
        m.getF Reg.HMP_BLK_STAT.unprot = m.hmp.unprot.length % 2 ^ 32 ∧
        m.hmp.unprot = s.m.hmp.unprot.filter (fun y => y != (c.val, e.toNat)) ∧
        m.getF Reg.HMP_BLK_CNT.copies = (s.m.getF Reg.HMP_BLK_CNT.copies + 1) % 2 ^ 32) ∧
      CompletesOpen (.blanketCopyAck c e g false) s s.m.fresh (fun m => m.hmp.copies = s.m.hmp.copies.filter (fun y => y != x) ∧
        m.hmp.unprot.contains (c.val, e.toNat) = true ∧
        m.getF Reg.HMP_BLK_CNT.failed = (s.m.getF Reg.HMP_BLK_CNT.failed + 1) % 2 ^ 16))

/-- O47. 12 R290-R301. That clearing maint leaves HBM undefined is the model's reading (log 51); the bits shifted out are free, and MEM_TP_DATA keeps its bits above the length (log 75); a start that is ignored reads 1 until the next tick (log 74). -/
def Obligations.MemoryMaintenanceHoldsItsChannel : Prop :=
  ∀ (s : State),
    (s.barReady → ∀ (pc : Fin 512) (bank : BitVec 6) (row : BitVec 18) (i : Instr) (op b r : Nat),
      (i, op, b, r) ∈ [(Instr.retrain pc, 1, 0, 0), (.repair pc bank row, 2, bank.toNat, row.toNat)] →
      let o : MaintOp := { op := op, pc := pc.val, bank := b, row := r, running := false }
      let ks := [Reg.MEM_MAINT_CMD.row.key, Reg.MEM_MAINT_STAT.outcome.key]
      let n := s.m.ms.ops.length
      let limit := s.m.ms.ops.any (fun x => x.pc == pc.val) = true ∨ 4 ≤ n
      let st (m : Module) (c : Nat) : Prop := m.getF Reg.MEM_MAINT_STAT.outcome = c
      let more (m : Module) : Prop := st m 0 ∧ m.getF Reg.MEM_MAINT_STAT.active = (s.m.getF Reg.MEM_MAINT_STAT.active + 1) % 2 ^ 8
      (s.m.getF Reg.MEM_CTRL.maint = 1 → Effect i s ks [] (fun m => st m 2)) ∧
      (s.m.getF Reg.MEM_CTRL.maint = 0 → limit → Effect i s ks [] (fun m => st m 1)) ∧
      (s.m.getF Reg.MEM_CTRL.maint = 0 → ¬ limit → s.m.resetMemory (pc.val / 64) = true →
        Effect i s (ks ++ [Reg.MEM_MAINT_STAT.active.key]) [.memories] (fun m => more m ∧ m.ms = { s.m.ms with ops := s.m.ms.ops ++ [o] })) ∧
      (s.m.getF Reg.MEM_CTRL.maint = 0 → ¬ limit → s.m.resetMemory (pc.val / 64) = false →
        Effect i s (ks ++ [Reg.MEM_MAINT_STAT.active.key, (Reg.MEM_HOLD.held (pc.val / 64)).key]) [.memories] (fun m => more m ∧
          m.ms = { s.m.ms with ops := s.m.ms.ops ++ [{ o with running := true }] } ∧
          ∀ q, q < 512 → m.held q = (decide (q = pc.val) || s.m.held q)))) ∧
    (∀ (pc : Fin 512) (res : Fin 4),
      (s.m.ms.ops.find? (fun o => o.pc == pc.val && o.running) = none → Does (.maintOpEnd pc res) s [] (fun _ => True)) ∧
      (∀ o, s.m.ms.ops.find? (fun x => x.pc == pc.val && x.running) = some o → s.m.ms.waiting = [] → s.m.transfers = [] →
        let spares := s.m.getF (Reg.MEM_PPR.spares_free (pc.val / 32))
        let none_ := o.op = 2 ∧ res.val = 0 ∧ spares = 0
        let ended (m : Module) : Prop := (¬ none_ → m.getF Reg.MEM_MAINT_STAT.result = res.val) ∧ (none_ → m.getF Reg.MEM_MAINT_STAT.result = 1) ∧
          m.getF Reg.MEM_MAINT_STAT.done = (s.m.getF Reg.MEM_MAINT_STAT.done + 1) % 2 ^ 32 ∧
          (∀ x ∈ m.ms.ops, x.pc ≠ pc.val)
        (res.val ≠ 3 → Completes (.maintOpEnd pc res) s (fun m => ended m ∧ SameBytes s.m m ∧
          m.getF Reg.MEM_MAINT_STAT.active = (s.m.ms.ops.filter (fun x => x.pc != pc.val)).length % 2 ^ 8 ∧
          (∀ q, q < 512 → m.held q = ((decide (q ≠ pc.val) || s.m.resetMemory (pc.val / 64)) && s.m.held q)) ∧
          (none_ → m.getF (Reg.MEM_PPR.repairs (pc.val / 32)) = s.m.getF (Reg.MEM_PPR.repairs (pc.val / 32))) ∧
          (o.op = 2 → res.val = 0 → spares ≠ 0 → m.getF (Reg.MEM_PPR.repairs (pc.val / 32)) = (s.m.getF (Reg.MEM_PPR.repairs (pc.val / 32)) + 1) % 2 ^ 16 ∧
            m.getF (Reg.MEM_PPR.spares_free (pc.val / 32)) = spares - 1))) ∧
        (res.val = 3 → Completes (.maintOpEnd pc res) s (fun m => ended m ∧ m.ms.failed.contains pc.val = true ∧ m.oos = true)))) ∧
    (∀ (pc : Fin 512) (bank : BitVec 6) (row : BitVec 18) (n : BitVec 16) (bad : Option (BitVec 31)),
      let i := Instr.scrubRow pc bank row n bad
      let k := rowKey pc.val bank.toNat row.toNat
      let old := SMap.get 0 s.m.ms.ceRow k
      let th := s.m.getF Reg.MEM_CTRL.ce_thresh
      (s.m.getF Reg.MEM_CTRL.scrub = 0 ∨ s.m.held pc.val = true → Does i s [] (fun _ => True)) ∧
      (s.m.getF Reg.MEM_CTRL.scrub = 1 → s.m.held pc.val = false → Completes i s (fun m => SameBytes s.m m ∧
        (∀ j, SMap.get 0 m.ms.ceRow j = if j = k then old + n.toNat else SMap.get 0 s.m.ms.ceRow j) ∧
        m.getF Reg.MEM_ERRCNT.corrected = (s.m.getF Reg.MEM_ERRCNT.corrected + n.toNat) % 2 ^ 32 ∧
        (th ≠ 0 → old < th → th ≤ old + n.toNat → s.m.getF Reg.MEM_CELOG.valid = 0 → m.getF Reg.MEM_CELOG.valid = 1 ∧
          m.getF Reg.MEM_CELOG.pc = pc.val ∧ m.getF Reg.MEM_CELOG.bank = bank.toNat ∧ m.getF Reg.MEM_CELOG.row = row.toNat) ∧
        ((th = 0 ∨ th ≤ old ∨ old + n.toNat < th) → m.getF Reg.MEM_CELOG.valid = s.m.getF Reg.MEM_CELOG.valid) ∧
        (bad = none → m.ms.poison = s.m.ms.poison ∧ m.getF Reg.MEM_ERRCNT.uncorrected = s.m.getF Reg.MEM_ERRCNT.uncorrected) ∧
        (∀ x, bad = some x → x.toNat < pcBytes → SMap.get false m.ms.poison (hbmKey pc.val x.toNat / 32) = true ∧
          (SMap.get false s.m.ms.poison (hbmKey pc.val x.toNat / 32) = false →
            m.getF Reg.MEM_ERRCNT.uncorrected = (s.m.getF Reg.MEM_ERRCNT.uncorrected + 1) % 2 ^ 32))))) ∧
    (s.barReady →
      (s.m.otherContexts = true → Effect (.memMaintModeWrite true) s [] [] (fun _ => True)) ∧
      (s.m.otherContexts = false → Effect (.memMaintModeWrite true) s [Reg.MEM_CTRL.maint.key] [] (fun m => m.getF Reg.MEM_CTRL.maint = 1)) ∧
      (s.m.getF Reg.MEM_CTRL.maint = 1 → Effect (.memMaintModeWrite false) s [Reg.MEM_CTRL.maint.key, Reg.LMP_THERMOS.pending.key] [.memories, .lmp, .sq, .free] (fun m => m.sq.subs = s.m.sq.subs ∧ m.sq.probs = s.m.sq.probs ∧ m.sq.runs = s.m.sq.runs ∧
        m.getF Reg.MEM_CTRL.maint = 0 ∧ (∀ u, u < 513 → ∃ w, (u, w) ∈ m.lmp.training) ∧ m.ms.scr = s.m.ms.scr + 1 ∧ m.ms.flash = s.m.ms.flash ∧ ∀ c, c.1 ≠ 0 → m.byteAt c = s.m.byteAt c)) ∧
      (∀ (hold : Bool) (stack : BitVec 4) (len : BitVec 6) (w : BitVec 32),
        let data := s.m.getF Reg.MEM_TP_DATA.data
        let set (m : Module) : Prop := m.getF Reg.MEM_TP_CMD.start = 1 ∧ m.getF Reg.MEM_TP_CMD.hold = (if hold then 1 else 0) ∧ m.getF Reg.MEM_TP_CMD.stack = stack.toNat ∧
          m.getF Reg.MEM_TP_CMD.len_m1 = len.toNat ∧ m.getF Reg.MEM_TP_CMD.instr = w.toNat
        (s.m.getF Reg.MEM_CTRL.maint = 0 ∨ s.m.getF Reg.MEM_TP_CMD.busy = 1 → Completes (.testPortStep hold stack len w) s (fun m => set m ∧
          m.getF Reg.MEM_TP_CMD.busy = s.m.getF Reg.MEM_TP_CMD.busy ∧ SameBytes s.m m)) ∧
        (s.m.getF Reg.MEM_CTRL.maint = 1 → s.m.getF Reg.MEM_TP_CMD.busy = 0 → Completes (.testPortStep hold stack len w) s (fun m => set m ∧
          m.getF Reg.MEM_TP_CMD.busy = 1 ∧ m.ms.scr = s.m.ms.scr + 1 ∧ m.ms.flash = s.m.ms.flash ∧
          m.ms.tpOut.toNat / 2 ^ (len.toNat + 1) = data / 2 ^ (len.toNat + 1) ∧
          (∀ x : Nat, SMap.get TestPort.empty m.ms.tp x = if x = stack.toNat then
            (SMap.get TestPort.empty s.m.ms.tp x).step w.toNat ((List.range (len.toNat + 1)).map (fun i => Nat.testBit data i)) hold
            else SMap.get TestPort.empty s.m.ms.tp x) ∧ ∀ c, c.1 ≠ 0 → m.byteAt c = s.m.byteAt c)))) ∧
    (s.m.getF Reg.MEM_TP_CMD.busy = 0 → Does .testPortStepEnd s [] (fun _ => True)) ∧
    (s.m.getF Reg.MEM_TP_CMD.busy = 1 → Does .testPortStepEnd s [.fields] (fun m => m.getF Reg.MEM_TP_CMD.busy = 0 ∧
      m.getF Reg.MEM_TP_DATA.data = s.m.ms.tpOut.toNat ∧ FieldsBut [Reg.MEM_TP_CMD.busy.key, Reg.MEM_TP_DATA.data.key] s.m m))

/-- O48. 13 R308-R313, R317, R325, R327, R331. -/
def Obligations.FramesArriveInOrderAndAreAcknowledged : Prop :=
  ∀ (s : State) (p : Fin 16) (h : FrameHdr),
    let x := s.m.port p.val
    let heard := 6 ≤ p.val ∨ s.m.getF Reg.FAB_QUAD.in_quad = 0 ∨ s.m.silent (p.val / 2 + 1) = false
    let calm := x.txq = [] ∧ (∀ q, (s.m.port q).joining = false) ∧ s.m.fab.exitAt = none ∧ heard
    let unacked (a : Nat) : List Sent := x.replay.filter (fun f =>
      !(decide (1 ≤ (a + 4096 - f.seq) % 4096) && decide ((a + 4096 - f.seq) % 4096 ≤ 2048)))
    let good (a : Nat) : Port := if unacked a = x.replay then { x with lastGood := s.m.pilot }
      else { x with lastGood := s.m.pilot, replay := unacked a, resends := 0, progressAt := s.m.pilot }
    let now := s.m.pilot
    (s.m.pstate p.val ≠ pActive →
      (∀ i, (∃ pkt w l c, i ∈ [Instr.data p h pkt, .idle p h, .nak p h, .credit p h c, .rescue p h pkt, .oos p h w, .doze p h l, .dozeAck p h]) →
        Does i s [] (fun _ => True)) ∧
      Does (.frameCrcError p) s [.fields] (fun m => m.getF (Reg.FAB_PERR.crc p.val) = (s.m.getF (Reg.FAB_PERR.crc p.val) + 1) % 2 ^ 32 ∧
        FieldsBut [(Reg.FAB_PERR.crc p.val).key] s.m m)) ∧
    (s.m.pstate p.val = pActive → calm →
      (h.ackv = false → Does (.idle p h) s [.fab] (fun m => m.fab = (s.m.setPort p.val { x with lastGood := now }).fab)) ∧
      (h.ackv = true → Does (.idle p h) s [.fab] (fun m => m.port p.val = good h.ack.toNat ∧
        ∀ q, q ≠ p.val → m.port q = s.m.port q)) ∧
      (unacked h.ack.toNat = [] → Does (.nak p h) s [.fab] (fun m => m.port p.val = good h.ack.toNat)) ∧
      (let l := unacked h.ack.toNat
       l ≠ [] → (l ≠ x.replay ∨ x.resends < 8) → Completes (.nak p h) s (fun m => (m.port p.val).replay = l ∧
        m.getF (Reg.FAB_PERR.replays p.val) = (s.m.getF (Reg.FAB_PERR.replays p.val) + 1) % 2 ^ 16 ∧
        ∃ tail, m.out = l.map (fun f => Output.frame p.val f.seq x.expect f.body) ++ tail)) ∧
      (unacked h.ack.toNat = x.replay → x.replay ≠ [] → 8 ≤ x.resends → Completes (.nak p h) s (fun m => m.pstate p.val = pRetrain ∧
        (m.port p.val).replay = x.replay ∧
        m.getF (Reg.FAB_PERR.retrains p.val) = (s.m.getF (Reg.FAB_PERR.retrains p.val) + 1) % 2 ^ 16)) ∧
      (∀ c, h.ackv = false → Does (.credit p h c) s [.fab] (fun m =>
        m.port p.val = { x with lastGood := now, got := c.map BitVec.toNat } ∧ ∀ q, q ≠ p.val → m.port q = s.m.port q)) ∧
      (x.nakAt = none → Completes (.frameCrcError p) s (fun m => m.out = [.frame p.val 0 x.expect .nak] ∧ (m.port p.val).nakAt = some now ∧
        m.getF (Reg.FAB_PERR.crc p.val) = (s.m.getF (Reg.FAB_PERR.crc p.val) + 1) % 2 ^ 32)) ∧
      (x.nakAt ≠ none → Does (.frameCrcError p) s [.fields] (fun m => FieldsBut [(Reg.FAB_PERR.crc p.val).key] s.m m)) ∧
      (h.ackv = false →
        let due := some (x.ackDue.getD now)
        let seq := h.seq.toNat
        let inOrder := seq = x.expect
        let behind := ¬ inOrder ∧ (x.expect + 4096 - seq) % 4096 ≤ 2048
        let ahead := ¬ inOrder ∧ ¬ behind
        let got : Port := { x with lastGood := now, expect := (x.expect + 1) % 4096, nakAt := none, ackDue := due }
        let vc := h.vc.toNat
        ∀ (pkt : Packet) (w : Word),
          let freed (v : Nat) : Port := { got with freed := listAdd x.freed v (packetUnits pkt) }
          let handled (i : Instr) : Prop := Completes i s (fun m => ∃ m0 : Module, m = m0.handlePacket true false vc pkt ∧
            m0.fab = (s.m.setPort p.val (freed vc)).fab ∧ SameBytes s.m m0)
          (∀ i ∈ [Instr.data p h pkt, .rescue p h pkt, .oos p h w],
            (behind → Does i s [.fab] (fun m => m.fab = (s.m.setPort p.val { x with lastGood := now, ackDue := due }).fab)) ∧
            (ahead → x.nakAt = none → Does i s [.fab] (fun m => m.out = [.frame p.val 0 x.expect .nak] ∧
              m.fab = (s.m.setPort p.val { x with lastGood := now, nakAt := some now, lastSent := now, ackDue := none }).fab))) ∧
          (inOrder → handled (.data p h pkt)) ∧
          (inOrder →
            let last := (s.m.portFrom p.val h.oport.toNat).bind (fun q =>
              if s.m.pstate q = pRetrain then some (((s.m.port q).expect + 4095) % 4096) else (s.m.port q).downSeq)
            ((∀ d, last = some d → 2048 ≤ (d + 4096 - h.oseq.toNat) % 4096) → handled (.rescue p h pkt)) ∧
            (∀ d, last = some d → (d + 4096 - h.oseq.toNat) % 4096 < 2048 → Completes (.rescue p h pkt) s (fun m =>
              m.fab = (s.m.setPort p.val (freed vc)).fab ∧ SameBytes s.m m))) ∧
          (let dst := pkt.dst.toNat
           let drops (f : Fld) : Prop := Completes (.data p h pkt) s (fun m => m.getF f = (s.m.getF f + 1) % 2 ^ f.width ∧
            m.fab = (s.m.setPort p.val (freed vc)).fab)
           inOrder →
            (s.m.routeLost pkt.src.toNat = true → drops Reg.FAB_DROP.lost) ∧
            (s.m.routeLost pkt.src.toNat = false →
              (dst = s.m.myId → Completes (.data p h pkt) s (fun m => m.fab.inbox = s.m.fab.inbox ++ [(vc, pkt)])) ∧
              (dst ≠ s.m.myId → s.m.routeLost dst = true → drops Reg.FAB_DROP.lost) ∧
              (dst ≠ s.m.myId → s.m.routeLost dst = false → s.m.routeValid dst = false → drops Reg.FAB_DROP.noroute) ∧
              (dst ≠ s.m.myId → s.m.routeLost dst = false → s.m.routeValid dst = true → pkt.hops = 0 → drops Reg.FAB_DROP.hop) ∧
              (∀ q, dst ≠ s.m.myId → s.m.routeLost dst = false → s.m.routeValid dst = true → pkt.hops ≠ 0 → q ≠ p.val →
                s.m.portsIn (s.m.routePorts dst) pActive = [q] → s.m.flowHeld vc pkt = false → s.m.rescueWait vc pkt = false →
                s.m.flowStuck q vc pkt = false → (s.m.port q).txq = [] →
                s.m.fab.noData = false → packetUnits pkt ≤ (s.m.port q).credit vc → (s.m.port q).replay.length < 2048 →
                Completes (.data p h pkt) s (fun m => (m.port q).replay = (s.m.port q).replay ++
                  [{ seq := (s.m.port q).nextSeq, body := .data vc { pkt with hops := pkt.hops - 1 } }] ∧
                  m.fab.inbox = s.m.fab.inbox ∧ m.fab.held = s.m.fab.held)))) ∧
          (inOrder →
            let dev := w.toNat / 2 ^ 48
            let inc := w.toNat / 2 ^ 32 % 2 ^ 16
            (s.m.knownLost dev inc = true → Does (.oos p h w) s [.fab] (fun m => m.fab = (s.m.setPort p.val got).fab)) ∧
            (s.m.knownLost dev inc = false →
              (dev ≠ s.m.myId → Completes (.oos p h w) s (fun m => m.routeLost dev = true ∧ m.routeLostInc dev = inc ∧
                m.getF Reg.FAB_LOST.device = dev ∧ m.getF Reg.FAB_LOST.valid = 1)) ∧
              (dev = s.m.myId → inc = s.m.getF Reg.FAB_DEVID.incarnation → Completes (.oos p h w) s (fun m =>
                (∀ q, q < 16 → m.pstate q = pDark) ∧ m.fab.noData = true ∧ m.getF Reg.FAB_LOST.device = dev))))))

/-- O49. 13 R309-R323, R333-R336. The timers move PILOT to the due tick; the nonce is free, the identity keys come from the device secret (log 3), and signatures and certificates are free functions (log 13); a word stands for the training values of a lane (log 55). That HELLO_SEND sends PROOF and DOZE again is log 72 (DESIGN CHOICE); fragments and the order of the causes are log 34 (DEDUCED). -/
def Obligations.PortsTrainProveDozeAndRecover : Prop :=
  ∀ (s : State) (p : Fin 16),
    let x := s.m.port p.val
    let st := s.m.pstate p.val
    let heard := 6 ≤ p.val ∨ s.m.getF Reg.FAB_QUAD.in_quad = 0 ∨ s.m.silent (p.val / 2 + 1) = false
    let calm := x.txq = [] ∧ (∀ q, (s.m.port q).joining = false) ∧ s.m.fab.exitAt = none ∧ heard
    let still := s.m.fab.held = [] ∧ ∀ q, (s.m.port q).txq = []
    let proofs (out got : Lantern) : List Output :=
      let stream := s.m.proofStream (helloDigest out got)
      let n := (stream.length + 179) / 180
      (List.range n).map (fun i => Output.frame p.val 0 x.expect (.lantern 2 { s.m.lanternOf p.val (s.m.lanternFlags p.val) [] with
        frag := BitVec.ofNat 16 (i % 256 * 256 + n % 256), data := padBytes 180 (stream.drop (180 * i)) }))
    let put (y : Port) : Fab := (s.m.setPort p.val y).fab
    let same (i : Instr) : Prop := Does i s [] (fun m => m.out = [])
    let due (m : Module) (t : Nat) : Prop := m.pilot = max s.m.pilot t
    let idle (m : Module) : Prop := Output.frame p.val 0 x.expect .idle ∈ m.out
    let unacked (a : Nat) : List Sent := x.replay.filter (fun f =>
      !(decide (1 ≤ (a + 4096 - f.seq) % 4096) && decide ((a + 4096 - f.seq) % 4096 ≤ 2048)))
    let trains (m : Module) : Prop := ∃ t sram dirty, m.lmp = { s.m.lmp with training := t, sram := sram, dirty := dirty } ∧
      (∀ u ∈ laneUnits p.val, ∃ w, (u, w) ∈ t) ∧ ∀ e, e.1 ∉ laneUnits p.val → (e ∈ t ↔ e ∈ s.m.lmp.training)
    let noQuad := 6 ≤ p.val ∨ s.m.getF Reg.FAB_QUAD.in_quad = 0
    let dozes (i : Instr) (q : Module → Prop) : Prop :=
      s.m.fab.held = [] → (s.m.getF Reg.PWR_STATE.entering = 0 ∨ 3 ≤ s.m.getF Reg.PWR_STATE.target) → Completes i s (fun m => m.pstate p.val = pDoze ∧ q m)
    (∀ (i : Instr) (n : Nat), (∃ l w c, (i, n) ∈ [(Instr.portTrainEnd p w, pTrain), (.hello p l, pHello), (.proof p l, pVerify),
        (.dozeTimeout p, pActive), (.replayTimeout p, pActive), (.keepaliveSend p, pActive), (.ackSend p, pActive), (.creditSend p, pActive),
        (.receiveSilence p, pActive), (.portRetrainEnd p c, pRetrain), (.failedRetry p, pFailed), (.kindleBurst p, pDoze)]) →
      st ≠ n → same i) ∧
    (st ≠ pHello → st ≠ pVerify → (st ≠ pActive ∨ x.dozeSent = none) → same (.helloSend p)) ∧
    (st = pVerify → x.helloOut = none → same (.helloSend p)) ∧
    (∀ l, st = pVerify → x.helloOut = some l → Does (.helloSend p) s [.fab] (fun m =>
      m.out = Output.frame p.val 0 x.expect (.lantern 1 l) :: (match x.helloIn with | some g => proofs l g | none => []))) ∧
    (∀ t deep, st = pActive → x.dozeSent = some (t, deep) → Does (.helloSend p) s [.fab] (fun m =>
      m.out = [.frame p.val 0 x.expect (.lantern 3 { s.m.lanternOf p.val (s.m.lanternFlags p.val + if deep then 32 else 0) [] with
        detect := if deep then 0x1111#16 else 0xFFFF#16 })])) ∧
    (s.m.portEnabled p.val = false → same (.portSignalDetect p)) ∧
    (st = pDark → s.m.outOfFabric = true → same (.portSignalDetect p)) ∧
    (s.m.portEnabled p.val = true → ((st = pDark ∧ s.m.outOfFabric = false) ∨ st = pDetect ∨ (st = pDoze ∧ s.m.dozing = false)) →
      Does (.portSignalDetect p) s [.fields, .fab] (fun m => m.pstate p.val = pTrain ∧ (m.port p.val).tries = 0)) ∧
    (st = pTrain →
      (∀ i : Fin 3, Does (.portTrainEnd p (some i)) s [.fields, .fab, .free, .lmp] (fun m => m.pstate p.val = pHello ∧ trains m ∧
        m.getF (Reg.FAB_PSTAT.width p.val) = 2 ^ i.val ∧ ∃ nonce : List Byte, nonce.length = 32 ∧
          let l := m.lanternOf p.val (m.lanternFlags p.val) nonce
          m.out = [.frame p.val 0 x.expect (.lantern 1 l)] ∧ (m.port p.val).helloOut = some l)) ∧
      (x.tries < 2 → Does (.portTrainEnd p none) s [.fab] (fun m => m.fab = put { x with tries := x.tries + 1 })) ∧
      (2 ≤ x.tries → Completes (.portTrainEnd p none) s (fun m => m.pstate p.val = pFailed ∧ m.getF (Reg.FAB_PSTAT.cause p.val) = 1 ∧
        (m.port p.val).failedAt = s.m.pilot))) ∧
    (st = pFailed → (s.m.getF (Reg.FAB_PSTAT.cause p.val) ≠ 1 → same (.failedRetry p)) ∧
      (s.m.getF (Reg.FAB_PSTAT.cause p.val) = 1 → Completes (.failedRetry p) s (fun m => m.pstate p.val = pDetect ∧
        due m (x.failedAt + 25000000) ∧ m.getF (Reg.FAB_PNBR.valid p.val) = 0))) ∧
    (st = pHello → (x.helloOut = none → same (.helloSend p)) ∧
      (∀ l, x.helloOut = some l → Does (.helloSend p) s [.fab] (fun m =>
        m.out = [.frame p.val 0 x.expect (.lantern 1 (s.m.lanternOf p.val (s.m.lanternFlags p.val) l.nonce))])) ∧
      ∀ l : Lantern,
        let f := l.flags.toNat
        let recorded (m : Module) : Prop := m.getF (Reg.FAB_PNBR.valid p.val) = 1 ∧ m.getF (Reg.FAB_PNBR.port p.val) = l.port.toNat % 16 ∧
          m.getF (Reg.FAB_PNBR.assigned p.val) = f % 2 ∧ m.getF (Reg.FAB_PNBR.in_quad p.val) = f / 2 % 2 ∧
          m.getF (Reg.FAB_PNBR.qpos p.val) = f / 4 % 4 ∧ m.getF (Reg.FAB_PNBR.incarnation p.val) = l.incarnation.toNat ∧
          m.getF (Reg.FAB_PNBR.device p.val) = l.device.toNat
        let proves := f % 2 = 1 ∧ s.m.getF Reg.FAB_DEVID.assigned = 1 ∧ s.m.dozing = false
        (∀ c, s.m.helloCause p.val l = some c → Completes (.hello p l) s (fun m => recorded m ∧ m.pstate p.val = pFailed ∧
          m.getF (Reg.FAB_PSTAT.cause p.val) = c)) ∧
        (s.m.helloCause p.val l = none → (x.helloOut = none ∨ f % 2 = 0 ∨ s.m.getF Reg.FAB_DEVID.assigned = 0 ∨
            (s.m.getF Reg.PWR_STATE.entering = 0 ∧ 3 ≤ s.m.getF Reg.PWR_STATE.state)) →
          Completes (.hello p l) s (fun m => recorded m ∧ m.pstate p.val = pHello ∧ (m.port p.val).helloIn = some l)) ∧
        (∀ out, s.m.helloCause p.val l = none → x.helloOut = some out → proves →
          let known := Nat.testBit out.flags.toNat 4 = true ∧ Nat.testBit f 4 = true ∧ padBytes 16 out.tag = padBytes 16 l.tag ∧
            x.tagFor = some (s.m.tagEnds l)
          (known → Completes (.hello p l) s (fun m => recorded m ∧ m.pstate p.val = pActive ∧ (still → (m.port p.val).nextSeq = 0 ∧
            (m.port p.val).expect = 0 ∧ (m.port p.val).replay = []) ∧ (m.port p.val).init = l.credit.map BitVec.toNat)) ∧
          (¬ known → Completes (.hello p l) s (fun m => recorded m ∧ m.pstate p.val = pVerify ∧
            ∃ head, m.out = head ++ proofs out l)))) ∧
    (st = pVerify → ∀ l : Lantern,
      let frags := x.proofIn.filter (fun e => e.1 != l.frag.toNat / 256) ++ [(l.frag.toNat / 256, padBytes 180 l.data)]
      let whole := proofWhole frags (l.frag.toNat % 256)
      (whole = none → Does (.proof p l) s [.fab] (fun m => m.fab = put { x with proofIn := frags })) ∧
      (∀ stream out got, whole = some stream → x.helloOut = some out → x.helloIn = some got →
        let dOut := helloDigest out got
        let mine := padBytes 64 (Config.ed25519Sign s.m.idKeys.ed dOut) ++ padBytes 3309 (Config.mldsaSign s.m.idKeys.pq dOut)
        (∀ sigs, proofOk stream (helloDigest got out) = some sigs → Completes (.proof p l) s (fun m => m.pstate p.val = pActive ∧
          (m.port p.val).tag = sessionTag s.m.myId got.device.toNat dOut (helloDigest got out) mine sigs ∧
          (m.port p.val).tagFor = some (s.m.tagEnds got) ∧ (still → (m.port p.val).nextSeq = 0 ∧ (m.port p.val).replay = []))) ∧
        (proofOk stream (helloDigest got out) = none → Completes (.proof p l) s (fun m => m.pstate p.val = pFailed ∧
          m.getF (Reg.FAB_PSTAT.cause p.val) = 2 ∧ (m.source 114).count = min 65535 ((s.m.source 114).count + 1))))) ∧
    (st = pActive → calm →
      (∀ (h : FrameHdr) (l : Lantern), h.ackv = false →
        dozes (.doze p h l) (fun m => (m.port p.val).nbrKindle = Nat.testBit l.flags.toNat 5 ∧ (m.port p.val).nbrDetect = l.detect.toNat ∧
          ∃ tail, m.out = .frame p.val 0 x.expect (.lantern 4 (s.m.lanternOf p.val (s.m.lanternFlags p.val) [])) :: tail) ∧
        (x.dozeSent.isSome = true → dozes (.dozeAck p h) (fun _ => True)) ∧
        (x.dozeSent = none → Does (.dozeAck p h) s [.fab] (fun m => m.fab = put { x with lastGood := s.m.pilot }))) ∧
      (x.dozeSent = none → same (.dozeTimeout p)) ∧
      (∀ t b, x.dozeSent = some (t, b) → dozes (.dozeTimeout p) (fun m => due m (t + 2500))) ∧
      (x.replay = [] → same (.replayTimeout p)) ∧
      (x.replay ≠ [] → x.resends < 8 → Completes (.replayTimeout p) s (fun m => due m (x.progressAt + 250) ∧
        (m.port p.val).replay = x.replay ∧ (m.port p.val).resends = x.resends + 1 ∧ ∃ a b, m.out =
          a ++ x.replay.map (fun f => Output.frame p.val f.seq x.expect f.body) ++ b)) ∧
      (x.replay ≠ [] → 8 ≤ x.resends → Completes (.replayTimeout p) s (fun m => due m (x.progressAt + 250) ∧ m.pstate p.val = pRetrain ∧
        m.getF (Reg.FAB_PERR.retrains p.val) = (s.m.getF (Reg.FAB_PERR.retrains p.val) + 1) % 2 ^ 16)) ∧
      Completes (.keepaliveSend p) s (fun m => due m (x.lastSent + 50) ∧ idle m ∧ m.pstate p.val = pActive ∧
        m.port p.val = { x with lastSent := m.pilot, ackDue := none }) ∧
      (x.ackDue = none → same (.ackSend p)) ∧
      (x.ackDue ≠ none → Does (.ackSend p) s [.fab] (fun m => idle m ∧ m.fab = put { x with lastSent := s.m.pilot, ackDue := none })) ∧
      Does (.creditSend p) s [.fab] (fun m => m.out = [.frame p.val 0 x.expect (.credit x.freed)] ∧
        m.fab = put { x with lastSent := s.m.pilot, ackDue := none }) ∧
      Completes (.receiveSilence p) s (fun m => due m (x.lastGood + 500) ∧ m.pstate p.val = pRetrain ∧ (m.port p.val).replay = x.replay ∧
        m.getF (Reg.FAB_PERR.retrains p.val) = (s.m.getF (Reg.FAB_PERR.retrains p.val) + 1) % 2 ^ 16)) ∧
    (st = pActive → p.val < 6 → s.m.getF Reg.FAB_QUAD.in_quad = 1 → s.m.silent (p.val / 2 + 1) = true →
      (∀ q ∈ partnerPorts (p.val / 2 + 1), q ≠ p.val → s.m.pstate q ≠ pActive) →
      ∀ q, s.m.partnerPort (p.val / 2 + 1) = some q → Completes (.receiveSilence p) s (fun m =>
        m.pstate p.val = pRetrain ∧ m.routeLost (s.m.getF (Reg.FAB_PNBR.device q)) = true)) ∧
    (x.nakAt = none → same (.nakHoldoffExpiry p)) ∧
    (∀ t, x.nakAt = some t → Completes (.nakHoldoffExpiry p) s (fun m => due m (t + 250) ∧ m.port p.val = { x with nakAt := none })) ∧
    (st = pRetrain → calm →
      (∀ a : BitVec 12, still → Completes (.portRetrainEnd p (some a)) s (fun m => m.pstate p.val = pActive ∧ idle m ∧ trains m ∧
        (m.port p.val).replay = unacked a.toNat ∧ ∀ f ∈ unacked a.toNat, Output.frame p.val f.seq x.expect f.body ∈ m.out)) ∧
      (let lost (q : Module → Prop) : Prop := Completes (.portRetrainEnd p none) s (fun m => m.pstate p.val = pDetect ∧
        m.getF (Reg.FAB_PSTAT.cause p.val) = 6 ∧ m.getF (Reg.FAB_PNBR.valid p.val) = 0 ∧
        (m.port p.val).downSeq = some ((x.expect + 4095) % 4096) ∧ q m)
       let rest := (s.m.bundle p.val).filter (fun q => q != p.val && s.m.pstate q == pActive)
       noQuad → s.m.fab.held = [] → (x.replay = [] → lost (fun _ => True)) ∧
        ∀ f v k q, x.replay = [f] → f.body = .data v k → rest = [q] → (s.m.port q).txq = [] → s.m.fab.noData = false →
          packetUnits k ≤ (s.m.port q).credit v → (s.m.port q).replay.length < 2048 → lost (fun m =>
            (m.port q).replay = (s.m.port q).replay ++ [{ seq := (s.m.port q).nextSeq, body := .rescue v p.val f.seq k }]))) ∧
    (let wakes := st = pDoze ∧ x.wakeAt ≠ none ∧ x.nbrKindle = true ∧ Nat.testBit x.nbrDetect (s.m.getF (Reg.FAB_PNBR.port p.val)) = true
     (wakes → Does (.kindleBurst p) s [] (fun m => m.out = [.kindle p.val])) ∧ (¬ wakes → same (.kindleBurst p))) ∧
    (x.wakeAt = none → same (.wakeNeighbourTimeout p)) ∧
    (∀ t, x.wakeAt = some t →
      ((∃ q ∈ s.m.bundle p.val, s.m.pstate q = pActive) → Does (.wakeNeighbourTimeout p) s [.fab] (fun m =>
        m.fab = put { x with wakeAt := none })) ∧
      ((∀ q ∈ s.m.bundle p.val, s.m.pstate q ≠ pActive) → noQuad → s.m.fab.held = [] → Completes (.wakeNeighbourTimeout p) s (fun m =>
        due m (t + 25000000) ∧ m.pstate p.val = pFailed ∧ m.getF (Reg.FAB_PSTAT.cause p.val) = 1 ∧ (m.port p.val).wakeAt = none)))

/-- O50. 13 R318, R324, R325, R328-R331, R334, R338. The timers move PILOT to the due tick. -/
def Obligations.SidebandAndFabricRegisters : Prop :=
  ∀ (s : State),
    let due (m : Module) (t : Nat) : Prop := m.pilot = max s.m.pilot t
    let same (i : Instr) : Prop := Does i s [] (fun _ => True)
    ((∀ h ∈ s.m.fab.held, s.m.portsIn (s.m.routePorts h.2.dst.toNat) pActive = []) → same .heldPacketSend) ∧
    (∀ vc k q, s.m.fab.held = [(vc, k)] → s.m.routeLost k.src.toNat = false → k.dst.toNat ≠ s.m.myId → s.m.routeLost k.dst.toNat = false →
      s.m.routeValid k.dst.toNat = true → s.m.portsIn (s.m.routePorts k.dst.toNat) pActive = [q] → (s.m.port q).txq = [] →
      s.m.rescueWait vc k = false → s.m.flowStuck q vc k = false → (∀ r, (s.m.port r).joining = false) → s.m.fab.noData = false → packetUnits k ≤ (s.m.port q).credit vc → (s.m.port q).replay.length < 2048 →
      Completes .heldPacketSend s (fun m => m.fab.held = [] ∧
        (m.port q).replay = (s.m.port q).replay ++ [{ seq := (s.m.port q).nextSeq, body := .data vc k }])) ∧
    (∀ (p : Fin 16) (light : Bool),
      let ps := s.m.getF Reg.PWR_STATE.state
      let heldIf (c : Prop) (m : Module) : Prop := FieldsBut [Reg.EVC_GATE.lhold.key] s.m m ∧ (c → m.getF Reg.EVC_GATE.lhold = 1) ∧
        (¬ c → m.getF Reg.EVC_GATE.lhold = s.m.getF Reg.EVC_GATE.lhold)
      let hears := (ps = 4 ∧ p.val % 4 = 0 ∧ light = false) ∨ (ps = 3 ∧ s.m.pstate p.val = pDoze)
      s.m.getF Reg.PWR_STATE.entering = 0 →
        (s.m.getF Reg.FAB_CTRL.kindle_en = 0 ∨ ¬ hears → same (.kindleDetect p light)) ∧
        (s.m.getF Reg.FAB_CTRL.kindle_en = 1 → hears → s.m.pwr.wake = none → Does (.kindleDetect p light) s [.fields, .pwr] (fun m => heldIf (ps = 4) m ∧
          m.pwr = { s.m.pwr with wake := some (4, p.val, s.m.pilot), wakeN := s.m.pwr.wakeN || ps == 4,
                                 rails := raiseRails s.m.pilot s.m.pwr.rails }))) ∧
    (let runs := s.m.aliveRuns = true ∧ s.m.fab.toggledAt + 25000 ≤ s.m.fab.beatAt + 100000
     (¬ runs → same .aliveToggle) ∧
     (runs → Completes .aliveToggle s (fun m => due m (s.m.fab.toggledAt + 25000) ∧ m.fab.toggledAt = m.pilot ∧
      ∀ j, SMap.get false m.fab.level j = if 1 ≤ j ∧ j ≤ 3 then !SMap.get false s.m.fab.level j else SMap.get false s.m.fab.level j))) ∧
    (∀ j : Fin 3,
      let n := j.val + 1
      let others (m : Module) : Prop := ∀ i, 1 ≤ i → i ≤ 3 → i ≠ n → m.silent i = s.m.silent i
      (s.m.getF Reg.FAB_QUAD.in_quad = 0 → same (.aliveEdge j) ∧ same (.aliveSilence j)) ∧
      (s.m.getF Reg.FAB_QUAD.in_quad = 1 →
        Does (.aliveEdge j) s [.fields, .fab] (fun m => m.silent n = false ∧ others m ∧
          (∀ i, SMap.get 0 m.fab.edgeAt i = if i = n then s.m.pilot else SMap.get 0 s.m.fab.edgeAt i) ∧
          FieldsBut [Reg.FAB_QUAD.silent.key] s.m m) ∧
        (s.m.silent n = true → same (.aliveSilence j)) ∧
        (s.m.silent n = false →
          let went (m : Module) : Prop := m.silent n = true ∧ others m ∧ due m (SMap.get 0 s.m.fab.edgeAt n + 125000)
          ((∃ p ∈ partnerPorts n, s.m.pstate p = pActive) → Completes (.aliveSilence j) s (fun m => went m ∧ m.fab = s.m.fab ∧
            (m.source 113).count = min 65535 ((s.m.source 113).count + 1))) ∧
          ((∀ p ∈ partnerPorts n, s.m.pstate p ≠ pActive) →
            (s.m.partnerPort n = none → Completes (.aliveSilence j) s (fun m => went m ∧ m.fab = s.m.fab)) ∧
            (∀ p, s.m.partnerPort n = some p → Completes (.aliveSilence j) s (fun m => went m ∧
              m.routeLost (s.m.getF (Reg.FAB_PNBR.device p)) = true)))))) ∧
    Does .lamplighterBeat s [.fab] (fun m => m.fab = { s.m.fab with beatAt := s.m.pilot }) ∧
    (s.barReady →
      (∀ dev inc : BitVec 16, Completes (.fabDeclare dev inc) s (fun m => m.routeLost dev.toNat = true ∧ m.routeLostInc dev.toNat = inc.toNat ∧
        m.routeValid dev.toNat = s.m.routeValid dev.toNat ∧ m.routePorts dev.toNat = s.m.routePorts dev.toNat ∧
        m.getF Reg.FAB_LOST.valid = 1 ∧ m.getF Reg.FAB_LOST.device = dev.toNat ∧ m.getF Reg.FAB_LOST.incarnation = inc.toNat ∧
        m.getF Reg.FAB_LOST.cause = 2)) ∧
      (let i := s.m.getF Reg.FAB_RT_ADDR.index
       Effect (.fabRtDataAccess none) s [Reg.FAB_RT_ADDR.index.key] [.capture] (fun m => Output.readData (s.m.route i) ∈ m.out ∧
         m.getF Reg.FAB_RT_ADDR.index = (i + 1) % 2 ^ 16) ∧
       ∀ v : Word, Completes (.fabRtDataAccess (some v)) s (fun m => m.getF Reg.FAB_RT_ADDR.index = (i + 1) % 2 ^ 16 ∧
         ∀ d, m.route d = if d = i then (v &&& 0xC000FFFF0000FFFF#64).toNat else s.m.route d)) ∧
      (∀ p : Fin 16,
        let i := Instr.portRetrainRequest p
        (s.m.pstate p.val = pFailed → Completes i s (fun m => m.pstate p.val = pDetect ∧ m.getF (Reg.FAB_PNBR.valid p.val) = 0)) ∧
        (s.m.pstate p.val = pActive → (6 ≤ p.val ∨ s.m.getF Reg.FAB_QUAD.in_quad = 0 ∨ s.m.silent (p.val / 2 + 1) = false) →
          Completes i s (fun m => m.pstate p.val = pRetrain ∧ m.port p.val = s.m.port p.val ∧
          m.getF (Reg.FAB_PERR.retrains p.val) = (s.m.getF (Reg.FAB_PERR.retrains p.val) + 1) % 2 ^ 16)) ∧
        (s.m.pstate p.val ≠ pFailed → s.m.pstate p.val ≠ pActive → Effect i s [(Reg.FAB_PSTAT.retrain p.val).key] [] (fun m =>
          m.getF (Reg.FAB_PSTAT.retrain p.val) = 1))) ∧
      (∀ v : Word,
        ((∀ p, p < 16 → s.m.pstate p ≠ pVerify ∧ s.m.pstate p ≠ pActive) →
          Effect (.fabDevidWrite v) s [Reg.FAB_DEVID.assigned.key, Reg.FAB_DEVID.id.key] [.lmp] (fun m =>
            m.getF Reg.FAB_DEVID.assigned = v.toNat / 2 ^ 63 ∧ m.getF Reg.FAB_DEVID.id = v.toNat % 2 ^ 16)) ∧
        ((∃ p, p < 16 ∧ (s.m.pstate p = pVerify ∨ s.m.pstate p = pActive)) → Effect (.fabDevidWrite v) s [] [] (fun _ => True)))) ∧
    (s.m.fab.exitAt = none → same .oosAckTimeout) ∧
    (∀ t, s.m.fab.exitAt = some t → Completes .oosAckTimeout s (fun m => due m (t + 25000) ∧ (∀ p, p < 16 → m.pstate p = pDark) ∧
      m.fab.exitAt = none ∧ m.fab.aliveOn = false))

/-- O51. 14 R343-R350, R365, R368. Stated for source elements that can be read and a destination that lies in one run outside HBM; messages are named by content (log 45). -/
def Obligations.CollectivesMeetAndMoveData : Prop :=
  ∀ (s : State),
    (∀ (th : ThreadId) (w : Word), s.issues .xColl th w = true → s.m.subHeld = true → Leaves (.xColl th w) s th (s.thread th)) ∧
    (∀ (th : ThreadId) (w : Word), s.issues .xColl th w = true → s.m.subHeld = false → (s.issuing th).drained (ThreadId.key th) = true →
      (s.thread th).deferred = [] → (s.thread th).ctx < 64 →
      let t := s.thread th
      let va := (t.getS (Word.ra w)).toNat
      let mi := s.issuing th
      let i := Instr.xColl th w
      let retires (code : Nat) (p : Module → Prop) : Prop :=
        CompletesOpen i s mi (fun m => m.th (ThreadId.key th) = s.withCode th w code ∧ SameBytes s.m m ∧ p m)
      let refused (code : Nat) (p : Module → Prop) : Prop := retires code (fun m => m.cp = s.m.cp ∧ p m ∧
        m.getF Reg.FAB_CP_REFUSED.count = (s.m.getF Reg.FAB_CP_REFUSED.count + 1) % 2 ^ 48)
      let viol := refused 2 (fun m => Violates s.m m t.ctx 2 va)
      let accepts := s.m.oos = false ∧ s.m.getF Reg.FAB_CP_CTRL.accept = 1
      let d := mi.descRead t.ctx va 8
      let g := d.1.getD 0 0 % 2 ^ 48
      let h := mi.engRead t.ctx g 8 1
      let n := h.words.getD 0 0 / 2 ^ 48 + 1
      let r := mi.engRead t.ctx (g + 8) 8 ((n + 3) / 4)
      let members := groupOf n r.words
      let clean := h.viols = 0 ∧ r.viols = 0 ∧ h.words.getD 0 0 % 2 ^ 48 = 0 ∧ (n % 4 = 0 ∨ r.words.getD (n / 4) 0 / 2 ^ (16 * (n % 4)) = 0)
      let once := (members.filter (fun x => x == s.m.myId)).length = 1
      (¬ accepts → refused 3 (fun _ => True)) ∧
      (accepts → va % 64 ≠ 0 → viol) ∧
      (accepts → va % 64 = 0 →
        (d.2.1 = true → refused 4 (fun _ => True)) ∧
        (d.2.1 = false → d.2.2 = true → viol) ∧
        (d.2.1 = false → d.2.2 = false → g % 64 ≠ 0 → viol) ∧
        (d.2.1 = false → d.2.2 = false → g % 64 = 0 →
          (h.bad = true ∨ r.bad = true → refused 4 (fun _ => True)) ∧
          (h.bad = false → r.bad = false → ¬ (clean ∧ once ∧ collValid d.1 n = true) → viol) ∧
          (h.bad = false → r.bad = false → clean → once → collValid d.1 n = true →
            (4096 ≤ s.m.cp.colls.length → refused 1 (fun _ => True)) ∧
            (s.m.cp.colls.length < 4096 → retires 0 (fun m => m.cp.colls.length = s.m.cp.colls.length + 1 ∧
              m.getF Reg.FAB_CP_QUEUE.queued = s.m.cp.colls.length + 1 ∧ ∃ x ∈ m.cp.colls, x.id = s.m.cp.nextId ∧ x.ctx = t.ctx ∧
                x.words = d.1 ∧ x.group = members ∧ x.seq = s.m.nextSeq t.ctx members ∧ x.met = false ∧
                (let ep := s.m.getF (Reg.FAB_CP_EP.epoch t.ctx)
                 s.m.cp.colls = [] →
                  (x.epoch < ep → x.status = some sEpochStale) ∧ (ep < x.epoch → x.started = false ∧ x.status = none) ∧
                  (x.epoch = ep → x.op ∉ [opGrad, opGather, opUnpin, opPermute] →
                    (∀ y ∈ members, s.m.fab.snuffed.contains (s.m.jobOf t.ctx, y) = false) → x.started = true ∧ x.status = none ∧
                    x.live0 = s.m.liveRanks x ∧ ∀ k ∈ s.m.others x, s.m.activeTo (members.getD k 0) →
                      Output.coll 6 (members.getD k 0) (s.m.jobOf t.ctx) members (meetMsg x 0) ∈ m.out))))))) ) ∧
    (∀ i id, (i, id) ∈ [(Instr.allreduce id, id), (.reduceScatter id, id), (.allgather id, id), (.broadcast id, id), (.alltoall id, id),
        (.barrier id, id), (.ringPass id, id)] → s.m.coll id = none → Does i s [] (fun _ => True)) ∧
    (∀ c : Coll, s.m.coll c.id = some c → c.status = none →
      let ops := [(Instr.allreduce c.id, 1), (.reduceScatter c.id, 2), (.allgather c.id, 3), (.broadcast c.id, 4), (.alltoall c.id, 5),
        (.barrier c.id, 6), (.ringPass c.id, 11)]
      let live := s.m.liveRanks c
      let me := s.m.myRank c
      let status (m : Module) (st : Option Nat) : Prop := ∃ x, m.coll c.id = some x ∧ x.status = st
      let reads (va part r : Nat) (v : List Nat) : Prop := v.length = c.nelem ∧
        if r = me then s.m.elems c.ctx va c.size v else s.m.partFrom c r part = some v
      let writes (i : Instr) (p : Place) (xs : List Nat) (st : Nat) : Prop := CompletesOpen i s s.m.fresh (fun m => m.holds p c.size xs ∧
        SameOutside s.m m p (c.size * xs.length) ∧ status m (some st))
      let lacks (i : Instr) : Prop := CompletesOpen i s s.m.fresh (fun m => SameBytes s.m m ∧ status m none)
      let ran := s.m.ranStatus c
      (c.started = true → c.met = false → (∃ r ∈ s.m.others c, ∃ x, s.m.meetOf c r = some x ∧ meetAgree x (meetMsg c 0) = false) → c.ctx < 64 →
        ∀ x ∈ ops, Completes x.1 s (fun m => SameBytes s.m m ∧ status m (some sViolation) ∧ Violates s.m m c.ctx 2 c.completion ∧
          (m.source 132).count = min 65535 ((s.m.source 132).count + 1))) ∧
      (c.started = true → c.met = false → (∃ r ∈ s.m.others c, s.m.meetOf c r = none) →
        (∀ r ∈ s.m.others c, ∀ x, s.m.meetOf c r = some x → meetAgree x (meetMsg c 0) = true) → ∀ x ∈ ops, Does x.1 s [] (fun _ => True)) ∧
      (c.met = true → (∀ x ∈ ops, c.op ≠ x.2 → Does x.1 s [] (fun _ => True)) ∧
        (c.op = 6 → Does (.barrier c.id) s [.cp] (fun m => status m (some ran))) ∧
        ((∀ y ∈ c.group, s.m.fab.snuffed.contains (s.m.jobOf c.ctx, y) = false) →
          (c.op = 1 →
            (∀ (v : Nat → List Nat) (p : Place), (∀ r ∈ live, reads c.src 0 r (v r)) → s.m.destAt c.ctx c.dst c.size c.nelem p →
              writes (.allreduce c.id) p (reduceLists c.dtype c.rop c.nelem (live.map v)) ran) ∧
            ((∃ r ∈ live, r ≠ me ∧ s.m.partFrom c r 0 = none) → lacks (.allreduce c.id))) ∧
          (c.op = 2 →
            let j := liveIndex live me
            let rng := shardRange c.nelem live.length j
            (∀ (v : Nat → List Nat) (p : Place), (∀ r ∈ live, (v r).length = rng.2 ∧ if r = me then
                s.m.elems c.ctx (c.src + c.size * rng.1) c.size (v r)
                else ∃ l, s.m.partFrom c r 0 = some l ∧ v r = (l.drop rng.1).take rng.2) →
              s.m.destAt c.ctx c.dst c.size rng.2 p → writes (.reduceScatter c.id) p (reduceLists c.dtype c.rop rng.2 (live.map v)) ran) ∧
            ((∃ r ∈ live, r ≠ me ∧ s.m.partFrom c r 0 = none) → lacks (.reduceScatter c.id))) ∧
          (∀ i off, (i, c.op, off) ∈ [(Instr.allgather c.id, 3, 0), (.alltoall c.id, 5, me * c.nelem * c.size)] →
            (∀ (v : Nat → List Nat) (p : Place), (∀ r ∈ live, reads (c.src + off) r r (v r)) →
              s.m.destAt c.ctx c.dst c.size (c.group.length * c.nelem) p →
              CompletesOpen i s s.m.fresh (fun m => status m (some ran) ∧
                SameOutside s.m m p (c.size * (c.group.length * c.nelem)) ∧
                ∀ r ∈ live, m.holds (p.plus (r * c.nelem * c.size)) c.size (v r))) ∧
            ((∃ r ∈ live, r ≠ me ∧ s.m.partFrom c r r = none) → lacks i)) ∧
          (c.op = 4 →
            let root := c.arg % 2 ^ 16
            (∀ (v : List Nat) (p : Place), s.m.destAt c.ctx c.dst c.size c.nelem p → v.length = c.nelem →
              (root = me → s.m.elems c.ctx c.src c.size v → writes (.broadcast c.id) p v ran) ∧
              (∀ q l, root ≠ me → root ∈ live → (s.m.msgsFrom c root).head? = some (.bytes q l 0 v) → writes (.broadcast c.id) p v ran)) ∧
            (root ≠ me → root ∉ live → CompletesOpen (.broadcast c.id) s s.m.fresh (fun m => status m (some sPeerLost))) ∧
            (root ≠ me → root ∈ live → s.m.msgsFrom c root = [] → lacks (.broadcast c.id))) ∧
          (c.op = 11 →
            let prev := live.getD ((liveIndex live me + live.length - 1) % live.length) me
            let prev0 := c.live0.getD ((liveIndex c.live0 me + c.live0.length - 1) % c.live0.length) me
            let next := live.getD ((liveIndex live me + 1) % live.length) me
            let next0 := c.live0.getD ((liveIndex c.live0 me + 1) % c.live0.length) me
            let seen := next = me ∨ next0 ∉ live ∨ ∃ q, CollMsg.placed q ∈ s.m.msgsFrom c next
            let ends (m : Module) : Prop := (seen → status m (some ran)) ∧
              (¬ seen → ∃ x, m.coll c.id = some x ∧ x.status = none ∧ x.acked = true)
            let ring (p : Module → Prop) : Prop := CompletesOpen (.ringPass c.id) s s.m.fresh p
            (∀ (v : List Nat) (p : Place), c.acked = false → prev0 ∈ live → reads c.src prev prev v → s.m.destAt c.ctx c.dst c.size c.nelem p →
              ring (fun m => m.holds p c.size v ∧ SameOutside s.m m p (c.size * v.length) ∧ ends m ∧
                (prev ≠ me → s.m.activeTo (c.group.getD prev 0) → Output.coll (responseVc c.vc) (c.group.getD prev 0) (s.m.jobOf c.ctx) c.group
                  (.placed c.seq) ∈ m.out))) ∧
            (c.acked = true → ring (fun m => SameBytes s.m m ∧ ends m)) ∧
            (c.acked = false → prev0 ∈ live → prev ≠ me → s.m.partFrom c prev prev = none → lacks (.ringPass c.id)) ∧
            (c.acked = false → prev0 ∉ live → ring ends)))))

/-- O52. 14 R341-R369 with 17 R430. combineGnw, moveOut and resultBlock are the model's operations of R172, R366 and R348; the processor of a collective is free. -/
def Obligations.ShardsHandOversAndCollectiveEvents : Prop :=
  ∀ (s : State),
    (∀ i id, (∃ j, (i, id) ∈ [(Instr.gradHandover id, id), (.shardGather id, id), (.unpin id, id), (.permute id, id), (.shardPost id j, id),
        (.collectiveTimeout id, id), (.drainBoundExpiry id, id), (.collectiveComplete id, id)]) → s.m.coll id = none →
      Does i s [] (fun _ => True)) ∧
    (∀ c : Coll, s.m.coll c.id = some c → c.ctx < 64 →
      let live := s.m.liveRanks c
      let me := s.m.myRank c
      let job := s.m.jobOf c.ctx
      let open' := c.met = true ∧ c.status = none ∧ (∀ y ∈ c.group, s.m.fab.snuffed.contains (job, y) = false)
      let status (m : Module) (st : Option Nat) : Prop := ∃ x, m.coll c.id = some x ∧ x.status = st
      let ran := s.m.ranStatus c
      let same (i : Instr) : Prop := Does i s [] (fun _ => True)
      let raised (m : Module) (n : Nat) : Prop := (m.source n).count = min 65535 ((s.m.source n).count + 1)
      let rankOf (d : Nat) : Nat := (c.group.takeWhile (fun x => x != d)).length
      let opens (i : Instr) (p : Module → Prop) : Prop := CompletesOpen i s s.m.fresh p
      (open' → c.op = opGrad → ∀ ns owners, s.m.layer c.ctx c.sidx = some (ns, owners) →
        let i := Instr.gradHandover c.id
        (c.sentFor ≠ some live → c.cnt ≠ 0 → (∀ j, j < ns → owners.getD j 0 ≠ s.m.myId) → ∀ (v : Nat → List Nat),
          (∀ j, j < ns → (v j).length = (shardRange c.nelem ns j).2 ∧ s.m.elems c.ctx (c.src + 4 * (shardRange c.nelem ns j).1) 4 (v j)) →
          opens i (fun m => SameBytes s.m m ∧ ∀ j, j < ns → s.m.shardAcked c j = false → rankOf (owners.getD j 0) ∈ live → rankOf (owners.getD j 0) ≠ me →
            s.m.activeTo (c.group.getD (rankOf (owners.getD j 0)) 0) → Output.coll c.vc (c.group.getD (rankOf (owners.getD j 0)) 0) job c.group (.bytes c.seq live.length j (v j)) ∈ m.out)) ∧
        (c.shards = [] → (∀ j, j < ns → owners.getD j 0 ≠ s.m.myId ∧ s.m.shardAcked c j = true) →
          opens i (fun m => SameBytes s.m m ∧ status m (some ran))) ∧
        (c.shards = [] → c.asked = false → ns = 1 → owners = [s.m.myId] → s.m.routeLost s.m.myId = false →
          s.m.closings c = [] → c.acked = false → s.m.shardAcked c 0 = false →
          ∀ (v : Nat → List Nat) (p : Place), (∀ r ∈ s.m.contributors c, (v r).length = c.nelem ∧
            if r = me then s.m.elems c.ctx c.src 4 (v r) else s.m.partFrom c r 0 = some (v r)) → s.m.destAt c.ctx c.dst 4 c.nelem p →
          let sum := reduceLists 0 0 c.nelem ((s.m.contributors c).map v)
          opens i (fun m => m.holds p 4 sum ∧ SameOutside s.m m p (4 * c.nelem) ∧ status m none ∧ ∃ x y, m.coll c.id = some x ∧
            x.shards = [y] ∧ y.j = 0 ∧ y.entry = c.sidx ∧ y.closed = true ∧ y.posted = false ∧
            y.bad = sum.any (fun e => !(fp32.decode e).isFin) ∧ x.asked = true))) ∧
      (∀ j e ns owners, c.shards.find? (fun x => x.j == j) = some e → s.m.layer c.ctx c.sidx = some (ns, owners) →
        let i := Instr.shardPost c.id j
        let may := c.op = opGrad ∧ c.status = none ∧ c.asked = true ∧ e.closed = true ∧ e.posted = false
        let t := s.m.shard c.ctx e.entry
        let y := !t.newestY
        let rng := shardRange c.nelem ns j
        (¬ may → same i) ∧
        (may → t.pins y ≠ 0 → e.waited = true → same i) ∧
        (may → t.pins y ≠ 0 → e.waited = false → Completes i s (fun m => SameBytes s.m m ∧ raised m 130 ∧ m.hmp = s.m.hmp ∧
          m.getF Reg.FAB_CP_CNT.pinwait = (s.m.getF Reg.FAB_CP_CNT.pinwait + 1) % 2 ^ 16)) ∧
        (may → t.pins y = 0 → ∀ (v : List Nat) (p q : Place), v.length = rng.2 → s.m.elems c.ctx (t.buf t.newestY) 2 v →
          s.m.destAt c.ctx (t.buf y) 2 rng.2 p → s.m.wordPlaces c.ctx (s.m.layerVa c.ctx t.hlayer + 16) 1 (fun _ => q) →
          (∀ x, p.covers (2 * rng.2) x → ¬ q.covers 8 x) →
          opens i (fun m => m.holds p 2 v ∧ m.readPlace q 8 = t.buf y ∧ ∃ h : HandOver, m.hmp.posted = s.m.hmp.posted ++ [h] ∧
            h.coll = c.id ∧ h.shard = e.entry ∧ h.words = [c.step * 2 ^ 32 + c.ctx * 2 ^ 16 + t.hlayer,
              combineGnw (c.gens.map (fun r => (s.m.gradOf c r).1)) c.bads, s.m.gradCount c % 2 ^ 16 * 2 ^ 48 + (c.dst + 4 * rng.1) % 2 ^ 48,
              s.m.stEntry c.ctx e.entry + 32, 0, 0, 0, 0]))) ∧
      (open' → (c.op = opGather ∨ c.op = opUnpin) → ∀ ns owners, s.m.layer c.ctx c.sidx = some (ns, owners) →
        let g := c.op = opGather
        let i := if c.op = opGather then Instr.shardGather c.id else .unpin c.id
        let pin := decide g && c.pin
        let rel := !decide g || c.release
        (c.asked = false → (∀ j, j < ns → owners.getD j 0 ≠ s.m.myId) → opens i (fun m =>
          (∃ x, m.coll c.id = some x ∧ x.asked = true) ∧ ∀ j, j < ns → s.m.activeTo (owners.getD j 0) →
            s.m.fab.snuffed.contains (job, owners.getD j 0) = false → Output.coll c.vc (owners.getD j 0) job c.group (.ask c.seq j (c.sidx + j) (c.arg % 2 ^ 32)
              (shardRange c.nelem ns j).1 (shardRange c.nelem ns j).2 pin rel (decide g)) ∈ m.out)) ∧
        (∀ d, c.asked = true → c.moved = [] → c.skipped = false → c.missing = false → c.owners = [d] →
          (s.m.routeLost d = false → s.m.shardFrom c d 0 = none → Does i s [] (fun _ => True)) ∧
          (s.m.routeLost d = true → opens i (fun m => status m (some sPeerLost))) ∧
          (s.m.routeLost d = false → ran = sDone → ∀ v, s.m.shardFrom c d 0 = some (0, v) →
            opens i (fun m => status m (some sGenMismatch))) ∧
          (∀ n v p, s.m.routeLost d = false → s.m.shardFrom c d 0 = some (n, v) → n ≠ 0 → v.length = c.nelem →
            s.m.destAt c.ctx c.dst 2 c.nelem p → opens i (fun m => status m (some ran) ∧ (g → m.holds p 2 v ∧
              SameOutside s.m m p (2 * c.nelem)) ∧ (¬ g → SameBytes s.m m)))) ∧
        (c.asked = false → c.moved = [] → c.skipped = false → c.missing = false → ns = 1 → owners = [s.m.myId] → s.m.routeLost s.m.myId = false →
          ran = sDone → c.sidx < s.m.stCount c.ctx →
          let t := s.m.shard c.ctx c.sidx
          let gen := if c.arg % 2 ^ 32 = 0 then t.newest else c.arg % 2 ^ 32
          let y := t.gen true == gen
          let there := gen ≠ 0 ∧ (y = true ∨ t.gen false = gen)
          (¬ there → opens i (fun m => status m (some sGenMismatch))) ∧
          (there → g → c.pin = false → c.release = false → ∀ v p, v.length = c.nelem → s.m.elems c.ctx (t.buf y) 2 v →
            s.m.destAt c.ctx c.dst 2 c.nelem p → opens i (fun m => status m (some sDone) ∧ m.holds p 2 v ∧
              SameOutside s.m m p (2 * c.nelem))) ∧
          (there → ¬ g → t.pins y = 0 → Completes i s (fun m => status m (some sDone) ∧ SameBytes s.m m ∧
            m.getF Reg.FAB_CP_CNT.badrel = (s.m.getF Reg.FAB_CP_CNT.badrel + 1) % 2 ^ 8)) ∧
          (there → ¬ g → t.pins y ≠ 0 → ∀ q, s.m.wordPlaces c.ctx (s.m.stEntry c.ctx c.sidx + 24) 1 (fun _ => q) →
            opens i (fun m => status m (some sDone) ∧ m.readPlace q 8 = if y then t.pins false * 2 ^ 48 + (t.pins true - 1) * 2 ^ 32
              else (t.pins false - 1) * 2 ^ 48 + t.pins true * 2 ^ 32)))) ∧
      (open' → c.op = opPermute →
        let i := Instr.permute c.id
        let said (r : Nat) : Option Nat := (s.m.msgsFrom c r).findSome? (fun x => match x with | .layout _ v => some v | _ => none)
        let agree := ∀ r ∈ s.m.others c, said r = some (crc32c c.layout)
        ((∃ r ∈ s.m.others c, ∃ v, said r = some v ∧ v ≠ crc32c c.layout) → Completes i s (fun m => SameBytes s.m m ∧
          status m (some sViolation) ∧ Violates s.m m c.ctx 2 c.completion ∧ raised m 132)) ∧
        (agree → c.asked = false → s.m.openGrads c ≠ [] → Does i s [.cp] (fun m => ∃ x, m.coll c.id = some x ∧ x.status = none ∧
          x.asked = false ∧ x.lostAt = some (c.lostAt.getD s.m.pilot))) ∧
        (agree → s.m.openGrads c = [] → c.missing = false → c.asked = false →
          let taken (m : Module) : Prop := status m (some ran) ∧ m.getF (Reg.FAB_CP_EP.epoch c.ctx) = (c.epoch + 1) % 2 ^ 32 ∧ raised m 133 ∧
            SMap.get none m.cp.layouts c.ctx = some { words := c.layout, group := c.group }
          (s.m.moves c = [] → opens i taken) ∧
          (∀ e n r, s.m.moves c = [(e, n, s.m.myId, r)] → s.m.routeLost s.m.myId = false → r ∈ s.m.others c →
            let told := (s.m.msgsFrom c r).findSome? (fun x => match x with | .restored _ e' _ ok => if e' = e then some ok else none | _ => none)
            opens i (fun m => (told = some true → taken m) ∧ (told = none → status m none) ∧
            (s.m.activeTo (c.group.getD r 0) → Output.coll c.vc (c.group.getD r 0) job c.group (s.m.moveOut c e n).2 ∈ m.out))))) ∧
      (c.started = false ∨ c.status ≠ none ∨ s.m.awaited c = [] → same (.collectiveTimeout c.id)) ∧
      (∀ t ts, c.started = true → c.status = none → (s.m.awaited c).map c.since = t :: ts → opens (.collectiveTimeout c.id) (fun m =>
        status m (some sTimedOut) ∧ m.pilot = max s.m.pilot (ts.foldl min t + s.m.getF Reg.FAB_CP_TMO.ticks) ∧ (c.op = 6 → SameBytes s.m m))) ∧
      (c.status ≠ none ∨ (c.op = opGrad ∧ (c.lostAt = none ∨ s.m.gradHeld c = false)) ∨
        (c.op = opPermute ∧ (c.asked = true ∨ c.lostAt = none ∨ s.m.openGrads c = [])) ∨
        (c.op ≠ opGrad ∧ c.op ≠ opPermute) → same (.drainBoundExpiry c.id)) ∧
      (∀ t, c.status = none → c.op = opGrad → c.lostAt = some t → s.m.gradHeld c = true → Completes (.drainBoundExpiry c.id) s (fun m => SameBytes s.m m ∧
        status m (some sEpochStale) ∧ m.pilot = max s.m.pilot (t + s.m.getF Reg.FAB_CP_DRAIN.ticks) ∧ raised m 129)) ∧
      (∀ t, c.status = none → c.op = opPermute → c.lostAt = some t → c.asked = false → s.m.openGrads c ≠ [] → Completes (.drainBoundExpiry c.id) s (fun m =>
        SameBytes s.m m ∧ m.pilot = max s.m.pilot (t + s.m.getF Reg.FAB_CP_DRAIN.ticks) ∧ raised m 129 ∧
        ∀ g ∈ s.m.openGrads c, ∃ x ∈ m.cp.colls, x.id = g.id ∧ x.status = some sEpochStale)) ∧
      (c.status = none → same (.collectiveComplete c.id)) ∧
      (∀ (st : Nat) (ps : Nat → Place) (r : Place), c.status = some st → st < 256 → s.m.recordPlace c.ctx c.completion r →
        let writes := c.result ≠ 0 ∧ ¬ (st = sEpochStale ∧ c.live0 = [])
        let parts := (c.live0.filter (fun r => s.m.routeLost (c.group.getD r 0))).foldl (fun b r => Nat.lor b (2 ^ (r % 64))) 0
        let n := (s.m.resultBlock c).length
        (writes → s.m.wordPlaces c.ctx c.result n ps ∧ ApartSelf n ps ∧ ∀ j x, j < n → (ps j).covers 8 x → ¬ r.covers 32 x) →
        let up (f : Fld) (b : Bool) (m : Module) : Prop := m.getF f = (s.m.getF f + if b then 1 else 0) % 2 ^ f.width
        opens (.collectiveComplete c.id) (fun m => m.coll c.id = none ∧ HasRecord m r st 5 c.nelem parts s.m.pilot ∧
          (writes → ∀ j, j < n → m.readPlace (ps j) 8 = (s.m.resultBlock c).getD j 0 % 2 ^ 64) ∧
          up Reg.FAB_CP_CNT.stale (st == 5) m ∧ up Reg.FAB_CP_CNT.genmis (st == 6) m ∧ up Reg.FAB_CP_CNT.timedout (st == 8) m))) ∧
    (∀ (src : BitVec 16) (job : BitVec 32) (group : List Nat) (msg : CollMsg),
      let i := Instr.collectiveMessage src job group msg
      let taken (m : Module) : Prop := m.fab = { s.m.fab with inbox := m.fab.inbox }
      let isDead := ∃ n, msg = .dead n
      let isAsk := ∃ a b c d e f g h k, msg = .ask a b c d e f g h k
      let isImage := msg = .askImage
      let isRest := ∃ a b c d, msg = .restored a b c d
      (s.m.routeLost src.toNat = true → Does i s [.fab] (fun m => m.out = [] ∧ taken m)) ∧
      (s.m.routeLost src.toNat = false →
        let none' := ∀ n, s.m.jobCtx job.toNat = some n → s.m.ctxLive n = false
        (none' → isDead → Does i s [.fab] (fun m => m.out = [] ∧ taken m)) ∧
        (isImage → Completes i s (fun m => SameBytes s.m m ∧ m.cp = s.m.cp ∧ ∀ j l, 1 ≤ j → j ≤ 3 → s.m.partner j = some src.toNat →
          s.m.getF Reg.LMP_FW_STAT.commit = 0 → s.m.container = some l → s.m.activeTo src.toNat → Output.image src.toNat l ∈ m.out)) ∧
        (none' → ¬ isDead → ¬ isImage → Completes i s (fun m => SameBytes s.m m ∧ m.cp = s.m.cp ∧ (s.m.activeTo src.toNat →
          Output.coll 6 src.toNat job.toNat group (.dead (msgSeq msg)) ∈ m.out))) ∧
        (∀ n, s.m.jobCtx job.toNat = some n → s.m.ctxLive n = true →
          (isDead → Does i s [.cp, .ctxs, .fab] (fun m => taken m ∧ m.cp = { s.m.cp with colls := s.m.cp.colls.map (fun c =>
            if c.ctx = n ∧ c.group = group ∧ c.seq = msgSeq msg ∧ c.status.isNone = true then { c with status := some sCtxDead } else c) })) ∧
          (∀ q j e g lo cnt, msg = .ask q j e g lo cnt false false true →
            let t := s.m.shard n e
            let gen := if g = 0 then t.newest else g
            let y := t.gen true == gen
            let there := e < s.m.stCount n ∧ gen ≠ 0 ∧ (y = true ∨ t.gen false = gen)
            let answer (m : Module) (k : Nat) (v : List Nat) : Prop :=
              (s.m.activeTo src.toNat →
                Output.coll (responseVc (s.m.takeMessage src.toNat).2) src.toNat job.toNat group (.shard q j k v) ∈ m.out) ∧ SameBytes s.m m
            (¬ there → Completes i s (fun m => answer m 0 [])) ∧
            (∀ v, there → v.length = cnt → s.m.elems n (t.buf y) 2 v → CompletesOpen i s s.m.fresh (fun m => answer m gen v))) ∧
          (¬ isDead → ¬ isAsk → ¬ isRest → ¬ isImage → Does i s [.cp, .ctxs, .fab] (fun m => taken m ∧
            m.cp.box = s.m.cp.box ++ [{ src := src.toNat, job := job.toNat, group := group, msg := msg }] ∧
            m.cp.colls = s.m.cp.colls.map (fun c => if c.ctx = n ∧ c.group = group ∧ c.seq = msgSeq msg then
              { c with heard := (src.toNat, s.m.pilot) :: c.heard.filter (fun x => x.1 != src.toNat) }
              else c)))))) ∧
    (∀ k : Fin 16,
      let up (m : Module) : Prop := (m.source (144 + k.val)).count = min 65535 ((s.m.source (144 + k.val)).count + 1)
      CompletesOpen (.cprocFault k) s s.m.fresh (fun m => up m ∧
      (∀ g ∈ s.m.cp.colls, g.started = true → g.status = none → g.proc = k.val → ∃ x ∈ m.cp.colls, x.id = g.id ∧ x.status = some sTimedOut)) ∧
      ((∀ g ∈ s.m.cp.colls, ¬ (g.started = true ∧ g.status = none ∧ g.proc = k.val)) → Completes (.cprocFault k) s (fun m => up m ∧ m.cp = s.m.cp ∧ SameBytes s.m m)))

/-- O53. 16 R399-R417 with 12 R293-R298 and 18 R448. That a second reset carries the contexts not yet told is the model's reading. -/
def Obligations.WatchdogsAndPartitionResetsFollowTheirSteps : Prop :=
  ∀ (s : State),
    let same (i : Instr) : Prop := Does i s [] (fun _ => True)
    let raised (m : Module) (n : Nat) : Prop := (m.source n).count = min 65535 ((s.m.source n).count + 1)
    let due (m : Module) (t : Nat) : Prop := m.pilot = max s.m.pilot t
    (∀ c : Fin 64,
      let n := c.val
      let st := s.m.getF (Reg.LMP_WDOG.state n)
      let per := s.m.getF (Reg.LMP_WDOG.period n)
      (s.m.wdCounts n = false ∨ 2 ≤ st → same (.watchdogWarn c)) ∧
      (s.m.wdCounts n = true → st < 2 →
        let rec' := match s.m.oldestThread n with
          | none => mkRecord (resetWord 0 false 0 0) 0x22 n 0 0 0 0 0
          | some (k, t) => mkRecord (resetWord 0 true 0 0) 0x22 n (keyCore k) (keyThread k) (s.m.vidxOf k) t.ip.toNat 0
        Completes (.watchdogWarn c) s (fun m => due m ((s.m.ctx n).wdSince + per) ∧ m.getF (Reg.LMP_WDOG.state n) = 2 ∧
          (s.m.ctxLive n = true → Recorded s.m m n rec') ∧ m.threads = s.m.threads)) ∧
      (s.m.wdCounts n = false ∨ st ≠ 2 ∨ s.m.getF (Reg.LMP_WDOG.action n) ≠ 1 → same (.watchdogStop c)) ∧
      (s.m.wdCounts n = true → st = 2 → s.m.getF (Reg.LMP_WDOG.action n) = 1 → SMap.wf Thread.empty s.m.threads = true →
        Completes (.watchdogStop c) s (fun m => due m ((s.m.ctx n).wdSince + 2 * per) ∧ m.getF (Reg.LMP_WDOG.state n) = 3 ∧
          m.ctxs = s.m.ctxs ∧ SameBytes s.m m ∧ ∀ k, m.th k = if (s.m.th k).run ≠ .free ∧ (s.m.th k).ctx = n
            then { s.m.th k with run := .stopped } else s.m.th k))) ∧
    (∀ (p : Fin 8),
      let n := p.val
      let st := s.m.getF (Reg.PART_STAT.state n)
      let fails (i : Instr) (cls : Nat) (core : Option (Nat × Nat)) : Prop :=
        let r := s.m.faultOf n cls core
        let logged (m : Module) : Prop := m.getF (Reg.PART_STAT.cls n) = cls ∧ m.getF (Reg.PART_FLOG0.valid n) = 1 ∧
          m.getF (Reg.PART_FLOG0.cls n) = cls ∧ m.getF (Reg.PART_FLOG0.named n) = (if r.named then 1 else 0) ∧
          m.getF (Reg.PART_FLOG0.context n) = (r.fctx.getD 0) % 2 ^ 6 ∧ m.getF (Reg.PART_FLOG0.core n) = r.core % 2 ^ 11 ∧
          m.getF (Reg.PART_FLOG0.thread n) = r.thread % 2 ^ 3 ∧ m.getF (Reg.PART_FLOG1.instruction n) = r.instr % 2 ^ 48 ∧
          m.getF (Reg.PART_FLOG2.ticks n) = s.m.pilot % 2 ^ 64
        let tg := s.m.getF Reg.PWR_STATE.target
        let awake (m : Module) : Prop := s.m.getF Reg.PWR_STATE.entering = 1 → 2 ≤ tg → tg ≤ 4 → m.getF Reg.PWR_STATE.entering = 0 ∧
          m.getF (Reg.PWR_ABORT.count tg) = (s.m.getF (Reg.PWR_ABORT.count tg) + 1) % 2 ^ 48 ∧ m.getF (Reg.PWR_ABORT.code tg) = 7 ∧
          m.getF (Reg.PWR_ABORT.detail tg) = n
        let isolated (m : Module) (r : PReset) : Prop := m.getF (Reg.PART_STAT.state n) = 1 ∧ m.preset n = some r ∧ raised m (32 + 8 * n) ∧
          (∀ c ∈ r.affected, (m.ctx c).wdHold.isSome = true) ∧ ∀ k, keyKind k = 0 → partOf (keyCore k) = n → (m.th k).run = .free
        (s.m.oos = true ∨ 4 ≤ st → Does i s [.fields] logged) ∧
        (s.m.oos = false → st = 0 → Completes i s (fun m => logged m ∧ isolated m r ∧ awake m)) ∧
        (∀ old, s.m.oos = false → 1 ≤ st → st ≤ 3 → s.m.preset n = some old →
          (old.second = false → let tell := if st ≠ 1 then r.affected else distinct (old.affected ++ r.affected)
            Completes i s (fun m => logged m ∧ raised m (34 + 8 * n) ∧ isolated m { r with second := true, affected := tell })) ∧
          (old.second = true → Completes i s (fun m => logged m ∧ raised m (34 + 8 * n) ∧ m.getF (Reg.PART_STAT.state n) = 4 ∧
            m.preset n = none ∧ m.esc.failed.contains n = true)))
      (∀ c t, fails (.partitionFaultDetect p (.coreParity c t)) 1 (some (c.val, t.val)) ∧
        fails (.partitionFaultDetect p (.storeEcc c t)) 2 (some (c.val, t.val)) ∧ fails (.unitHang p (some (c, t))) 3 (some (c.val, t.val))) ∧
      fails (.unitHang p none) 3 none ∧ fails (.partitionFaultDetect p .netStop) 4 none ∧ fails (.partitionFaultDetect p .power) 5 none ∧
      (s.barReady → st ≠ 0 ∨ s.m.oos = true → Effect (.partCmdReset p) s [(Reg.PART_CMD.reset n).key] [] (fun m =>
        m.getF (Reg.PART_CMD.reset n) = 1)) ∧
      (s.barReady → st = 0 → s.m.oos = false → Completes (.partCmdReset p) s (fun m => m.getF (Reg.PART_STAT.state n) = 1 ∧
        m.getF (Reg.PART_STAT.cls n) = 6 ∧ ∃ r, m.preset n = some r ∧ r.cls = 6 ∧ r.affected = s.m.affected n ∧ r.second = false)) ∧
      (s.m.preset n = none → same (.escalationCheck p) ∧ same (.partitionResetApply p) ∧ same (.partitionSelfTestEnd p) ∧
        ∀ b, same (.resetFailure p b)) ∧
      (∀ r : PReset, s.m.preset n = some r →
        let t := s.m.getF Reg.LMP_SVC_TICKS.ticks
        let counted := r.cls ≠ 6 ∨ r.second = true
        let all := s.m.esc.entries.filter (s.m.inWindow t) ++ if counted then [(n, t)] else []
        let mine (k : Nat) : Nat := (all.filter (fun e => e.1 == k)).length
        let full := s.m.getF Reg.LMP_ESC_LIMIT.part_limit ≤ mine n ∨ s.m.getF Reg.LMP_ESC_LIMIT.mod_limit ≤ all.length
        let stat (m : Module) : Prop := m.getF Reg.LMP_ESC_STAT.mod_count = all.length % 2 ^ 8 ∧
          m.getF Reg.LMP_ESC_STAT.part_count = ((List.range 8).foldl (fun v k => v + min 15 (mine k) * 16 ^ k) 0) % 2 ^ 32
        (st ≠ 1 ∨ s.m.oos = true → same (.escalationCheck p)) ∧
        (st = 1 → s.m.oos = false → counted → full → Completes (.escalationCheck p) s (fun m => m.oos = true ∧ raised m 0)) ∧
        (st = 1 → s.m.oos = false → ¬ (counted ∧ full) →
          let goes (q : Module → Prop) : Prop := Completes (.escalationCheck p) s (fun m => m.getF (Reg.PART_STAT.state n) = 2 ∧
            m.getF (Reg.PART_STAT.resets n) = (s.m.getF (Reg.PART_STAT.resets n) + 1) % 2 ^ 32 ∧
            m.getF Reg.LMP_RESET_SEQ.seq = (s.m.getF Reg.LMP_RESET_SEQ.seq + 1) % 2 ^ 32 ∧ (counted → stat m) ∧
            m.esc.entries = (if counted then s.m.pruneEntries (s.m.esc.entries ++ [(n, t)]) else s.m.esc.entries) ∧ q m ∧
            (s.m.ms.ops.any (fun o => o.running && o.pc / 64 == n) = true → ∃ x, m.preset n = some x ∧ x.waitFrom = some s.m.pilot))
          (r.affected = [] → goes (SameBytes s.m)) ∧
          (∀ c, r.affected = [c] → s.m.ctxLive c = true → c < 64 →
            let w := resetWord r.cls (r.named && r.fctx == some c) n ((s.m.getF Reg.LMP_RESET_SEQ.seq + 1) % 2 ^ 32)
            goes (fun m => Recorded s.m m c (if r.named = true ∧ r.fctx = some c then mkRecord w 0x20 c r.core r.thread r.vidx r.instr 0
              else mkRecord w 0x21 c 0 0 0 0 0)))) ∧
        (let waits := st ≠ 2 ∨ s.m.ms.ops.any (fun o => o.running && o.pc / 64 == n) = true
         (waits → same (.partitionResetApply p)) ∧
         (¬ waits → Completes (.partitionResetApply p) s (fun m => m.getF (Reg.PART_STAT.state n) = 3 ∧ m.esc.holds.contains n = true ∧
          (∀ q, q < 512 → m.held q = (decide (q / 64 = n) || s.m.held q)) ∧
          (∀ x, m.byteAt x = if x.1 = 3 ∧ 256 * n * storeBytes ≤ x.2 ∧ x.2 < 256 * (n + 1) * storeBytes then 0 else s.m.byteAt x)))) ∧
        (st ≠ 3 ∨ s.m.esc.holds.contains n = true → same (.partitionSelfTestEnd p)) ∧
        (st = 3 → s.m.esc.holds.contains n = false → Completes (.partitionSelfTestEnd p) s (fun m => m.getF (Reg.PART_STAT.state n) = 0 ∧
          m.preset n = none ∧ raised m (33 + 8 * n))) ∧
        (st ≠ 3 → same (.resetFailure p false)) ∧ (r.waitFrom ≠ none → same (.resetFailure p true)) ∧
        (∀ b : Bool, (b = true ∧ r.waitFrom = none) ∨ (b = false ∧ st = 3) →
          let at' (m : Module) : Prop := if b then due m (r.since + 750000 + r.wait) else m.pilot = s.m.pilot
          (r.second = false → Completes (.resetFailure p b) s (fun m => at' m ∧ m.getF (Reg.PART_STAT.state n) = 1 ∧ raised m (34 + 8 * n) ∧
            ∃ x, m.preset n = some x ∧ x.second = true ∧ x.cls = r.cls ∧ x.since = m.pilot)) ∧
          (r.second = true → Completes (.resetFailure p b) s (fun m => at' m ∧ m.getF (Reg.PART_STAT.state n) = 4 ∧ raised m (34 + 8 * n) ∧
            m.preset n = none ∧ m.esc.failed.contains n = true)))) ∧
      (∀ l, s.m.esc.holds.contains n = false → same (.partitionHoldEnd p l)) ∧
      (s.m.esc.holds.contains n = true → s.m.ms.waiting = [] → s.m.ms.ops = [] → s.m.transfers = [] →
        Completes (.partitionHoldEnd p []) s (fun m => m.esc.holds.contains n = false ∧ SameBytes s.m m ∧
          ∀ q, q < 512 → m.held q = (decide (q / 64 ≠ n) && s.m.held q)) ∧
        ∀ i : Fin 64, Completes (.partitionHoldEnd p [i]) s (fun m => m.ms.failed.contains (64 * n + i.val) = true ∧ m.oos = true ∧
          (s.m.oos = false → raised m 161)))) ∧
    (s.m.oos = true → same .nonpartitionFault) ∧
    (s.m.oos = false → Completes .nonpartitionFault s (fun m => m.oos = true ∧ raised m 2))

/-- O54. 18 R439-R450 with 13 R333. The speed and width of the link after W4 are free; a wake during an entry from W0 aborts it, and from below W0 also starts the exit (the model's reading). The layout of the register save and of the row-state save is log 73 (DESIGN CHOICE). -/
def Obligations.WickStatesAreEnteredAndLeft : Prop :=
  ∀ (s : State),
    let st := s.m.getF Reg.PWR_STATE.state
    let tg := s.m.getF Reg.PWR_STATE.target
    let entering := s.m.getF Reg.PWR_STATE.entering = 1
    let same (i : Instr) : Prop := Does i s [] (fun _ => True)
    let raised (m : Module) (n : Nat) : Prop := (m.source n).count = min 65535 ((s.m.source n).count + 1)
    (s.m.pwr.wake ≠ none → same .wickEvaluate) ∧
    (s.m.pwr.wake = none → entering → s.m.dozeRefused = none → same .wickEvaluate) ∧
    (∀ p, s.m.pwr.wake = none → entering → s.m.dozeRefused = some p → Completes .wickEvaluate s (fun m =>
      m.getF Reg.PWR_STATE.entering = 0 ∧ m.getF Reg.PWR_STATE.target = st ∧ m.getF Reg.PWR_STATE.state = st ∧ m.pwr.dozeSent = none ∧
      (s.m.pwr.refused.contains tg = false → tg < 5 → m.getF (Reg.PWR_REFUSE.count tg) = (s.m.getF (Reg.PWR_REFUSE.count tg) + 1) % 2 ^ 48 ∧
        ∀ c d, (s.m.refusers.filter (fun (r : Nat × Nat) => refuses r.1 tg && decide (r.1 < 7)) ++ [(7, p)]).head? = some (c, d) →
          m.getF (Reg.PWR_REFUSE.code tg) = c % 2 ^ 8 ∧ m.getF (Reg.PWR_REFUSE.detail tg) = d % 2 ^ 8))) ∧
    (s.m.pwr.wake = none → ¬ entering →
      let busy := s.m.threads.any (fun e => keyKind e.1 == 0 && e.2.runnable) || !s.m.sq.runs.isEmpty
      let b := if busy then { s.m with pwr := { s.m.pwr with idleSince := s.m.pilot, refused := [] } } else s.m
      let stops (u : Nat) : List (Nat × Nat) := b.refusers.filter (fun r => refuses r.1 u)
      let ok (u : Nat) : Prop := b.admits u = true ∧ stops u = []
      (∀ t, 1 ≤ t → t ≤ 4 → ok t → (∀ u, t < u → u ≤ 4 → ¬ ok u) →
        let counted (m : Module) : Prop := (busy = true → m.pwr.idleSince = s.m.pilot) ∧
          ∀ u c d l, t < u → u ≤ 4 → b.admits u = true → stops u = (c, d) :: l → b.pwr.refused.contains u = false →
            m.getF (Reg.PWR_REFUSE.count u) = (s.m.getF (Reg.PWR_REFUSE.count u) + 1) % 2 ^ 48 ∧ m.getF (Reg.PWR_REFUSE.code u) = c % 2 ^ 8 ∧
              m.getF (Reg.PWR_REFUSE.detail u) = d % 2 ^ 8
        (t ≤ st → Completes .wickEvaluate s (fun m => counted m ∧ m.getF Reg.PWR_STATE.entering = 0 ∧ m.getF Reg.PWR_STATE.state = st)) ∧
        (st < t → Completes .wickEvaluate s (fun m => counted m ∧ m.getF Reg.PWR_STATE.entering = 1 ∧ m.getF Reg.PWR_STATE.target = t ∧
          m.getF Reg.PWR_STATE.state = st ∧ SameBytes s.m m ∧ m.threads = s.m.threads ∧
          (3 ≤ t → ∀ p, p < 16 → s.m.pstate p = pActive → (m.port p).dozeSent = some (s.m.pilot, t == 4) ∧ ∃ l,
            Output.frame p 0 (s.m.port p).expect (.lantern 3 l) ∈ m.out ∧ l.detect = if t = 4 then 0x1111#16 else 0xFFFF#16)))) ∧
      ((∀ u, 1 ≤ u → u ≤ 4 → ¬ ok u) → Completes .wickEvaluate s (fun m => m.getF Reg.PWR_STATE.entering = 0 ∧
        m.getF Reg.PWR_STATE.state = st ∧ SameBytes s.m m))) ∧
    (let ready := tg < 3 ∨ ((∀ p, p < 16 → s.m.pstate p ≠ pActive) ∧ ∀ p, p < 16 → (s.m.port p).replay = [])
     (¬ entering ∨ ¬ ready → same .wickEntryCommit) ∧
     (entering → ready → 1 ≤ tg → tg ≤ 4 → Completes .wickEntryCommit s (fun m =>
      m.getF Reg.PWR_STATE.state = tg ∧ m.getF Reg.PWR_STATE.entering = 0 ∧ m.pwr.dozeSent = none ∧
      (∀ k, k < 20 → (s.m.rail (domRail k)).failed = false →
        Nat.testBit (m.getF Reg.PWR_DOM.on) k = (domInState tg k (s.m.bit Reg.PWR_CTRL.debug) && (decide (8 ≤ k) || !s.m.oos || s.m.domOn k))) ∧
      (∀ r ∈ railsOff tg, (s.m.rail r).lowered = false → (s.m.rail r).failed = false → (m.rail r).pending = true ∧ (m.rail r).lowered = true ∧
        (m.rail r).attempts = 0 ∧ (m.rail r).since = s.m.pilot) ∧
      (tg = 4 → m.getF Reg.HIF_LINK.state = 5 ∧ ∀ r ∈ railsOff 4, (s.m.rail r).failed = false → (m.rail r).target = some 0) ∧
      (2 ≤ tg → ∀ n, n < 8 → m.getF (Reg.PART_STAT.state n) = 5) ∧ (3 ≤ tg → m.ms.sets = []) ∧
      (tg = 1 → SameBytes s.m m) ∧ (tg = 2 → m.ms.flash = s.m.ms.flash) ∧
      (tg = 2 ∨ tg = 3 → ∀ x, m.byteAt x = if x.1 = 3 ∧ x.2 < 2048 * storeBytes then 0 else s.m.byteAt x) ∧
      (tg = 4 → m.ms.scr = s.m.ms.scr + 1 ∧ m.ms.ctScr = s.m.ms.ctScr + 1 ∧ m.ms.hbm = [] ∧ m.ms.ctier = [] ∧ m.ms.store = [] ∧
        m.ms.hstore = [] ∧ m.ms.host = s.m.ms.host ∧ m.ms.flash = s.m.fresh.flushCache.saveRows.saveRegs.ms.flash) ∧
      (tg = 3 → SMap.wf 0 s.m.hmp.rowState = true → (∀ e ∈ s.m.hmp.rowState, e.1 < 2097152) → ∀ i, i < 2097152 →
        Memory.read m.ms.flash (rowSaveBase + 8 * i) 8 = (SMap.get 0 s.m.hmp.rowState i).toNat)))) ∧
    (∀ (code : Fin 10) (detail : BitVec 8),
      let i := Instr.wakeEvent code detail
      let wakes := wakesFrom code.val tg = true ∨ wakesFrom code.val st = true
      (entering → ¬ wakes → same i) ∧
      (entering → wakes → tg < 5 → Completes i s (fun m => m.getF Reg.PWR_STATE.entering = 0 ∧ m.getF Reg.PWR_STATE.target = st ∧
        m.getF Reg.PWR_STATE.state = st ∧ m.getF (Reg.PWR_ABORT.count tg) = (s.m.getF (Reg.PWR_ABORT.count tg) + 1) % 2 ^ 48 ∧
        m.getF (Reg.PWR_ABORT.code tg) = code.val ∧ m.getF (Reg.PWR_ABORT.detail tg) = detail.toNat ∧
        (∀ p, p < 16 → m.pstate p = if s.m.pstate p = pDoze ∧ (s.m.port p).dozeSent.isSome = true then pTrain else s.m.pstate p) ∧
        m.pwr.wake = if st = 0 then s.m.pwr.wake else some (code.val, detail.toNat, s.m.pilot))) ∧
      (¬ entering → (wakesFrom code.val st = false ∨ s.m.pwr.wake ≠ none) → same i) ∧
      (¬ entering → wakesFrom code.val st = true → s.m.pwr.wake = none → Does i s [.fields, .pwr] (fun m => m.pwr = { s.m.pwr with
        wake := some (code.val, detail.toNat, s.m.pilot), wakeN := s.m.pwr.wakeN || (st == 4 && code.val != 2),
        rails := raiseRails s.m.pilot s.m.pwr.rails } ∧ FieldsBut [Reg.EVC_GATE.lhold.key] s.m m ∧
        m.getF Reg.EVC_GATE.lhold = if st = 4 then 1 else s.m.getF Reg.EVC_GATE.lhold))) ∧
    (s.m.railsUp = false ∨ s.m.pwr.wake = none ∨ st = 0 ∨ entering → same .wickExitDone) ∧
    (∀ code d t, s.m.railsUp = true → s.m.pwr.wake = some (code, d, t) → st ≠ 0 → ¬ entering → Completes .wickExitDone s (fun m =>
      m.getF Reg.PWR_STATE.state = 0 ∧ m.getF Reg.PWR_STATE.target = 0 ∧ m.getF Reg.PWR_STATE.last_wake = code % 2 ^ 8 ∧
      m.getF Reg.PWR_STATE.last_exit = (s.m.pilot - t) % 2 ^ 32 ∧ m.pwr.wake = none ∧ m.pwr.idleSince = s.m.pilot ∧ SameBytes s.m m ∧
      (∀ n, n < 8 → s.m.oos = false → s.m.getF (Reg.PART_STAT.state n) = 5 → (s.m.rail n).failed = false →
        m.getF (Reg.PART_STAT.state n) = if s.m.esc.failed.contains n then 4 else 0) ∧
      (3 ≤ st → Memory.wf s.m.ms.flash = true → ∀ i, i < 2097152 →
        (SMap.get 0 m.hmp.rowState i).toNat = Memory.read s.m.ms.flash (rowSaveBase + 8 * i) 8) ∧
      (3 ≤ st → raised m 5 ∧ ∀ p, p < 16 → s.m.pstate p = pDoze → m.pstate p = pTrain) ∧
      (st = 4 → m.getF Reg.EVC_GATE.lhold = 0) ∧ (st = 4 → m.getF Reg.HIF_LINK.state = if s.m.pwr.perst then 0 else 1))) ∧
    (let t := s.m.getF Reg.PWR_TIMER.atTick
     (t = 0 → same .pwrTimerExpiry) ∧
     (t ≠ 0 → Completes .pwrTimerExpiry s (fun m => m.pilot = max s.m.pilot t ∧ m.getF Reg.PWR_TIMER.atTick = 0 ∧
      (¬ entering → 1 ≤ st → st ≤ 4 → s.m.pwr.wake = none → s.m.getF Reg.PMC_CTRL.enable = 0 → m.pwr.wake = some (6, 0, m.pilot))))) ∧
    (∀ v : Word, ¬ entering →
      let k := v.toNat % 8
      (∀ i lat mx, (i, lat, mx) ∈ [(Instr.pwrPolicyWrite .latTol v, v.toNat % 2 ^ 32, s.m.getF Reg.PWR_CTRL.max_state),
          (.pwrPolicyWrite .ctrl v, s.m.getF Reg.PWR_LAT_TOL.value, if k ≤ 4 then k else s.m.getF Reg.PWR_CTRL.max_state)] →
        let out := lat < latencyUs st ∨ mx < st
        let set (m : Module) : Prop := m.getF Reg.PWR_LAT_TOL.value = lat ∧ m.getF Reg.PWR_CTRL.max_state = mx
        (¬ out → Does i s [.fields, .lmp] set) ∧
        (out → 1 ≤ st → st ≤ 3 → s.m.pwr.wake = none → Does i s [.fields, .lmp, .pwr] (fun m => set m ∧ m.pwr.wake = some (9, 0, s.m.pilot)))) ∧
      Completes (.pwrPolicyWrite .ctrl v) s (fun m => m.getF Reg.PWR_CTRL.debug = v.toNat / 256 % 2 ∧
        m.getF Reg.PWR_DOM.on = s.m.getF Reg.PWR_DOM.on % 2 ^ 19 + if v.toNat / 256 % 2 = 1 ∧ st ≤ 2 then 2 ^ 19 else 0))

/-- O55. 18 R450-R452; 21 R489, R500; 23 R539-R541, R547. A power loss in a commit leaves no valid image (R496); whether a mirror was being written is left open, and a copy cut short ranks below none (log 55). -/
def Obligations.RailsAndSuppliesFollowTheirEvents : Prop :=
  ∀ (s : State),
    let same (i : Instr) : Prop := Does i s [] (fun _ => True)
    let raised (m : Module) (n : Nat) : Prop := (m.source n).count = min 65535 ((s.m.source n).count + 1)
    (∀ r : Fin 13,
      let x := s.m.rail r.val
      let others (m : Module) : Prop := ∀ q, q ≠ r.val → m.rail q = s.m.rail q
      (x.pending = false → same (.avsAck r) ∧ same (.avsTimeout r)) ∧
      (x.pending = true →
        Does (.avsAck r) s [.fields, .pwr] (fun m => others m ∧ m.getF Reg.PWR_AVS.requests = (s.m.getF Reg.PWR_AVS.requests + 1) % 2 ^ 32 ∧
          m.rail r.val = { x with pending := false, trimUp := false, attempts := 0, lowered := x.lowered && s.m.pwr.wake.isNone, mv := x.target }) ∧
        (let late (m : Module) : Prop := m.pilot = max s.m.pilot (x.since + 6250) ∧
          m.getF Reg.PWR_AVS.timeouts = (s.m.getF Reg.PWR_AVS.timeouts + 1) % 2 ^ 16
         (x.attempts < 2 → Completes (.avsTimeout r) s (fun m => late m ∧
          m.rail r.val = { x with attempts := x.attempts + 1, since := m.pilot } ∧ Output.avs r.val (railMv r.val x.target) ∈ m.out)) ∧
         (2 ≤ x.attempts → Completes (.avsTimeout r) s (fun m => late m ∧ raised m 4 ∧ m.getF Reg.PWR_AVS.failed = 1 ∧
          m.getF Reg.PWR_AVS.last_rail = r.val ∧ m.rail r.val = { x with pending := false, failed := true, trimUp := false, attempts := 3 } ∧
          m.oos = (s.m.oos || (s.m.pwr.wake.isSome && (r.val == 8 || r.val == 10 || r.val == 12)))))))) ∧
    (∀ (n : Fin 8) (up : Bool),
      let x := s.m.rail n.val
      let v := railMv n.val x.mv
      let room := if up then v < 850 else 650 < v
      let open' := x.pending = false ∨ (up = true ∧ x.trimUp = false ∧ x.lowered = false)
      let runs := open' ∧ room ∧ x.failed = false ∧ s.m.getF (Reg.PART_STAT.state n.val) = 0 ∧ s.m.getF Reg.PWR_STATE.state = 0
      (¬ runs → same (.marginMonitor n up)) ∧
      (runs → Does (.marginMonitor n up) s [.pwr, .free] (fun m => (∀ q, q ≠ n.val → m.rail q = s.m.rail q) ∧ ∃ t,
        (up = true → v < t ∧ t ≤ 850) ∧ (up = false → 650 ≤ t ∧ t < v) ∧ m.out = [.avs n.val t] ∧
        m.rail n.val = { x with pending := true, trimUp := up, attempts := 0, since := s.m.pilot, target := some t }))) ∧
    (∀ hot, Does (.thermalThrottle hot) s [.pwr] (fun m => m.pwr = { s.m.pwr with throttled := hot })) ∧
    Does .standbyPowerOn s [.pwr] (fun m => m.pwr = { s.m.pwr with standby := true }) ∧
    (∀ b : Bool,
      let may := s.m.pwr.standby = true ∧ s.m.pwr.mainGood = false ∧ s.m.pwr.converter = false ∧ (s.m.pwr.tripped = false ∨ b = true)
      (¬ may → same (.converterStart b)) ∧
      (may → Does (.converterStart b) s [.pilot, .fields, .pwr] (fun m => 1250000 ≤ m.pilot ∧ s.m.pilot ≤ m.pilot ∧
        (∀ t, s.m.pwr.lostAt = some t → t + 25250000 ≤ m.pilot) ∧ m.pwr.converter = true ∧ m.pwr.lostAt = none ∧ m.pwr.softAt = m.pilot ∧ m.pwr.mainGood = false ∧ FieldsBut [Reg.LMP_SVC_TICKS.ticks.key] s.m m))) ∧
    (let kept := (fusedFlds ++ serviceFlds)
     let off (m : Module) (ks : List Fld) : Prop := m.pwr.mainGood = false ∧ m.pwr.converter = false ∧ m.threads = [] ∧ m.cores = [] ∧
      m.ctxs = Module.reset.ctxs ∧ m.grids = [] ∧ m.transfers = [] ∧ m.ms.hbm = [] ∧ m.ms.ctier = [] ∧ m.ms.store = [] ∧ m.ms.hstore = [] ∧
      m.ms.host = s.m.ms.host ∧ m.ms.scr = s.m.ms.scr + 1 ∧ m.ms.ctScr = s.m.ms.ctScr + 1 ∧ m.esc.entries = s.m.esc.entries ∧
      m.lmp.mbx = none ∧ m.lmp.staged = none ∧ (∀ f ∈ ks, m.getF f = s.m.getF f) ∧
      (∀ f : Fld, f.key ∉ kept.map Fld.key → m.getF f = Module.reset.getF f) ∧
      (s.m.getF Reg.LMP_FW_STAT.commit ≠ 1 → m.ms.flash = s.m.ms.flash) ∧
      (s.m.getF Reg.LMP_FW_STAT.commit = 1 → m.ms.flash = headersGone s.m.ms.flash)
     let newest (m : Module) : Prop := (∀ sec, m.newest sec = s.m.newest sec) ∧
      (s.m.lmp.dirty = [] → m.lmp.mirA = s.m.lmp.mirA ∧ m.lmp.mirB = s.m.lmp.mirB)
     let thermos (m : Module) : Prop := newest m ∧ ∃ a b, m.lmp = { s.m.lmp with mbx := none, staged := none, other := none, pair := none, mirA := a, mirB := b }
     let on := s.m.pwr.mainGood = true ∧ (s.m.getF Reg.PWR_STATE.state = 4 → s.m.pwr.wake ≠ none)
     let soft := s.m.pwr.converter = true ∧ s.m.pwr.mainGood = false
     (¬ on → same .mainPowerLoss ∧ (¬ soft → same .thermalTrip)) ∧
     (soft → Does .thermalTrip s [.pwr] (fun m => m.pwr = { s.m.pwr with tripped := true, lostAt := some s.m.pilot, converter := false })) ∧
     (on →
      Completes .mainPowerLoss s (fun m => off m kept ∧ thermos m ∧ m.pilot = s.m.pilot ∧ m.pwr.tripped = s.m.pwr.tripped ∧ m.pwr.lostAt = some s.m.pilot) ∧
      Completes .thermalTrip s (fun m => off m kept ∧ thermos m ∧ m.pilot = s.m.pilot ∧ m.pwr.tripped = true ∧ m.pwr.lostAt = some s.m.pilot)) ∧
     Completes .standbyPowerLoss s (fun m => m.pwr.standby = false ∧ m.pwr.mainGood = false ∧ m.pwr.converter = false ∧ m.pilot = 0 ∧ m.lmp.sram = [] ∧
      m.lmp.settings = [] ∧ m.lmp.training = [] ∧ m.lmp.owner = none ∧ newest m ∧
      (s.m.pwr.mainGood = true → off m (kept.filter (fun f => f.key != Reg.LMP_SVC_TICKS.ticks.key))) ∧
      m.getF Reg.LMP_SVC_TICKS.ticks = (match s.m.newest secService with
        | none => 0
        | some x => SMap.get 0 x.flds Reg.LMP_SVC_TICKS.ticks.key) % 2 ^ 64)) ∧
    (∀ (q : Bool) (pos : BitVec 2),
      let ready := s.m.pwr.converter = true ∧ s.m.pwr.standby = true ∧ s.m.pwr.mainGood = false
      let i := Instr.powerUp q pos
      (¬ ready → same i) ∧
      (ready →
        let l := if s.m.lmp.sram.contains secSettings then s.m.lmp.settings else ((s.m.newest secSettings).map (fun x => x.flds)).getD []
        (∀ e ∈ l, ∀ f ∈ [Reg.SEC_SVN.floor, Reg.LMP_ESC_STAT.oos, Reg.FAB_DEVID.incarnation, Reg.PWR_RES.ticks 0, Reg.PWR_AVS.requests, Reg.SEC_VIOL.fw_fail], e.1 ≠ Fld.key f) →
        let up (m : Module) : Prop := m.pwr.mainGood = true ∧ m.getF Reg.FAB_QUAD.in_quad = (if q then 1 else 0) ∧
          m.getF Reg.FAB_QUAD.qpos = pos.toNat ∧ m.getF Reg.SEC_VIOL.fw_fail = s.m.badAreas.length ∧ m.getF Reg.MEM_CARVE.active = m.getF Reg.MEM_CARVE.pending ∧ m.ms.flash = s.m.ms.flash ∧
          m.ms.host = s.m.ms.host ∧ m.ms.scr = s.m.ms.scr + 1 ∧ m.ms.ctScr = s.m.ms.ctScr + 1 ∧ m.getF (Reg.PWR_RES.ticks 0) = 0 ∧
          m.pilot = max s.m.pilot (s.m.pwr.softAt + 250000) ∧ m.getF Reg.PWR_AVS.requests = 2 ∧ Output.avs 8 750 ∈ m.out ∧ Output.avs 10 750 ∈ m.out ∧
          (m.getF Reg.SQ_FS_SIZE.units = 0 ∨
            (m.getF Reg.SQ_FS_BASE.base + m.getF Reg.SQ_FS_SIZE.units) * 2 ^ 21 ≤ m.spreadBytes) ∧
          (s.m.pwr.perst = false → m.getF Reg.HIF_LINK.state = 1)
        (s.m.committed = none → Completes i s (fun m => up m ∧ m.getF Reg.LMP_FW_STAT.state = 5)) ∧
        (∀ x, s.m.committed = some x → Completes i s (fun m => up m ∧ m.lmp.image = x ∧ m.getF Reg.HMP_D2D.up = 1 ∧
          m.getF Reg.LMP_FW_VER.version = x.version % 2 ^ Reg.LMP_FW_VER.version.width ∧
          (s.m.lmp.sram.contains secService = true → m.oos = s.m.oos ∧
            m.getF Reg.FAB_DEVID.incarnation = (s.m.getF Reg.FAB_DEVID.incarnation + 1) % 2 ^ 16) ∧
          (s.m.lmp.sram.contains secService = false → s.m.newest secService = none → m.oos = true) ∧
          (s.m.lmp.sram.contains secService = true → s.m.oos = true → ∀ n, n < 8 → m.getF (Reg.PART_STAT.state n) = 5) ∧
          (∀ f v, f ∈ [Reg.PWR_LAT_TOL.value, Reg.PWR_CTRL.max_state, Reg.PWR_DWELL.w4, Reg.MEM_CARVE.pending, Reg.FAB_CTRL.hop_limit,
            Reg.FAB_DEVID.id, Reg.FAB_CP_TMO.ticks, Reg.PMC_CTRL.enable] → f.ret = true → l = [(Fld.key f, v)] → m.getF f = v % 2 ^ f.width)))))

/-- O56. 19 R457-R466; 20 R474-R479; 22 R529. The state after the access itself is counted is written (State.m.fresh).access. -/
def Obligations.EventsAreClaimedAndCountersRead : Prop :=
  ∀ (s : State),
    let same (i : Instr) : Prop := Does i s [] (fun _ => True)
    let raised (m : Module) (n : Nat) : Prop := (m.source n).count = min 65535 ((s.m.source n).count + 1)
    let reads (m : Module) (v : Nat) : Prop := Output.readData v ∈ m.out
    (∀ (r : Requester) (i : Fin 65) (n : BitVec 9) (v : BitVec 48) (b : Bool), s.m.reaches r = false →
      ∀ x ∈ [Instr.evcClaim r i, .evcDone r i n, .evcRaise r n, .evcGateWrite r b, .pmcDataRead r, .pmcDataWrite r v, .pmcSnap r, .pmcWinStart r],
        same x) ∧
    (∀ (r : Requester), s.m.reaches r = true → s.m.recovery = false → s.m.getF Reg.PWR_STATE.state = 0 → s.m.getF Reg.PWR_STATE.entering = 0 →
      let a := s.m.fresh.access r
      let vf := ∃ n, r = .vf n
      let denied (x : Instr) (off : Nat) (p : Module → Prop) : Prop := Completes x s (fun m => p m ∧ Violates s.m m (reqFn r) 3 off ∧
        (∀ j, j ≠ 333 → m.source j = a.source j) ∧ m.pmc.shadow = a.pmc.shadow)
      let alters (x : Instr) (ks : List Nat) (ps : List Part) (p : Module → Prop) : Prop := Effect x s ks ps p
      (∀ i : Fin 65,
        let n := i.val
        let x := Instr.evcClaim r i
        let held := a.getF (Reg.EVC_CTL.inservice n) = 1
        let went (v : Nat) (m : Module) : Prop := reads m v ∧ SMap.get none m.capture (evcOffset n) = some (BitVec.ofNat 64 v) ∧
          ∀ j, j ≠ evcOffset n → SMap.get none m.capture j = SMap.get none a.capture j
        (mayInst r n = false → denied x (evcOffset n) (fun m => reads m 0)) ∧
        (mayInst r n = true → held → alters x [] [.capture] (fun m => went (a.getF (Reg.EVC_CTL.source n)) m ∧ m.evc = a.evc)) ∧
        (mayInst r n = true → ¬ held → a.line n = false → alters x [] [.capture] (fun m => went 0x3FF m ∧ m.evc = a.evc)) ∧
        (∀ k l, mayInst r n = true → a.line n = true → a.eligible n = k :: l → alters x [] [.capture] (fun m => went k m ∧
          m.getF (Reg.EVC_CTL.inservice n) = 1 ∧ m.getF (Reg.EVC_CTL.source n) = k % 2 ^ (Reg.EVC_CTL.source n).width ∧
          ∀ j, m.source j = if j = k then Source.empty else a.source j)) ∧
        ∀ src : BitVec 9,
          let y := Instr.evcDone r i src
          (mayInst r n = false → denied y (evcOffset n + 8) (fun _ => True)) ∧
          (mayInst r n = true → held → a.getF (Reg.EVC_CTL.source n) = src.toNat → alters y [] [] (fun m =>
            m.getF (Reg.EVC_CTL.inservice n) = 0 ∧ m.line n = false ∧ ∀ j, m.source j = a.source j)) ∧
          (mayInst r n = true → ¬ (held ∧ a.getF (Reg.EVC_CTL.source n) = src.toNat) → alters y [] [] (fun m =>
            m.getF Reg.EVC_STATUS.bad_done = 1 ∧ m.evc = a.evc))) ∧
      (∀ src : BitVec 9,
        (vf → denied (.evcRaise r src) 0x100018 (fun _ => True)) ∧
        (¬ vf → 384 ≤ src.toNat → alters (.evcRaise r src) [] [] (fun m => ∀ j, (m.source j).count =
          if j = src.toNat then min 65535 ((a.source j).count + 1) else (a.source j).count)) ∧
        (¬ vf → src.toNat < 384 → Completes (.evcRaise r src) s (fun m => m.getF Reg.EVC_STATUS.bad_raise = 1 ∧
          Violates s.m m 0 (if r = .lamplighter then 6 else 3) 0x100018))) ∧
      (∀ b : Bool, (vf → denied (.evcGateWrite r b) 0x100008 (fun _ => True)) ∧
        (¬ vf → alters (.evcGateWrite r b) [] [] (fun m => m.getF Reg.EVC_GATE.closed = (if b then 1 else 0) ∧ ∀ j, m.source j = a.source j))) ∧
      (∀ v : BitVec 48,
        (vf → denied (.pmcDataRead r) 0x300020 (fun m => reads m 0) ∧ denied (.pmcDataWrite r v) 0x300020 (fun _ => True) ∧
          denied (.pmcSnap r) 0x300008 (fun _ => True) ∧ denied (.pmcWinStart r) 0x300048 (fun _ => True)) ∧
        (¬ vf →
          let k := a.getF Reg.PMC_SEL.index
          alters (.pmcDataRead r) [] [.capture] (fun m => reads m (a.counter k) ∧ m.pmc = a.pmc ∧
            SMap.get none m.capture 0x300020 = some (BitVec.ofNat 64 (a.counter k)) ∧ m.getF Reg.PMC_DATA_HI.value =
            (if k % 2 = 0 ∧ a.getF (Reg.PMC_CFG.chain (k + 1)) = 1 then a.counter (k + 1) else 0) % 2 ^ Reg.PMC_DATA_HI.value.width) ∧
          alters (.pmcDataWrite r v) [] [.capture] (fun m => m.pmc.shadow = a.pmc.shadow ∧ SMap.get none m.capture 0x300020 = none ∧
            ∀ j, SMap.get 0 m.pmc.live j =
            if j = k ∧ k < 264 ∧ a.getF Reg.PMC_SEL.view ≠ 1 then v.toNat else SMap.get 0 a.pmc.live j) ∧
          (a.getF Reg.PMC_STAT.snap_busy = 1 → alters (.pmcSnap r) [] [] (fun m => m.pmc = a.pmc ∧ m.getF Reg.PMC_CTRL.snap = 1)) ∧
          (a.getF Reg.PMC_STAT.snap_busy = 0 → alters (.pmcSnap r) [] [] (fun m =>
            m.pmc = { a.pmc with shadow := a.unwritten, snapAt := some s.m.pilot } ∧ m.getF Reg.PMC_CTRL.snap = 1 ∧ m.getF Reg.PMC_STAT.snap_busy = 1 ∧
            m.getF Reg.PMC_SNAPT.tick = s.m.pilot % 2 ^ Reg.PMC_SNAPT.tick.width)) ∧
          (a.getF Reg.PMC_WIN.active = 1 → alters (.pmcWinStart r) [] [] (fun m => m.pmc = a.pmc ∧ m.getF Reg.PMC_WIN.start = 1)) ∧
          (a.getF Reg.PMC_WIN.active = 0 → alters (.pmcWinStart r) [] [] (fun m => m.getF Reg.PMC_WIN.active = 1 ∧ m.getF Reg.PMC_WIN.start = 1 ∧
            m.pmc = { a.pmc with tx := [], rx := [], winEnd := s.m.pilot + max 1 (a.getF Reg.PMC_WIN.ticks) }))))) ∧
    (∀ src : Fin 512,
      let x := s.m.source src.val
      let t := s.m.getF (Reg.EVC_SRC.time src.val)
      (x.count = 0 ∨ t = 0 ∨ x.pending = true → same (.eventTimerExpiry src)) ∧
      (x.count ≠ 0 → t ≠ 0 → x.pending = false → Completes (.eventTimerExpiry src) s (fun m => m.pilot = max s.m.pilot (x.start + t) ∧
        (m.source src.val).pending = true ∧ SameBytes s.m m ∧ m.threads = s.m.threads))) ∧
    (∀ fn : Fin 64, s.m.reaches (fnReq fn) = true → s.m.recovery = false → s.m.getF Reg.PWR_STATE.state = 0 →
      s.m.getF Reg.PWR_STATE.entering = 0 →
      let key (i : Nat) : Nat := fn.val * 2048 + i
      let open' (m : Module) : Prop := SMap.get false m.hif.msixEn fn.val = true ∧ SMap.get false m.hif.fnMask fn.val = false
      let e (i : Nat) : MsixEntry := SMap.get MsixEntry.empty s.m.hif.msix (key i)
      let sent (i : Nat) (m : Module) : Prop := Output.msix fn.val i (e i).addr (e i).data ∈ m.out ∧ SMap.get false m.hif.pba (key i) = false
      (∀ i : Fin 2048, Effect (.msixUnmask (.entry fn i)) s [] [.hif] (fun m =>
        SMap.get MsixEntry.empty m.hif.msix (key i.val) = { SMap.get MsixEntry.empty s.m.hif.msix (key i.val) with masked := false } ∧
        (∀ j, j ≠ key i.val → SMap.get MsixEntry.empty m.hif.msix j = SMap.get MsixEntry.empty s.m.hif.msix j) ∧
        (open' s.m → SMap.get false s.m.hif.pba (key i.val) = true → sent i.val m))) ∧
      Effect (.msixUnmask (.function fn)) s [] [.hif] (fun m => SMap.get false m.hif.fnMask fn.val = false ∧ m.hif.msix = s.m.hif.msix ∧
        (SMap.get false s.m.hif.msixEn fn.val = true → ∀ i, i < 2048 → SMap.get false s.m.hif.pba (key i) = true →
          (SMap.get MsixEntry.empty s.m.hif.msix (key i)).masked = false → sent i m))) ∧
    (s.m.pmc.snapAt = none → same .pmcSnapDone) ∧
    (s.m.pmc.snapAt ≠ none → Effect .pmcSnapDone s [] [] (fun m => m.pmc.snapAt = none ∧ m.pmc.shadow = s.m.pmc.shadow ∧
      m.getF Reg.PMC_STAT.snap_busy = 0 ∧ m.getF Reg.PMC_STAT.snap_valid = 1 ∧ raised m 334)) ∧
    (s.m.getF Reg.PMC_WIN.active = 0 → same .pmcWindowEnd) ∧
    (s.m.getF Reg.PMC_WIN.active = 1 → Completes .pmcWindowEnd s (fun m => m.pilot = max s.m.pilot s.m.pmc.winEnd ∧ raised m 335 ∧
      (∀ p, p < 16 → m.getF (Reg.PMC_PBW.tx p) = SMap.get 0 s.m.pmc.tx p / 256 % 2 ^ (Reg.PMC_PBW.tx p).width ∧
        m.getF (Reg.PMC_PBW.rx p) = SMap.get 0 s.m.pmc.rx p / 256 % 2 ^ (Reg.PMC_PBW.rx p).width) ∧
      (s.m.getF Reg.PMC_WIN.rep = 0 → m.getF Reg.PMC_WIN.active = 0) ∧
      (s.m.getF Reg.PMC_WIN.rep = 1 → m.getF Reg.PMC_WIN.active = 1 ∧ m.pmc.tx = [] ∧ m.pmc.rx = [] ∧
        m.pmc.winEnd = s.m.pmc.winEnd + max 1 (s.m.getF Reg.PMC_WIN.ticks))))

/-- O57. 22 R512, R523, R532-R534. The speed and width of the link are free; that an FLR of the physical function is not counted as a reset is log 58 (PRESUMED), the configuration space that returns to reset log 7 (PRESUMED), and HOST_READ_FAIL as a row log 32 (DEDUCED). -/
def Obligations.HostResetsTearDownAndTrain : Prop :=
  ∀ (s : State),
    let same (i : Instr) : Prop := Does i s [] (fun _ => True)
    let rst (m : Module) (lo hi : Nat) (but : Nat) : Prop := ∀ f : Fld, lo ≤ f.reg → f.reg < hi → f.lo < 64 →
      (f.reg < 0x10000 ∨ f.reg % 0x1000 ≠ 0 ∨ f.reg ≠ but ∧ but ≠ 0) → m.getF f = f.rst % 2 ^ f.width
    let ended (m : Module) (p : Nat → Prop) : Prop := (∀ n, 1 ≤ n → n < 64 → p n → m.ctxState n ≠ 1) ∧
      ∀ k, (s.m.th k).run ≠ .free → (s.m.th k).ctx < 64 → p (s.m.th k).ctx → s.m.ctxLive (s.m.th k).ctx = true → (m.th k).run = .free
    let fresh (m : Module) : Prop := m.hif = Module.reset.hif ∧ rst m 0x10 0x100000 0
    (∀ kind : ResetKind,
      let i := Instr.conventionalReset kind
      let none' := (kind = .perst ∧ s.m.pwr.perst = true) ∨ (kind ≠ .perst ∧ s.m.linkUp = false)
      (none' → same i) ∧
      (¬ none' → s.m.pwr.mainGood = false → kind = .perst → Does i s [.pwr] (fun m => m.pwr = { s.m.pwr with perst := true })) ∧
      (¬ none' → s.m.pwr.mainGood = true → Completes i s (fun m => ended m (fun _ => True) ∧ fresh m ∧ m.ms.host = s.m.ms.host ∧
        m.getF Reg.HIF_LINK.resets = (s.m.getF Reg.HIF_LINK.resets + 1) % 2 ^ 16 ∧
        m.getF Reg.HIF_LINK.sdown = (s.m.getF Reg.HIF_LINK.sdown + if kind = .dlDown then 1 else 0) % 2 ^ 16 ∧
        m.getF Reg.HIF_LINK.state = (if kind = .perst then 0 else 1) ∧ m.pwr.perst = (s.m.pwr.perst || kind == .perst)))) ∧
    (s.m.pwr.perst = false → same .perstDeassert) ∧
    (s.m.pwr.perst = true → s.m.getF Reg.PWR_STATE.entering = 0 →
      let st := s.m.getF Reg.PWR_STATE.state
      let up (m : Module) : Prop := m.pwr.perst = false ∧ m.pwr.wakeN = false ∧ SameBytes s.m m
      (s.m.pwr.mainGood = true → st ≠ 4 → s.m.getF Reg.HIF_LINK.state = 0 → Completes .perstDeassert s (fun m => up m ∧
        m.getF Reg.HIF_LINK.state = 1 ∧ 1 ≤ m.getF Reg.HIF_LINK.speed ∧ m.getF Reg.HIF_LINK.speed ≤ 7 ∧
        m.getF Reg.HIF_LINK.width ∈ [1, 2, 4, 8, 16])) ∧
      (s.m.pwr.mainGood = true → st = 4 → s.m.pwr.wake = none → Does .perstDeassert s [.fields, .pwr] (fun m => up m ∧
        m.pwr.wake = some (2, 0, s.m.pilot) ∧ m.getF Reg.EVC_GATE.lhold = 1 ∧ FieldsBut [Reg.EVC_GATE.lhold.key] s.m m)) ∧
      (s.m.pwr.mainGood = false → Does .perstDeassert s [.pwr] (fun m => m.pwr = { s.m.pwr with perst := false, wakeN := false }))) ∧
    (∀ v : Fin 63,
      let n := v.val + 1
      let arrives := s.m.linkUp = true ∧ s.m.vfOn n = true ∧ s.m.pwr.mainGood = true
      (¬ arrives → same (.vfFlr v)) ∧
      (arrives → Completes (.vfFlr v) s (fun m => ended m (fun k => k = n) ∧ rst m (0x10000 + 0x1000 * n) (0x11000 + 0x1000 * n) 0 ∧
        (∀ q, q < 4 → SMap.get [] m.hif.running (hqKey n q) = []) ∧ SMap.get false m.hif.msixEn n = false ∧
        SMap.get false m.hif.fnMask n = false ∧ ∀ j, j / 2048 = n → SMap.get MsixEntry.empty m.hif.msix j = MsixEntry.empty ∧
          SMap.get false m.hif.pba j = false))) ∧
    (let arrives := s.m.linkUp = true ∧ s.m.pwr.mainGood = true
     (¬ arrives → same .pfFlr) ∧
     (arrives → Completes .pfFlr s (fun m => ended m (fun _ => True) ∧ fresh m ∧ m.getF Reg.HIF_LINK.state = s.m.getF Reg.HIF_LINK.state ∧
      m.getF Reg.HIF_LINK.resets = s.m.getF Reg.HIF_LINK.resets))) ∧
    (∀ (th : ThreadId) (e : Fin 256) va a lc c l lim d r, (s.m.th (ThreadId.key th)).run = .waitWord va (some (.host a, lc)) c l lim d r →
      Stops (.hostReadFail (.thread th e)) s th (s.m.th (ThreadId.key th)) cMedia va 0 0) ∧
    (∀ (th : ThreadId) (w : Word), s.m.subHeld = false → (s.issuing th).drained (ThreadId.key th) = true → (s.thread th).deferred = [] →
      let va := ((s.thread th).getS (Word.ra w)).toNat
      let answers : Prop := Completes (.hostReadFail (.submission th w)) s (fun m =>
        m.th (ThreadId.key th) = s.withCode th w 4 ∧ SameBytes s.m m)
      (s.issues .xLaunch th w = true ∨ s.issues .xXfer th w = true → va % 32 = 0 → answers) ∧
      (s.issues .xSqsub th w = true → s.m.oos = false → s.m.getF Reg.SQ_CTRL.accept = 1 → va % 64 = 0 → answers) ∧
      (s.issues .xSqadj th w = true → s.m.oos = false → s.m.getF Reg.SQ_CTRL.accept = 1 → va % 32 = 0 → answers) ∧
      (s.issues .xColl th w = true → s.m.oos = false → s.m.getF Reg.FAB_CP_CTRL.accept = 1 → va % 64 = 0 → answers)) ∧
    (∀ (c : Fin 64) (q : Fin 4),
      let i := Instr.hostReadFail (.entry c q)
      let waits := s.m.hqEntry c.val q.val = [] ∧ (s.m.hqNext c.val q.val).isSome = true
      (waits → Does i s [.fields] (fun m => m.getF (Reg.HIF_HQSTAT.err c.val q.val) = 1 ∧
        FieldsBut [(Reg.HIF_HQSTAT.err c.val q.val).key] s.m m)) ∧
      (¬ waits → same i) ∧
      (∀ e, s.m.hqNext c.val q.val = some e → s.m.oos = false → (entryOp e = 5 ∨ entryOp e = 9) →
        (s.m.hqStart c.val q.val e).refusal c.val q.val e = 0 → s.m.ctxState (entryTarget e) ≠ 2 → entryWord e 1 % 32 = 0 → s.m.linkUp = true →
        Completes (.hostReadFail (.command c q)) s (fun m => m.hqEntry c.val q.val = [] ∧ HasRecord m
          (.host (s.m.getF (Reg.HIF_HQCQ.base c.val q.val) * 4096 + s.m.hqHead c.val q.val % s.m.hqN c.val q.val * 32)) 0 9 4 0 s.m.pilot))) ∧
    (∀ (t : Transfer) (j : Fin 64), s.m.xfer t.id = some t → t.state = 1 → t.op ≠ 1 → t.failed.contains j.val = false →
      (∃ x ∈ s.m.xlatRange t.ctx (t.src % 2 ^ 48 + j.val * partBytes t.length) (partLen t.length j.val) .load, ∃ a lc, x.2 = .ok (.host a) lc) →
      Does (.hostReadFail (.part t.id j)) s [.transfers] (fun m => ∃ y, m.xfer t.id = some y ∧ y = { t with failed := t.failed ++ [j.val] }))

/-- O58. 00 R5-R9, R13; 22 R513-R517, R529, R530. The field rules are shown for registers without an effect of their own. What a read of a poisoned sector returns is free. The plain read is log 76, the limits of a TLP log 57, FAB_CP_ST3 at a disputed offset log 53, and which function arrives log 7 (the model's choices). -/
def Obligations.BarAccessesReadAndWriteByTheirRules : Prop :=
  ∀ (s : State),
    let same (i : Instr) : Prop := Does i s [] (fun _ => True)
    let w0 := s.m.recovery = false ∧ s.m.getF Reg.PWR_STATE.state = 0 ∧ s.m.getF Reg.PWR_STATE.entering = 0
    (∀ (fn : Fin 64) (off : BitVec 36) (len : BitVec 13) (data : List Byte),
      let n := len.toNat
      let rd := Instr.bar2Read fn off len
      let wr := Instr.bar2Write fn off data
      let up := s.m.bar2Up fn.val = true
      let fits (k most : Nat) : Prop := 1 ≤ k ∧ k ≤ most ∧ off.toNat + k ≤ 2 ^ 36
      (¬ up ∨ ¬ fits n 4096 → same rd) ∧
      (¬ up ∨ ¬ fits data.length 512 → same wr) ∧
      (up → w0 →
        let va := s.m.bar2Va fn.val off.toNat
        let pieces' (k : Nat) (acc : Access) : List ((Nat × Nat) × Xlat) := s.m.bar2Xlat fn.val va k acc
        let fails (k : Nat) (acc : Access) : Prop := s.m.ctxLive fn.val = false ∨ 2 ^ 48 < va + k ∨ faultsOf (pieces' k acc) ≠ []
        let b2err (m : Module) : Prop := m.getF (Reg.HIF_B2ERR.count fn.val) = (s.m.getF (Reg.HIF_B2ERR.count fn.val) + 1) % 2 ^ 16 ∧
          m.getF (Reg.HIF_B2ERR.va fn.val) = va % 2 ^ 48
        let ks := [(Reg.HIF_B2ERR.count fn.val).key, (Reg.HIF_B2ERR.va fn.val).key]
        let judged (m : Module) (k : Nat) (acc : Access) : Prop :=
          if violsIn (pieces' k acc) then Violates s.m m fn.val 4 va
          else m.getF (Reg.HIF_VIOL.count fn.val) = s.m.getF (Reg.HIF_VIOL.count fn.val)
        (fits n 4096 → fails n .load → Effect rd s ks [] (fun m => b2err m ∧ Output.readData (2 ^ (8 * n) - 1) ∈ m.out)) ∧
        (fits n 4096 → ¬ fails n .load → s.m.rangeHeld fn.val va n .load = true → same rd) ∧
        (fits n 4096 → ¬ fails n .load → s.m.rangeHeld fn.val va n .load = false → s.m.anyBad (pieces' n .load) = false →
          Completes rd s (fun m => Output.readData (leVal (s.m.rangeBytes (pieces' n .load))) ∈ m.out ∧ SameBytes s.m m ∧
            judged m n .load)) ∧
        (fits data.length 512 → fails data.length .store → Effect wr s ks [] b2err) ∧
        (fits data.length 512 → ¬ fails data.length .store → s.m.rangeHeld fn.val va data.length .store = true → same wr) ∧
        (∀ p : Place, fits data.length 512 → ¬ fails data.length .store → s.m.rangeHeld fn.val va data.length .store = false →
          (∀ x ∈ pieces' data.length .store, ∃ lc, x.2 = .ok (p.plus (x.1.1 - va)) lc) → (∀ a, p ≠ .host a) →
          Completes wr s (fun m => StoresAt s.m m p data.length (leVal data) ∧ judged m data.length .store)) ∧
        (fits data.length 512 → ¬ fails data.length .store → s.m.rangeHeld fn.val va data.length .store = false →
          (∀ x ∈ pieces' data.length .store, x.2 = .viol) →
          Completes wr s (fun m => SameBytes s.m m ∧ Violates s.m m fn.val 4 va)))) ∧
    (∀ (r : Requester) (off : BitVec 26) (size : BitVec 13) (v : Word),
      let o := off.toNat
      let k := size.toNat
      let wr := Instr.registerWrite (.bar0 r off size) v
      let rd := Instr.bar0ReadViolation r off size
      let viol (m : Module) : Prop := Violates s.m m (reqFn r) (if r = .lamplighter then 6 else 3) o
      let ks := [(Reg.HIF_VIOL.count (reqFn r)).key, (Reg.HIF_VLOG.unit (reqFn r)).key, (Reg.HIF_VLOG.address (reqFn r)).key]
      let wrong := barAligned o k = false ∨ barPlace r o = .denied
      (s.m.reaches r = false → same wr ∧ same rd) ∧
      (s.m.reaches r = true → w0 →
        (wrong → Effect wr s ks [] viol ∧ Effect rd s ks [] (fun m => viol m ∧ Output.readData 0 ∈ m.out)) ∧
        (¬ wrong → (barPlace r o = .nothing ∨ ∃ x, barPlace r o = .reg x ∧ s.m.fieldsAt (x / 8 * 8) = []) → Effect wr s [] [] (fun _ => True)) ∧
        (¬ wrong → (∀ x, barPlace r o = .reg x → Module.readEffect r (x / 8 * 8) = none) →
          Effect rd s [] [] (fun m => Output.readData ((s.m.fresh.access r).barRead r o k) ∈ m.out)))) ∧
    (∀ r : Requester, w0 → (∀ n, r ≠ .vf n) →
      let read (o : Nat) : Host.Outcome State Fault Refusal := exec (.bar0ReadViolation r (BitVec.ofNat 26 o) 8#13) s
      (∀ i : Fin 65, read (evcOffset i.val) = exec (.evcClaim r i) s) ∧ read Reg.PMC_DATA.value.reg = exec (.pmcDataRead r) s ∧
      (s.m.reaches r = true → ∀ f ∈ [Reg.FAB_CP_TMO.ticks, Reg.PWR_DWELL.w3, Reg.SQ_QUEUE.free, Reg.FAB_LOST.count, Reg.MEM_CARVE.active,
          Reg.HIF_LINK.resets],
        Effect (.bar0ReadViolation r (BitVec.ofNat 26 f.reg) 8#13) s [] [] (fun m => ∃ v, Output.readData v ∈ m.out ∧
          v / 2 ^ f.lo % 2 ^ f.width = s.m.getF f))) ∧
    (∀ (r : Requester) (v : Word), s.m.reaches r = true → w0 → (∀ n, r ≠ .vf n) →
      let full (f : Fld) : Instr := .registerWrite (.bar0 r (BitVec.ofNat 26 f.reg) 8#13) v
      let half (f : Fld) (hi : Nat) : Instr := .registerWrite (.bar0 r (BitVec.ofNat 26 (f.reg + 4 * hi)) 4#13) v
      (∀ f ∈ [Reg.FAB_CP_TMO.ticks, Reg.FAB_CP_DRAIN.ticks, Reg.PWR_DWELL.w4, Reg.PWR_DWELL.w3, Reg.PWR_DWELL.w2, Reg.PMC_SEL.index,
          Reg.FAB_RT_ADDR.index, Reg.HMP_RS_ADDR.index, Reg.PWR_TIMER.atTick, Reg.FAB_CP_ST.base 3, Reg.FAB_CP_ST.count_m1 3],
        Completes (full f) s (fun m => m.getF f = v.toNat / 2 ^ f.lo % 2 ^ f.width ∧ SameBytes s.m m ∧ m.threads = s.m.threads)) ∧
      (∀ f ∈ [Reg.PWR_DWELL.w3, Reg.PWR_DWELL.w2, Reg.FAB_CP_TMO.ticks],
        Completes (half f 0) s (fun m => m.getF f = v.toNat / 2 ^ f.lo % 2 ^ f.width) ∧
        Completes (half f 1) s (fun m => m.getF f = s.m.getF f)) ∧
      Completes (half Reg.PWR_TIMER.atTick 1) s (fun m =>
        m.getF Reg.PWR_TIMER.atTick = v.toNat % 2 ^ 32 * 2 ^ 32 + s.m.getF Reg.PWR_TIMER.atTick % 2 ^ 32) ∧
      Completes (full Reg.FAB_LOST.valid) s (fun m => m.getF Reg.FAB_LOST.valid = (if v.toNat / 2 ^ 63 = 1 then 0 else s.m.getF Reg.FAB_LOST.valid) ∧
        m.getF Reg.FAB_LOST.device = s.m.getF Reg.FAB_LOST.device ∧ m.getF Reg.FAB_LOST.count = s.m.getF Reg.FAB_LOST.count) ∧
      Completes (full Reg.MEM_CARVE.pending) s (fun m => m.getF Reg.MEM_CARVE.active = s.m.getF Reg.MEM_CARVE.active ∧
        m.getF Reg.MEM_CARVE.pending = if v.toNat / 2 ^ 16 % 2 ^ 5 ≤ 24 then v.toNat / 2 ^ 16 % 2 ^ 5 else s.m.getF Reg.MEM_CARVE.pending)) ∧
    (∀ (fn : Fin 64) (en mask : Bool) (v : Word),
      let i := Instr.registerWrite (.msixControl fn en mask) v
      (s.m.reaches (fnReq fn) = false → same i) ∧
      (s.m.reaches (fnReq fn) = true → Completes i s (fun m => SMap.get false m.hif.msixEn fn.val = en ∧
        SMap.get false m.hif.fnMask fn.val = mask ∧ m.hif.msix = s.m.hif.msix))) ∧
    (∀ (en : Bool) num (v : Word), s.m.reaches .pf = true →
      Does (.registerWrite (.vfEnable en num) v) s [.hif] (fun m => m.hif = { s.m.hif with vfEn := en, numVfs := num.val }))

/-- O59. 21 R483-R507; 16 R419. The bytes of keys, digests, signatures and certificates are free constants; a wrong digest or svn in a container counting as detail 1 is the model's reading (log 52), as are the spare blocks' place (log 54) and the rank of a copy whose CRC fails (log 55). -/
def Obligations.LamplighterCommandsAndAttestationAnswer : Prop :=
  ∀ (s : State),
    let L := s.m.lmp
    let same (i : Instr) : Prop := Does i s [] (fun _ => True)
    let raised (m : Module) (n : Nat) : Prop := (m.source n).count = min 65535 ((s.m.source n).count + 1)
    let more (m : Module) (f : Fld) (k : Nat) : Prop := m.getF f = (s.m.getF f + k) % 2 ^ f.width
    let ends (i : Instr) (op status detail : Nat) (p : Module → Prop) : Prop := Completes i s (fun m => m.lmp.mbx = none ∧
      m.getF Reg.LMP_MBX_STAT.busy = 0 ∧ m.getF Reg.LMP_MBX_STAT.status = status ∧ m.getF Reg.LMP_MBX_STAT.detail = detail ∧
      m.getF Reg.LMP_MBX_STAT.op = op ∧ more m Reg.LMP_MBX_STAT.count 1 ∧ raised m 6 ∧ (status = 9 → Violates s.m m 0 3 0x2000010) ∧
      (2 ≤ detail → detail ≤ 5 → more m Reg.SEC_VIOL.auth_fail 1 ∧ raised m 9) ∧ p m)
    let floor := s.m.getF Reg.SEC_SVN.floor
    let rec' := s.m.recovery = true
    let host (a n : Nat) : List Byte := Memory.bytes s.m.ms.host a n
    let gone (m : Module) (a : Nat) : Prop := Memory.bytes m.ms.flash a 4096 = List.replicate 4096 0#8
    let flashHas (m : Module) (base : Nat) (l : List Byte) : Prop := Memory.bytes m.ms.flash base l.length = l ∧
      (l.length ≤ imageMax → ∀ a ∈ imageAreas, a ≠ base → gone m a)
    let broken (m : Module) : Prop := ∀ a ∈ imageAreas, gone m a
    let recovered (m : Module) (v : Nat) : Prop := m.getF Reg.LMP_FW_STAT.commit = v ∧ raised m 8
    let runs (m : Module) (x : Image) : Prop := m.lmp.image = x ∧ m.lmp.pair = none ∧ m.getF Reg.LMP_FW_VER.version = x.version % 2 ^ 64 ∧
      m.getF Reg.LMP_FW_STAT.svn = x.svn % 2 ^ 16 ∧ m.getF Reg.LMP_ID.fabric_level = x.level % 2 ^ 32
    let raisedFloor (m : Module) (x : Image) : Prop := m.getF Reg.SEC_SVN.floor = if floor < x.floor then x.floor % 2 ^ 6 else floor
    let refused (i : Instr) (op d : Nat) : Prop := ends i op 9 d (fun m => more m Reg.SEC_VIOL.fw_fail 1 ∧ m.lmp = { L with mbx := none } ∧
      SameBytes s.m m)
    let kept (m : Module) : Prop := m.lmp = { L with mbx := none } ∧ SameBytes s.m m
    let rom (i : Instr) (op : Nat) (ok : Bool) (l : List Byte) : Prop :=
      let d := imageDetail floor l
      (d ≠ 0 → refused i op d) ∧ (d = 0 → ok = false → ends i op 3 0x0A (fun m => broken m ∧ recovered m 2 ∧ m.recovery = true ∧ m.lmp.image = L.image)) ∧
      (d = 0 → ok = true → ends i op 0 0 (fun m => runs m (imageOf l) ∧ m.recovery = false ∧ flashHas m imageMax l ∧ recovered m 0 ∧ raisedFloor m (imageOf l) ∧
        more m Reg.FAB_DEVID.incarnation 1))
    let copied (m : Module) (sec : Nat) : Prop :=
      m.newest sec = some (s.m.section sec (((s.m.newest sec).map (fun x => x.seq)).getD 0 + 1))
    (∀ ok : Bool,
      let i := Instr.fwStage ok
      (s.m.mbxOp ≠ some 1 → same i) ∧
      (∀ arg addr len, L.mbx = some (1, arg, addr, len) →
        let bad := addr % 4096 ≠ 0
        let l := host addr len
        let d := imageDetail floor l
        (bad → ends i 1 9 1 kept) ∧
        (¬ bad → s.m.linkUp = false → ends i 1 7 0x0B kept) ∧
        (¬ bad → s.m.linkUp = true → rec' → rom i 1 ok l) ∧
        (¬ bad → s.m.linkUp = true → ¬ rec' → d ≠ 0 → refused i 1 d) ∧
        (¬ bad → s.m.linkUp = true → ¬ rec' → d = 0 → ends i 1 0 0 (fun m => SameBytes s.m m ∧ m.getF Reg.LMP_CORE.alt_ready = 1 ∧
          m.getF Reg.LMP_FW_STAT.state = 2 ∧ m.getF Reg.LMP_FW_STAT.staged_svn = (imageOf l).svn % 2 ^ 16 ∧
          m.lmp = { L with mbx := none, staged := some (imageOf l), stagedSource := (addr, len), other := some (imageOf l) })))) ∧
    (let i := Instr.fwSwitch
     (s.m.mbxOp ≠ some 2 → same i) ∧
     (∀ arg addr len, L.mbx = some (2, arg, addr, len) →
      (L.staged = none → ends i 2 9 8 kept) ∧
      (∀ x, L.staged = some x →
        let busy := ∃ n, n < 8 ∧ 1 ≤ s.m.getF (Reg.PART_STAT.state n) ∧ s.m.getF (Reg.PART_STAT.state n) ≤ 3
        let volts := ∃ e ∈ s.m.pwr.rails, e.2.pending = true
        (busy → same i) ∧
        (¬ busy → volts → Does i s [.fields] (fun m => m.getF Reg.EVC_GATE.lhold = 1 ∧ FieldsBut [Reg.EVC_GATE.lhold.key] s.m m)) ∧
        (¬ busy → ¬ volts → ends i 2 0 0 (fun m => runs m x ∧ SameBytes s.m m ∧ m.threads = s.m.threads ∧ m.lmp.staged = none ∧ m.lmp.bank = !L.bank ∧
          m.lmp.other = some L.image ∧ m.sq.runs = s.m.sq.runs ∧ m.cp.colls = s.m.cp.colls ∧
          m.lmp.source = some L.stagedSource ∧ m.getF Reg.LMP_CORE.serving = 1 - s.m.getF Reg.LMP_CORE.serving ∧
          m.getF Reg.LMP_CORE.alt_ready = 0 ∧ m.getF Reg.LMP_FW_STAT.state = 4 ∧ m.getF Reg.LMP_FW_STAT.commit = 1 ∧
          m.getF Reg.EVC_GATE.lhold = 0 ∧ raised m 7))))) ∧
    (∀ ok : Bool,
      let i := Instr.fwCommit ok
      let commit := s.m.getF Reg.LMP_FW_STAT.commit
      (commit ≠ 1 → same i) ∧
      (commit = 1 → L.source = none ∨ s.m.linkUp = false → Completes i s (fun m => m.getF Reg.LMP_FW_STAT.commit = 2 ∧ raised m 8 ∧
        m.lmp = L ∧ SameBytes s.m m)) ∧
      (∀ a, commit = 1 → L.source = some a → s.m.linkUp = true →
        let l := host a.1 a.2
        let fits := Config.sha384 (l.drop 4096) = L.image.digest
        (fits → ok = true → Completes i s (fun m => m.getF Reg.LMP_FW_STAT.commit = 0 ∧ m.lmp = L ∧ flashHas m 0 l ∧ raisedFloor m L.image)) ∧
        (¬ fits ∨ ok = false → Completes i s (fun m => m.getF Reg.LMP_FW_STAT.commit = 2 ∧ raised m 8 ∧ m.lmp = L ∧
          (fits → broken m) ∧ (¬ fits → SameBytes s.m m))))) ∧
    (∀ (partner : Option (List Byte)) (ok : Bool),
      let i := Instr.fwRecover partner ok
      (s.m.mbxOp ≠ some 3 → same i) ∧
      (∀ arg addr len, L.mbx = some (3, arg, addr, len) →
        let far := arg / 2 ^ 16 % 2 = 1
        let src := if far then (s.m.recoverFrom arg).bind (fun _ => partner) else if s.m.linkUp = true then some (host addr len) else none
        let bad := ¬ far ∧ addr % 4096 ≠ 0
        let wrong := (rec' ∧ far) ∨ (¬ rec' ∧ s.m.getF Reg.LMP_FW_STAT.commit ≠ 2)
        (bad → ends i 3 9 1 kept) ∧ (¬ bad → wrong → ends i 3 9 8 kept) ∧
        (¬ bad → ¬ wrong → src = none → ends i 3 7 0x0B kept) ∧
        (∀ l, ¬ bad → ¬ wrong → src = some l → (rec' → rom i 3 ok l) ∧
          (¬ rec' →
            let d := imageDetail floor l
            let own := (imageOf l).digest = L.image.digest
            (d ≠ 0 → refused i 3 d) ∧ (d = 0 → ¬ own → ends i 3 7 0x0B kept) ∧
            (d = 0 → own → ok = false → ends i 3 3 0x0A (fun m => broken m ∧ recovered m 2)) ∧
            (d = 0 → own → ok = true → ends i 3 0 0 (fun m => recovered m 0 ∧ flashHas m imageMax l ∧
              raisedFloor m L.image ∧ m.lmp = { L with mbx := none })))))) ∧
    (s.m.mbxOp ≠ some 4 → same .thermosSync) ∧
    (s.m.mbxOp = some 4 → ends .thermosSync 4 0 0 (fun m => SameBytes s.m m ∧ ∀ sec, sec < 4 → copied m sec)) ∧
    (∀ sec : Fin 4,
      let due := s.m.mainOn = true ∧ (sec.val ∈ L.dirty ∨ sec.val = 2)
      (¬ due → same (.thermosMirror sec)) ∧
      (due → Does (.thermosMirror sec) s [.fields, .lmp] (fun m => copied m sec.val ∧ sec.val ∉ m.lmp.dirty ∧
        more m Reg.LMP_THERMOS.mirrors 1))) ∧
    (let signed (i : Instr) (op used : Nat) (check : List Byte → Nat) (p : Module → List Byte → Prop) : Prop :=
        (s.m.mbxOp ≠ some op → same i) ∧
        (∀ arg addr len, L.mbx = some (op, arg, addr, len) →
          let l := host addr len
          let d := s.m.blockDetail op addr len used l
          (s.m.linkUp = false → ends i op 7 0x0B kept) ∧
          (s.m.linkUp = true → d ≠ 0 → ends i op 9 d kept) ∧
          (s.m.linkUp = true → d = 0 → check l ≠ 0 → ends i op 9 (check l) kept) ∧
          (s.m.linkUp = true → d = 0 → check l = 0 → ends i op 0 0 (fun m => p m l)))
     signed .returnToService 0x10 0 (fun _ => if s.m.oos then 0 else 8) (fun m _ =>
      s.m.ms.waiting = [] → s.m.ms.ops = [] → s.m.transfers = [] → m.oos = false ∧ m.esc.entries = [] ∧ m.esc.failed = [] ∧
        raised m 1 ∧ m.getF Reg.LMP_ESC_STAT.mod_count = 0 ∧ m.getF Reg.LMP_ESC_STAT.part_count = 0 ∧
        more m Reg.FAB_DEVID.incarnation 1 ∧ more m Reg.LMP_RESET_SEQ.seq 8 ∧
        ∀ n, n < 8 → more m (Reg.PART_STAT.resets n) 1 ∧
          (s.m.getF Reg.PWR_STATE.state ≤ 1 → (s.m.rail n).failed = false → m.getF (Reg.PART_STAT.state n) = 0)) ∧
     signed .setLimits 0x11 3 (fun l => if 1 ≤ numAt l 24 1 ∧ 2 ≤ numAt l 25 1 ∧ numAt l 25 1 ≤ 15 ∧ 2 ≤ numAt l 26 1 ∧ numAt l 26 1 ≤ 15 then 0 else 7)
      (fun m l => m.getF Reg.LMP_ESC_LIMIT.window = numAt l 24 1 ∧ m.getF Reg.LMP_ESC_LIMIT.mod_limit = numAt l 25 1 ∧
        m.getF Reg.LMP_ESC_LIMIT.part_limit = numAt l 26 1 ∧ m.esc.entries = m.pruneEntries s.m.esc.entries ∧ 2 ∈ m.lmp.dirty) ∧
     signed .factoryDefaults 0x12 0 (fun _ => 0) (fun m _ => SameBytes s.m m ∧ m.lmp.settings = [] ∧ m.lmp.training = [] ∧ more m Reg.LMP_THERMOS.mirrors 4 ∧
      ∀ sec, sec < 4 → (sec < 2 → m.mirrorA sec = none ∧ m.mirrorB sec = none ∧ sec ∉ m.lmp.sram) ∧
        (2 ≤ sec → m.mirrorA sec = s.m.mirrorA sec ∧ m.mirrorB sec = s.m.mirrorB sec ∧ (sec ∈ m.lmp.sram ↔ sec ∈ L.sram))) ∧
     signed .enrolOwner 0x13 48 (fun l => if Config.sha384 ((l.drop 3461).take 1984) = (l.drop 24).take 48 then 0 else 7) (fun m l =>
      m.lmp.owner = some ((l.drop 3461).take 32, (l.drop 3493).take 1952) ∧ m.getF Reg.SEC_STAT.owner = 1 ∧
      m.getF Reg.SEC_STAT.owner_id = numAt l 24 6 ∧ 3 ∈ m.lmp.dirty)) ∧
    (rec' ∨ s.m.pwr.mainGood = false → same .lamplighterTakeover) ∧
    (¬ rec' → s.m.pwr.mainGood = true → s.m.getF Reg.LMP_FW_STAT.commit ≠ 1 →
      let i := Instr.lamplighterTakeover
      let at' (m : Module) : Prop := m.pilot = max s.m.pilot (s.m.fab.beatAt + 50000) ∧ more m Reg.SEC_VIOL.fw_fail s.m.badAreas.length ∧ (L.staged ≠ none → m.lmp.staged = none) ∧
        (∀ op, op = 1 ∨ op = 2 → s.m.mbxOp = some op → m.lmp.mbx = none ∧ m.getF Reg.LMP_MBX_STAT.status = 8 ∧
          m.getF Reg.LMP_MBX_STAT.detail = 9 ∧ (op = 2 → m.getF Reg.EVC_GATE.lhold = 0))
      (s.m.committed = none → Completes i s (fun m => at' m ∧ m.oos = true ∧ (s.m.oos = false → raised m 0))) ∧
      (∀ x, s.m.committed = some x →
        let serves (m : Module) : Prop := at' m ∧ runs m x ∧ m.getF Reg.LMP_CORE.serving = 1 - s.m.getF Reg.LMP_CORE.serving ∧
          m.getF Reg.LMP_CORE.took_over = 1 ∧ raised m 11 ∧ m.fab.beatAt = m.pilot
        (s.m.esc.resets = [] → Completes i s (fun m => serves m ∧ SameBytes s.m m ∧ m.threads = s.m.threads)) ∧
        (∀ r : PReset, s.m.esc.resets = [r] → r.part < 8 → r.second = true → Completes i s (fun m => serves m ∧ m.preset r.part = none ∧
          m.getF (Reg.PART_STAT.state r.part) = 4 ∧ raised m (34 + 8 * r.part))))) ∧
    (let up := s.m.linkUp = true ∧ s.m.recovery = false ∧ s.m.pwr.mainGood = true ∧ s.m.getF Reg.PWR_STATE.entering = 0
     let W := s.m.getF Reg.PWR_STATE.state
     let asks (i : Instr) (p : Prop) : Prop := (s.m.linkUp = false ∨ s.m.recovery = true ∨ s.m.pwr.mainGood = false → same i) ∧
        (up → W = 4 → same i) ∧ (up → W = 0 → p)
     let plain (i : Instr) (r : SpdmResp) : Prop := asks i (Does i s [.lmp] (fun m => Output.spdm r ∈ m.out ∧ m.lmp = { L with pair := none }))
     let signs (i : Instr) (nonce data : List Byte) (r : List Byte → SpdmResp) : Prop := asks i (Does i s [.lmp, .free] (fun m =>
        ∃ fresh : List Byte, fresh.length = 32 ∧ Output.spdm (r (nonce ++ fresh ++ data)) ∈ m.out ∧
        m.lmp = { L with pair := some (nonce ++ fresh ++ data) }))
     let secret := leBytes 32 L.secret.toNat
     let sign := Config.ed25519Sign (Config.hkdf .attestationEd secret L.image.digest)
     let pqSign := Config.mldsaSign (Config.hkdf .attestationPq secret L.image.digest)
     let chain := s.m.chain
     let pq := s.m.pqChain
     let meas (k : Nat) : List Byte := if k = 1 then Config.romDigest else if k = 2 then Config.sha384 L.image.hdr else if k = 3 then L.image.digest else
        if k = 4 then leBytes 2 L.image.svn ++ leBytes 2 floor else if k = 5 then Config.sha384 s.m.settingsBytes else
        leBytes 1 (s.m.getF Reg.PWR_CTRL.debug) ++ leBytes 1 (s.m.getF Reg.MEM_CTRL.maint)
     plain .getVersion (.version (s.m.getF Reg.SEC_ID.spdm)) ∧ plain .getCapabilities (.capabilities { certificates := true, challenge := true, signedMeasurements := true, slots := [0], keyExchange := false, pskExchange := false, mutualAuth := false, setCertificate := false, csr := false }) ∧
     plain .negotiateAlgorithms (.algorithms .eddsaEd25519 .sha384 .sha384 .dmtf) ∧
     plain .getDigests (.digests (Config.sha384 chain)) ∧ plain .spdmUnsupported (.error true) ∧
     plain .getPqSig (match L.pair with | some msg => .pqSig (pqSign msg) | none => .error false) ∧
     (∀ off len : BitVec 16, plain (.getPqChain off len) (.pqChain ((pq.drop off.toNat).take len.toNat) (pq.length - (off.toNat + len.toNat)))) ∧
     (∀ (slot : BitVec 8) (off len : BitVec 16), plain (.getCertificate slot off len) (if slot ≠ 0 then .error true else
        .certificate ((chain.drop off.toNat).take len.toNat) (chain.length - (off.toNat + len.toNat)))) ∧
     (∀ (slot : BitVec 8) nonce, (slot ≠ 0 → plain (.challenge slot nonce) (.error true)) ∧
        (slot = 0 → signs (.challenge slot nonce) nonce (Config.sha384 chain) (fun msg => .challengeAuth msg (sign msg)))) ∧
     (∀ (index : BitVec 8) nonce,
        let n := index.toNat
        let ids := if n = 0 then [] else if n = 255 then [1, 2, 3, 4, 5, 6] else [n]
        let blocks := ids.map (fun k => (k, meas k))
        (7 ≤ n → n ≠ 255 → ∀ b, plain (.getMeasurements index b nonce) (.error false)) ∧
        (n < 7 ∨ n = 255 → plain (.getMeasurements index false nonce) (.measurements blocks none) ∧
          signs (.getMeasurements index true nonce) nonce (blocks.flatMap (fun b => leBytes 1 b.1 ++ b.2))
            (fun msg => .measurements blocks (some (sign msg))))))

/-- O60. 22 R514, R519-R528; 15 R393, R396. NOP being subject to the refusals and CTX_DEAD is the model's literal reading of R526 and Table 22-5. Details 6 and 7 as CTX_CREATE's alone, a misaligned submission address with its own code, and the test of context 0 are log 56 (DEDUCED). -/
def Obligations.HostQueuesRunTheirCommands : Prop :=
  ∀ (s : State),
    let same (i : Instr) : Prop := Does i s [] (fun _ => True)
    let raised (m : Module) (n : Nat) : Prop := (m.source n).count = min 65535 ((s.m.source n).count + 1)
    (∀ (r : Requester) (c : Fin 64) (q : Fin 4) (t : BitVec 32) (v : Word),
      let n := c.val
      let unit := if r = .lamplighter then 6 else 5
      let fn := if r = .lamplighter then 0 else n
      let ks (k : Nat) : List Nat := [(Reg.HIF_VIOL.count k).key, (Reg.HIF_VLOG.unit k).key, (Reg.HIF_VLOG.address k).key]
      let bell := Instr.hqDoorbell r c q t
      let base := Instr.hqBaseWrite r c q v
      let tail := Instr.faultRingTailWrite r c t
      let head := s.m.hqHead n q.val
      let fits := s.m.hqOn n q.val = true ∧ (t.toNat + 2 ^ 32 - head) % 2 ^ 32 ≤ s.m.hqN n q.val ∧
        (t.toNat + 2 ^ 32 - s.m.getF (Reg.HIF_HQTAIL.tail n q.val)) % 2 ^ 32 < 2 ^ 31
      (s.m.reaches r = false → same bell ∧ same base ∧ same tail) ∧
      (s.m.reaches r = true → s.m.recovery = false → s.m.getF Reg.PWR_STATE.state = 0 → s.m.getF Reg.PWR_STATE.entering = 0 →
        (mayPage r n = false →
          let denied (i : Instr) (off : Nat) : Prop := Effect i s (ks (reqFn r)) [] (fun m => Violates s.m m (reqFn r) 3 (pageOffset r n off))
          denied bell (0x110 + 0x20 * q.val) ∧ denied base (0x100 + 0x20 * q.val) ∧ denied tail 0x10) ∧
        (mayPage r n = true →
          (s.m.getF (Reg.HIF_HQSTAT.err n q.val) = 1 → Effect bell s [] [] (fun _ => True)) ∧
          (s.m.getF (Reg.HIF_HQSTAT.err n q.val) = 0 → ¬ fits → Effect bell s (ks fn) [] (fun m =>
            Violates s.m m fn unit (pageOffset r n (0x110 + 0x20 * q.val)))) ∧
          (s.m.getF (Reg.HIF_HQSTAT.err n q.val) = 0 → fits → Effect bell s [(Reg.HIF_HQTAIL.tail n q.val).key] [] (fun m =>
            m.getF (Reg.HIF_HQTAIL.tail n q.val) = t.toNat)) ∧
          (s.m.getF (Reg.HIF_HQSTAT.busy n q.val) = 1 → Effect base s [] [] (fun _ => True)) ∧
          (s.m.getF (Reg.HIF_HQSTAT.busy n q.val) = 0 → Effect base s [(Reg.HIF_HQBASE.base n q.val).key, (Reg.HIF_HQBASE.k n q.val).key,
              (Reg.HIF_HQSTAT.head n q.val).key, (Reg.HIF_HQTAIL.tail n q.val).key, (Reg.HIF_HQSTAT.err n q.val).key] [] (fun m =>
            m.getF (Reg.HIF_HQBASE.base n q.val) = v.toNat / 2 ^ 12 ∧ m.getF (Reg.HIF_HQBASE.k n q.val) = v.toNat % 2 ^ 5 ∧
            m.hqHead n q.val = 0 ∧ m.getF (Reg.HIF_HQTAIL.tail n q.val) = 0 ∧ m.getF (Reg.HIF_HQSTAT.err n q.val) = 0)) ∧
          (let h := s.m.getF (Reg.HIF_FPTR.head n)
           let full := s.m.getF (Reg.HIF_FRING.base n) = 0 ∨ (h + 2 ^ 32 - t.toNat) % 2 ^ 32 = 2 ^ (s.m.getF (Reg.HIF_FRING.size n) + 4)
           let moved (m : Module) : Prop := m.getF (Reg.HIF_FPTR.tail n) = t.toNat
           (full ∨ (s.m.ctx n).waitRecs = [] → Effect tail s [(Reg.HIF_FPTR.tail n).key] [] moved) ∧
           (∀ x : FaultRec, ¬ full → (s.m.ctx n).waitRecs = [x] → Effect tail s [(Reg.HIF_FPTR.tail n).key, (Reg.HIF_FPTR.head n).key]
              [.ctxs, .memories] (fun m => moved m ∧ (m.ctx n).waitRecs = [] ∧ m.getF (Reg.HIF_FPTR.head n) = (h + 1) % 2 ^ 32 ∧
              raised m (256 + n) ∧
              (let a := s.m.getF (Reg.HIF_FRING.base n) * 4096 + h % 2 ^ (s.m.getF (Reg.HIF_FRING.size n) + 4) * 32
               SameOutside s.m m (.host a) 32 ∧ (s.m.linkUp = true → m.readPlace (.host a) 8 = x.w0.toNat ∧
                m.readPlace (.host (a + 8)) 8 = x.w1.toNat ∧ m.readPlace (.host (a + 16)) 8 = x.w2.toNat ∧
                m.readPlace (.host (a + 24)) 8 = x.w3.toNat)))))))) ∧
    (∀ (c : Fin 64) (qq : Fin 4),
      let n := c.val
      let q := qq.val
      let rows := [(Instr.nopCommand c qq, 0), (.ctxCreate c qq, 1), (.ctxTeardown c qq, 2), (.invalidate c qq, 3), (.resume c qq, 4),
        (.launch c qq, 5), (.solve c qq, 6), (.adjoint c qq, 7), (.collective c qq, 8), (.xfer c qq, 9), (.abort c qq, 10)]
      (s.m.hqNext n q = none → ∀ x ∈ rows, same x.1) ∧
      (∀ e, s.m.hqNext n q = some e →
        let t := entryTarget e
        let w := entryWord e
        let m1 := s.m.hqStart n q e
        let slot := s.m.getF (Reg.HIF_HQCQ.base n q) * 4096 + s.m.hqHead n q % s.m.hqN n q * 32
        let waits (m : Module) : Prop := m.hqEntry n q = e ∧ m.getF (Reg.HIF_HQSTAT.busy n q) = 1
        let ended (m : Module) (status count : Nat) : Prop := m.hqEntry n q = [] ∧ m.getF (Reg.HIF_HQSTAT.busy n q) = 0 ∧
          m.hqHead n q = (s.m.hqHead n q + 1) % 2 ^ 32 ∧ ((e.getD 0 0).getLsbD 49 = true → raised m (256 + n)) ∧
          (s.m.linkUp = true → HasRecord m (.host slot) status (if entryOp e = 2 then 8 else 9) count 0 s.m.pilot)
        let ends (i : Instr) (status count : Nat) (p : Module → Prop) : Prop :=
          Completes i s (fun m => ended m status count ∧ SameOutside s.m m (.host slot) 32 ∧ p m)
        let opens (i : Instr) (status count : Nat) (p : Module → Prop) : Prop :=
          CompletesOpen i s s.m.fresh (fun m => ended m status count ∧ SameOutside s.m m (.host slot) 32 ∧ p m)
        let ks := [(Reg.HIF_HQSTAT.busy n q).key, (Reg.HIF_HQSTAT.head n q).key]
        let bad := (n ≠ 0 ∧ (t ≠ n ∨ entryOp e = 1 ∨ entryOp e = 2)) ∨ (entryOp e = 2 ∧ t = 0)
        let detail := if s.m.entryOk e = false then 1 else if bad then 2
          else if entryOp e ≠ 1 then (if s.m.ctxState t = 0 then 3 else 0)
          else if (t = 0 ∧ (s.m.ctxState 0 ≠ 1 ∨ s.m.idle0 n q = false)) ∨ (t ≠ 0 ∧ s.m.ctxState t ≠ 0) then 4
          else if ∃ k ∈ List.range 64, k ≠ t ∧ s.m.ctxState k ≠ 0 ∧ s.m.jobOf k = w 2 then 5
          else if s.m.getF Reg.MEM_CTRL.maint = 1 then 6 else if s.m.vfOn t = false then 7 else 0
        let kept (m : Module) : Prop := m.threads = s.m.threads ∧ m.ctxs = s.m.ctxs ∧ m.grids = s.m.grids ∧ m.transfers = s.m.transfers
        (∀ x ∈ rows, (x.2 ≠ entryRow e → same x.1) ∧
          (x.2 = entryRow e → s.m.oos = true → ends x.1 4 0 kept) ∧
          (x.2 = entryRow e → s.m.oos = false → detail ≠ 0 → ends x.1 9 detail (fun m => kept m ∧ Violates s.m m n 5 (0x10110 + 0x20 * q))) ∧
          (x.2 = entryRow e → s.m.oos = false → detail = 0 → entryOp e ≠ 1 → s.m.ctxState t = 2 → ends x.1 4 0 kept)) ∧
        (s.m.oos = false → detail = 0 → (entryOp e ≠ 1 → s.m.ctxState t ≠ 2) →
          (entryOp e = 0 → Effect (.nopCommand c qq) s ks [.hif, .memories] (fun m => ended m 0 0 ∧ SameOutside s.m m (.host slot) 32)) ∧
          (entryOp e = 1 → ends (.ctxCreate c qq) 0 0 (fun m => m.ctxState t = 1 ∧ m.jobOf t = w 2 ∧ m.threads = s.m.threads ∧
            m.getF (Reg.HIF_FRING.base t) = w 4 / 4096 ∧ m.getF (Reg.HIF_FRING.size t) = w 4 % 2 ^ 4 ∧
            (∀ f : Fld, 0x10010 + 0x1000 * t ≤ f.reg → f.reg < 0x10100 + 0x1000 * t → f.lo < 64 → m.getF f = f.rst % 2 ^ f.width) ∧
            m.ctx t = { Context.empty with gen := (s.m.ctx t).gen + 1, root := w 1, seed := e.getD 3 0, wdSince := s.m.pilot } ∧
            (∀ k, k ≠ t → m.ctx k = s.m.ctx k) ∧ SMap.get none m.cp.layouts t = none ∧ m.getF (Reg.FAB_CP_EP.epoch t) = 0 ∧
            m.getF (Reg.LMP_WDOG.state t) = if s.m.getF (Reg.LMP_WDOG.period t) = 0 then 0 else 1)) ∧
          (entryOp e = 2 → s.m.ctxLive t = true → s.m.hqRunning (fun x => entryOp x == 10 && entryTarget x == t) = [] →
            let gone (m : Module) : Prop := ∀ k, (s.m.th k).run ≠ .free → (s.m.th k).ctx = t → (m.th k).run = .free
            (s.m.xferOpen t = false → (s.m.ctx t).touched = [] → Completes (.ctxTeardown c qq) s (fun m => gone m ∧ m.ctxState t = 0 ∧ ended m 0 0)) ∧
            ((∃ d ∈ (s.m.ctx t).touched, s.m.routeLost d = false) → Completes (.ctxTeardown c qq) s (fun m => gone m ∧ m.ctxState t = 2 ∧ waits m))) ∧
          (entryOp e = 3 →
            (s.m.xlatInUse t = true → Effect (.invalidate c qq) s [(Reg.HIF_HQSTAT.busy n q).key] [.hif] waits) ∧
            (s.m.xlatInUse t = false → SMap.wf Core.empty s.m.cores = true → ends (.invalidate c qq) 0 0 (fun m => kept m ∧ ∀ k p,
              SMap.get none (m.core k).tlb p = if (s.m.core k).last.any (fun l => l.1 == t) = true ∧ (w 2 = 0 ∨ (w 1 / 2 ^ 21 ≤ p ∧ p < w 1 / 2 ^ 21 + w 2))
                then none else SMap.get none (s.m.core k).tlb p))) ∧
          (entryOp e = 4 →
            let stopped := (s.m.th (w 1)).run = .stopped ∧ (s.m.th (w 1)).ctx = t
            (¬ stopped → ends (.resume c qq) 0 0 kept) ∧
            (stopped → keyKind (w 1) = 0 → s.m.getF Reg.PWR_STATE.state ≠ 0 → Completes (.resume c qq) s (fun m => waits m ∧ m.threads = s.m.threads)) ∧
            (stopped → (keyKind (w 1) = 0 → s.m.getF Reg.PWR_STATE.state = 0) → (s.m.core (w 1 / 8)).mq = [] → ends (.resume c qq) 0 1 (fun m =>
              m.th (w 1) = { s.m.th (w 1) with run := .running } ∧ ∀ k, k ≠ w 1 → m.th k = s.m.th k))) ∧
          (entryOp e = 5 →
            let d := m1.descRead t (w 1) 4
            let x (i : Nat) : Nat := d.1.getD i 0
            let ok := x 0 < 2 ^ 48 ∧ x 1 < 2 ^ 48 ∧ x 2 < 2 ^ 43 ∧ x 3 < 2 ^ 48 ∧ x 0 % 8 = 0 ∧ x 3 % 32 = 0
            let full := 1024 ≤ (s.m.grids.filter (fun g => !g.waiting.isEmpty)).length
            (w 1 % 32 ≠ 0 → ends (.launch c qq) 0 2 (fun m => kept m ∧ Violates s.m m t 2 (w 1))) ∧
            (w 1 % 32 = 0 → d.2.1 = true → opens (.launch c qq) 0 4 kept) ∧
            (w 1 % 32 = 0 → d.2 = (false, false) → x 3 % 32 ≠ 0 → opens (.launch c qq) 0 0 (fun m => kept m ∧ Violates s.m m t 2 (w 1))) ∧
            (∀ r : Place, w 1 % 32 = 0 → d.2 = (false, false) → s.m.recordPlace t (x 3 % 2 ^ 48) r →
              (∀ y, r.covers 32 y → ¬ (Place.host slot).covers 32 y) →
              let done (status : Nat) (p : Module → Prop) : Prop := CompletesOpen (.launch c qq) s s.m.fresh (fun m => ended m 0 0 ∧
                m.threads = s.m.threads ∧ m.grids = s.m.grids ∧ HasRecord m r status 1 0 0 s.m.pilot ∧ p m)
              (¬ ok → done 9 (fun m => Violates s.m m t 2 (w 1))) ∧ (ok → ¬ full → s.m.usedCores (x 2) = [] → done 0 (fun _ => True))) ∧
            (w 1 % 32 = 0 → d.2 = (false, false) → ok → full → opens (.launch c qq) 0 1 kept) ∧
            (w 1 % 32 = 0 → d.2 = (false, false) → ok → ¬ full → s.m.usedCores (x 2) ≠ [] → opens (.launch c qq) 0 0 (fun m =>
              m.threads = s.m.threads ∧ ∃ g : Grid, m.grids = s.m.grids ++ [g] ∧ g.ctx = t ∧ g.entry = x 0 ∧ g.arg = x 1 ∧ g.completion = x 3 ∧
                g.threads = x 2 / 2 ^ 40 % 8 + 1 ∧ g.cores = s.m.usedCores (x 2) ∧ g.waiting = g.cores))) ∧
          (∀ x ∈ [(Instr.solve c qq, 6), (.adjoint c qq, 7), (.collective c qq, 8)], entryOp e = x.2 → s.m.subHeld = true →
            Effect x.1 s [(Reg.HIF_HQSTAT.busy n q).key] [.hif] waits) ∧
          (∀ x ∈ [(Instr.solve c qq, 6, 64, 8), (.adjoint c qq, 7, 32, 4)], entryOp e = x.2.1 → s.m.subHeld = false →
            let accepts := s.m.getF Reg.SQ_CTRL.accept = 1
            let d := m1.descRead t (w 1) x.2.2.2
            let refused (m : Module) : Prop := kept m ∧ m.sq = s.m.sq ∧ m.getF Reg.SQ_REFUSED.count = (s.m.getF Reg.SQ_REFUSED.count + 1) % 2 ^ 48
            (¬ accepts → ends x.1 0 3 refused) ∧
            (accepts → w 1 % x.2.2.1 ≠ 0 → ends x.1 0 2 (fun m => refused m ∧ Violates s.m m t 2 (w 1))) ∧
            (accepts → w 1 % x.2.2.1 = 0 → d.2 = (false, true) → opens x.1 0 2 (fun m => refused m ∧ Violates s.m m t 2 (w 1))) ∧
            (accepts → w 1 % x.2.2.1 = 0 → d.2.1 = true → opens x.1 0 4 refused)) ∧
          (s.m.subHeld = false → s.m.getF Reg.SQ_CTRL.accept = 1 →
            let queued (m : Module) (y : Submission) (cmp bud k : Nat) (cut adj : Bool) : Prop := m.threads = s.m.threads ∧
              m.sq.subs = s.m.sq.subs ++ [y] ∧ y.ctx = t ∧ y.completion = cmp ∧ y.budget = bud ∧ y.cutoff = cut ∧ y.isAdj = adj ∧
              y.accept = s.m.pilot ∧ y.count = k ∧ y.left = k
            (entryOp e = 6 → w 1 % 64 = 0 →
              let d := m1.descRead t (w 1) 8
              let h (i : Nat) : Nat := d.1.getD i 0
              let k := h 0 / 2 ^ 48 + 1
              let chk := (List.range k).foldl (fun a i => a.problem t (h 0 % 2 ^ 48 + 128 * i)) ({ m := m1, code := 0, probs := [] } : SqCheck)
              d.2 = (false, false) → h 0 % 2 ^ 48 % 128 = 0 → h 1 < 2 ^ 48 → h 1 % 32 = 0 → h 3 ≤ 1 → h 4 = 0 → h 5 = 0 → h 6 = 0 → h 7 = 0 →
              chk.code = 0 → k ≤ s.m.getF Reg.SQ_QUEUE.free → opens (.solve c qq) 0 0 (fun m => ∃ (y : Submission) (l : List Problem),
                queued m y (h 1) (h 2) k (h 3 == 1) false ∧ m.sq.probs = s.m.sq.probs ++ l ∧ l.length = k)) ∧
            (entryOp e = 7 → w 1 % 32 = 0 → ∀ (list : Nat) (z : List Nat),
              let d := m1.descRead t (w 1) 4
              let h (i : Nat) : Nat := d.1.getD i 0
              let x (i : Nat) : Nat := z.getD i 0
              d.2 = (false, false) → list = h 0 → list < 2 ^ 48 → list % 32 = 0 → h 1 < 2 ^ 48 → h 1 % 32 = 0 → h 2 = 0 → h 3 = 0 →
              m1.descRead t list 4 = (z, false, false) → 1 ≤ s.m.getF Reg.SQ_QUEUE.free → x 0 / 2 % 2 ^ 31 = 0 → x 1 < 2 ^ 48 → x 2 < 2 ^ 48 →
              x 3 = 0 → x 1 % 8 = 0 → x 2 % 8 = 0 → (x 1 ≠ 0 ∨ x 0 % 2 = 1) → opens (.adjoint c qq) 0 0 (fun m => ∃ (y : Submission) (a : AdjEntry),
                queued m y (h 1) 0 1 false true ∧ m.sq.entries = s.m.sq.entries ++ [a] ∧ a.ctx = t ∧ a.words = z))) ∧
          (entryOp e = 8 → s.m.subHeld = false →
            let accepts := s.m.getF Reg.FAB_CP_CTRL.accept = 1
            let d := m1.descRead t (w 1) 8
            let g := d.1.getD 0 0 % 2 ^ 48
            let hd := m1.engRead t g 8 1
            let k := hd.words.getD 0 0 / 2 ^ 48 + 1
            let r := m1.engRead t (g + 8) 8 ((k + 3) / 4)
            let members := groupOf k r.words
            let refused (m : Module) : Prop := kept m ∧ m.cp = s.m.cp ∧
              m.getF Reg.FAB_CP_REFUSED.count = (s.m.getF Reg.FAB_CP_REFUSED.count + 1) % 2 ^ 48
            (¬ accepts → ends (.collective c qq) 0 3 refused) ∧
            (accepts → w 1 % 64 ≠ 0 → ends (.collective c qq) 0 2 (fun m => refused m ∧ Violates s.m m t 2 (w 1))) ∧
            (accepts → w 1 % 64 = 0 → d.2 = (false, true) → opens (.collective c qq) 0 2 (fun m => refused m ∧ Violates s.m m t 2 (w 1))) ∧
            (accepts → w 1 % 64 = 0 → d.2.1 = true → opens (.collective c qq) 0 4 refused) ∧
            (accepts → w 1 % 64 = 0 → d.2 = (false, false) → g % 64 = 0 → hd.bad = false → r.bad = false → hd.viols = 0 → r.viols = 0 →
              hd.words.getD 0 0 % 2 ^ 48 = 0 → (k % 4 = 0 ∨ r.words.getD (k / 4) 0 / 2 ^ (16 * (k % 4)) = 0) →
              (members.filter (fun y => y == s.m.myId)).length = 1 → collValid d.1 k = true → s.m.cp.colls.length < 4096 →
              opens (.collective c qq) 0 0 (fun m => m.threads = s.m.threads ∧ m.cp.colls.length = s.m.cp.colls.length + 1 ∧ ∃ y ∈ m.cp.colls,
                y.id = s.m.cp.nextId ∧ y.ctx = t ∧ y.words = d.1 ∧ y.group = members ∧ y.seq = s.m.nextSeq t members))) ∧
          (entryOp e = 9 →
            let d := m1.descRead t (w 1) 4
            let x (i : Nat) : Nat := d.1.getD i 0
            let full := 64 ≤ (s.m.transfers.filter (fun y => y.ctx == t && y.queue == x 0 / 2 ^ 56 % 16)).length
            let turned (m : Module) : Prop := kept m ∧ Violates s.m m t 2 (w 1)
            (w 1 % 32 ≠ 0 → ends (.xfer c qq) 0 2 turned) ∧
            (w 1 % 32 = 0 → d.2 = (false, true) ∨ (d.2 = (false, false) ∧ xferValid d.1 = false) → opens (.xfer c qq) 0 2 turned) ∧
            (w 1 % 32 = 0 → d.2.1 = true → opens (.xfer c qq) 0 4 kept) ∧
            (w 1 % 32 = 0 → d.2 = (false, false) → xferValid d.1 = true → full → opens (.xfer c qq) 0 1 kept) ∧
            (w 1 % 32 = 0 → d.2 = (false, false) → xferValid d.1 = true → ¬ full → opens (.xfer c qq) 0 0 (fun m => m.threads = s.m.threads ∧
              ∃ y : Transfer, m.transfers = s.m.transfers ++ [y] ∧ y.ctx = t ∧ y.queue = x 0 / 2 ^ 56 % 16 ∧ y.state = 0 ∧ y.op = x 0 / 2 ^ 62 ∧
                y.vc = x 0 / 2 ^ 60 % 4 ∧ y.completion = x 0 % 2 ^ 48 ∧ y.src = x 1 ∧ y.dst = x 2 ∧ y.length = x 3))) ∧
          (entryOp e = 10 →
            let f := s.m.transfers.find? (fun y => y.ctx == t && y.completion == w 1)
            (f = none → ends (.abort c qq) 0 2 kept) ∧
            (∀ y, f = some y → y.state = 0 → ends (.abort c qq) 0 1 (fun m => m.transfers = s.m.transfers.filter (fun z => z.id != y.id) ∧
              m.threads = s.m.threads)) ∧
            (∀ y, f = some y → y.state ≠ 0 → y.openTags ≠ [] → Completes (.abort c qq) s (fun m => waits m ∧ SameBytes s.m m ∧
              m.transfers = s.m.transfers.map (fun z => if z.id = y.id then { z with state := 2 } else z)))))))
end

