-- ==== Sys2Proof/Laws/SMap.lean ====
section
/-! SUPPORT. Laws of sparse maps: a read after a write gives the value written, a write leaves every other key alone, and every operation
keeps the canonical form. -/

namespace Sys2Proof.Machine

theorem SMap.get_erase {α : Type} (d : α) (m : SMap α) (k j : Nat) :
    SMap.get d (SMap.erase m k) j = if j = k then d else SMap.get d m j := by
  induction m with
  | nil => simp [SMap.erase, SMap.get]
  | cons p t ih =>
    obtain ⟨a, v⟩ := p
    simp only [SMap.erase] at ih ⊢
    by_cases h : a = k
    · subst h; simp only [List.filter_cons, bne_self_eq_false, Bool.false_eq_true, if_false, ih, SMap.get]
      by_cases hj : j = a
      · simp [hj]
      · simp [hj, Ne.symm hj]
    · simp only [List.filter_cons, bne_iff_ne, ne_eq, h, not_false_eq_true, if_true, SMap.get, ih]
      by_cases hj : a = j
      · subst hj; simp [h]
      · simp [hj]

theorem SMap.get_insert_ne {α : Type} (d v : α) (m : SMap α) (k j : Nat) (h : j ≠ k) :
    SMap.get d (SMap.insert k v m) j = SMap.get d m j := by
  induction m with
  | nil => simp [SMap.insert, SMap.get, Ne.symm h]
  | cons p t ih =>
    obtain ⟨a, w⟩ := p
    simp only [SMap.insert]
    split <;> simp [SMap.get, Ne.symm h, ih]

theorem SMap.get_insert_self {α : Type} (d v : α) (m : SMap α) (k : Nat) (h : ∀ p ∈ m, p.1 ≠ k) :
    SMap.get d (SMap.insert k v m) k = v := by
  induction m with
  | nil => simp [SMap.insert, SMap.get]
  | cons p t ih =>
    obtain ⟨a, w⟩ := p
    simp only [SMap.insert]
    split
    · simp [SMap.get]
    · have ha : a ≠ k := h (a, w) (by simp)
      simp only [SMap.get, ha, if_false]
      exact ih (fun p hp => h p (by simp [hp]))

theorem SMap.erase_ne {α : Type} (m : SMap α) (k : Nat) : ∀ p ∈ SMap.erase m k, p.1 ≠ k := by
  intro p hp
  simpa using (List.mem_filter.mp hp).2

/-- A read after a write. -/
theorem SMap.get_set {α : Type} [DecidableEq α] (d : α) (m : SMap α) (k j : Nat) (v : α) :
    SMap.get d (SMap.set d m k v) j = if j = k then v else SMap.get d m j := by
  unfold SMap.set
  by_cases hv : v = d
  · simp [hv, SMap.get_erase]
  · simp only [hv, if_false]
    by_cases hj : j = k
    · subst hj
      simp [SMap.get_insert_self d v _ j (SMap.erase_ne m j)]
    · simp [hj, SMap.get_insert_ne d v _ k j hj, SMap.get_erase]

@[simp] theorem SMap.get_set_self {α : Type} [DecidableEq α] (d : α) (m : SMap α) (k : Nat) (v : α) :
    SMap.get d (SMap.set d m k v) k = v := by simp [SMap.get_set]

@[simp] theorem SMap.get_nil {α : Type} (d : α) (k : Nat) : SMap.get d [] k = d := rfl

theorem SMap.get_set_ne {α : Type} [DecidableEq α] (d : α) (m : SMap α) (k j : Nat) (v : α) (h : j ≠ k) :
    SMap.get d (SMap.set d m k v) j = SMap.get d m j := by simp [SMap.get_set, h]

@[simp] theorem SMap.get_modify {α : Type} [DecidableEq α] (d : α) (m : SMap α) (k j : Nat) (f : α → α) :
    SMap.get d (SMap.modify d m k f) j = if j = k then f (SMap.get d m k) else SMap.get d m j := by
  simp [SMap.modify, SMap.get_set]

theorem SMap.get_keep {α : Type} (d : α) (m : SMap α) (p : Nat → Bool) (k : Nat) :
    SMap.get d (SMap.keep m p) k = if p k then SMap.get d m k else d := by
  induction m with
  | nil => simp [SMap.keep, SMap.get]
  | cons e t ih =>
    obtain ⟨a, v⟩ := e
    simp only [SMap.keep] at ih ⊢
    by_cases hp : p a
    · simp only [List.filter_cons, hp, if_true, SMap.get, ih]
      by_cases hk : a = k
      · subst hk; simp [hp]
      · simp [hk]
    · simp only [List.filter_cons, hp, Bool.false_eq_true, if_false, ih, SMap.get]
      by_cases hk : a = k
      · subst hk; simp [hp]
      · simp [hk]

/-! ### The canonical form -/

theorem SMap.risingFrom_mono {α : Type} (m : SMap α) : ∀ lo lo', lo' ≤ lo → SMap.risingFrom lo m = true → SMap.risingFrom lo' m = true := by
  cases m with
  | nil => intros; rfl
  | cons p t =>
    intro lo lo' h
    simp only [SMap.risingFrom, Bool.and_eq_true, decide_eq_true_eq]
    exact fun ⟨a, b⟩ => ⟨Nat.le_trans h a, b⟩

theorem SMap.risingFrom_filter {α : Type} (m : SMap α) (f : Nat × α → Bool) :
    ∀ lo, SMap.risingFrom lo m = true → SMap.risingFrom lo (m.filter f) = true := by
  induction m with
  | nil => intros; rfl
  | cons p t ih =>
    intro lo h
    simp only [SMap.risingFrom, Bool.and_eq_true, decide_eq_true_eq] at h
    simp only [List.filter_cons]
    split
    · simp only [SMap.risingFrom, Bool.and_eq_true, decide_eq_true_eq]
      exact ⟨h.1, ih _ h.2⟩
    · exact SMap.risingFrom_mono _ (p.1 + 1) lo (by omega) (ih _ h.2)

theorem SMap.risingFrom_insert {α : Type} (k : Nat) (v : α) (m : SMap α) (hk : ∀ p ∈ m, p.1 ≠ k) :
    ∀ lo, lo ≤ k → SMap.risingFrom lo m = true → SMap.risingFrom lo (SMap.insert k v m) = true := by
  induction m with
  | nil => intro lo h _; simp [SMap.insert, SMap.risingFrom, h]
  | cons p t ih =>
    obtain ⟨a, w⟩ := p
    intro lo hl h
    simp only [SMap.risingFrom, Bool.and_eq_true, decide_eq_true_eq] at h
    have ha : a ≠ k := hk (a, w) (by simp)
    simp only [SMap.insert]
    split
    · rename_i hlt
      simp only [SMap.risingFrom, Bool.and_eq_true, decide_eq_true_eq]
      exact ⟨hl, by omega, h.2⟩
    · simp only [SMap.risingFrom, Bool.and_eq_true, decide_eq_true_eq]
      exact ⟨h.1, ih (fun p hp => hk p (by simp [hp])) _ (by omega) h.2⟩

theorem SMap.mem_insert {α : Type} (k : Nat) (v : α) (m : SMap α) (p : Nat × α) :
    p ∈ SMap.insert k v m → p = (k, v) ∨ p ∈ m := by
  induction m with
  | nil => simp [SMap.insert]
  | cons q t ih =>
    obtain ⟨a, w⟩ := q
    simp only [SMap.insert]
    split
    · simp
    · simp only [List.mem_cons]
      rintro (h | h)
      · exact .inr (.inl h)
      · rcases ih h with h | h
        · exact .inl h
        · exact .inr (.inr h)

theorem SMap.wf_iff {α : Type} [DecidableEq α] (d : α) (m : SMap α) :
    SMap.wf d m = true ↔ SMap.risingFrom 0 m = true ∧ ∀ p ∈ m, p.2 ≠ d := by
  simp [SMap.wf]

theorem SMap.wf_filter {α : Type} [DecidableEq α] (d : α) (m : SMap α) (f : Nat × α → Bool) (h : SMap.wf d m = true) :
    SMap.wf d (m.filter f) = true := by
  rw [SMap.wf_iff] at h ⊢
  exact ⟨SMap.risingFrom_filter m f 0 h.1, fun p hp => h.2 p (List.mem_filter.mp hp).1⟩

theorem SMap.wf_keep {α : Type} [DecidableEq α] (d : α) (m : SMap α) (p : Nat → Bool) (h : SMap.wf d m = true) :
    SMap.wf d (SMap.keep m p) = true := SMap.wf_filter d m _ h

@[simp] theorem SMap.wf_nil {α : Type} [DecidableEq α] (d : α) : SMap.wf d [] = true := rfl

/-- A write keeps the canonical form. -/
theorem SMap.wf_set {α : Type} [DecidableEq α] (d : α) (m : SMap α) (k : Nat) (v : α) (h : SMap.wf d m = true) :
    SMap.wf d (SMap.set d m k v) = true := by
  unfold SMap.set
  have he : SMap.wf d (SMap.erase m k) = true := SMap.wf_filter d m _ h
  split
  · exact he
  · rename_i hv
    rw [SMap.wf_iff] at he ⊢
    refine ⟨SMap.risingFrom_insert k v _ (SMap.erase_ne m k) 0 (Nat.zero_le _) he.1, fun p hp => ?_⟩
    rcases SMap.mem_insert k v _ p hp with rfl | hp
    · exact hv
    · exact he.2 p hp

/-- What a write does to the rest of the map. -/
theorem SMap.erase_set {α : Type} [DecidableEq α] (d : α) (m : SMap α) (k : Nat) (v : α) :
    SMap.erase (SMap.set d m k v) k = SMap.erase m k := by
  have hee : SMap.erase (SMap.erase m k) k = SMap.erase m k := by simp [SMap.erase, List.filter_filter]
  have hins : ∀ t : SMap α, SMap.erase (SMap.insert k v t) k = SMap.erase t k := by
    intro t
    induction t with
    | nil => simp [SMap.insert, SMap.erase]
    | cons q t ih =>
      obtain ⟨a, w⟩ := q
      simp only [SMap.erase] at ih
      simp only [SMap.insert]
      split <;> simp [SMap.erase, List.filter_cons, ih]
  unfold SMap.set
  split
  · exact hee
  · rw [hins, hee]

theorem SMap.keep_set {α : Type} [DecidableEq α] (d : α) (m : SMap α) (k : Nat) (v : α) (p : Nat → Bool) (hp : p k = false) :
    SMap.keep (SMap.set d m k v) p = SMap.keep m p := by
  have he : SMap.keep (SMap.erase m k) p = SMap.keep m p := by
    simp only [SMap.keep, SMap.erase, List.filter_filter]
    apply List.filter_congr
    intro x _
    by_cases hx : x.1 = k
    · simp [hx, hp]
    · simp [hx]
  have hins : ∀ t : SMap α, SMap.keep (SMap.insert k v t) p = SMap.keep t p := by
    intro t
    induction t with
    | nil => simp [SMap.insert, SMap.keep, hp]
    | cons q t ih =>
      obtain ⟨a, w⟩ := q
      simp only [SMap.keep] at ih
      simp only [SMap.insert]
      split <;> simp [SMap.keep, List.filter_cons, ih, hp]
  unfold SMap.set
  split
  · exact he
  · rw [hins, he]

end Sys2Proof.Machine
end

