-- ==== Sys2Proof/Laws/State.lean ====
section
/-! SUPPORT. What each update of the module leaves unchanged, one lemma for each field and update; what it writes; and reads of fields,
threads, cores, contexts and ports after a write. -/

namespace Sys2Proof.Machine

variable (m : Module)

/-! ### setF -/

@[simp] theorem Module.setF_pilot (f : Fld) (v : Nat) : (m.setF f v).pilot = m.pilot := rfl
@[simp] theorem Module.setF_threads (f : Fld) (v : Nat) : (m.setF f v).threads = m.threads := rfl
@[simp] theorem Module.setF_cores (f : Fld) (v : Nat) : (m.setF f v).cores = m.cores := rfl
@[simp] theorem Module.setF_ctxs (f : Fld) (v : Nat) : (m.setF f v).ctxs = m.ctxs := rfl
@[simp] theorem Module.setF_grids (f : Fld) (v : Nat) : (m.setF f v).grids = m.grids := rfl
@[simp] theorem Module.setF_nextGrid (f : Fld) (v : Nat) : (m.setF f v).nextGrid = m.nextGrid := rfl
@[simp] theorem Module.setF_transfers (f : Fld) (v : Nat) : (m.setF f v).transfers = m.transfers := rfl
@[simp] theorem Module.setF_nextXfer (f : Fld) (v : Nat) : (m.setF f v).nextXfer = m.nextXfer := rfl
@[simp] theorem Module.setF_ms (f : Fld) (v : Nat) : (m.setF f v).ms = m.ms := rfl
@[simp] theorem Module.setF_evc (f : Fld) (v : Nat) : (m.setF f v).evc = m.evc := rfl
@[simp] theorem Module.setF_pmc (f : Fld) (v : Nat) : (m.setF f v).pmc = m.pmc := rfl
@[simp] theorem Module.setF_fab (f : Fld) (v : Nat) : (m.setF f v).fab = m.fab := rfl
@[simp] theorem Module.setF_pwr (f : Fld) (v : Nat) : (m.setF f v).pwr = m.pwr := rfl
@[simp] theorem Module.setF_hif (f : Fld) (v : Nat) : (m.setF f v).hif = m.hif := rfl
@[simp] theorem Module.setF_sq (f : Fld) (v : Nat) : (m.setF f v).sq = m.sq := rfl
@[simp] theorem Module.setF_hmp (f : Fld) (v : Nat) : (m.setF f v).hmp = m.hmp := rfl
@[simp] theorem Module.setF_cp (f : Fld) (v : Nat) : (m.setF f v).cp = m.cp := rfl
@[simp] theorem Module.setF_esc (f : Fld) (v : Nat) : (m.setF f v).esc = m.esc := rfl
@[simp] theorem Module.setF_lmp (f : Fld) (v : Nat) : (m.setF f v).lmp = m.lmp := rfl
@[simp] theorem Module.setF_capture (f : Fld) (v : Nat) : (m.setF f v).capture = m.capture := rfl
@[simp] theorem Module.setF_retry (f : Fld) (v : Nat) : (m.setF f v).retry = m.retry := rfl
@[simp] theorem Module.setF_free (f : Fld) (v : Nat) : (m.setF f v).free = m.free := rfl
@[simp] theorem Module.setF_out (f : Fld) (v : Nat) : (m.setF f v).out = m.out := rfl

/-! ### addF -/

@[simp] theorem Module.addF_pilot (f : Fld) (v : Nat) : (m.addF f v).pilot = m.pilot := rfl
@[simp] theorem Module.addF_threads (f : Fld) (v : Nat) : (m.addF f v).threads = m.threads := rfl
@[simp] theorem Module.addF_cores (f : Fld) (v : Nat) : (m.addF f v).cores = m.cores := rfl
@[simp] theorem Module.addF_ctxs (f : Fld) (v : Nat) : (m.addF f v).ctxs = m.ctxs := rfl
@[simp] theorem Module.addF_grids (f : Fld) (v : Nat) : (m.addF f v).grids = m.grids := rfl
@[simp] theorem Module.addF_nextGrid (f : Fld) (v : Nat) : (m.addF f v).nextGrid = m.nextGrid := rfl
@[simp] theorem Module.addF_transfers (f : Fld) (v : Nat) : (m.addF f v).transfers = m.transfers := rfl
@[simp] theorem Module.addF_nextXfer (f : Fld) (v : Nat) : (m.addF f v).nextXfer = m.nextXfer := rfl
@[simp] theorem Module.addF_ms (f : Fld) (v : Nat) : (m.addF f v).ms = m.ms := rfl
@[simp] theorem Module.addF_evc (f : Fld) (v : Nat) : (m.addF f v).evc = m.evc := rfl
@[simp] theorem Module.addF_pmc (f : Fld) (v : Nat) : (m.addF f v).pmc = m.pmc := rfl
@[simp] theorem Module.addF_fab (f : Fld) (v : Nat) : (m.addF f v).fab = m.fab := rfl
@[simp] theorem Module.addF_pwr (f : Fld) (v : Nat) : (m.addF f v).pwr = m.pwr := rfl
@[simp] theorem Module.addF_hif (f : Fld) (v : Nat) : (m.addF f v).hif = m.hif := rfl
@[simp] theorem Module.addF_sq (f : Fld) (v : Nat) : (m.addF f v).sq = m.sq := rfl
@[simp] theorem Module.addF_hmp (f : Fld) (v : Nat) : (m.addF f v).hmp = m.hmp := rfl
@[simp] theorem Module.addF_cp (f : Fld) (v : Nat) : (m.addF f v).cp = m.cp := rfl
@[simp] theorem Module.addF_esc (f : Fld) (v : Nat) : (m.addF f v).esc = m.esc := rfl
@[simp] theorem Module.addF_lmp (f : Fld) (v : Nat) : (m.addF f v).lmp = m.lmp := rfl
@[simp] theorem Module.addF_capture (f : Fld) (v : Nat) : (m.addF f v).capture = m.capture := rfl
@[simp] theorem Module.addF_retry (f : Fld) (v : Nat) : (m.addF f v).retry = m.retry := rfl
@[simp] theorem Module.addF_free (f : Fld) (v : Nat) : (m.addF f v).free = m.free := rfl
@[simp] theorem Module.addF_out (f : Fld) (v : Nat) : (m.addF f v).out = m.out := rfl

/-! ### setTh -/

@[simp] theorem Module.setTh_pilot (k : Nat) (t : Thread) : (m.setTh k t).pilot = m.pilot := rfl
@[simp] theorem Module.setTh_fields (k : Nat) (t : Thread) : (m.setTh k t).fields = m.fields := rfl
@[simp] theorem Module.setTh_cores (k : Nat) (t : Thread) : (m.setTh k t).cores = m.cores := rfl
@[simp] theorem Module.setTh_ctxs (k : Nat) (t : Thread) : (m.setTh k t).ctxs = m.ctxs := rfl
@[simp] theorem Module.setTh_grids (k : Nat) (t : Thread) : (m.setTh k t).grids = m.grids := rfl
@[simp] theorem Module.setTh_nextGrid (k : Nat) (t : Thread) : (m.setTh k t).nextGrid = m.nextGrid := rfl
@[simp] theorem Module.setTh_transfers (k : Nat) (t : Thread) : (m.setTh k t).transfers = m.transfers := rfl
@[simp] theorem Module.setTh_nextXfer (k : Nat) (t : Thread) : (m.setTh k t).nextXfer = m.nextXfer := rfl
@[simp] theorem Module.setTh_ms (k : Nat) (t : Thread) : (m.setTh k t).ms = m.ms := rfl
@[simp] theorem Module.setTh_evc (k : Nat) (t : Thread) : (m.setTh k t).evc = m.evc := rfl
@[simp] theorem Module.setTh_pmc (k : Nat) (t : Thread) : (m.setTh k t).pmc = m.pmc := rfl
@[simp] theorem Module.setTh_fab (k : Nat) (t : Thread) : (m.setTh k t).fab = m.fab := rfl
@[simp] theorem Module.setTh_pwr (k : Nat) (t : Thread) : (m.setTh k t).pwr = m.pwr := rfl
@[simp] theorem Module.setTh_hif (k : Nat) (t : Thread) : (m.setTh k t).hif = m.hif := rfl
@[simp] theorem Module.setTh_sq (k : Nat) (t : Thread) : (m.setTh k t).sq = m.sq := rfl
@[simp] theorem Module.setTh_hmp (k : Nat) (t : Thread) : (m.setTh k t).hmp = m.hmp := rfl
@[simp] theorem Module.setTh_cp (k : Nat) (t : Thread) : (m.setTh k t).cp = m.cp := rfl
@[simp] theorem Module.setTh_esc (k : Nat) (t : Thread) : (m.setTh k t).esc = m.esc := rfl
@[simp] theorem Module.setTh_lmp (k : Nat) (t : Thread) : (m.setTh k t).lmp = m.lmp := rfl
@[simp] theorem Module.setTh_capture (k : Nat) (t : Thread) : (m.setTh k t).capture = m.capture := rfl
@[simp] theorem Module.setTh_retry (k : Nat) (t : Thread) : (m.setTh k t).retry = m.retry := rfl
@[simp] theorem Module.setTh_free (k : Nat) (t : Thread) : (m.setTh k t).free = m.free := rfl
@[simp] theorem Module.setTh_out (k : Nat) (t : Thread) : (m.setTh k t).out = m.out := rfl

/-! ### setCore -/

@[simp] theorem Module.setCore_pilot (k : Nat) (c : Core) : (m.setCore k c).pilot = m.pilot := rfl
@[simp] theorem Module.setCore_fields (k : Nat) (c : Core) : (m.setCore k c).fields = m.fields := rfl
@[simp] theorem Module.setCore_threads (k : Nat) (c : Core) : (m.setCore k c).threads = m.threads := rfl
@[simp] theorem Module.setCore_ctxs (k : Nat) (c : Core) : (m.setCore k c).ctxs = m.ctxs := rfl
@[simp] theorem Module.setCore_grids (k : Nat) (c : Core) : (m.setCore k c).grids = m.grids := rfl
@[simp] theorem Module.setCore_nextGrid (k : Nat) (c : Core) : (m.setCore k c).nextGrid = m.nextGrid := rfl
@[simp] theorem Module.setCore_transfers (k : Nat) (c : Core) : (m.setCore k c).transfers = m.transfers := rfl
@[simp] theorem Module.setCore_nextXfer (k : Nat) (c : Core) : (m.setCore k c).nextXfer = m.nextXfer := rfl
@[simp] theorem Module.setCore_ms (k : Nat) (c : Core) : (m.setCore k c).ms = m.ms := rfl
@[simp] theorem Module.setCore_evc (k : Nat) (c : Core) : (m.setCore k c).evc = m.evc := rfl
@[simp] theorem Module.setCore_pmc (k : Nat) (c : Core) : (m.setCore k c).pmc = m.pmc := rfl
@[simp] theorem Module.setCore_fab (k : Nat) (c : Core) : (m.setCore k c).fab = m.fab := rfl
@[simp] theorem Module.setCore_pwr (k : Nat) (c : Core) : (m.setCore k c).pwr = m.pwr := rfl
@[simp] theorem Module.setCore_hif (k : Nat) (c : Core) : (m.setCore k c).hif = m.hif := rfl
@[simp] theorem Module.setCore_sq (k : Nat) (c : Core) : (m.setCore k c).sq = m.sq := rfl
@[simp] theorem Module.setCore_hmp (k : Nat) (c : Core) : (m.setCore k c).hmp = m.hmp := rfl
@[simp] theorem Module.setCore_cp (k : Nat) (c : Core) : (m.setCore k c).cp = m.cp := rfl
@[simp] theorem Module.setCore_esc (k : Nat) (c : Core) : (m.setCore k c).esc = m.esc := rfl
@[simp] theorem Module.setCore_lmp (k : Nat) (c : Core) : (m.setCore k c).lmp = m.lmp := rfl
@[simp] theorem Module.setCore_capture (k : Nat) (c : Core) : (m.setCore k c).capture = m.capture := rfl
@[simp] theorem Module.setCore_retry (k : Nat) (c : Core) : (m.setCore k c).retry = m.retry := rfl
@[simp] theorem Module.setCore_free (k : Nat) (c : Core) : (m.setCore k c).free = m.free := rfl
@[simp] theorem Module.setCore_out (k : Nat) (c : Core) : (m.setCore k c).out = m.out := rfl

/-! ### setCtx -/

@[simp] theorem Module.setCtx_pilot (n : Nat) (c : Context) : (m.setCtx n c).pilot = m.pilot := rfl
@[simp] theorem Module.setCtx_fields (n : Nat) (c : Context) : (m.setCtx n c).fields = m.fields := rfl
@[simp] theorem Module.setCtx_threads (n : Nat) (c : Context) : (m.setCtx n c).threads = m.threads := rfl
@[simp] theorem Module.setCtx_cores (n : Nat) (c : Context) : (m.setCtx n c).cores = m.cores := rfl
@[simp] theorem Module.setCtx_grids (n : Nat) (c : Context) : (m.setCtx n c).grids = m.grids := rfl
@[simp] theorem Module.setCtx_nextGrid (n : Nat) (c : Context) : (m.setCtx n c).nextGrid = m.nextGrid := rfl
@[simp] theorem Module.setCtx_transfers (n : Nat) (c : Context) : (m.setCtx n c).transfers = m.transfers := rfl
@[simp] theorem Module.setCtx_nextXfer (n : Nat) (c : Context) : (m.setCtx n c).nextXfer = m.nextXfer := rfl
@[simp] theorem Module.setCtx_ms (n : Nat) (c : Context) : (m.setCtx n c).ms = m.ms := rfl
@[simp] theorem Module.setCtx_evc (n : Nat) (c : Context) : (m.setCtx n c).evc = m.evc := rfl
@[simp] theorem Module.setCtx_pmc (n : Nat) (c : Context) : (m.setCtx n c).pmc = m.pmc := rfl
@[simp] theorem Module.setCtx_fab (n : Nat) (c : Context) : (m.setCtx n c).fab = m.fab := rfl
@[simp] theorem Module.setCtx_pwr (n : Nat) (c : Context) : (m.setCtx n c).pwr = m.pwr := rfl
@[simp] theorem Module.setCtx_hif (n : Nat) (c : Context) : (m.setCtx n c).hif = m.hif := rfl
@[simp] theorem Module.setCtx_sq (n : Nat) (c : Context) : (m.setCtx n c).sq = m.sq := rfl
@[simp] theorem Module.setCtx_hmp (n : Nat) (c : Context) : (m.setCtx n c).hmp = m.hmp := rfl
@[simp] theorem Module.setCtx_cp (n : Nat) (c : Context) : (m.setCtx n c).cp = m.cp := rfl
@[simp] theorem Module.setCtx_esc (n : Nat) (c : Context) : (m.setCtx n c).esc = m.esc := rfl
@[simp] theorem Module.setCtx_lmp (n : Nat) (c : Context) : (m.setCtx n c).lmp = m.lmp := rfl
@[simp] theorem Module.setCtx_capture (n : Nat) (c : Context) : (m.setCtx n c).capture = m.capture := rfl
@[simp] theorem Module.setCtx_retry (n : Nat) (c : Context) : (m.setCtx n c).retry = m.retry := rfl
@[simp] theorem Module.setCtx_free (n : Nat) (c : Context) : (m.setCtx n c).free = m.free := rfl
@[simp] theorem Module.setCtx_out (n : Nat) (c : Context) : (m.setCtx n c).out = m.out := rfl

/-! ### setMs -/

@[simp] theorem Module.setMs_pilot (x : MemSys) : (m.setMs x).pilot = m.pilot := rfl
@[simp] theorem Module.setMs_fields (x : MemSys) : (m.setMs x).fields = m.fields := rfl
@[simp] theorem Module.setMs_threads (x : MemSys) : (m.setMs x).threads = m.threads := rfl
@[simp] theorem Module.setMs_cores (x : MemSys) : (m.setMs x).cores = m.cores := rfl
@[simp] theorem Module.setMs_ctxs (x : MemSys) : (m.setMs x).ctxs = m.ctxs := rfl
@[simp] theorem Module.setMs_grids (x : MemSys) : (m.setMs x).grids = m.grids := rfl
@[simp] theorem Module.setMs_nextGrid (x : MemSys) : (m.setMs x).nextGrid = m.nextGrid := rfl
@[simp] theorem Module.setMs_transfers (x : MemSys) : (m.setMs x).transfers = m.transfers := rfl
@[simp] theorem Module.setMs_nextXfer (x : MemSys) : (m.setMs x).nextXfer = m.nextXfer := rfl
@[simp] theorem Module.setMs_evc (x : MemSys) : (m.setMs x).evc = m.evc := rfl
@[simp] theorem Module.setMs_pmc (x : MemSys) : (m.setMs x).pmc = m.pmc := rfl
@[simp] theorem Module.setMs_fab (x : MemSys) : (m.setMs x).fab = m.fab := rfl
@[simp] theorem Module.setMs_pwr (x : MemSys) : (m.setMs x).pwr = m.pwr := rfl
@[simp] theorem Module.setMs_hif (x : MemSys) : (m.setMs x).hif = m.hif := rfl
@[simp] theorem Module.setMs_sq (x : MemSys) : (m.setMs x).sq = m.sq := rfl
@[simp] theorem Module.setMs_hmp (x : MemSys) : (m.setMs x).hmp = m.hmp := rfl
@[simp] theorem Module.setMs_cp (x : MemSys) : (m.setMs x).cp = m.cp := rfl
@[simp] theorem Module.setMs_esc (x : MemSys) : (m.setMs x).esc = m.esc := rfl
@[simp] theorem Module.setMs_lmp (x : MemSys) : (m.setMs x).lmp = m.lmp := rfl
@[simp] theorem Module.setMs_capture (x : MemSys) : (m.setMs x).capture = m.capture := rfl
@[simp] theorem Module.setMs_retry (x : MemSys) : (m.setMs x).retry = m.retry := rfl
@[simp] theorem Module.setMs_free (x : MemSys) : (m.setMs x).free = m.free := rfl
@[simp] theorem Module.setMs_out (x : MemSys) : (m.setMs x).out = m.out := rfl

/-! ### setFab -/

@[simp] theorem Module.setFab_pilot (x : Fab) : (m.setFab x).pilot = m.pilot := rfl
@[simp] theorem Module.setFab_fields (x : Fab) : (m.setFab x).fields = m.fields := rfl
@[simp] theorem Module.setFab_threads (x : Fab) : (m.setFab x).threads = m.threads := rfl
@[simp] theorem Module.setFab_cores (x : Fab) : (m.setFab x).cores = m.cores := rfl
@[simp] theorem Module.setFab_ctxs (x : Fab) : (m.setFab x).ctxs = m.ctxs := rfl
@[simp] theorem Module.setFab_grids (x : Fab) : (m.setFab x).grids = m.grids := rfl
@[simp] theorem Module.setFab_nextGrid (x : Fab) : (m.setFab x).nextGrid = m.nextGrid := rfl
@[simp] theorem Module.setFab_transfers (x : Fab) : (m.setFab x).transfers = m.transfers := rfl
@[simp] theorem Module.setFab_nextXfer (x : Fab) : (m.setFab x).nextXfer = m.nextXfer := rfl
@[simp] theorem Module.setFab_ms (x : Fab) : (m.setFab x).ms = m.ms := rfl
@[simp] theorem Module.setFab_evc (x : Fab) : (m.setFab x).evc = m.evc := rfl
@[simp] theorem Module.setFab_pmc (x : Fab) : (m.setFab x).pmc = m.pmc := rfl
@[simp] theorem Module.setFab_pwr (x : Fab) : (m.setFab x).pwr = m.pwr := rfl
@[simp] theorem Module.setFab_hif (x : Fab) : (m.setFab x).hif = m.hif := rfl
@[simp] theorem Module.setFab_sq (x : Fab) : (m.setFab x).sq = m.sq := rfl
@[simp] theorem Module.setFab_hmp (x : Fab) : (m.setFab x).hmp = m.hmp := rfl
@[simp] theorem Module.setFab_cp (x : Fab) : (m.setFab x).cp = m.cp := rfl
@[simp] theorem Module.setFab_esc (x : Fab) : (m.setFab x).esc = m.esc := rfl
@[simp] theorem Module.setFab_lmp (x : Fab) : (m.setFab x).lmp = m.lmp := rfl
@[simp] theorem Module.setFab_capture (x : Fab) : (m.setFab x).capture = m.capture := rfl
@[simp] theorem Module.setFab_retry (x : Fab) : (m.setFab x).retry = m.retry := rfl
@[simp] theorem Module.setFab_free (x : Fab) : (m.setFab x).free = m.free := rfl
@[simp] theorem Module.setFab_out (x : Fab) : (m.setFab x).out = m.out := rfl

/-! ### setPort -/

@[simp] theorem Module.setPort_pilot (p : Nat) (x : Port) : (m.setPort p x).pilot = m.pilot := rfl
@[simp] theorem Module.setPort_fields (p : Nat) (x : Port) : (m.setPort p x).fields = m.fields := rfl
@[simp] theorem Module.setPort_threads (p : Nat) (x : Port) : (m.setPort p x).threads = m.threads := rfl
@[simp] theorem Module.setPort_cores (p : Nat) (x : Port) : (m.setPort p x).cores = m.cores := rfl
@[simp] theorem Module.setPort_ctxs (p : Nat) (x : Port) : (m.setPort p x).ctxs = m.ctxs := rfl
@[simp] theorem Module.setPort_grids (p : Nat) (x : Port) : (m.setPort p x).grids = m.grids := rfl
@[simp] theorem Module.setPort_nextGrid (p : Nat) (x : Port) : (m.setPort p x).nextGrid = m.nextGrid := rfl
@[simp] theorem Module.setPort_transfers (p : Nat) (x : Port) : (m.setPort p x).transfers = m.transfers := rfl
@[simp] theorem Module.setPort_nextXfer (p : Nat) (x : Port) : (m.setPort p x).nextXfer = m.nextXfer := rfl
@[simp] theorem Module.setPort_ms (p : Nat) (x : Port) : (m.setPort p x).ms = m.ms := rfl
@[simp] theorem Module.setPort_evc (p : Nat) (x : Port) : (m.setPort p x).evc = m.evc := rfl
@[simp] theorem Module.setPort_pmc (p : Nat) (x : Port) : (m.setPort p x).pmc = m.pmc := rfl
@[simp] theorem Module.setPort_pwr (p : Nat) (x : Port) : (m.setPort p x).pwr = m.pwr := rfl
@[simp] theorem Module.setPort_hif (p : Nat) (x : Port) : (m.setPort p x).hif = m.hif := rfl
@[simp] theorem Module.setPort_sq (p : Nat) (x : Port) : (m.setPort p x).sq = m.sq := rfl
@[simp] theorem Module.setPort_hmp (p : Nat) (x : Port) : (m.setPort p x).hmp = m.hmp := rfl
@[simp] theorem Module.setPort_cp (p : Nat) (x : Port) : (m.setPort p x).cp = m.cp := rfl
@[simp] theorem Module.setPort_esc (p : Nat) (x : Port) : (m.setPort p x).esc = m.esc := rfl
@[simp] theorem Module.setPort_lmp (p : Nat) (x : Port) : (m.setPort p x).lmp = m.lmp := rfl
@[simp] theorem Module.setPort_capture (p : Nat) (x : Port) : (m.setPort p x).capture = m.capture := rfl
@[simp] theorem Module.setPort_retry (p : Nat) (x : Port) : (m.setPort p x).retry = m.retry := rfl
@[simp] theorem Module.setPort_free (p : Nat) (x : Port) : (m.setPort p x).free = m.free := rfl
@[simp] theorem Module.setPort_out (p : Nat) (x : Port) : (m.setPort p x).out = m.out := rfl

/-! ### setSource -/

@[simp] theorem Module.setSource_pilot (i : Nat) (x : Source) : (m.setSource i x).pilot = m.pilot := rfl
@[simp] theorem Module.setSource_fields (i : Nat) (x : Source) : (m.setSource i x).fields = m.fields := rfl
@[simp] theorem Module.setSource_threads (i : Nat) (x : Source) : (m.setSource i x).threads = m.threads := rfl
@[simp] theorem Module.setSource_cores (i : Nat) (x : Source) : (m.setSource i x).cores = m.cores := rfl
@[simp] theorem Module.setSource_ctxs (i : Nat) (x : Source) : (m.setSource i x).ctxs = m.ctxs := rfl
@[simp] theorem Module.setSource_grids (i : Nat) (x : Source) : (m.setSource i x).grids = m.grids := rfl
@[simp] theorem Module.setSource_nextGrid (i : Nat) (x : Source) : (m.setSource i x).nextGrid = m.nextGrid := rfl
@[simp] theorem Module.setSource_transfers (i : Nat) (x : Source) : (m.setSource i x).transfers = m.transfers := rfl
@[simp] theorem Module.setSource_nextXfer (i : Nat) (x : Source) : (m.setSource i x).nextXfer = m.nextXfer := rfl
@[simp] theorem Module.setSource_ms (i : Nat) (x : Source) : (m.setSource i x).ms = m.ms := rfl
@[simp] theorem Module.setSource_pmc (i : Nat) (x : Source) : (m.setSource i x).pmc = m.pmc := rfl
@[simp] theorem Module.setSource_fab (i : Nat) (x : Source) : (m.setSource i x).fab = m.fab := rfl
@[simp] theorem Module.setSource_pwr (i : Nat) (x : Source) : (m.setSource i x).pwr = m.pwr := rfl
@[simp] theorem Module.setSource_hif (i : Nat) (x : Source) : (m.setSource i x).hif = m.hif := rfl
@[simp] theorem Module.setSource_sq (i : Nat) (x : Source) : (m.setSource i x).sq = m.sq := rfl
@[simp] theorem Module.setSource_hmp (i : Nat) (x : Source) : (m.setSource i x).hmp = m.hmp := rfl
@[simp] theorem Module.setSource_cp (i : Nat) (x : Source) : (m.setSource i x).cp = m.cp := rfl
@[simp] theorem Module.setSource_esc (i : Nat) (x : Source) : (m.setSource i x).esc = m.esc := rfl
@[simp] theorem Module.setSource_lmp (i : Nat) (x : Source) : (m.setSource i x).lmp = m.lmp := rfl
@[simp] theorem Module.setSource_capture (i : Nat) (x : Source) : (m.setSource i x).capture = m.capture := rfl
@[simp] theorem Module.setSource_retry (i : Nat) (x : Source) : (m.setSource i x).retry = m.retry := rfl
@[simp] theorem Module.setSource_free (i : Nat) (x : Source) : (m.setSource i x).free = m.free := rfl
@[simp] theorem Module.setSource_out (i : Nat) (x : Source) : (m.setSource i x).out = m.out := rfl

/-! ### setSq -/

@[simp] theorem Module.setSq_pilot (x : Sq) : (m.setSq x).pilot = m.pilot := rfl
@[simp] theorem Module.setSq_fields (x : Sq) : (m.setSq x).fields = m.fields := rfl
@[simp] theorem Module.setSq_threads (x : Sq) : (m.setSq x).threads = m.threads := rfl
@[simp] theorem Module.setSq_cores (x : Sq) : (m.setSq x).cores = m.cores := rfl
@[simp] theorem Module.setSq_ctxs (x : Sq) : (m.setSq x).ctxs = m.ctxs := rfl
@[simp] theorem Module.setSq_grids (x : Sq) : (m.setSq x).grids = m.grids := rfl
@[simp] theorem Module.setSq_nextGrid (x : Sq) : (m.setSq x).nextGrid = m.nextGrid := rfl
@[simp] theorem Module.setSq_transfers (x : Sq) : (m.setSq x).transfers = m.transfers := rfl
@[simp] theorem Module.setSq_nextXfer (x : Sq) : (m.setSq x).nextXfer = m.nextXfer := rfl
@[simp] theorem Module.setSq_ms (x : Sq) : (m.setSq x).ms = m.ms := rfl
@[simp] theorem Module.setSq_evc (x : Sq) : (m.setSq x).evc = m.evc := rfl
@[simp] theorem Module.setSq_pmc (x : Sq) : (m.setSq x).pmc = m.pmc := rfl
@[simp] theorem Module.setSq_fab (x : Sq) : (m.setSq x).fab = m.fab := rfl
@[simp] theorem Module.setSq_pwr (x : Sq) : (m.setSq x).pwr = m.pwr := rfl
@[simp] theorem Module.setSq_hif (x : Sq) : (m.setSq x).hif = m.hif := rfl
@[simp] theorem Module.setSq_hmp (x : Sq) : (m.setSq x).hmp = m.hmp := rfl
@[simp] theorem Module.setSq_cp (x : Sq) : (m.setSq x).cp = m.cp := rfl
@[simp] theorem Module.setSq_esc (x : Sq) : (m.setSq x).esc = m.esc := rfl
@[simp] theorem Module.setSq_lmp (x : Sq) : (m.setSq x).lmp = m.lmp := rfl
@[simp] theorem Module.setSq_capture (x : Sq) : (m.setSq x).capture = m.capture := rfl
@[simp] theorem Module.setSq_retry (x : Sq) : (m.setSq x).retry = m.retry := rfl
@[simp] theorem Module.setSq_free (x : Sq) : (m.setSq x).free = m.free := rfl
@[simp] theorem Module.setSq_out (x : Sq) : (m.setSq x).out = m.out := rfl

/-! ### setCp -/

@[simp] theorem Module.setCp_pilot (x : Cp) : (m.setCp x).pilot = m.pilot := rfl
@[simp] theorem Module.setCp_fields (x : Cp) : (m.setCp x).fields = m.fields := rfl
@[simp] theorem Module.setCp_threads (x : Cp) : (m.setCp x).threads = m.threads := rfl
@[simp] theorem Module.setCp_cores (x : Cp) : (m.setCp x).cores = m.cores := rfl
@[simp] theorem Module.setCp_ctxs (x : Cp) : (m.setCp x).ctxs = m.ctxs := rfl
@[simp] theorem Module.setCp_grids (x : Cp) : (m.setCp x).grids = m.grids := rfl
@[simp] theorem Module.setCp_nextGrid (x : Cp) : (m.setCp x).nextGrid = m.nextGrid := rfl
@[simp] theorem Module.setCp_transfers (x : Cp) : (m.setCp x).transfers = m.transfers := rfl
@[simp] theorem Module.setCp_nextXfer (x : Cp) : (m.setCp x).nextXfer = m.nextXfer := rfl
@[simp] theorem Module.setCp_ms (x : Cp) : (m.setCp x).ms = m.ms := rfl
@[simp] theorem Module.setCp_evc (x : Cp) : (m.setCp x).evc = m.evc := rfl
@[simp] theorem Module.setCp_pmc (x : Cp) : (m.setCp x).pmc = m.pmc := rfl
@[simp] theorem Module.setCp_fab (x : Cp) : (m.setCp x).fab = m.fab := rfl
@[simp] theorem Module.setCp_pwr (x : Cp) : (m.setCp x).pwr = m.pwr := rfl
@[simp] theorem Module.setCp_hif (x : Cp) : (m.setCp x).hif = m.hif := rfl
@[simp] theorem Module.setCp_sq (x : Cp) : (m.setCp x).sq = m.sq := rfl
@[simp] theorem Module.setCp_hmp (x : Cp) : (m.setCp x).hmp = m.hmp := rfl
@[simp] theorem Module.setCp_esc (x : Cp) : (m.setCp x).esc = m.esc := rfl
@[simp] theorem Module.setCp_lmp (x : Cp) : (m.setCp x).lmp = m.lmp := rfl
@[simp] theorem Module.setCp_capture (x : Cp) : (m.setCp x).capture = m.capture := rfl
@[simp] theorem Module.setCp_retry (x : Cp) : (m.setCp x).retry = m.retry := rfl
@[simp] theorem Module.setCp_free (x : Cp) : (m.setCp x).free = m.free := rfl
@[simp] theorem Module.setCp_out (x : Cp) : (m.setCp x).out = m.out := rfl

/-! ### setHmp -/

@[simp] theorem Module.setHmp_pilot (x : Hmp) : (m.setHmp x).pilot = m.pilot := rfl
@[simp] theorem Module.setHmp_fields (x : Hmp) : (m.setHmp x).fields = m.fields := rfl
@[simp] theorem Module.setHmp_threads (x : Hmp) : (m.setHmp x).threads = m.threads := rfl
@[simp] theorem Module.setHmp_cores (x : Hmp) : (m.setHmp x).cores = m.cores := rfl
@[simp] theorem Module.setHmp_ctxs (x : Hmp) : (m.setHmp x).ctxs = m.ctxs := rfl
@[simp] theorem Module.setHmp_grids (x : Hmp) : (m.setHmp x).grids = m.grids := rfl
@[simp] theorem Module.setHmp_nextGrid (x : Hmp) : (m.setHmp x).nextGrid = m.nextGrid := rfl
@[simp] theorem Module.setHmp_transfers (x : Hmp) : (m.setHmp x).transfers = m.transfers := rfl
@[simp] theorem Module.setHmp_nextXfer (x : Hmp) : (m.setHmp x).nextXfer = m.nextXfer := rfl
@[simp] theorem Module.setHmp_ms (x : Hmp) : (m.setHmp x).ms = m.ms := rfl
@[simp] theorem Module.setHmp_evc (x : Hmp) : (m.setHmp x).evc = m.evc := rfl
@[simp] theorem Module.setHmp_pmc (x : Hmp) : (m.setHmp x).pmc = m.pmc := rfl
@[simp] theorem Module.setHmp_fab (x : Hmp) : (m.setHmp x).fab = m.fab := rfl
@[simp] theorem Module.setHmp_pwr (x : Hmp) : (m.setHmp x).pwr = m.pwr := rfl
@[simp] theorem Module.setHmp_hif (x : Hmp) : (m.setHmp x).hif = m.hif := rfl
@[simp] theorem Module.setHmp_sq (x : Hmp) : (m.setHmp x).sq = m.sq := rfl
@[simp] theorem Module.setHmp_cp (x : Hmp) : (m.setHmp x).cp = m.cp := rfl
@[simp] theorem Module.setHmp_esc (x : Hmp) : (m.setHmp x).esc = m.esc := rfl
@[simp] theorem Module.setHmp_lmp (x : Hmp) : (m.setHmp x).lmp = m.lmp := rfl
@[simp] theorem Module.setHmp_capture (x : Hmp) : (m.setHmp x).capture = m.capture := rfl
@[simp] theorem Module.setHmp_retry (x : Hmp) : (m.setHmp x).retry = m.retry := rfl
@[simp] theorem Module.setHmp_free (x : Hmp) : (m.setHmp x).free = m.free := rfl
@[simp] theorem Module.setHmp_out (x : Hmp) : (m.setHmp x).out = m.out := rfl

/-! ### setPmc -/

@[simp] theorem Module.setPmc_pilot (x : Pmc) : (m.setPmc x).pilot = m.pilot := rfl
@[simp] theorem Module.setPmc_fields (x : Pmc) : (m.setPmc x).fields = m.fields := rfl
@[simp] theorem Module.setPmc_threads (x : Pmc) : (m.setPmc x).threads = m.threads := rfl
@[simp] theorem Module.setPmc_cores (x : Pmc) : (m.setPmc x).cores = m.cores := rfl
@[simp] theorem Module.setPmc_ctxs (x : Pmc) : (m.setPmc x).ctxs = m.ctxs := rfl
@[simp] theorem Module.setPmc_grids (x : Pmc) : (m.setPmc x).grids = m.grids := rfl
@[simp] theorem Module.setPmc_nextGrid (x : Pmc) : (m.setPmc x).nextGrid = m.nextGrid := rfl
@[simp] theorem Module.setPmc_transfers (x : Pmc) : (m.setPmc x).transfers = m.transfers := rfl
@[simp] theorem Module.setPmc_nextXfer (x : Pmc) : (m.setPmc x).nextXfer = m.nextXfer := rfl
@[simp] theorem Module.setPmc_ms (x : Pmc) : (m.setPmc x).ms = m.ms := rfl
@[simp] theorem Module.setPmc_evc (x : Pmc) : (m.setPmc x).evc = m.evc := rfl
@[simp] theorem Module.setPmc_fab (x : Pmc) : (m.setPmc x).fab = m.fab := rfl
@[simp] theorem Module.setPmc_pwr (x : Pmc) : (m.setPmc x).pwr = m.pwr := rfl
@[simp] theorem Module.setPmc_hif (x : Pmc) : (m.setPmc x).hif = m.hif := rfl
@[simp] theorem Module.setPmc_sq (x : Pmc) : (m.setPmc x).sq = m.sq := rfl
@[simp] theorem Module.setPmc_hmp (x : Pmc) : (m.setPmc x).hmp = m.hmp := rfl
@[simp] theorem Module.setPmc_cp (x : Pmc) : (m.setPmc x).cp = m.cp := rfl
@[simp] theorem Module.setPmc_esc (x : Pmc) : (m.setPmc x).esc = m.esc := rfl
@[simp] theorem Module.setPmc_lmp (x : Pmc) : (m.setPmc x).lmp = m.lmp := rfl
@[simp] theorem Module.setPmc_capture (x : Pmc) : (m.setPmc x).capture = m.capture := rfl
@[simp] theorem Module.setPmc_retry (x : Pmc) : (m.setPmc x).retry = m.retry := rfl
@[simp] theorem Module.setPmc_free (x : Pmc) : (m.setPmc x).free = m.free := rfl
@[simp] theorem Module.setPmc_out (x : Pmc) : (m.setPmc x).out = m.out := rfl

/-! ### setRail -/

@[simp] theorem Module.setRail_pilot (r : Nat) (x : Rail) : (m.setRail r x).pilot = m.pilot := rfl
@[simp] theorem Module.setRail_fields (r : Nat) (x : Rail) : (m.setRail r x).fields = m.fields := rfl
@[simp] theorem Module.setRail_threads (r : Nat) (x : Rail) : (m.setRail r x).threads = m.threads := rfl
@[simp] theorem Module.setRail_cores (r : Nat) (x : Rail) : (m.setRail r x).cores = m.cores := rfl
@[simp] theorem Module.setRail_ctxs (r : Nat) (x : Rail) : (m.setRail r x).ctxs = m.ctxs := rfl
@[simp] theorem Module.setRail_grids (r : Nat) (x : Rail) : (m.setRail r x).grids = m.grids := rfl
@[simp] theorem Module.setRail_nextGrid (r : Nat) (x : Rail) : (m.setRail r x).nextGrid = m.nextGrid := rfl
@[simp] theorem Module.setRail_transfers (r : Nat) (x : Rail) : (m.setRail r x).transfers = m.transfers := rfl
@[simp] theorem Module.setRail_nextXfer (r : Nat) (x : Rail) : (m.setRail r x).nextXfer = m.nextXfer := rfl
@[simp] theorem Module.setRail_ms (r : Nat) (x : Rail) : (m.setRail r x).ms = m.ms := rfl
@[simp] theorem Module.setRail_evc (r : Nat) (x : Rail) : (m.setRail r x).evc = m.evc := rfl
@[simp] theorem Module.setRail_pmc (r : Nat) (x : Rail) : (m.setRail r x).pmc = m.pmc := rfl
@[simp] theorem Module.setRail_fab (r : Nat) (x : Rail) : (m.setRail r x).fab = m.fab := rfl
@[simp] theorem Module.setRail_hif (r : Nat) (x : Rail) : (m.setRail r x).hif = m.hif := rfl
@[simp] theorem Module.setRail_sq (r : Nat) (x : Rail) : (m.setRail r x).sq = m.sq := rfl
@[simp] theorem Module.setRail_hmp (r : Nat) (x : Rail) : (m.setRail r x).hmp = m.hmp := rfl
@[simp] theorem Module.setRail_cp (r : Nat) (x : Rail) : (m.setRail r x).cp = m.cp := rfl
@[simp] theorem Module.setRail_esc (r : Nat) (x : Rail) : (m.setRail r x).esc = m.esc := rfl
@[simp] theorem Module.setRail_lmp (r : Nat) (x : Rail) : (m.setRail r x).lmp = m.lmp := rfl
@[simp] theorem Module.setRail_capture (r : Nat) (x : Rail) : (m.setRail r x).capture = m.capture := rfl
@[simp] theorem Module.setRail_retry (r : Nat) (x : Rail) : (m.setRail r x).retry = m.retry := rfl
@[simp] theorem Module.setRail_free (r : Nat) (x : Rail) : (m.setRail r x).free = m.free := rfl
@[simp] theorem Module.setRail_out (r : Nat) (x : Rail) : (m.setRail r x).out = m.out := rfl

/-! ### emit -/

@[simp] theorem Module.emit_pilot (o : Output) : (m.emit o).pilot = m.pilot := rfl
@[simp] theorem Module.emit_fields (o : Output) : (m.emit o).fields = m.fields := rfl
@[simp] theorem Module.emit_threads (o : Output) : (m.emit o).threads = m.threads := rfl
@[simp] theorem Module.emit_cores (o : Output) : (m.emit o).cores = m.cores := rfl
@[simp] theorem Module.emit_ctxs (o : Output) : (m.emit o).ctxs = m.ctxs := rfl
@[simp] theorem Module.emit_grids (o : Output) : (m.emit o).grids = m.grids := rfl
@[simp] theorem Module.emit_nextGrid (o : Output) : (m.emit o).nextGrid = m.nextGrid := rfl
@[simp] theorem Module.emit_transfers (o : Output) : (m.emit o).transfers = m.transfers := rfl
@[simp] theorem Module.emit_nextXfer (o : Output) : (m.emit o).nextXfer = m.nextXfer := rfl
@[simp] theorem Module.emit_ms (o : Output) : (m.emit o).ms = m.ms := rfl
@[simp] theorem Module.emit_evc (o : Output) : (m.emit o).evc = m.evc := rfl
@[simp] theorem Module.emit_pmc (o : Output) : (m.emit o).pmc = m.pmc := rfl
@[simp] theorem Module.emit_fab (o : Output) : (m.emit o).fab = m.fab := rfl
@[simp] theorem Module.emit_pwr (o : Output) : (m.emit o).pwr = m.pwr := rfl
@[simp] theorem Module.emit_hif (o : Output) : (m.emit o).hif = m.hif := rfl
@[simp] theorem Module.emit_sq (o : Output) : (m.emit o).sq = m.sq := rfl
@[simp] theorem Module.emit_hmp (o : Output) : (m.emit o).hmp = m.hmp := rfl
@[simp] theorem Module.emit_cp (o : Output) : (m.emit o).cp = m.cp := rfl
@[simp] theorem Module.emit_esc (o : Output) : (m.emit o).esc = m.esc := rfl
@[simp] theorem Module.emit_lmp (o : Output) : (m.emit o).lmp = m.lmp := rfl
@[simp] theorem Module.emit_capture (o : Output) : (m.emit o).capture = m.capture := rfl
@[simp] theorem Module.emit_retry (o : Output) : (m.emit o).retry = m.retry := rfl
@[simp] theorem Module.emit_free (o : Output) : (m.emit o).free = m.free := rfl

/-! ### modGrid -/

@[simp] theorem Module.modGrid_pilot (id : Nat) (f : Grid → Grid) : (m.modGrid id f).pilot = m.pilot := rfl
@[simp] theorem Module.modGrid_fields (id : Nat) (f : Grid → Grid) : (m.modGrid id f).fields = m.fields := rfl
@[simp] theorem Module.modGrid_threads (id : Nat) (f : Grid → Grid) : (m.modGrid id f).threads = m.threads := rfl
@[simp] theorem Module.modGrid_cores (id : Nat) (f : Grid → Grid) : (m.modGrid id f).cores = m.cores := rfl
@[simp] theorem Module.modGrid_ctxs (id : Nat) (f : Grid → Grid) : (m.modGrid id f).ctxs = m.ctxs := rfl
@[simp] theorem Module.modGrid_nextGrid (id : Nat) (f : Grid → Grid) : (m.modGrid id f).nextGrid = m.nextGrid := rfl
@[simp] theorem Module.modGrid_transfers (id : Nat) (f : Grid → Grid) : (m.modGrid id f).transfers = m.transfers := rfl
@[simp] theorem Module.modGrid_nextXfer (id : Nat) (f : Grid → Grid) : (m.modGrid id f).nextXfer = m.nextXfer := rfl
@[simp] theorem Module.modGrid_ms (id : Nat) (f : Grid → Grid) : (m.modGrid id f).ms = m.ms := rfl
@[simp] theorem Module.modGrid_evc (id : Nat) (f : Grid → Grid) : (m.modGrid id f).evc = m.evc := rfl
@[simp] theorem Module.modGrid_pmc (id : Nat) (f : Grid → Grid) : (m.modGrid id f).pmc = m.pmc := rfl
@[simp] theorem Module.modGrid_fab (id : Nat) (f : Grid → Grid) : (m.modGrid id f).fab = m.fab := rfl
@[simp] theorem Module.modGrid_pwr (id : Nat) (f : Grid → Grid) : (m.modGrid id f).pwr = m.pwr := rfl
@[simp] theorem Module.modGrid_hif (id : Nat) (f : Grid → Grid) : (m.modGrid id f).hif = m.hif := rfl
@[simp] theorem Module.modGrid_sq (id : Nat) (f : Grid → Grid) : (m.modGrid id f).sq = m.sq := rfl
@[simp] theorem Module.modGrid_hmp (id : Nat) (f : Grid → Grid) : (m.modGrid id f).hmp = m.hmp := rfl
@[simp] theorem Module.modGrid_cp (id : Nat) (f : Grid → Grid) : (m.modGrid id f).cp = m.cp := rfl
@[simp] theorem Module.modGrid_esc (id : Nat) (f : Grid → Grid) : (m.modGrid id f).esc = m.esc := rfl
@[simp] theorem Module.modGrid_lmp (id : Nat) (f : Grid → Grid) : (m.modGrid id f).lmp = m.lmp := rfl
@[simp] theorem Module.modGrid_capture (id : Nat) (f : Grid → Grid) : (m.modGrid id f).capture = m.capture := rfl
@[simp] theorem Module.modGrid_retry (id : Nat) (f : Grid → Grid) : (m.modGrid id f).retry = m.retry := rfl
@[simp] theorem Module.modGrid_free (id : Nat) (f : Grid → Grid) : (m.modGrid id f).free = m.free := rfl
@[simp] theorem Module.modGrid_out (id : Nat) (f : Grid → Grid) : (m.modGrid id f).out = m.out := rfl

/-! ### modXfer -/

@[simp] theorem Module.modXfer_pilot (id : Nat) (f : Transfer → Transfer) : (m.modXfer id f).pilot = m.pilot := rfl
@[simp] theorem Module.modXfer_fields (id : Nat) (f : Transfer → Transfer) : (m.modXfer id f).fields = m.fields := rfl
@[simp] theorem Module.modXfer_threads (id : Nat) (f : Transfer → Transfer) : (m.modXfer id f).threads = m.threads := rfl
@[simp] theorem Module.modXfer_cores (id : Nat) (f : Transfer → Transfer) : (m.modXfer id f).cores = m.cores := rfl
@[simp] theorem Module.modXfer_ctxs (id : Nat) (f : Transfer → Transfer) : (m.modXfer id f).ctxs = m.ctxs := rfl
@[simp] theorem Module.modXfer_grids (id : Nat) (f : Transfer → Transfer) : (m.modXfer id f).grids = m.grids := rfl
@[simp] theorem Module.modXfer_nextGrid (id : Nat) (f : Transfer → Transfer) : (m.modXfer id f).nextGrid = m.nextGrid := rfl
@[simp] theorem Module.modXfer_nextXfer (id : Nat) (f : Transfer → Transfer) : (m.modXfer id f).nextXfer = m.nextXfer := rfl
@[simp] theorem Module.modXfer_ms (id : Nat) (f : Transfer → Transfer) : (m.modXfer id f).ms = m.ms := rfl
@[simp] theorem Module.modXfer_evc (id : Nat) (f : Transfer → Transfer) : (m.modXfer id f).evc = m.evc := rfl
@[simp] theorem Module.modXfer_pmc (id : Nat) (f : Transfer → Transfer) : (m.modXfer id f).pmc = m.pmc := rfl
@[simp] theorem Module.modXfer_fab (id : Nat) (f : Transfer → Transfer) : (m.modXfer id f).fab = m.fab := rfl
@[simp] theorem Module.modXfer_pwr (id : Nat) (f : Transfer → Transfer) : (m.modXfer id f).pwr = m.pwr := rfl
@[simp] theorem Module.modXfer_hif (id : Nat) (f : Transfer → Transfer) : (m.modXfer id f).hif = m.hif := rfl
@[simp] theorem Module.modXfer_sq (id : Nat) (f : Transfer → Transfer) : (m.modXfer id f).sq = m.sq := rfl
@[simp] theorem Module.modXfer_hmp (id : Nat) (f : Transfer → Transfer) : (m.modXfer id f).hmp = m.hmp := rfl
@[simp] theorem Module.modXfer_cp (id : Nat) (f : Transfer → Transfer) : (m.modXfer id f).cp = m.cp := rfl
@[simp] theorem Module.modXfer_esc (id : Nat) (f : Transfer → Transfer) : (m.modXfer id f).esc = m.esc := rfl
@[simp] theorem Module.modXfer_lmp (id : Nat) (f : Transfer → Transfer) : (m.modXfer id f).lmp = m.lmp := rfl
@[simp] theorem Module.modXfer_capture (id : Nat) (f : Transfer → Transfer) : (m.modXfer id f).capture = m.capture := rfl
@[simp] theorem Module.modXfer_retry (id : Nat) (f : Transfer → Transfer) : (m.modXfer id f).retry = m.retry := rfl
@[simp] theorem Module.modXfer_free (id : Nat) (f : Transfer → Transfer) : (m.modXfer id f).free = m.free := rfl
@[simp] theorem Module.modXfer_out (id : Nat) (f : Transfer → Transfer) : (m.modXfer id f).out = m.out := rfl

/-! ### modOutst -/

@[simp] theorem Module.modOutst_pilot (k id : Nat) (f : Outst → Outst) : (m.modOutst k id f).pilot = m.pilot := rfl
@[simp] theorem Module.modOutst_fields (k id : Nat) (f : Outst → Outst) : (m.modOutst k id f).fields = m.fields := rfl
@[simp] theorem Module.modOutst_cores (k id : Nat) (f : Outst → Outst) : (m.modOutst k id f).cores = m.cores := rfl
@[simp] theorem Module.modOutst_ctxs (k id : Nat) (f : Outst → Outst) : (m.modOutst k id f).ctxs = m.ctxs := rfl
@[simp] theorem Module.modOutst_grids (k id : Nat) (f : Outst → Outst) : (m.modOutst k id f).grids = m.grids := rfl
@[simp] theorem Module.modOutst_nextGrid (k id : Nat) (f : Outst → Outst) : (m.modOutst k id f).nextGrid = m.nextGrid := rfl
@[simp] theorem Module.modOutst_transfers (k id : Nat) (f : Outst → Outst) : (m.modOutst k id f).transfers = m.transfers := rfl
@[simp] theorem Module.modOutst_nextXfer (k id : Nat) (f : Outst → Outst) : (m.modOutst k id f).nextXfer = m.nextXfer := rfl
@[simp] theorem Module.modOutst_ms (k id : Nat) (f : Outst → Outst) : (m.modOutst k id f).ms = m.ms := rfl
@[simp] theorem Module.modOutst_evc (k id : Nat) (f : Outst → Outst) : (m.modOutst k id f).evc = m.evc := rfl
@[simp] theorem Module.modOutst_pmc (k id : Nat) (f : Outst → Outst) : (m.modOutst k id f).pmc = m.pmc := rfl
@[simp] theorem Module.modOutst_fab (k id : Nat) (f : Outst → Outst) : (m.modOutst k id f).fab = m.fab := rfl
@[simp] theorem Module.modOutst_pwr (k id : Nat) (f : Outst → Outst) : (m.modOutst k id f).pwr = m.pwr := rfl
@[simp] theorem Module.modOutst_hif (k id : Nat) (f : Outst → Outst) : (m.modOutst k id f).hif = m.hif := rfl
@[simp] theorem Module.modOutst_sq (k id : Nat) (f : Outst → Outst) : (m.modOutst k id f).sq = m.sq := rfl
@[simp] theorem Module.modOutst_hmp (k id : Nat) (f : Outst → Outst) : (m.modOutst k id f).hmp = m.hmp := rfl
@[simp] theorem Module.modOutst_cp (k id : Nat) (f : Outst → Outst) : (m.modOutst k id f).cp = m.cp := rfl
@[simp] theorem Module.modOutst_esc (k id : Nat) (f : Outst → Outst) : (m.modOutst k id f).esc = m.esc := rfl
@[simp] theorem Module.modOutst_lmp (k id : Nat) (f : Outst → Outst) : (m.modOutst k id f).lmp = m.lmp := rfl
@[simp] theorem Module.modOutst_capture (k id : Nat) (f : Outst → Outst) : (m.modOutst k id f).capture = m.capture := rfl
@[simp] theorem Module.modOutst_retry (k id : Nat) (f : Outst → Outst) : (m.modOutst k id f).retry = m.retry := rfl
@[simp] theorem Module.modOutst_free (k id : Nat) (f : Outst → Outst) : (m.modOutst k id f).free = m.free := rfl
@[simp] theorem Module.modOutst_out (k id : Nat) (f : Outst → Outst) : (m.modOutst k id f).out = m.out := rfl

/-! ### Reads after writes -/

@[simp] theorem Module.setMs_ms (x : MemSys) : (m.setMs x).ms = x := rfl
@[simp] theorem Module.setFab_fab (x : Fab) : (m.setFab x).fab = x := rfl
@[simp] theorem Module.setSq_sq (x : Sq) : (m.setSq x).sq = x := rfl
@[simp] theorem Module.setCp_cp (x : Cp) : (m.setCp x).cp = x := rfl
@[simp] theorem Module.setHmp_hmp (x : Hmp) : (m.setHmp x).hmp = x := rfl
@[simp] theorem Module.setPmc_pmc (x : Pmc) : (m.setPmc x).pmc = x := rfl
@[simp] theorem Module.emit_out (o : Output) : (m.emit o).out = m.out ++ [o] := rfl

/-- A field reads the bits written, truncated to its width. -/
@[simp] theorem Module.getF_setF_self (f : Fld) (v : Nat) : (m.setF f v).getF f = v % 2 ^ f.width := by
  simp [Module.getF, Module.setF]

/-- A field's value fits its width. -/
theorem Module.getF_lt (f : Fld) : m.getF f < 2 ^ f.width := Nat.mod_lt _ (Nat.two_pow_pos _)

/-- Writing a field leaves every field at another place alone. -/
theorem Module.getF_setF_ne (f g : Fld) (v : Nat) (h : g.key ≠ f.key) : (m.setF f v).getF g = m.getF g := by
  simp only [Module.getF, Module.setF]
  by_cases hr : f.rst = g.rst
  · rw [hr, SMap.get_set_ne _ _ _ _ _ h]
  · unfold SMap.set
    split
    · rw [SMap.get_erase, if_neg h]
    · rw [SMap.get_insert_ne _ _ _ _ _ h, SMap.get_erase, if_neg h]

theorem Module.th_setTh (k j : Nat) (t : Thread) : (m.setTh k t).th j = if j = k then t else m.th j := by
  simp [Module.th, Module.setTh, SMap.get_set]

@[simp] theorem Module.th_setTh_self (k : Nat) (t : Thread) : (m.setTh k t).th k = t := by simp [Module.th_setTh]

theorem Module.core_setCore (k j : Nat) (c : Core) : (m.setCore k c).core j = if j = k then c else m.core j := by
  simp [Module.core, Module.setCore, SMap.get_set]

@[simp] theorem Module.core_setCore_self (k : Nat) (c : Core) : (m.setCore k c).core k = c := by simp [Module.core_setCore]

theorem Module.ctx_setCtx (n j : Nat) (c : Context) : (m.setCtx n c).ctx j = if j = n then c else m.ctx j := by
  simp [Module.ctx, Module.setCtx, SMap.get_set]

@[simp] theorem Module.ctx_setCtx_self (n : Nat) (c : Context) : (m.setCtx n c).ctx n = c := by simp [Module.ctx_setCtx]

theorem Module.port_setPort (p q : Nat) (x : Port) : (m.setPort p x).port q = if q = p then x else m.port q := by
  simp [Module.port, Module.setPort, Module.setFab, SMap.get_set]

@[simp] theorem Module.port_setPort_self (p : Nat) (x : Port) : (m.setPort p x).port p = x := by simp [Module.port_setPort]

theorem Module.source_setSource (i j : Nat) (x : Source) : (m.setSource i x).source j = if j = i then x else m.source j := by
  simp [Module.source, Module.setSource, SMap.get_set]

/-- Threads, cores, contexts, fields and ports read from fields of the module that another update leaves alone. -/
theorem Module.th_congr {m m' : Module} (h : m'.threads = m.threads) (k : Nat) : m'.th k = m.th k := by simp [Module.th, h]
theorem Module.core_congr {m m' : Module} (h : m'.cores = m.cores) (k : Nat) : m'.core k = m.core k := by simp [Module.core, h]
theorem Module.ctx_congr {m m' : Module} (h : m'.ctxs = m.ctxs) (n : Nat) : m'.ctx n = m.ctx n := by simp [Module.ctx, h]
theorem Module.getF_congr {m m' : Module} (h : m'.fields = m.fields) (f : Fld) : m'.getF f = m.getF f := by simp [Module.getF, h]
theorem Module.port_congr {m m' : Module} (h : m'.fab = m.fab) (p : Nat) : m'.port p = m.port p := by simp [Module.port, h]

@[simp] theorem Module.th_setF (f : Fld) (v : Nat) (k : Nat) : (m.setF f v).th k = m.th k := rfl
@[simp] theorem Module.th_addF (f : Fld) (v : Nat) (k : Nat) : (m.addF f v).th k = m.th k := rfl
@[simp] theorem Module.th_setCore (i : Nat) (c : Core) (k : Nat) : (m.setCore i c).th k = m.th k := rfl
@[simp] theorem Module.th_setCtx (n : Nat) (c : Context) (k : Nat) : (m.setCtx n c).th k = m.th k := rfl
@[simp] theorem Module.th_setMs (x : MemSys) (k : Nat) : (m.setMs x).th k = m.th k := rfl
@[simp] theorem Module.th_setFab (x : Fab) (k : Nat) : (m.setFab x).th k = m.th k := rfl
@[simp] theorem Module.th_setPort (p : Nat) (x : Port) (k : Nat) : (m.setPort p x).th k = m.th k := rfl
@[simp] theorem Module.th_setSource (i : Nat) (x : Source) (k : Nat) : (m.setSource i x).th k = m.th k := rfl
@[simp] theorem Module.th_setSq (x : Sq) (k : Nat) : (m.setSq x).th k = m.th k := rfl
@[simp] theorem Module.th_setCp (x : Cp) (k : Nat) : (m.setCp x).th k = m.th k := rfl
@[simp] theorem Module.th_setHmp (x : Hmp) (k : Nat) : (m.setHmp x).th k = m.th k := rfl
@[simp] theorem Module.th_setPmc (x : Pmc) (k : Nat) : (m.setPmc x).th k = m.th k := rfl
@[simp] theorem Module.th_setRail (r : Nat) (x : Rail) (k : Nat) : (m.setRail r x).th k = m.th k := rfl
@[simp] theorem Module.th_emit (o : Output) (k : Nat) : (m.emit o).th k = m.th k := rfl
@[simp] theorem Module.th_modGrid (id : Nat) (f : Grid → Grid) (k : Nat) : (m.modGrid id f).th k = m.th k := rfl
@[simp] theorem Module.th_modXfer (id : Nat) (f : Transfer → Transfer) (k : Nat) : (m.modXfer id f).th k = m.th k := rfl
@[simp] theorem Module.core_setF (f : Fld) (v : Nat) (k : Nat) : (m.setF f v).core k = m.core k := rfl
@[simp] theorem Module.core_addF (f : Fld) (v : Nat) (k : Nat) : (m.addF f v).core k = m.core k := rfl
@[simp] theorem Module.core_setTh (i : Nat) (t : Thread) (k : Nat) : (m.setTh i t).core k = m.core k := rfl
@[simp] theorem Module.core_setCtx (n : Nat) (c : Context) (k : Nat) : (m.setCtx n c).core k = m.core k := rfl
@[simp] theorem Module.core_setMs (x : MemSys) (k : Nat) : (m.setMs x).core k = m.core k := rfl
@[simp] theorem Module.core_setFab (x : Fab) (k : Nat) : (m.setFab x).core k = m.core k := rfl
@[simp] theorem Module.core_setPort (p : Nat) (x : Port) (k : Nat) : (m.setPort p x).core k = m.core k := rfl
@[simp] theorem Module.core_setSource (i : Nat) (x : Source) (k : Nat) : (m.setSource i x).core k = m.core k := rfl
@[simp] theorem Module.core_setSq (x : Sq) (k : Nat) : (m.setSq x).core k = m.core k := rfl
@[simp] theorem Module.core_setCp (x : Cp) (k : Nat) : (m.setCp x).core k = m.core k := rfl
@[simp] theorem Module.core_setHmp (x : Hmp) (k : Nat) : (m.setHmp x).core k = m.core k := rfl
@[simp] theorem Module.core_setPmc (x : Pmc) (k : Nat) : (m.setPmc x).core k = m.core k := rfl
@[simp] theorem Module.core_setRail (r : Nat) (x : Rail) (k : Nat) : (m.setRail r x).core k = m.core k := rfl
@[simp] theorem Module.core_emit (o : Output) (k : Nat) : (m.emit o).core k = m.core k := rfl
@[simp] theorem Module.core_modGrid (id : Nat) (f : Grid → Grid) (k : Nat) : (m.modGrid id f).core k = m.core k := rfl
@[simp] theorem Module.core_modXfer (id : Nat) (f : Transfer → Transfer) (k : Nat) : (m.modXfer id f).core k = m.core k := rfl
@[simp] theorem Module.core_modOutst (i id : Nat) (f : Outst → Outst) (k : Nat) : (m.modOutst i id f).core k = m.core k := rfl
@[simp] theorem Module.ctx_setF (f : Fld) (v : Nat) (k : Nat) : (m.setF f v).ctx k = m.ctx k := rfl
@[simp] theorem Module.ctx_addF (f : Fld) (v : Nat) (k : Nat) : (m.addF f v).ctx k = m.ctx k := rfl
@[simp] theorem Module.ctx_setTh (i : Nat) (t : Thread) (k : Nat) : (m.setTh i t).ctx k = m.ctx k := rfl
@[simp] theorem Module.ctx_setCore (i : Nat) (c : Core) (k : Nat) : (m.setCore i c).ctx k = m.ctx k := rfl
@[simp] theorem Module.ctx_setMs (x : MemSys) (k : Nat) : (m.setMs x).ctx k = m.ctx k := rfl
@[simp] theorem Module.ctx_setFab (x : Fab) (k : Nat) : (m.setFab x).ctx k = m.ctx k := rfl
@[simp] theorem Module.ctx_setPort (p : Nat) (x : Port) (k : Nat) : (m.setPort p x).ctx k = m.ctx k := rfl
@[simp] theorem Module.ctx_setSource (i : Nat) (x : Source) (k : Nat) : (m.setSource i x).ctx k = m.ctx k := rfl
@[simp] theorem Module.ctx_setSq (x : Sq) (k : Nat) : (m.setSq x).ctx k = m.ctx k := rfl
@[simp] theorem Module.ctx_setCp (x : Cp) (k : Nat) : (m.setCp x).ctx k = m.ctx k := rfl
@[simp] theorem Module.ctx_setHmp (x : Hmp) (k : Nat) : (m.setHmp x).ctx k = m.ctx k := rfl
@[simp] theorem Module.ctx_setPmc (x : Pmc) (k : Nat) : (m.setPmc x).ctx k = m.ctx k := rfl
@[simp] theorem Module.ctx_setRail (r : Nat) (x : Rail) (k : Nat) : (m.setRail r x).ctx k = m.ctx k := rfl
@[simp] theorem Module.ctx_emit (o : Output) (k : Nat) : (m.emit o).ctx k = m.ctx k := rfl
@[simp] theorem Module.ctx_modGrid (id : Nat) (f : Grid → Grid) (k : Nat) : (m.modGrid id f).ctx k = m.ctx k := rfl
@[simp] theorem Module.ctx_modXfer (id : Nat) (f : Transfer → Transfer) (k : Nat) : (m.modXfer id f).ctx k = m.ctx k := rfl
@[simp] theorem Module.ctx_modOutst (i id : Nat) (f : Outst → Outst) (k : Nat) : (m.modOutst i id f).ctx k = m.ctx k := rfl
@[simp] theorem Module.port_setF (f : Fld) (v : Nat) (k : Nat) : (m.setF f v).port k = m.port k := rfl
@[simp] theorem Module.port_addF (f : Fld) (v : Nat) (k : Nat) : (m.addF f v).port k = m.port k := rfl
@[simp] theorem Module.port_setTh (i : Nat) (t : Thread) (k : Nat) : (m.setTh i t).port k = m.port k := rfl
@[simp] theorem Module.port_setCore (i : Nat) (c : Core) (k : Nat) : (m.setCore i c).port k = m.port k := rfl
@[simp] theorem Module.port_setCtx (n : Nat) (c : Context) (k : Nat) : (m.setCtx n c).port k = m.port k := rfl
@[simp] theorem Module.port_setMs (x : MemSys) (k : Nat) : (m.setMs x).port k = m.port k := rfl
@[simp] theorem Module.port_setSource (i : Nat) (x : Source) (k : Nat) : (m.setSource i x).port k = m.port k := rfl
@[simp] theorem Module.port_setSq (x : Sq) (k : Nat) : (m.setSq x).port k = m.port k := rfl
@[simp] theorem Module.port_setCp (x : Cp) (k : Nat) : (m.setCp x).port k = m.port k := rfl
@[simp] theorem Module.port_setHmp (x : Hmp) (k : Nat) : (m.setHmp x).port k = m.port k := rfl
@[simp] theorem Module.port_setPmc (x : Pmc) (k : Nat) : (m.setPmc x).port k = m.port k := rfl
@[simp] theorem Module.port_setRail (r : Nat) (x : Rail) (k : Nat) : (m.setRail r x).port k = m.port k := rfl
@[simp] theorem Module.port_emit (o : Output) (k : Nat) : (m.emit o).port k = m.port k := rfl
@[simp] theorem Module.port_modGrid (id : Nat) (f : Grid → Grid) (k : Nat) : (m.modGrid id f).port k = m.port k := rfl
@[simp] theorem Module.port_modXfer (id : Nat) (f : Transfer → Transfer) (k : Nat) : (m.modXfer id f).port k = m.port k := rfl
@[simp] theorem Module.port_modOutst (i id : Nat) (f : Outst → Outst) (k : Nat) : (m.modOutst i id f).port k = m.port k := rfl
@[simp] theorem Module.getF_setTh (k : Nat) (t : Thread) (g : Fld) : (m.setTh k t).getF g = m.getF g := rfl
@[simp] theorem Module.getF_setCore (k : Nat) (c : Core) (g : Fld) : (m.setCore k c).getF g = m.getF g := rfl
@[simp] theorem Module.getF_setCtx (n : Nat) (c : Context) (g : Fld) : (m.setCtx n c).getF g = m.getF g := rfl
@[simp] theorem Module.getF_setMs (x : MemSys) (g : Fld) : (m.setMs x).getF g = m.getF g := rfl
@[simp] theorem Module.getF_setFab (x : Fab) (g : Fld) : (m.setFab x).getF g = m.getF g := rfl
@[simp] theorem Module.getF_setPort (p : Nat) (x : Port) (g : Fld) : (m.setPort p x).getF g = m.getF g := rfl
@[simp] theorem Module.getF_setSource (i : Nat) (x : Source) (g : Fld) : (m.setSource i x).getF g = m.getF g := rfl
@[simp] theorem Module.getF_setSq (x : Sq) (g : Fld) : (m.setSq x).getF g = m.getF g := rfl
@[simp] theorem Module.getF_setCp (x : Cp) (g : Fld) : (m.setCp x).getF g = m.getF g := rfl
@[simp] theorem Module.getF_setHmp (x : Hmp) (g : Fld) : (m.setHmp x).getF g = m.getF g := rfl
@[simp] theorem Module.getF_setPmc (x : Pmc) (g : Fld) : (m.setPmc x).getF g = m.getF g := rfl
@[simp] theorem Module.getF_setRail (r : Nat) (x : Rail) (g : Fld) : (m.setRail r x).getF g = m.getF g := rfl
@[simp] theorem Module.getF_emit (o : Output) (g : Fld) : (m.emit o).getF g = m.getF g := rfl
@[simp] theorem Module.getF_modGrid (id : Nat) (f : Grid → Grid) (g : Fld) : (m.modGrid id f).getF g = m.getF g := rfl
@[simp] theorem Module.getF_modXfer (id : Nat) (f : Transfer → Transfer) (g : Fld) : (m.modXfer id f).getF g = m.getF g := rfl
@[simp] theorem Module.getF_modOutst (k id : Nat) (f : Outst → Outst) (g : Fld) : (m.modOutst k id f).getF g = m.getF g := rfl

/-! ### Folding an update over a list -/

/-- What one update keeps, the fold of it keeps. -/
theorem Module.each_keeps {α : Type} (p : Module → Prop) (l : List α) (f : Module → α → Module)
    (h : ∀ m, ∀ a ∈ l, p m → p (f m a)) : ∀ m, p m → p (Module.each m l f) := by
  induction l with
  | nil => intro m hm; exact hm
  | cons a t ih =>
    intro m hm
    exact ih (fun m b hb => h m b (List.mem_cons_of_mem _ hb)) _ (h m a List.mem_cons_self hm)

/-- A part of the module that one update leaves alone, the fold of it leaves alone. -/
theorem Module.each_same {α β : Type} (p : Module → β) (l : List α) (f : Module → α → Module) (h : ∀ m a, p (f m a) = p m)
    (m : Module) : p (Module.each m l f) = p m :=
  Module.each_keeps (fun x => p x = p m) l f (fun x a _ hx => (h x a).trans hx) m rfl

end Sys2Proof.Machine
end

