-- ==== Sys2Proof/Laws/Memory.lean ====
section
/-! SUPPORT. Laws of the byte memories: what a read after a write gives, that a write leaves every other byte alone, and that every
memory operation keeps the canonical form. -/

namespace Sys2Proof.Machine

theorem Memory.get_set (mem : List Host.Cell) (a b : Nat) (x : Byte) :
    Memory.get (Memory.set mem a x) b = if b = a then x else Memory.get mem b := SMap.get_set _ _ _ _ _

theorem Memory.wf_set (mem : List Host.Cell) (a : Nat) (x : Byte) (h : Memory.wf mem = true) : Memory.wf (Memory.set mem a x) = true :=
  SMap.wf_set _ _ _ _ h

/-- A write of `n` bytes leaves every byte outside them alone. -/
theorem Memory.get_write_out (n : Nat) : ∀ (mem : List Host.Cell) (a v b : Nat), (b < a ∨ a + n ≤ b) →
    Memory.get (Memory.write mem a n v) b = Memory.get mem b := by
  induction n with
  | zero => intros; rfl
  | succ n ih =>
    intro mem a v b h
    simp only [Memory.write]
    rw [ih _ _ _ _ (by omega), Memory.get_set, if_neg (by omega)]

/-- A byte that a write covers holds that byte of the number written. -/
theorem Memory.get_write_in (n : Nat) : ∀ (mem : List Host.Cell) (a v i : Nat), i < n →
    Memory.get (Memory.write mem a n v) (a + i) = BitVec.ofNat 8 (v / 256 ^ i) := by
  induction n with
  | zero => intro _ _ _ i h; omega
  | succ n ih =>
    intro mem a v i h
    simp only [Memory.write]
    cases i with
    | zero => rw [Nat.add_zero, Memory.get_write_out n _ _ _ _ (by omega), Memory.get_set]; simp
    | succ i =>
      have := ih (Memory.set mem a (BitVec.ofNat 8 v)) (a + 1) (v / 256) i (by omega)
      rw [Nat.add_assoc, Nat.add_comm 1 i] at this
      rw [this, Nat.div_div_eq_div_mul, Nat.pow_succ, Nat.mul_comm]

theorem Memory.wf_write (n : Nat) : ∀ (mem : List Host.Cell) (a v : Nat), Memory.wf mem = true → Memory.wf (Memory.write mem a n v) = true := by
  induction n with
  | zero => intro _ _ _ h; exact h
  | succ n ih => intro mem a v h; exact ih _ _ _ (Memory.wf_set _ _ _ h)

/-- Reading back the bytes written. -/
theorem Memory.read_write (n : Nat) : ∀ (mem : List Host.Cell) (a v : Nat), Memory.read (Memory.write mem a n v) a n = v % 256 ^ n := by
  induction n with
  | zero => intro _ _ v; simp [Memory.read, Nat.mod_one]
  | succ n ih =>
    intro mem a v
    simp only [Memory.read, Memory.write]
    rw [ih, Memory.get_write_out n _ _ _ _ (by omega), Memory.get_set, if_pos rfl]
    have h : (BitVec.ofNat 8 v).toNat = v % 256 := by simp
    rw [h, Nat.pow_succ, Nat.mul_comm (256 ^ n) 256, Nat.mod_mul]

/-- A read outside a write. -/
theorem Memory.read_write_out (n : Nat) : ∀ (k : Nat) (mem : List Host.Cell) (a v b : Nat), (b + k ≤ a ∨ a + n ≤ b) →
    Memory.read (Memory.write mem a n v) b k = Memory.read mem b k := by
  intro k
  induction k with
  | zero => intros; rfl
  | succ k ih =>
    intro mem a v b h
    simp only [Memory.read]
    rw [ih _ _ _ _ (by omega), Memory.get_write_out n _ _ _ _ (by omega)]

theorem Memory.read_lt (n : Nat) : ∀ (mem : List Host.Cell) (a : Nat), Memory.read mem a n < 256 ^ n := by
  induction n with
  | zero => intros; simp [Memory.read]
  | succ n ih =>
    intro mem a
    simp only [Memory.read, Nat.pow_succ]
    have h1 := (Memory.get mem a).isLt
    have h2 := ih mem (a + 1)
    omega

/-! ### Every memory operation keeps the canonical form -/

/-- The canonical form of each byte memory, by name. -/
structure MemForm (x : MemSys) : Prop where
  hbm : Memory.wf x.hbm = true
  ctier : Memory.wf x.ctier = true
  host : Memory.wf x.host = true
  flash : Memory.wf x.flash = true
  store : Memory.wf x.store = true
  hstore : Memory.wf x.hstore = true

theorem Module.memoriesWf_iff (m : Module) : m.memoriesWf = true ↔ MemForm m.ms := by
  simp only [Module.memoriesWf, Bool.and_eq_true]
  constructor
  · rintro ⟨h, hs⟩
    exact { hbm := by simp_all, ctier := by simp_all, host := by simp_all, flash := by simp_all, store := by simp_all, hstore := hs }
  · intro h
    simp [h.hbm, h.ctier, h.host, h.flash, h.store, h.hstore]

/-- The canonical form depends on the memories only. -/
theorem Module.memoriesWf_congr {m m' : Module} (h : m'.ms = m.ms) : m'.memoriesWf = m.memoriesWf := by simp [Module.memoriesWf, h]

/-- A change of the memory system that keeps the canonical form keeps it in the module. -/
theorem Module.memoriesWf_mono {m m' : Module} (h : m.memoriesWf = true) (k : MemForm m.ms → MemForm m'.ms) : m'.memoriesWf = true :=
  (Module.memoriesWf_iff m').mpr (k ((Module.memoriesWf_iff m).mp h))

theorem Memory.wf_lostWrite (e : Nat) (mem : List Host.Cell) (k n v : Nat) (h : Memory.wf mem = true) :
    Memory.wf (lostWrite e mem k n v) = true := Memory.wf_write _ _ _ _ h

/-- Erasing a flash area. -/
theorem Memory.wf_clear (mem : List Host.Cell) (lo hi : Nat) (h : Memory.wf mem = true) : Memory.wf (Memory.clear mem lo hi) = true :=
  SMap.wf_keep _ _ _ h

/-- A write at a place. -/
theorem Module.memoriesWf_writePlace (m : Module) (p : Place) (n v : Nat) (h : m.memoriesWf = true) :
    (m.writePlace p n v).memoriesWf = true := by
  refine Module.memoriesWf_mono h (fun f => ?_)
  cases p with
  | hbm pc off => exact { f with hbm := Memory.wf_lostWrite _ _ _ _ _ f.hbm }
  | ctier a => exact { f with ctier := Memory.wf_lostWrite _ _ _ _ _ f.ctier }
  | host a =>
    simp only [Module.writePlace]
    split
    · exact { f with host := Memory.wf_write _ _ _ _ f.host }
    · exact f
  | store c off => exact { f with store := Memory.wf_write _ _ _ _ f.store }
  | hstore c off => exact { f with hstore := Memory.wf_write _ _ _ _ f.hstore }

/-- Free bytes over a range. -/
theorem Module.memoriesWf_freeBytes (p : Nat → Place) (n : Nat) : ∀ m : Module, m.memoriesWf = true → (m.freeBytes p n).memoriesWf = true := by
  induction n with
  | zero => intro m h; exact h
  | succ n ih => intro m h; exact Module.memoriesWf_writePlace _ _ _ _ (ih m h)

/-- Storing flash bytes. -/
theorem Memory.wf_flash (m : Module) (a n v : Nat) (h : m.memoriesWf = true) :
    (m.setMs { m.ms with flash := Memory.write m.ms.flash a n v }).memoriesWf = true :=
  Module.memoriesWf_mono h (fun f => { f with flash := Memory.wf_write _ _ _ _ f.flash })

/-- Saving the row-state table. -/
theorem Module.memoriesWf_saveRows (m : Module) (h : m.memoriesWf = true) : m.saveRows.memoriesWf = true := by
  refine Module.memoriesWf_mono h (fun f => { f with flash := ?_ })
  exact List.foldlRecOn (motive := fun x : List Host.Cell => Memory.wf x = true) _ _ (Memory.wf_clear _ _ _ f.flash) (fun x hx e _ => Memory.wf_write _ _ _ _ hx)

/-- Saving the registers. -/
theorem Module.memoriesWf_saveRegs (m : Module) (h : m.memoriesWf = true) : m.saveRegs.memoriesWf = true := by
  refine Module.memoriesWf_mono h (fun f => { f with flash := ?_ })
  exact List.foldlRecOn (motive := fun r : List Host.Cell × Nat => Memory.wf r.1 = true) _ _ (Memory.wf_clear _ _ _ f.flash)
    (fun x hx e _ => Memory.wf_write _ _ _ _ (Memory.wf_write _ _ _ _ hx))

/-- Zeroing a range of the core stores. -/
theorem Memory.wf_keepStore (m : Module) (p : Nat → Bool) (h : m.memoriesWf = true) :
    (m.setMs { m.ms with store := SMap.keep m.ms.store p }).memoriesWf = true :=
  Module.memoriesWf_mono h (fun f => { f with store := SMap.wf_keep _ _ p f.store })

/-- Losing HBM. -/
theorem Module.memoriesWf_loseHbm (m : Module) (h : m.memoriesWf = true) : m.loseHbm.memoriesWf = true :=
  Module.memoriesWf_mono h (fun f => { f with hbm := rfl })

/-- Losing every memory that W4 loses. -/
theorem Module.memoriesWf_loseMemories (m : Module) (h : m.memoriesWf = true) : m.loseMemories.memoriesWf = true :=
  Module.memoriesWf_mono h (fun f => { f with hbm := rfl, ctier := rfl, store := rfl, hstore := rfl })

/-- Reset has the canonical form. -/
theorem Module.memoriesWf_reset : Module.reset.memoriesWf = true := rfl

end Sys2Proof.Machine
end

