-- ==== Sys2Proof/Laws/Shared.lean ====
section
/-! SUPPORT. One lemma for each shared operation, which says what it can do: running a command, issuing an instruction, retiring, trapping,
stopping, counting, raising a source and waking the module. -/

namespace Sys2Proof.Machine

/-! ### Running a command -/

theorem State.go_eq (s : State) (f : Module → Module) : s.go f = .next { s with m := f s.m.fresh } := rfl

theorem State.run_ok (s : State) (ok : Bool) (f : Module → Module) (h : ok = true) : s.run ok f = .next { s with m := f s.m.fresh } := by
  simp [State.run, h, Module.fresh]

theorem State.run_bad (s : State) (ok : Bool) (f : Module → Module) (h : ok = false) : s.run ok f = .refused .illFormed := by
  simp [State.run, h]

/-- An instruction that issues runs its body in the issuing module. -/
theorem State.inst_issues (s : State) (r : Row) (th : ThreadId) (w : Word) (body : Module → Nat → Module) (h : s.issues r th w = true) :
    s.inst r th w body = .next { s with m := body (s.issuing th) (ThreadId.key th) } := by
  simp only [State.issues, State.canIssue, Bool.and_eq_true, Bool.not_eq_true', Bool.and_eq_false_iff, beq_iff_eq, bne_eq_false_iff_eq,
    beq_eq_false_iff_ne, State.thread, State.issuing] at h
  obtain ⟨hw, ⟨⟨hr, hp⟩, hb⟩, hc⟩ := h
  rw [State.inst, State.run_ok _ _ _ hw]
  have hth : (s.m.fresh).th (ThreadId.key th) = s.m.th (ThreadId.key th) := rfl
  have hpw : (s.m.fresh).getF Reg.PWR_STATE.state = s.m.getF Reg.PWR_STATE.state := rfl
  simp only [Module.issue, hth, hpw, hr, bne_self_eq_false, Bool.false_or]
  have hg : (keyKind (ThreadId.key th) == 0 && s.m.getF Reg.PWR_STATE.state != 0) = false := by
    rcases hp with h | h
    · simp [h]
    · simp [h]
  simp [hg, hb, hc, State.issuing]

/-! ### SameBut is a preorder -/

theorem SameBut.refl (m : Module) (k : Nat) : SameBut m m k := by constructor <;> intros <;> rfl

theorem SameBut.trans {a b c : Module} {k : Nat} (h : SameBut a b k) (g : SameBut b c k) : SameBut a c k where
  pilot := g.pilot.trans h.pilot
  threads := fun j hj => (g.threads j hj).trans (h.threads j hj)
  cores := fun j hj => (g.cores j hj).trans (h.cores j hj)
  core := g.core.trans h.core
  ctxs := fun n => (g.ctxs n).trans (h.ctxs n)
  fields := fun f hf => (g.fields f hf).trans (h.fields f hf)
  ms := g.ms.trans h.ms
  grids := g.grids.trans h.grids
  nextGrid := g.nextGrid.trans h.nextGrid
  transfers := g.transfers.trans h.transfers
  nextXfer := g.nextXfer.trans h.nextXfer
  fab := g.fab.trans h.fab
  hif := g.hif.trans h.hif
  sq := g.sq.trans h.sq
  hmp := g.hmp.trans h.hmp
  cp := g.cp.trans h.cp
  esc := g.esc.trans h.esc
  lmp := g.lmp.trans h.lmp
  capture := g.capture.trans h.capture
  free := g.free.trans h.free

/-! ### Side effects: they leave every thread, core and context alone -/

/-- Nothing differs but fields of `sideField`, counters, the event controller, the power state, MSI-X pending bits and what was sent. -/
structure Quiet (m m' : Module) : Prop where
  threads : m'.threads = m.threads
  cores : m'.cores = m.cores
  ctxs : m'.ctxs = m.ctxs
  same : ∀ k, SameBut m m' k

theorem Quiet.refl (m : Module) : Quiet m m := ⟨rfl, rfl, rfl, fun k => SameBut.refl m k⟩

theorem Quiet.trans {a b c : Module} (h : Quiet a b) (g : Quiet b c) : Quiet a c :=
  ⟨g.threads.trans h.threads, g.cores.trans h.cores, g.ctxs.trans h.ctxs, fun k => (h.same k).trans (g.same k)⟩

theorem Quiet.each {α : Type} (l : List α) (f : Module → α → Module) (h : ∀ m a, Quiet m (f m a)) (m : Module) : Quiet m (m.each l f) :=
  Module.each_keeps (fun x => Quiet m x) l f (fun x a _ hx => hx.trans (h x a)) m (Quiet.refl m)

theorem Quiet.setF (m : Module) (f : Fld) (v : Nat) (hf : sideField f.key = true) : Quiet m (m.setF f v) :=
  ⟨rfl, rfl, rfl, fun k => { SameBut.refl m k with
    fields := fun g hg => Module.getF_setF_ne m f g v (fun e => by rw [e] at hg; simp [hf] at hg) }⟩

theorem Quiet.addF (m : Module) (f : Fld) (v : Nat) (hf : sideField f.key = true) : Quiet m (m.addF f v) := Quiet.setF m f _ hf

theorem Quiet.pwr (m : Module) (x : Pwr) : Quiet m { m with pwr := x } :=
  ⟨rfl, rfl, rfl, fun k => { SameBut.refl m k with pilot := rfl }⟩

theorem Quiet.evc (m : Module) (x : Evc) : Quiet m { m with evc := x } :=
  ⟨rfl, rfl, rfl, fun k => { SameBut.refl m k with pilot := rfl }⟩

theorem Quiet.pmc (m : Module) (x : Pmc) : Quiet m { m with pmc := x } :=
  ⟨rfl, rfl, rfl, fun k => { SameBut.refl m k with pilot := rfl }⟩

theorem Quiet.emit (m : Module) (o : Output) : Quiet m (m.emit o) :=
  ⟨rfl, rfl, rfl, fun k => { SameBut.refl m k with pilot := rfl }⟩

theorem Quiet.pba (m : Module) (x : SMap Bool) : Quiet m { m with hif := { m.hif with pba := x } } :=
  ⟨rfl, rfl, rfl, fun k => { SameBut.refl m k with pilot := rfl }⟩

theorem Quiet.ite {m a b : Module} (c : Prop) [Decidable c] (ha : Quiet m a) (hb : Quiet m b) : Quiet m (if c then a else b) := by
  split
  · exact ha
  · exact hb

theorem sideField_range (f : Fld) (h : 0x100000 * 64 ≤ f.key ∧ f.key < 0x400000 * 64) : sideField f.key = true := by
  simp [sideField, h.1, h.2]

theorem sideField_pstat (p : Nat) (h : p < 16) : sideField (Reg.FAB_PSTAT.state p).key = true := by
  simp only [sideField, Bool.or_eq_true]
  exact .inl (.inr (List.any_eq_true.mpr ⟨p, List.mem_range.mpr h, by simp⟩))

theorem Quiet.dozedTrain (m : Module) : Quiet m m.dozedTrain := by
  unfold Module.dozedTrain
  refine Module.each_keeps (fun x => Quiet m x) _ _ ?_ m (Quiet.refl m)
  intro x p hp hx
  split
  · exact hx.trans (Quiet.setF _ _ _ (sideField_pstat p (List.mem_range.mp hp)))
  · exact hx

theorem Quiet.abortRec (m : Module) (t code detail : Nat) (ht : t < 8) :
    Quiet m (((m.addF (Reg.PWR_ABORT.count t) 1).setF (Reg.PWR_ABORT.code t) code).setF (Reg.PWR_ABORT.detail t) detail) := by
  refine ((Quiet.addF m _ _ ?_).trans (Quiet.setF _ _ _ ?_)).trans (Quiet.setF _ _ _ ?_) <;>
    (apply sideField_range; simp only [Fld.key, Reg.PWR_ABORT.count, Reg.PWR_ABORT.code, Reg.PWR_ABORT.detail]; omega)

theorem Module.raiseWrites_quiet (m : Module) : Quiet m m.raiseWrites := Quiet.each _ _ (fun x _ => Quiet.emit x _) m

/-- Aborting an entry changes the power state, PWR registers and ports that this module dozed, and nothing else (18 R448). -/
theorem Module.abortEntry_quiet (m : Module) (code detail : Nat) : Quiet m (m.abortEntry code detail) := by
  have ht : m.getF Reg.PWR_STATE.target < 8 := m.getF_lt Reg.PWR_STATE.target
  have h1 : sideField Reg.PWR_STATE.entering.key = true := by decide +kernel
  have h2 : sideField Reg.PWR_STATE.target.key = true := by decide +kernel
  have a : Quiet m ((m.setF Reg.PWR_STATE.entering 0).setF Reg.PWR_STATE.target (m.getF Reg.PWR_STATE.state)).dozedTrain :=
    ((Quiet.setF _ _ _ h1).trans (Quiet.setF _ _ _ h2)).trans (Quiet.dozedTrain _)
  have b := a.trans (Quiet.abortRec _ (m.getF Reg.PWR_STATE.target) code detail ht)
  unfold Module.abortEntry
  exact Quiet.ite _ (b.trans (Quiet.pwr _ _)) ((b.trans (Quiet.pwr _ _)).trans (Module.raiseWrites_quiet _))

/-- A wake changes the power state, PWR registers, the hold of delivery and ports that this module dozed, and nothing else (18 R448). -/
theorem Module.wake_quiet (m : Module) (code detail : Nat) : Quiet m (m.wake code detail) := by
  unfold Module.wake
  dsimp only
  split
  · exact Quiet.ite _ (m.abortEntry_quiet code detail) (Quiet.refl m)
  · have h3 : sideField Reg.EVC_GATE.lhold.key = true := by decide +kernel
    exact Quiet.ite _ ((Quiet.ite _ (Quiet.setF _ _ _ h3) (Quiet.refl m)).trans ((Quiet.pwr _ _).trans (Module.raiseWrites_quiet _))) (Quiet.refl m)

/-! ### Raising a source and counting -/

theorem Module.sendMsix_quiet (m : Module) (fn e : Nat) : Quiet m (m.sendMsix fn e) := by
  unfold Module.sendMsix
  exact Quiet.ite _ (Quiet.refl m) (Quiet.ite _ (Quiet.pba m _) (Quiet.ite _ (Quiet.emit m _) (Quiet.refl m)))

theorem Module.evalInst_quiet (m : Module) (i : Nat) : Quiet m (m.evalInst i) := by
  unfold Module.evalInst
  exact Quiet.ite _ (Quiet.ite _ (Quiet.evc m _) ((Quiet.evc m _).trans (Module.sendMsix_quiet _ _ _))) (Quiet.refl m)

theorem Module.evalLines_quiet (m : Module) : Quiet m m.evalLines := Quiet.each _ _ Module.evalInst_quiet m

theorem Module.setSource_quiet (m : Module) (i : Nat) (x : Source) : Quiet m (m.setSource i x) := Quiet.evc m _

theorem Module.updateSource_quiet (m : Module) (i : Nat) (x : Source) : Quiet m (m.updateSource i x) := by
  unfold Module.updateSource
  have h : sideField Reg.EVC_STATUS.held.key = true := by decide +kernel
  exact (Quiet.trans (Module.setSource_quiet m i _) (Quiet.ite _ (Quiet.setF _ _ _ h) (Quiet.refl _))).trans (Module.evalLines_quiet _)

theorem Module.raiseQuiet_quiet (m : Module) (i : Nat) : Quiet m (m.raiseQuiet i) := Module.updateSource_quiet m i _

/-- Raising a source changes the event controller, and what its wake changes (19 R457, 18 R449). -/
theorem Module.raise_quiet (m : Module) (i : Nat) : Quiet m (m.raise i) := (Module.raiseQuiet_quiet m i).trans (Module.wake_quiet _ 7 _)

theorem sideField_ovf (k : Nat) (h : k < 4096) : sideField (Reg.PMC_OVF.ovf (k / 64)).key = true := by
  apply sideField_range
  simp only [Fld.key, Reg.PMC_OVF.ovf]
  omega

theorem Module.pmcBump_quiet (src n fuel : Nat) : ∀ (m : Module) (k : Nat) (_ : k + fuel < 4096), Quiet m (m.pmcBump src k n fuel) := by
  induction fuel generalizing n with
  | zero => intro m k _; exact Quiet.refl m
  | succ fuel ih =>
    intro m k hk
    have hf : sideField Reg.PMC_CTRL.freeze.key = true := by decide +kernel
    have base : ∀ (p : Pmc) (v : Nat), Quiet m (Module.setF { m with pmc := p } (Reg.PMC_OVF.ovf (k / 64)) v) :=
      fun p v => (Quiet.pmc m p).trans (Quiet.setF _ _ v (sideField_ovf k (by omega)))
    have more : ∀ (c : Bool) (x : Module), Quiet m x → Quiet m (if c then x.raise src else x) :=
      fun c x hx => Quiet.ite _ (hx.trans (Module.raise_quiet _ _)) hx
    unfold Module.pmcBump
    exact Quiet.ite _ (Quiet.pmc m _) (Quiet.ite _ (Quiet.ite _ ((Quiet.pmc m _).trans (ih _ _ _ (by omega))) (Quiet.pmc m _))
      (Quiet.ite _ (((more _ _ (base _ _)).trans (Quiet.pmc _ _)).trans (Quiet.setF _ _ _ hf)) (more _ _ (base _ _))))

/-- Counting an event changes the counters, and what an overflow's source and freeze change (20 R469-R473). -/
theorem Module.count_quiet (m : Module) (g : Nat × Nat × Nat) (code n : Nat) (e : Ev) (hg : g.1 + g.2.1 < 4000) :
    Quiet m (m.count g code n e) := by
  unfold Module.count
  refine Quiet.ite _ (Quiet.refl m) (Module.each_keeps (fun x => Quiet m x) _ _ ?_ m (Quiet.refl m))
  intro x i hi hx
  have := List.mem_range.mp hi
  dsimp only
  exact hx.trans (Quiet.ite _ (Module.pmcBump_quiet _ _ _ _ _ (by omega)) (Quiet.refl _))

/-! ### Progress, retiring, trapping -/

theorem sideField_wdog (n : Nat) (h : n < 64) : sideField (Reg.LMP_WDOG.state n).key = true := by
  simp only [sideField, Bool.or_eq_true]
  exact .inr (List.any_eq_true.mpr ⟨n, List.mem_range.mpr h, by simp⟩)

/-- The progress of a context restarts its watchdog's count (16 R399). -/
theorem Module.progress_same (m : Module) (n k : Nat) : SameBut m (m.progress n) k := by
  have h1 : SameBut m (m.setCtx n { m.ctx n with wdSince := m.pilot }) k :=
    { SameBut.refl m k with
      ctxs := fun j => by
        rw [Module.ctx_setCtx]
        split
        · rename_i h; subst h; rfl
        · rfl }
  unfold Module.progress
  dsimp only
  split
  · exact h1
  · exact h1.trans ((Quiet.setF _ _ _ (sideField_wdog (n % 64) (Nat.mod_lt _ (by decide)))).same k)

@[simp] theorem Module.progress_threads (m : Module) (n : Nat) : (m.progress n).threads = m.threads := by
  unfold Module.progress
  dsimp only
  split <;> rfl

@[simp] theorem Module.progress_cores (m : Module) (n : Nat) : (m.progress n).cores = m.cores := by
  unfold Module.progress
  dsimp only
  split <;> rfl

theorem SameBut.setTh (m : Module) (k : Nat) (t : Thread) : SameBut m (m.setTh k t) k :=
  { SameBut.refl m k with threads := fun j hj => by rw [Module.th_setTh, if_neg hj] }

theorem SameBut.clock (m : Module) (k : Nat) (x : Core)
    (h : { x with lastScalar := 0, lastWide := 0, clockOn := true } = { m.core (k / 8) with lastScalar := 0, lastWide := 0, clockOn := true }) :
    SameBut m (m.setCore (k / 8) x) k :=
  { SameBut.refl m k with
    cores := fun c hc => by rw [Module.core_setCore, if_neg hc]
    core := by rw [Module.core_setCore, if_pos rfl]; exact h }

theorem Module.countPart_quiet (m : Module) (k code n : Nat) (hk : keyCore k < 2048) : Quiet m (m.countPart k code n) := by
  unfold Module.countPart
  refine Quiet.ite _ (Module.count_quiet m _ _ _ _ ?_) (Quiet.refl m)
  simp only [pmcPart, partOf]
  omega

theorem keyCore_lt (k : Nat) : keyCore k < 2048 := Nat.mod_lt _ (by decide)

/-- Advancing past an instruction: the thread's IP, its core's clock and position; one retirement is counted. -/
theorem Module.advance_same (m : Module) (k : Nat) (wide : Bool) : SameBut m (m.advance k wide) k := by
  have a := SameBut.setTh m k { m.th k with ip := (m.th k).ip + 8, retiredAt := m.pilot }
  have b := a.trans (SameBut.clock _ k (if wide then { m.core (k / 8) with lastWide := keyThread k, clockOn := true }
    else { m.core (k / 8) with lastScalar := keyThread k, clockOn := true }) (by cases wide <;> rfl))
  exact b.trans ((Module.countPart_quiet _ k (if wide then 3 else 2) 1 (keyCore_lt k)).same k)

theorem Module.advance_th (m : Module) (k : Nat) (wide : Bool) :
    (m.advance k wide).th k = { m.th k with ip := (m.th k).ip + 8, retiredAt := m.pilot } := by
  unfold Module.advance
  rw [Module.th_congr (Module.countPart_quiet _ k _ _ (keyCore_lt k)).threads]
  simp

/-- Retiring an instruction changes nothing but its thread and what `SameBut` names. -/
theorem Module.retire_same (m : Module) (k : Nat) (wide : Bool) : SameBut m (m.retire k wide) k :=
  (Module.advance_same m k wide).trans (Module.progress_same _ _ _)

/-- Retiring an instruction moves its thread to the next one. -/
@[simp] theorem Module.retire_th (m : Module) (k : Nat) (wide : Bool) :
    (m.retire k wide).th k = { m.th k with ip := (m.th k).ip + 8, retiredAt := m.pilot } := by
  unfold Module.retire
  rw [Module.th_congr (Module.progress_threads _ _), Module.advance_th]

/-- Writing a thread and retiring. -/
theorem Module.setTh_retire (m : Module) (k : Nat) (t : Thread) (wide : Bool) :
    SameBut m ((m.setTh k t).retire k wide) k ∧
      ((m.setTh k t).retire k wide).th k = { t with ip := t.ip + 8, retiredAt := m.pilot } := by
  refine ⟨(SameBut.setTh m k t).trans (Module.retire_same _ k wide), ?_⟩
  simp

/-- The issue of an instruction that traps moves its port's round-robin position and nothing else (04 R104). -/
theorem Module.issuedOn_same (m : Module) (k : Nat) (wide : Bool) : SameBut m (m.issuedOn k wide) k :=
  SameBut.clock m k _ (by cases wide <;> rfl)

@[simp] theorem Module.issuedOn_th (m : Module) (k j : Nat) (wide : Bool) : (m.issuedOn k wide).th j = m.th j := rfl

/-- A handled trap saves the thread's place and enters the handler (04 R101). -/
theorem Module.trapWith_handled (m : Module) (k cause : Nat) (tval : Word) (wide : Bool) (v : Nat)
    (h : (m.th k).inTrap = false ∧ (m.th k).tvec ≠ 0) :
    m.trapWith k cause tval wide v = (m.issuedOn k wide).setTh k { m.th k with
      tepc := (if cause = causeSoftware then (m.th k).ip + 8 else (m.th k).ip).setWidth 48, tcause := BitVec.ofNat 8 cause,
      tval := tval, inTrap := true, ip := (m.th k).tvec } := by
  have h2 : ((m.th k).tvec != 0) = true := by simpa using h.2
  simp only [Module.trapWith, h.1, h2, Bool.not_false, Bool.and_self, if_true]

/-- An unhandled trap stops the thread with a fault record of cause 0x10 + the trap's, which names the trapping instruction (04 R103). -/
theorem Module.trapWith_unhandled (m : Module) (k cause : Nat) (tval : Word) (wide : Bool) (v : Nat)
    (h : (m.th k).inTrap = true ∨ (m.th k).tvec = 0) :
    m.trapWith k cause tval wide v =
      (m.issuedOn k wide).stopNaming k (if cause = causeSoftware then (m.th k).ip + 8 else (m.th k).ip) (m.th k).ip (0x10 + cause)
        (tval.toNat % 2 ^ 48) v 0 := by
  rcases h with h | h <;> simp [Module.trapWith, h]

/-- Delivering performed accesses changes nothing but the thread. -/
theorem Module.settle_same (m : Module) (k : Nat) : SameBut m (m.settle k) k := by
  unfold Module.settle
  dsimp only
  split
  · exact SameBut.refl m k
  · exact SameBut.setTh m k _

theorem State.issuing_same (s : State) (th : ThreadId) : SameBut s.m (s.issuing th) (ThreadId.key th) :=
  have h : SameBut s.m s.m.fresh (ThreadId.key th) := { SameBut.refl s.m (ThreadId.key th) with pilot := rfl }
  h.trans (Module.settle_same _ _)

@[simp] theorem State.issuing_pilot (s : State) (th : ThreadId) : (s.issuing th).pilot = s.m.pilot := (State.issuing_same s th).pilot

/-- An instruction whose body leaves its thread as `t` and the rest alone. -/
theorem State.leaves (s : State) (r : Row) (th : ThreadId) (w : Word) (body : Module → Nat → Module) (i : Instr) (t : Thread)
    (he : exec i s = s.inst r th w body) (h : s.issues r th w = true)
    (hb : SameBut (s.issuing th) (body (s.issuing th) (ThreadId.key th)) (ThreadId.key th))
    (ht : (body (s.issuing th) (ThreadId.key th)).th (ThreadId.key th) = t) : Leaves i s th t :=
  ⟨_, he.trans (State.inst_issues s r th w body h), rfl, ht, (State.issuing_same s th).trans hb⟩

/-- An instruction that writes its thread and retires. -/
theorem State.retires (s : State) (r : Row) (th : ThreadId) (w : Word) (body : Module → Nat → Module) (i : Instr) (t : Thread) (wide : Bool)
    (he : exec i s = s.inst r th w body) (h : s.issues r th w = true)
    (hb : body (s.issuing th) (ThreadId.key th) = ((s.issuing th).setTh (ThreadId.key th) t).retire (ThreadId.key th) wide) :
    Retires i s th t := by
  refine State.leaves s r th w body i _ he h ?_ ?_
  · rw [hb]; exact (Module.setTh_retire _ _ _ _).1
  · rw [hb, (Module.setTh_retire _ _ _ _).2, State.issuing_pilot]

/-! ### Parts -/

theorem Only.refl (ps : List Part) (m : Module) : Only ps m m := by
  intro p _
  cases p <;> simp [Part.same]

theorem Only.trans {ps : List Part} {a b c : Module} (h : Only ps a b) (g : Only ps b c) : Only ps a c := by
  intro p hp
  have x := h p hp
  have y := g p hp
  cases p <;> simp only [Part.same] at x y ⊢ <;>
    first | exact y.trans x | exact ⟨y.1.trans x.1, y.2.trans x.2⟩

/-- Counting an event, raising a source and waking the module touch five parts only. -/
theorem Quiet.only {a b : Module} (h : Quiet a b) : Only [.fields, .evc, .pmc, .pwr, .hif] a b := by
  intro p hp
  have g := h.same 0
  cases p <;> simp [Part.same] at hp ⊢
  · exact g.pilot
  · exact h.threads
  · exact h.cores
  · exact h.ctxs
  · exact ⟨g.grids, g.nextGrid⟩
  · exact ⟨g.transfers, g.nextXfer⟩
  · exact g.ms
  · exact g.fab
  · exact g.sq
  · exact g.hmp
  · exact g.cp
  · exact g.esc
  · exact g.lmp
  · exact g.capture
  · exact g.free

/-- Nothing is performed for a thread that has no performed access. -/
theorem Module.settle_none (m : Module) (k : Nat) (h : (m.th k).outst = []) : m.settle k = m := by simp [Module.settle, h]

end Sys2Proof.Machine
end

