-- ==== Sys2Proof/Laws/Thermos.lean ====
section
/-! SUPPORT. The mirrors of the Thermos sections (21 R499, R500): what writing a copy leaves as the newest one. -/

namespace Sys2Proof.Machine

/-- The CRC of a copy is no part of what it covers. -/
theorem Mirror.sum_crc (x : Mirror) (n : Nat) : ({ x with crc := n } : Mirror).sum = x.sum := rfl

/-- A section in SRAM always makes a valid copy. -/
theorem validCopy_section (m : Module) (sec n : Nat) : validCopy (some (m.section sec n)) = some (m.section sec n) := by
  have h : (m.section sec n).crc = (m.section sec n).sum := rfl
  simp [validCopy, Option.filter, h]

/-- A copy whose CRC does not match ranks as none does. -/
theorem mirrorRank_bad (x : Mirror) (h : x.crc ≠ x.sum) : mirrorRank (some x) = 0 := by
  simp [mirrorRank, validCopy, Option.filter, h]

/-- The copies of another section stay. -/
theorem Module.mirrorA_putCopy_ne (m : Module) (sec sec' : Nat) (x : Mirror) (h : sec' ≠ sec) :
    (m.putCopy sec x).mirrorA sec' = m.mirrorA sec' ∧ (m.putCopy sec x).mirrorB sec' = m.mirrorB sec' := by
  unfold Module.putCopy
  split <;> simp [Module.mirrorA, Module.mirrorB, SMap.get_set_ne _ _ _ _ _ h]

/-- What a new copy leaves of its section: it replaces the older of the two. -/
theorem Module.copies_putCopy (m : Module) (sec : Nat) (x : Mirror) :
    (m.newerB sec = true → (m.putCopy sec x).mirrorA sec = some x ∧ (m.putCopy sec x).mirrorB sec = m.mirrorB sec) ∧
    (m.newerB sec = false → (m.putCopy sec x).mirrorA sec = m.mirrorA sec ∧ (m.putCopy sec x).mirrorB sec = some x) := by
  constructor <;> intro h <;> simp [Module.putCopy, Module.mirrorA, Module.mirrorB, h]

/-- A copy whose CRC does not match leaves the newest copy of every section as it was. -/
theorem Module.newest_putCopy_bad (m : Module) (sec sec' : Nat) (x : Mirror) (h : x.crc ≠ x.sum) :
    (m.putCopy sec x).newest sec' = m.newest sec' := by
  by_cases e : sec' = sec
  · subst e
    have hc := m.copies_putCopy sec' x
    cases hb : m.newerB sec' with
    | true =>
      have := hc.1 hb
      have hr : 0 < mirrorRank (m.mirrorB sec') := by
        simp only [Module.newerB, decide_eq_true_eq] at hb; omega
      simp [Module.newest, hb]; simp [Module.newerB, this.1, this.2, mirrorRank_bad x h, hr]
    | false =>
      have := hc.2 hb
      simp [Module.newest, hb]; simp [Module.newerB, this.1, this.2, mirrorRank_bad x h]
  · have := m.mirrorA_putCopy_ne sec sec' x e
    simp [Module.newest, Module.newerB, this.1, this.2]

end Sys2Proof.Machine
end

