-- ==== Sys2Proof/Tests/Slice0.lean ====
section
/-! SUPPORT. Tests of this model: an ill-formed term for each check that refuses one, results from the worked examples of the specification, and
for every statement a concrete state and operands that meet its hypotheses. -/

open Sys2Proof Sys2Proof.Machine

namespace Sys2Proof.Tests

set_option Elab.async false

/-! ### Small states -/

/-- An instruction word from its fields (04 Table 4-1). -/
def word (mj mn d a b c md : Nat) : Word :=
  BitVec.ofNat 64 (mj * 2 ^ 58 + mn * 2 ^ 52 + d * 2 ^ 46 + a * 2 ^ 40 + b * 2 ^ 34 + c * 2 ^ 28 + md)

/-- A thread on a compute core, on an update core, and on a sequencer. -/
def cth : ThreadId := { kind := .compute, core := 5, thread := 2 }
def hth : ThreadId := { kind := .hamper, core := 1, thread := 0 }
def sth : ThreadId := { kind := .sequencer, core := 0, thread := 0 }
def ck : Nat := ThreadId.key cth

/-- A running thread with scalar registers given. -/
def runner (regs : List (Nat × Nat)) : Thread :=
  regs.foldl (fun t r => t.setSN r.1 r.2) { Thread.empty with run := .running, ip := 0x1000#64 }

/-- The reset state with one thread in its slot. -/
def at1 (th : ThreadId) (t : Thread) : State := { State.reset with m := State.reset.m.setTh (ThreadId.key th) t }

/-- The compute thread running in the reset state. -/
def sRun (regs : List (Nat × Nat)) : State := at1 cth (runner regs)

/-- A state with its module changed. -/
def withM (s : State) (f : Module → Module) : State := { s with m := f s.m }

/-- A state with register fields set. -/
def withF (s : State) (l : List (Fld × Nat)) : State := withM s (fun m => l.foldl (fun m x => m.setF x.1 x.2) m)

/-- Context 0 with a first table at 0x200000: gibibyte 0 lies in the spread space with every permission, 1 in the capacity tier, 2 in host
memory, 3 denies every access, and 4 and above are not mapped. -/
def pages (s : State) : State :=
  withM s (fun m =>
    let m1 := m.setCtx 0 { m.ctx 0 with root := 0x200000 }
    let put (m : Module) (i e : Nat) : Module := m.writePlace (Place.spread (0x200000 + 8 * i)) 8 e
    let leaf (t : Nat) : Nat := 2 ^ 63 + 2 ^ 62 + 2 ^ 61 + 2 ^ 60 + 2 ^ 59 + t * 2 ^ 57
    put (put (put (put m1 0 (leaf 0)) 1 (leaf 1)) 2 (leaf 2)) 3 (2 ^ 63 + 2 ^ 62))

/-- The link is up. -/
def linked (s : State) : State := withF s [(Reg.HIF_LINK.state, 2)]

/-- A command answers a next state. -/
def goes (i : Instr) (s : State) : Bool := match exec i s with | .next _ => true | _ => false

/-- The module that a command leaves. -/
def after (i : Instr) (s : State) : Module := match exec i s with | .next t => t.m | _ => s.m

/-! ### Ill-formed commands are refused (04 R86-R88) -/

theorem test_ill_formed_word_of_another_row : goes (.divRem cth (word 1 0 3 1 2 0 0)) State.reset = false := by decide +kernel

theorem test_ill_formed_reserved_mod : goes (.integerOp cth (word 1 0 3 1 2 0 1)) State.reset = false := by decide +kernel

theorem test_ill_formed_legal_word_as_illegal : goes (.illegalInstruction cth (word 10 0 0 0 0 0 0)) State.reset = false := by decide +kernel

/-! ### Witnesses for the hypotheses of the statements -/

theorem witness_EmptyQueueIsOnePilotTick : State.reset.pending = [] := rfl

theorem witness_QueueOfWellFormedCommandsRunsToItsEnd :
    ({ State.reset with pending := [.integerOp cth (word 1 0 3 1 2 0 0), .heldPacketSend] } : State).pending.all Instr.wf = true := by decide +kernel

theorem witness_RefusedExactlyWhenIllFormed :
    (Instr.integerOp cth (word 1 0 3 1 2 0 0)).wf = true ∧ (Instr.divRem cth (word 1 0 3 1 2 0 0)).wf = false := by decide +kernel

theorem witness_EveryStepKeepsTheCanonicalForm : (sRun [(1, 5)]).m.canonical = true ∧ ∃ t, step (sRun [(1, 5)]) = .next t := by
  exact ⟨by decide +kernel, _, rfl⟩

theorem witness_IntegerInstructionsWriteTheTableResult :
    (∀ n ∈ [0, 0x0A, 0x0F, 0x17], (sRun []).issues .integerOp cth (word 1 n 3 1 2 0 0) = true) ∧
    (sRun []).issues .integerOp cth (word 2 0x16 3 1 0 0 0xFFF) = true := by decide +kernel

theorem witness_DivisionByZeroAndOverflowHaveResults :
    (∀ n ∈ [0x0B, 0x0C, 0x0D, 0x0E], (sRun [(1, 2 ^ 63), (2, 2 ^ 64 - 1)]).issues .divRem cth (word 1 n 3 1 2 0 0) = true) ∧
    (let t := (sRun [(1, 2 ^ 63), (2, 2 ^ 64 - 1)]).thread cth
     t.getS 0 = 0 ∧ (t.getS 1).toInt = -2 ^ 63 ∧ (t.getS 2).toInt = -1) := by decide +kernel

theorem witness_ImmediatesAndComparesWriteTheirValue :
    (sRun []).issues .liL cth (word 3 0 1 0 0x3F 0 5) = true ∧ (sRun []).issues .liH cth (word 3 1 1 0 0 0 5) = true ∧
    ∀ n ∈ [0, 1, 2, 3, 4, 5], (sRun []).issues .intCompare cth (word 7 n 3 1 2 0 0) = true := by decide +kernel

theorem witness_FloatingInstructionsWriteResultAndFlags :
    let s := sRun [(1, 0x3FF0000000000000)]
    s.issues .fpArith cth (word 4 0 3 1 2 0 0) = true ∧ s.issues .fdivFsqrt cth (word 4 6 3 1 2 0 0) = true ∧
    s.issues .fdivFsqrt cth (word 4 7 3 1 0 0 0) = true ∧ s.issues .fminFmax cth (word 4 8 3 1 2 0 0) = true ∧
    s.issues .fsgnj cth (word 4 0x0A 3 1 2 0 0) = true ∧ s.issues .fclass cth (word 4 0x0B 3 1 0 0 0) = true ∧
    s.issues .fpCompare cth (word 7 8 3 1 2 0 0) = true ∧ s.issues .pround cth (word 5 0x14 3 1 0 0 0) = true ∧
    s.issues .convert cth (word 6 1 3 1 0 0 0) = true := by decide +kernel

theorem witness_PairInstructionsWriteBothComponents :
    let s := sRun []
    s.issues .faddP cth (word 4 0x10 4 1 2 0 0) = true ∧ s.issues .fmulP cth (word 4 0x11 4 1 2 0 0) = true ∧
    s.issues .fmaP cth (word 4 0x12 4 1 2 3 0) = true ∧ s.issues .padd cth (word 5 0x13 4 1 2 0 0) = true := by decide +kernel

theorem witness_BranchesAndJumpsTakeTheirTarget :
    let s := sRun [(1, 0x2004)]
    (∀ n ∈ [0, 1, 2, 3, 4, 5], s.issues .branch cth (word 8 n 0 1 2 0 0xFFFFFFF) = true) ∧ s.issues .jal cth (word 9 0 1 0 0 0 2) = true ∧
    s.issues .jalr cth (word 9 1 1 1 0 0 4) = true ∧ ((s.thread cth).getS 1 + imm28 (word 9 1 1 1 0 0 4)).toNat % 8 = 0 ∧
    s.issues .jalr cth (word 9 1 1 1 0 0 0) = true ∧ ((s.thread cth).getS 1 + imm28 (word 9 1 1 1 0 0 0)).toNat % 8 ≠ 0 ∧ (s.thread cth).tvec = 0 ∧
    (let u := at1 cth { runner [] with tvec := 0x8000, ip := BitVec.ofNat 64 (2 ^ 48) }
     (u.thread cth).inTrap = false ∧ (u.thread cth).tvec ≠ 0 ∧ (u.m.th ck).run = .running ∧ u.m.getF Reg.PWR_STATE.state = 0 ∧
     2 ^ 48 ≤ (u.m.th ck).ip.toNat) := by decide +kernel

theorem witness_TrapsEnterTheHandlerOrStopTheThread :
    (let u := at1 cth { runner [] with tvec := 0x8000 }
     u.issues .trap cth (word 10 4 0 0 0 0 7) = true ∧ (u.thread cth).inTrap = false ∧ (u.thread cth).tvec ≠ 0) ∧
    wordIllegal 0 = true ∧ (sRun []).issues .trap cth (word 10 4 0 0 0 0 7) = true ∧ ((sRun []).thread cth).tvec = 0 ∧
    (sRun []).m.ctxLive 0 = true ∧
    (let v := at1 sth { runner [] with tvec := 0x8000 }
     wordIs .vintOp (word 16 0 1 2 3 0 0) = true ∧ (v.thread sth).blockedBy (word 16 0 1 2 3 0 0) = false ∧ 2 ≤ keyKind (ThreadId.key sth) ∧
     (v.m.th (ThreadId.key sth)).run = .running) := by decide +kernel

theorem witness_TretReturnsFromTheTrap :
    let s (inT : Bool) (epc : BitVec 48) (tv : Word) : State := at1 cth { runner [] with inTrap := inT, tepc := epc, tvec := tv }
    let w := word 10 5 0 0 0 0 0
    (s true 0x2000 0x8000).issues .tret cth w = true ∧ ((s true 0x2000 0x8000).thread cth).inTrap = true ∧
    ((s true 0x2004 0).thread cth).tepc.toNat % 8 ≠ 0 ∧ (s true 0x2004 0).issues .tret cth w = true ∧
    ((s false 0 0x8000).thread cth).tvec ≠ 0 ∧ (s false 0 0x8000).issues .tret cth w = true ∧ (s false 0 0).issues .tret cth w = true ∧
    ((s false 0 0).thread cth).tvec = 0 := by decide +kernel

theorem witness_StatusRegisterInstructions :
    ∀ n ∈ [0, 1, 2, 8, 9, 0x0A, 0x0B, 0x0C], let s := sRun [(1, 0x13)]
      s.issues .srd cth (word 11 0 1 0 0 0 n) = true ∧ s.issues .swr cth (word 11 1 0 1 0 0 n) = true ∧
      s.issues .sset cth (word 11 2 2 1 0 0 n) = true ∧ s.issues .sclr cth (word 11 3 2 1 0 0 n) = true := by decide +kernel

theorem witness_ThreadControlInstructions :
    let s := sRun []
    s.issues .nop cth (word 10 0 0 0 0 0 0) = true ∧ s.issues .yield cth (word 10 2 0 0 0 0 0) = true ∧
    s.issues .pause cth (word 10 3 0 0 0 0 0) = true ∧ s.issues .halt cth (word 10 1 0 0 0 0 0) = true ∧
    (s.issuing cth).drained ck = true ∧ (s.thread cth).deferred = [] ∧
    ((at1 cth { runner [] with run := .paused }).m.th ck).run = .paused ∧
    (let g : Grid := { id := 4, ctx := 0, entry := 0, arg := 0, threads := 1, cores := [5], waiting := [], live := 2, lost := 0, completion := 0 }
     let u := withM (at1 cth { runner [] with work := .grid 4 }) (fun m => { m with grids := [g] })
     (u.thread cth).work = .grid 4 ∧ u.m.grid 4 = some g ∧ 1 < g.live) := by decide +kernel

theorem witness_FinitePatternsRoundToThemselves :
    (fp64.decode 0x0000000000000001).isFin = true ∧ (bf16.decode 0x8000).isFin = true ∧ (e5m2.decode 0x7B).isFin = true := by decide +kernel

theorem witness_TwoSumErrorTermIsExact :
    let a := fp64.decode 0x3FF0000000000000
    let b := fp64.decode 0x3C90000000000000
    a.isFin = true ∧ b.isFin = true ∧ (twoSum fp64 a b).1.s.isFin = true := by decide +kernel

theorem witness_VectorIntegerAndFixedPointElements :
    (∀ n ∈ [0, 7, 11], (sRun []).issues .vintOp cth (word 16 n 3 1 2 0 0x201) = true) ∧
    (∀ n ∈ [0, 3, 6, 8], (sRun []).issues .vfixedOp cth (word 17 n 3 1 (if n = 8 then 0 else 2) 0 0x4201) = true) := by decide +kernel

theorem witness_VectorFloatingElementsAndPairs :
    let s := sRun []
    (∀ n ∈ [0, 8, 10], s.issues .vfloatOp cth (word 18 n 3 1 2 0 0xA00) = true) ∧
    s.issues .vpairOp cth (word 19 4 4 2 0 0 0xC00) = true ∧ s.issues .vpairOp cth (word 19 1 4 1 2 0 0xAD00) = true := by decide +kernel

theorem witness_VectorConversions :
    let s := sRun []
    s.issues .vcvt cth (word 20 10 3 1 0 0 0xB00) = true ∧ vIsPair (vtype (word 20 10 3 1 0 0 0xB00)) = false ∧
    s.issues .vcvt cth (word 20 11 4 1 0 0 0xD00) = true ∧ vIsPair (vtype (word 20 11 4 1 0 0 0xD00)) = true := by decide +kernel

theorem witness_MaskOperationsAndCompares :
    let s := sRun []
    (∀ n ∈ [0, 1, 2, 3], s.issues .maskOp cth (word 22 n 3 1 2 0 0) = true) ∧ (∀ n ∈ [4, 5, 6, 7], s.issues .maskOp cth (word 22 n 3 1 0 0 0x300) = true) ∧
    s.issues .vcompare cth (word 21 2 3 1 2 0 0x208) = true ∧ s.issues .vcompare cth (word 21 8 3 1 2 0 0xA00) = true := by decide +kernel

theorem witness_VectorMovesAndPermutes :
    let s := sRun []
    s.issues .vbcast cth (word 23 0 3 1 0 0 0x208) = true ∧ s.issues .vext cth (word 23 1 3 1 2 0 0x300) = true ∧
    s.issues .vins cth (word 23 2 3 1 2 0 0x300) = true ∧ s.issues .vmerge cth (word 23 3 3 1 2 0 0x309) = true ∧
    s.issues .vperm cth (word 23 4 3 1 2 0 0x300) = true ∧ s.issues .vslideup cth (word 23 5 3 1 2 0 0x300) = true ∧
    s.issues .vslidedn cth (word 23 6 3 1 2 0 0x300) = true := by decide +kernel

theorem witness_VectorReductionsFoldTheFixedTree :
    (sRun []).issues .vreduce cth (word 23 8 3 1 0 0 0x300) = true ∧ ((sRun []).thread cth).vidx.toNat < 2048 / vWidth 3 ∧
    (sRun []).issues .vreduce cth (word 23 11 4 2 0 0 0xC00) = true ∧
    (let u := at1 cth { runner [] with vidx := 200 }
     u.issues .vreduce cth (word 23 8 3 1 0 0 0x300) = true ∧ 2048 / vWidth 3 ≤ (u.thread cth).vidx.toNat) := by decide +kernel

/-- A thread's address translates to a readable place that no hold keeps. -/
def openAt (s : State) (th : ThreadId) (va n : Nat) (acc : Access) : Bool :=
  match s.xlat th va acc with
  | .ok p _ => !s.m.badPlace p n && !s.m.mustWait p && !(s.issuing th).walkHeld (ThreadId.key th) va &&
      (match p with | .hbm pc _ => !s.m.held pc | _ => true)
  | _ => false

/-- Every pseudo-channel is held. -/
def heldAll (s : State) : State := withF s ((List.range 8).map (fun i => (Reg.MEM_HOLD.held i, 2 ^ 64 - 1)))

/-- Sector poisoned at a spread address. -/
def poisoned (s : State) (pa : Nat) : State :=
  withM s (fun m => m.setMs { m.ms with poison := SMap.set false m.ms.poison (hbmKey (spreadMap pa).1 (spreadMap pa).2 / 32) true })

/-- The compute thread with s1 at an address, over the pages. -/
def sMem (va v : Nat) : State := pages (sRun [(1, va), (2, v)])

theorem witness_LoadsDeliverTheBytesAtTheirAddress :
    let w := word 48 3 3 1 0 0 0
    let G := 2 ^ 30
    (sMem 0x8000 0).issues .ld cth w = true ∧ (xAddr ((sMem 0x8000 0).thread cth) w).toNat = 0x8000 ∧
    openAt (sMem 0x8000 0) cth 0x8000 8 .load = true ∧ openAt (sMem (G + 8) 0) cth (G + 8) 8 .load = true ∧
    (match (heldAll (sMem 0x8000 0)).xlat cth 0x8000 .load with
     | .ok p _ => (heldAll (sMem 0x8000 0)).m.mustWait p && !(heldAll (sMem 0x8000 0)).m.badPlace p 8 | _ => false) = true ∧
    (sMem (3 * G) 0).xlat cth (3 * G) .load = .viol ∧ (sMem (4 * G) 0).xlat cth (4 * G) .load = .fault 1 ∧
    (match (poisoned (sMem 0x8000 0) 0x8000).xlat cth 0x8000 .load with
     | .ok p _ => (poisoned (sMem 0x8000 0) 0x8000).m.badPlace p 8 | _ => false) = true ∧
    ((sMem 0x8000 0).issuing cth).acqPending ck = false := by decide +kernel

/-- A thread with one returned load of register 4. -/
def loaded : Thread :=
  { runner [] with outst := [{ id := 0, ip := 0x1000#64, isLoad := true, acq := false, dstS := [4], dstV := [],
                               got := [{ vec := false, reg := 4, width := 64, idx := 0, val := 9, src := some (.hbm 3 64), va := 0x8000, viol := false }], left := 0, cause := 6,
                               addr := 0x8000, device := 0, tag := none, vec := false }] }

theorem witness_LoadsDeliverTheBytesAtTheirAddress_response :
    ∃ o g, ((at1 cth loaded).m.th ck).outst = [o] ∧ o.left = 0 ∧ o.got = [g] ∧ g.vec = false ∧ g.reg ≠ 0 ∧ g.idx = 0 ∧ o.isLoad = true ∧
      g.src = some (.hbm 3 64) := ⟨_, _, rfl, rfl, rfl, rfl, by decide, rfl, rfl, rfl⟩

theorem witness_StoresWriteTheBytesAtTheirAddress :
    let w := word 49 3 0 1 2 0 0
    let G := 2 ^ 30
    (sMem 0x8000 7).issues .st cth w = true ∧ (xAddr ((sMem 0x8000 7).thread cth) w).toNat % 8 = 0 ∧ openAt (sMem 0x8000 7) cth 0x8000 8 .store = true ∧
    (match (heldAll (sMem 0x8000 0)).xlat cth 0x8000 .store with | .ok p _ => (heldAll (sMem 0x8000 0)).m.mustWait p | _ => false) = true ∧
    (sMem (3 * G) 0).xlat cth (3 * G) .store = .viol ∧ (sMem (4 * G) 0).xlat cth (4 * G) .store = .fault 1 ∧
    (let u := sMem (windowBase + storeBytes - 8) 7
     u.issues .st cth w = true ∧ keyKind ck = 0 ∧ (xAddr (u.thread cth) w).toNat + 8 = windowBase + storeBytes) := by decide +kernel

/-- Device 9 is lost. -/
def lostDev (s : State) : State := withM s (fun m => m.setRoute 9 (BitVec.ofNat 64 (2 ^ 63 + 2 ^ 62)))

theorem witness_GlobalAccessesGoToTheirDevice :
    let far := 9 * 2 ^ 48
    let ld := word 50 3 3 1 0 0 0
    let st := word 51 3 0 1 2 0 0
    let s := sMem (far + 0x8000) 7
    s.issues .gld cth ld = true ∧ s.issues .gst cth st = true ∧ (xAddr (s.thread cth) ld).toNat % 8 = 0 ∧ s.m.myId ≠ 9 ∧
    s.m.refusedAtOnce 0 9 = none ∧ (lostDev s).m.routeLost 9 = true ∧ (lostDev s).issues .gld cth ld = true ∧
    (let u := sMem (s.m.myId * 2 ^ 48 + 0x8000) 7
     u.issues .gld cth ld = true ∧ (match u.m.ctxXlat 0 0x8000 .load with | .ok p _ => !u.m.badPlace p 8 && !u.m.mustWait p | _ => false) = true ∧
     (match u.m.ctxXlat 0 0x8000 .store with | .ok p _ => !u.m.mustWait p | _ => false) = true) ∧
    (let v := sMem far 0
     v.issues .gld cth (word 50 3 3 1 0 0 0x3FFFFF8) = true ∧ signedOf 26 0x3FFFFF8 = -8) := by decide +kernel

theorem witness_AtomicsApplyTheOperationOfTheirTable :
    let amo := word 52 9 3 1 2 0 0
    let red := word 54 9 0 1 2 0 0
    let G := 2 ^ 30
    (sMem 0x8000 5).issues .amo cth amo = true ∧ (sMem 0x8000 5).issues .red cth red = true ∧
    (match (sMem 0x8000 5).xlat cth 0x8000 .atomic with
     | .ok p _ => p.isHbm && !(sMem 0x8000 5).m.badPlace p 8 && !(sMem 0x8000 5).m.mustWait p | _ => false) = true ∧
    (sMem (3 * G) 5).xlat cth (3 * G) .atomic = .viol ∧
    (match (sMem G 5).xlat cth G .atomic with | .ok p _ => !p.isHbm | _ => false) = true ∧
    (sMem (4 * G) 5).xlat cth (4 * G) .atomic = .fault 1 ∧
    (match (poisoned (sMem 0x8000 5) 0x8000).xlat cth 0x8000 .atomic with
     | .ok p _ => p.isHbm && (poisoned (sMem 0x8000 5) 0x8000).m.badPlace p 8 | _ => false) = true := by decide +kernel

theorem witness_VectorLoadsFillTheirElements :
    let w := word 24 0 3 1 0 0 0x700
    let s := sMem 0x8000 8
    s.issues .vld cth w = true ∧ s.issues .vlds cth (word 24 2 3 1 2 0 0x700) = true ∧ s.issues .vgather cth (word 24 4 3 1 2 0 0x700) = true ∧
    (∀ j ∈ List.range 32, openAt s cth (0x8000 + 8 * j) 8 .load = true) ∧
    (let u := sMem (4 * 2 ^ 30 - 8) 8
     u.issues .vld cth w = true ∧ u.xlat cth (4 * 2 ^ 30) .load = .fault 1) := by decide +kernel

theorem witness_VectorStoresWriteTheirElements :
    let s := sMem windowBase 8
    s.issues .vst cth (word 24 1 3 1 0 0 0x700) = true ∧ s.issues .vsts cth (word 24 3 3 1 2 0 0x700) = true ∧
    s.issues .vscatter cth (word 24 5 3 1 2 0 0x700) = true ∧ (∀ j ∈ List.range 32, openAt s cth (windowBase + 8 * j) 8 .store = true) := by
  decide +kernel

/-- The compute core holds the translation of an address. -/
def cached (s : State) (va : Nat) : State := withM s (fun m => (m.thXlat ck va .load).1)

/-- A fixed place in HBM that reads. -/
def fixedHbm (s : State) (va n : Nat) (acc : Access) : Bool :=
  match s.xlat cth va acc with
  | .ok p _ => p.isHbm && openAt s cth va n acc && (SMap.get none ((s.issuing cth).core (ck / 8)).tlb (va / 2 ^ 21)).isSome
  | _ => false

theorem witness_VectorReductionsReachTheirAddresses :
    let s := cached (sMem 0x8000 0) 0x8000
    s.issues .redv cth (word 55 2 0 1 2 0 0x300) = true ∧ s.issues .redvi cth (word 55 18 0 1 2 3 0x300) = true ∧
    s.issues .redv cth (word 55 13 0 1 2 0 0xD00) = true ∧
    (∀ j ∈ List.range 64, fixedHbm s (0x8000 + 4 * j) 4 .atomic = true) ∧
    -- redv writes element by element, and redvi with the indexes all equal meets one address twice when two elements perform
    (let t := { runner [(1, 0x8000)] with m := [(0, 3#256)] }
     ∀ l ∈ List.range 64, t.performs (word 55 18 0 1 2 3 0x300) l = true) := by decide +kernel

theorem witness_FenceAndWaitHoldTheThread :
    let fence := word 56 0 0 0 0 0 0
    let wait := word 60 0 3 1 2 4 0
    let G := 2 ^ 30
    let late := at1 cth { runner [(1, 0x8000)] with deferred := [{ cause := 4, addr := 0x8000, device := 9 }] }
    let open_ := at1 cth { loaded with outst := loaded.outst.map (fun o => { o with left := 1, dstS := [] }) }
    (sRun []).issues .xFence cth fence = true ∧ ((sRun []).issuing cth).drained ck = true ∧
    late.issues .xFence cth fence = true ∧ (late.issuing cth).drained ck = true ∧ (late.thread cth).deferred ≠ [] ∧
    open_.issues .xFence cth fence = true ∧ (open_.issuing cth).drained ck = false ∧
    (sMem 0x8000 0).issues .xWait cth wait = true ∧ openAt (sMem 0x8000 0) cth 0x8000 8 .load = true ∧
    (sMem (3 * G) 0).xlat cth (3 * G) .load = .viol ∧ (sMem (4 * G) 0).xlat cth (4 * G) .load = .fault 1 ∧
    (let u := at1 cth { runner [] with run := .waitWord 0x8000 (some (.hbm 3 64, false)) 7 0 (some 50) 3 0 }
     u.m.badPlace (.hbm 3 64) 8 = false ∧ u.m.mustWait (.hbm 3 64) = false) := by decide +kernel

/-- Words in the spread space, at the address where gibibyte 0 maps them. -/
def poke (s : State) (pa : Nat) (ws : List Nat) : State :=
  withM s (fun m => (ws.zip (List.range ws.length)).foldl (fun m x => m.writePlace (Place.spread (pa + 8 * x.2)) 8 x.1) m)

/-- A local copy of 8 bytes from 0x8000 to the capacity tier, its record in the capacity tier. -/
def copyDesc : List Nat := [2 ^ 63 + 2 ^ 30 + 0x100, 0x8000, 2 ^ 30 + 0x40, 8]

/-- A transfer of that descriptor. -/
def aCopy : Transfer :=
  { id := 0, ctx := 0, queue := 0, op := 2, vc := 0, completion := 2 ^ 30 + 0x100, src := 0x8000, dst := 2 ^ 30 + 0x40, length := 8, state := 0,
    next := 0, window := 1, openTags := [], failed := [], lost := false, dead := false, timedOut := false }

/-- A remote write of 16 requests to device 9. -/
def aWrite : Transfer := { aCopy with op := 1, dst := 9 * 2 ^ 48 + 0x40, length := 1024 }

theorem witness_XxferRetiresWithTheFirstCodeThatApplies :
    let w := word 57 0 3 1 0 0 0
    let good := poke (sMem 0x9000 0) 0x9000 copyDesc
    let bad := poke (sMem 0x9000 0) 0x9000 [1, 0, 0, 0]
    let full := withM good (fun m => { m with transfers := List.replicate 64 aCopy })
    good.issues .xXfer cth w = true ∧ (good.issuing cth).drained ck = true ∧ (good.thread cth).deferred = [] ∧
    (good.issuing cth).descRead 0 0x9000 4 = (copyDesc, false, false) ∧ xferValid copyDesc = true ∧ good.m.transfers = [] ∧
    (bad.issuing cth).descRead 0 0x9000 4 = ([1, 0, 0, 0], false, false) ∧ xferValid [1, 0, 0, 0] = false ∧
    (full.m.transfers.filter (fun x => x.ctx == 0 && x.queue == 0)).length = 64 ∧
    (sMem 0x9004 0).issues .xXfer cth w = true ∧ ((sMem (2 ^ 32) 0).issuing cth).descRead 0 (2 ^ 32) 4 = ([], true, false) ∧
    ((sMem (3 * 2 ^ 30) 0).issuing cth).descRead 0 (3 * 2 ^ 30) 4 = ([0, 0, 0, 0], false, true) := by decide +kernel

/-- The compute thread beside transfers. -/
def moving (l : List Transfer) : State := withM (sMem (2 ^ 30 + 0x100) 0) (fun m => { m with transfers := l, nextXfer := 1 })

theorem witness_TransfersStartCompleteAndAbort :
    ((moving [aCopy]).m.isLocal aCopy = true ∧ (moving [aCopy]).m.localHeld aCopy = false ∧ (moving [aWrite]).m.refusedAtOnce 0 9 = none ∧
    ((moving [aCopy]).m.transfers.find? (fun x => x.ctx == 0 && x.queue == 0)) = some aCopy) ∧
    (∃ p q r l1 l2 l3, (moving [aCopy]).m.ctxXlat 0 0x8000 .load = .ok p l1 ∧ (moving [aCopy]).m.ctxXlat 0 (2 ^ 30 + 0x40) .store = .ok q l2 ∧
      q = .ctier 0x40 ∧ (moving [aCopy]).m.ctxXlat 0 (2 ^ 30 + 0x100) .store = .ok r l3 ∧ r = .ctier 0x100 ∧ (moving [aCopy]).m.badPlace p 8 = false ∧
      (moving [aCopy]).m.ctxLive 0 = true) ∧
    (let w := word 58 0 3 1 0 0 0
     (moving []).issues .xAbort cth w = true ∧ (moving [aCopy]).issues .xAbort cth w = true ∧
     (moving [{ aWrite with state := 1, openTags := [(0, 0)] }]).issues .xAbort cth w = true) := by
  refine ⟨by decide +kernel, ⟨_, _, _, _, _, _, rfl, rfl, rfl, rfl, rfl, ?_⟩, by decide +kernel⟩
  decide +kernel

/-- A grid of one thread on core 5 that has not been admitted. -/
def aGrid : Grid := { id := 0, ctx := 0, entry := 0x1000, arg := 7, threads := 1, cores := [5], waiting := [5], live := 1, lost := 0, completion := 0x40 }

theorem witness_GridsLaunchAndStartTheirThreads :
    let w := word 59 0 3 1 0 0 0
    let d := [0x1000, 7, 1 + 2 ^ 8 + 2 ^ 29, 0x40]
    let s := poke (sMem 0x9000 0) 0x9000 d
    let g := withM State.reset (fun m => (({ m with grids := [aGrid], nextGrid := 1 } : Module)).setCore 5 { Core.empty with grids := [0] })
    s.issues .xLaunch cth w = true ∧ (s.issuing cth).drained ck = true ∧ (s.issuing cth).descRead 0 0x9000 4 = (d, false, false) ∧
    s.m.usedCores (1 + 2 ^ 8 + 2 ^ 29) = [5] ∧
    (g.m.core 5).grids = [0] ∧ g.m.grid 0 = some aGrid ∧ g.m.partReady 0 = true ∧ g.m.getF Reg.PWR_STATE.state = 0 ∧
    aGrid.threads ≤ ((coreKeys 5).filter (fun k => !g.m.busy k)).length ∧ (∀ k ∈ coreKeys 5, g.m.busy k = false) ∧
    (∀ k ∈ coreKeys 5, (State.reset.m.th k).runnable = false ∧ (State.reset.m.th k).outst = []) ∧ (State.reset.m.core 5).mq = [] := by decide +kernel

/-- A request of device 9 for the job of context 0. -/
def request (op : BitVec 6) (addr : BitVec 48) : Packet :=
  { Packet.blank with src := 9, op := op, addr := addr, len := 8, data := [7, 0, 0, 0, 0, 0, 0, 0], tag := 3, awidth := 1, aop := 2 }

/-- A packet has arrived. -/
def arrived (s : State) (p : Packet) : State := withM s (fun m => m.setFab { m.fab with inbox := [(0, p)] })

theorem witness_RequestsAreServedInTheContextOfTheirJob :
    let s := pages State.reset
    let u := withF s [(Reg.HIF_CTXSTAT.state 4, 2), (Reg.HIF_CTXSTAT.job 4, 5)]
    (∀ op ∈ [1, 2, 3, 4], (arrived s (request op 0x8000)).m.fab.inbox = [(0, request op 0x8000)]) ∧
    s.m.jobCtx 0 = some 0 ∧ s.m.jobCtx 1 = none ∧ u.m.jobCtx 5 = some 4 ∧ u.m.ctxLive 4 = false ∧ s.m.ctxLive 0 = true ∧
    s.m.ctxXlat 0 (2 ^ 32) .load = .fault 1 ∧
    (∀ acc ∈ [Access.load, .store, .atomic], (match s.m.ctxXlat 0 0x8000 acc with
      | .ok p _ => p.isHbm && !s.m.badPlace p 8 && !s.m.mustWait p | _ => false) = true) := by decide +kernel

/-- A thread whose access of register 4, or whose store, waits for device 9 under tag 3. -/
def asking (op : Nat) (ld : Bool) : State :=
  let d := if ld then [4] else []
  let o : Outst := ⟨0, 0x1000#64, ld, false, d, [], [], 1, 0, 0x8000, 9, some 3, false⟩
  withM (at1 cth { runner [] with outst := [o] }) (fun m => m.setFab { m.fab with reqs :=
    [⟨3, 9, 0, 0, 0, op, 0, 0, 0, 0, .thread ck 0 ld 0x8000⟩] })

theorem witness_ResponsesEndTheirRequests :
    (∀ op ∈ [(1, true), (2, false), (3, true), (4, false)],
      (asking op.1 op.2).m.fab.reqs.length = 1 ∧ (asking op.1 op.2).m.fab.quietDue = [] ∧ ((asking op.1 op.2).m.th ck).outst.length = 1) ∧
    (∀ n ∈ List.range 64, State.reset.m.ctxState n ≠ 2) ∧ State.reset.m.jobCtx 0 = some 0 ∧ State.reset.m.hmp.slots = [] ∧
    (let t : Teardown := { asked := [9], quiet := [], queue := none, drained := true, gone := [] }
     let s := withF (withM State.reset (fun m => m.setCtx 4 { m.ctx 4 with teardown := some t }))
       [(Reg.HIF_CTXSTAT.state 4, 2), (Reg.HIF_CTXSTAT.job 4, 5)]
     s.m.jobCtx 5 = some 4 ∧ (s.m.ctx 4).teardown = some t ∧ s.m.xferOpen 4 = false ∧ s.m.oos = false ∧ s.m.ctxState 4 = 2) := by decide +kernel

/-- Words for the matrix instructions and the queue operations. -/
def matrixWords : List (Row × Word) :=
  [(.msLd, word 32 0 0 1 0 0 0), (.msSwap, word 32 1 0 0 0 0 0), (.mma, word 33 0 0 1 0 0 0), (.mstCfg, word 34 0 1 1 0 0 0),
   (.mstSeek, word 34 1 1 1 2 0 0), (.maccZero, word 35 0 3 0 0 0 0), (.maccLd, word 35 1 3 1 2 0 0x2000), (.maccDrain, word 35 2 3 1 2 3 0x2000),
   (.maccStat, word 35 3 4 1 0 0 0), (.qCholTile, word 40 0 2 1 0 0 5), (.qTrsm, word 41 0 2 4 0 0 0), (.qSchur, word 42 0 2 4 6 0 0),
   (.qHhPanel, word 43 0 2 1 2 3 5), (.qHhApply, word 43 1 0 1 2 3 0)]

/-- A channel over FP32 elements at 0x8000. -/
def chan1 : Chan := { configured := true, words := [0x8000, 0x0000000400000100, 0x0000002000000020, 0x0100000000000000, 0, 0, 0, 0], col := 0, kap := 0 }

/-- The core of the compute thread changed. -/
def withCore (s : State) (f : Core → Core) : State := withM s (fun m => m.setCore 5 (f (m.core 5)))

/-- An mma of one slot in the queue of core 5. -/
def aSlot : MOp :=
  ⟨0, 2, word 33 0 0 1 0 0 0, 0x1000#64, 0, 0, 0, 0, 0, 0, 0, false, false, true, none⟩

theorem witness_MatrixInstructionsEnterTheirQueue :
    let s := sMem 0x8000 4
    let w := windowBase
    (∀ x ∈ matrixWords, s.issues x.1 cth x.2 = true) ∧ (s.m.core 5).mq = [] ∧
    (withCore s (fun c => { c with mq := List.replicate 16 aSlot })).issues .msSwap cth (word 32 1 0 0 0 0 0) = true ∧
    (let u := sMem 0x8004 0
     u.issues .mstCfg cth (word 34 0 1 1 0 0 0) = true ∧ (withM u (fun m => m.setTh ck { m.th ck with tvec := 0x2000#64 })).issues .mstCfg cth (word 34 0 1 1 0 0 0) = true) ∧
    (∀ i ∈ List.range 8, openAt s cth (0x8000 + 8 * i) 8 .load = true) ∧
    (let u := sRun [(1, w), (2, 128 * 2 ^ 32 / 2 ^ 32)]
     u.issues .maccLd cth (word 35 1 3 1 2 0 0x2000) = true ∧ u.issues .maccDrain cth (word 35 2 3 1 2 3 0x2000) = true ∧
     openAt u cth (tileAddr (BitVec.ofNat 64 w) 128#64 4 31 31) 4 .load = true ∧ openAt u cth (tileAddr (BitVec.ofNat 64 w) 128#64 4 31 31) 4 .store = true) ∧
    chan1.valid = true ∧ widens 1 chan1.src = true ∧ (chan1.addr 3 5).isSome = true ∧
    (withCore s (fun c => { c with chans := [(1, chan1)] })).issues .msLd cth (word 32 0 0 1 0 0 0x100) = true := by decide +kernel

theorem witness_SlotsEnterLandAndRetire :
    let s := sRun []
    let w := word 36 0 0 0 0 0 0
    let busy := withCore s (fun c => { c with mq := [aSlot] })
    s.issues .mwait cth w = true ∧ ((s.m.core 5).mq.filter (fun o => o.thread == keyThread ck)).length ≤ Word.slice w 4 0 ∧
    busy.issues .mwait cth w = true ∧ Word.slice w 4 0 < ((busy.m.core 5).mq.filter (fun o => o.thread == keyThread ck)).length ∧
    aSlot.lane = true ∧ aSlot.slots < aSlot.total ∧ Core.empty.columnBusy (Word.rd aSlot.word) aSlot.laneTiles 0 = false ∧
    (Core.empty.chan (Word.ra aSlot.word)).valid = false ∧ { aSlot with started := false }.started = false ∧
    (let f : Inflight := ⟨0, 0, 1, 0, List.replicate 32 7, 0, true⟩
     let c := { Core.empty with mq := [aSlot], inflight := [f] }
     c.mq.filter (fun x => x.id == f.op) = [aSlot] ∧ f.col < 32 ∧ f.vals.length = 32 ∧ c.columnBusy 0 1 0 = true) ∧
    (let q : MOp := ⟨0, 2, word 40 0 2 1 0 0 5, 0x1000#64, 0, 0, 0, 0, 1, 0, 0, false, false, true, none⟩
     q.lane = true ∧ q.total = q.landed + 1 ∧ Word.major q.word = 0x28) ∧
    ({ Core.empty with mq := [{ aSlot with done := true }] }).mq.find? (fun x => x.done) = some { aSlot with done := true } := by decide +kernel

theorem witness_LeasesAnswerTheirOutcome :
    let s := State.reset
    let own (st ow : Nat) := withF s [(Reg.SQ_LOWN.state 3, st), (Reg.SQ_LOWN.owner 3, ow)]
    let run : SolverRun := { id := 0, ctx := 0, proc := 0, cores := clusterCores 3, stage := 1, it := 0, panel := 0, first := true, lanes := [], bank := false }
    s.barReady ∧ s.m.ctxLive 0 = true ∧ s.m.ctxLive 1 = false ∧ s.m.partReady 0 = true ∧
    (withF s [(Reg.PART_STAT.state 0, 1)]).m.partReady 0 = false ∧ s.m.getF (Reg.SQ_LOWN.state 3) = 0 ∧ s.m.clusterBusy 3 = false ∧
    (withM s (fun m => m.setTh (48 * 8) (runner []))).m.clusterBusy 3 = true ∧ (own 2 0).m.getF (Reg.SQ_LOWN.state 3) = 2 ∧
    (own 1 5).m.getF (Reg.SQ_LOWN.owner 3) = 5 ∧
    (withM (own 2 0) (fun m => m.setSq { m.sq with runs := [run] })).m.coreTaken 48 = true := by
  refine ⟨⟨rfl, ?_, ?_, ?_⟩, ?_⟩ <;> decide +kernel

/-- Context 0 leases cluster 3, and the sequencer accepts. -/
def leased (s : State) : State := withF s [(Reg.SQ_LOWN.state 3, 2), (Reg.SQ_LOWN.owner 3, 0), (Reg.SQ_CTRL.accept, 1)]

/-- A single problem of kind 1 with a program at 0x1000: n = 2, m = 2, one iteration, and its x, work area and result in the capacity tier. -/
def aDesc : List Nat :=
  [2 ^ 60 + 2 * 2 ^ 32 + 2, 2 ^ 30 + 0x100, 0x1000, 0, 2 ^ 30 + 0x10000, 2 ^ 30 + 0x200, 0, 0, 0, 0, 0, 0, 0, 0, 0, 0]

/-- A submission header over that descriptor, in the capacity tier its record. -/
def aSub (list : Nat) : List Nat := [list, 2 ^ 30 + 0x40, 0, 0, 0, 0, 0, 0]

theorem witness_SolverSubmissionsAnswerTheirCode :
    let sub := word 62 0 3 1 0 0 0
    let adj := word 62 1 3 1 0 0 0
    let s := poke (poke (leased (sMem 0x9000 0)) 0x9000 (aSub 0xA000)) 0xA000 aDesc
    let a := poke (poke (leased (sMem 0x9000 0)) 0x9000 [0xA000, 2 ^ 30 + 0x40, 0, 0]) 0xA000 [1, 0, 0, 0]
    s.m.subHeld = false ∧ s.issues .xSqsub cth sub = true ∧ a.issues .xSqadj cth adj = true ∧ (s.issuing cth).drained ck = true ∧
    (s.thread cth).deferred = [] ∧ s.m.oos = false ∧ s.m.getF Reg.SQ_CTRL.accept = 1 ∧ (withF s [(Reg.SQ_CTRL.accept, 0)]).m.getF Reg.SQ_CTRL.accept = 0 ∧
    (s.issuing cth).descRead 0 0x9000 8 = (aSub 0xA000, false, false) ∧
    (({ m := s.issuing cth, code := 0, probs := [] } : SqCheck).problem 0 0xA000).code = 0 ∧ s.m.getF Reg.SQ_QUEUE.free = 65536 ∧
    (a.issuing cth).descRead 0 0x9000 4 = ([0xA000, 2 ^ 30 + 0x40, 0, 0], false, false) ∧ (a.issuing cth).descRead 0 0xA000 4 = ([1, 0, 0, 0], false, false) ∧
    (withF s [(Reg.PWR_STATE.entering, 1), (Reg.PWR_STATE.target, 3)]).m.subHeld = true ∧
    (poke s 0xA000 [15 * 2 ^ 60]).issues .xSqsub cth sub = true ∧
    (({ m := (poke s 0xA000 [15 * 2 ^ 60]).issuing cth, code := 0, probs := [] } : SqCheck).problem 0 0xA000).code = 2 := by decide +kernel

/-- A submission of one problem of context 0, and the problem. -/
def sub0 : Submission := ⟨0, 0, 0, 100, true, false, 2 ^ 30 + 0x40, false, 1, 1, 0, false, false⟩
def prob0 : Problem := { id := 1, sub := 0, ctx := 0, words := aDesc, obs := [], ohash := 0, shift := [], group := 1, phase := 0, fin := none }
def lane0 : Lane := ⟨1, [0, 0], [0, 0], 0, 0, ⟨[], [0, 0], [], [], []⟩, ⟨[], [[0], [0, 0]], [], 0, [], 0⟩, [], 0, 0, false, false, [], none⟩
def run0 (stage : Nat) : SolverRun := { id := 1, ctx := 0, proc := 0, cores := clusterCores 3, stage := stage, it := 0, panel := 0, first := false, lanes := [lane0], bank := false }

/-- The sequencer with a problem, at a phase and with runs. -/
def solving (x : Submission) (p : Problem) (rs : List SolverRun) : State :=
  withM (leased (pages State.reset)) (fun m => m.setSq { m.sq with subs := [x], probs := [p], runs := rs })

theorem witness_ProblemsRunFromStartToEnd :
    let s := solving sub0 prob0 []
    let e : Ending := { x := some [1, 2], record := [0, 1, 2, 3], lam := 0, lost := false }
    let d := solving sub0 { prob0 with phase := 2, fin := some e } []
    s.m.nextInLine 0 = some 1 ∧ s.m.sqProb 1 = some prob0 ∧ s.m.serving ≠ [] ∧ s.m.subHeld = false ∧ s.m.isLate 0 = false ∧
    (solving { sub0 with late := true } prob0 []).m.isLate 0 = true ∧ pdSdesc aDesc = 0 ∧ (s.m.fresh.solverCores 0 (pdKind aDesc)).2 ≠ [] ∧ s.m.sqRun 1 = none ∧
    (∀ st ∈ [1, 2, 3, 4, 5], let u := solving sub0 { prob0 with phase := 1 } [run0 st]
      u.m.sqRun 1 = some (run0 st) ∧ u.m.sqProb 1 = some { prob0 with phase := 1 } ∧ u.m.stageThreads 1 = [] ∧ u.m.isLate 0 = false) ∧
    pdKind aDesc = 1 ∧ pdQr aDesc = false ∧ pdIters aDesc = 1 ∧ sub0.left = 1 ∧ d.m.sqProb 1 = some { prob0 with phase := 2, fin := some e } ∧
    (∀ va ∈ [2 ^ 30 + 0x100, 2 ^ 30 + 0x108, 2 ^ 30 + 0x200, 2 ^ 30 + 0x40], d.m.ctxXlat 0 va .store = .ok (.ctier (va - 2 ^ 30)) false) ∧
    (withM s (fun m => m.setSq { m.sq with down := [2] })).m.sq.down.contains 2 = true ∧ d.m.serving ≠ [] ∧
    (let f (ps : List Problem) := withM (solving sub0 prob0 [run0 6]) (fun m => m.setSq { m.sq with probs := ps })
     (f []).m.runWriting (run0 6) = true ∧ (f [prob0]).m.runWriting (run0 6) = false ∧ (f []).m.sq.runs = [run0 6] ∧ (run0 6).proc = 0 ∧
     (f []).m.sq.down.contains 0 = false ∧ (f []).m.sq.entries = [] ∧ ∀ l ∈ (run0 6).lanes, l.slots = []) := by decide +kernel

/-- A handle in slot 0 with its factor held, and an entry that names it. -/
def handle0 : Handle :=
  { slot := 0, gen := 0, ctx := 0, kind := 1, n := 1, pair := false, qr := false, floor := 0, matrix := [[0x3FF0000000000000]], factor := [[0x3FF0000000000000]],
    matrixBytes := 8, factorBytes := 8, held := true, used := 0, busy := 0 }
def entry0 : AdjEntry :=
  { id := 1, sub := 0, ctx := 0, va := 2 ^ 30 + 0x300, words := [1, 0x8000, 2 ^ 30 + 0x100, 0], phase := 0, proc := 0, cores := [], u := none, word3 := 0, bank := false }

theorem witness_AdjointEntriesReadAndReleaseTheirHandle :
    let at0 (hs : List Handle) (e : AdjEntry) := withM (leased (pages State.reset)) (fun m => m.setSq { m.sq with
      subs := [{ sub0 with isAdj := true }], entries := [e], handles := hs })
    let s := at0 [handle0] entry0
    let d := at0 [handle0] { entry0 with phase := 2, u := some [7] }
    (s.m.nextInLine 0 = some 1 ∧ s.m.sqEntry 1 = some entry0 ∧ s.m.serving ≠ [] ∧ s.m.subHeld = false ∧ s.m.handleOf 0 0 = some handle0 ∧
    (at0 [] entry0).m.handleOf 0 0 = none ∧ s.m.readPlace (Place.spread 0x8000) 8 = 0) ∧ (∃ lc, s.m.ctxXlat 0 0x8000 .load = .ok (Place.spread 0x8000) lc) ∧
    (s.m.fresh.solverCores 0 1).2 ≠ [] ∧ d.m.sqEntry 1 = some { entry0 with phase := 2, u := some [7] } ∧ d.m.serving ≠ [] ∧
    (∀ va ∈ [2 ^ 30 + 0x100, 2 ^ 30 + 0x318, 2 ^ 30 + 0x40], d.m.ctxXlat 0 va .store = .ok (.ctier (va - 2 ^ 30)) false) := by
  exact ⟨by decide +kernel, ⟨_, rfl⟩, by decide +kernel⟩

/-- Flash descriptors: an erase, a write from 0x10000 and a read to the capacity tier, of one block. -/
def flashDesc (op va : Nat) : List Nat := [op * 2 ^ 62, va, 1, 2 ^ 30 + 0x40]

theorem witness_HamperRegistersAndFlashCommands :
    let s := pages State.reset
    let q (d : List Nat) := withF (withM s (fun m => m.setHmp { m.hmp with flq := [{ ctx := 0, words := d }] })) [(Reg.HMP_FLEXT.size 0, 1)]
    let f : FaultRec := { w0 := 1, w1 := 2, w2 := 3, w3 := 4 }
    s.barReady ∧ (poke s 0x9000 (flashDesc 3 0)).m.descRead 0 0x9000 4 = (flashDesc 3 0, false, false) ∧ flashValid (flashDesc 3 0) = true ∧
    flashValid (flashDesc 1 0x10000) = true ∧ flashValid (flashDesc 2 (2 ^ 30 + 0x1000)) = true ∧ flashValid [0, 0, 0, 0] = false ∧
    (∀ d ∈ [flashDesc 3 0, flashDesc 1 0x10000, flashDesc 2 (2 ^ 30 + 0x1000)], (q d).m.hmp.flq.find? (fun y => y.ctx == 0) = some { ctx := 0, words := d }) ∧
    (q []).m.getF (Reg.HMP_FLEXT.size 0) = 1 ∧ s.m.getF (Reg.HMP_FLEXT.size 0) = 0 ∧ s.m.ctxXlat 0 (2 ^ 30 + 0x40) .store = .ok (.ctier 0x40) false ∧
    s.m.ctxXlat 0 (2 ^ 30 + 0x1000) .store = .ok (.ctier 0x1000) false ∧ s.m.getF Reg.HMP_STAT.active = 0 ∧
    (withF s [(Reg.HMP_STAT.active, 1)]).m.getF Reg.HMP_STAT.active ≠ 0 ∧ s.m.hmp.d2dUp = true ∧ s.m.hmp.waitRecs = [] ∧
    (let w := withF (withM s (fun m => m.setHmp { m.hmp with waitRecs := [f] })) [(Reg.HMP_FRING.base, 1), (Reg.HMP_FPTR.head, 16)]
     w.m.hmp.waitRecs = [f] ∧ w.m.getF Reg.HMP_FRING.base ≠ 0 ∧ (w.m.getF Reg.HMP_FPTR.head + 2 ^ 32 - 1) % 2 ^ 32 ≠ 2 ^ (w.m.getF Reg.HMP_FRING.size + 4)) ∧
    (at1 hth { runner [] with run := .stopped }).m.th ((2048 + 1) * 8) = { runner [] with run := .stopped } := by
  refine ⟨⟨rfl, ?_, ?_, ?_⟩, ?_⟩ <;> decide +kernel

/-- A layer of 4 elements with its tensors in the capacity tier, and a hand-over of it. -/
def layer0 : List Nat :=
  [0x1000, 0, 2 ^ 30 + 0x1000, 2 ^ 30 + 0x2000, 0, 0, 0, 0, 4, 0, 2 ^ 30 + 0x400, 0, 0, 0, 0, 0]
def hand0 (gnw : Nat) : HandOver := { words := [2 ^ 32, gnw, 2 ^ 48 + 2 ^ 30 + 0x3000, 2 ^ 30 + 0x40, 0, 0, 0, 0], coll := 0, shard := 0, bufY := false, gen := 0 }
def upd0 : Upd :=
  { id := 0, ctx := 0, gen := 0, layer := 0, hand := hand0 0, desc := layer0, rowlist := [], cores := [1], stepSize := 5, pass := 0, next := 0, running := [],
    stats := [], media := false }

/-- The Hamper with the layer table of context 0 in the capacity tier. -/
def hamper (f : Hmp → Hmp) : State :=
  let s := withF (pages State.reset) [(Reg.HMP_LT.base 0, (2 ^ 30 + 0x800) / 128), (Reg.HMP_CTRL.accept, 1)]
  withM s (fun m => ((layer0.zip (List.range 16)).foldl (fun m x => m.writePlace (.ctier (0x800 + 8 * x.2)) 8 x.1) m).setHmp (f { m.hmp with steps := [(1, some (1, 5))] }))

theorem witness_LayerUpdatesRunFromHandOverToRecord :
    let p := hamper (fun h => { h with posted := [hand0 0] })
    let q (g : Nat) := hamper (fun h => { h with queue := [hand0 g] })
    let r := hamper (fun h => { h with upd := [upd0] })
    let d := hamper (fun h => { h with upd := [{ upd0 with next := 1 }] })
    p.m.hmp.d2dUp = true ∧ p.m.oos = false ∧ p.m.handDesc (hand0 0) = some layer0 ∧ isRepeat layer0 (hand0 0) = false ∧
    isRepeat (layer0.set 13 (2 ^ 32 + 1)) (hand0 0) = true ∧
    (q 0).m.hmp.queue.find? (q 0).m.handReady = some (hand0 0) ∧ gnwReserved 0 = false ∧ (q (2 ^ 62)).m.hmp.queue.find? (q (2 ^ 62)).m.handReady = some (hand0 (2 ^ 62)) ∧
    (∀ x ∈ streamed layer0 (hand0 0) [], ∀ a ∈ pagesOf x.1 x.2, isFaultX ((q 0).m.ctxXlat 0 a .load) = false) ∧
    r.m.hmp.upd.find? (fun y => y.cores.contains 1) = some upd0 ∧ upd0.next < upd0.chunks ∧ upd0.cores.getD (upd0.next % upd0.cores.length) 0 = 1 ∧
    (List.range 8).find? (fun i => !r.m.busy ((2048 + 1) * 8 + i)) = some 0 ∧ (r.m.engRead 0 (2 ^ 30 + 0x3000) 4 4).bad = false ∧
    (r.m.engRead 0 (2 ^ 30 + 0x1000) 2 4).bad = false ∧ (r.m.engRead 0 (2 ^ 30 + 0x2000) 1 4).bad = false ∧ (r.m.engRead 0 (2 ^ 32) 1 4).bad = true ∧
    d.m.hmp.upd.find? Upd.complete = some { upd0 with next := 1 } ∧ d.m.hmp.queue = [] ∧
    (∀ va ∈ [2 ^ 30 + 0x400, 2 ^ 30 + 0x438, 2 ^ 30 + 0x868, 2 ^ 30 + 0x40], d.m.ctxXlat 0 va .store = .ok (.ctier (va - 2 ^ 30)) false) ∧
    d.m.routeLost 9 = false := by decide +kernel

/-- A maintenance operation on a pseudo-channel. -/
def maintOn (op pc : Nat) (r : Bool) : MaintOp := { op := op, pc := pc, bank := 0, row := 0, running := r }
def withOps (l : List MaintOp) : State := withM State.reset (fun m => m.setMs { m.ms with ops := l })

theorem witness_MemoryMaintenanceHoldsItsChannel :
    let s := State.reset
    let rst : PReset := ⟨0, 1, 0, false, 0, 0, 0, none, [], false, 0, none, 0⟩
    let r := withF (withM s (fun m => { m with esc := { m.esc with resets := [rst], holds := [0] } })) [(Reg.PART_STAT.state 0, 3)]
    s.barReady ∧ s.m.getF Reg.MEM_CTRL.maint = 0 ∧ (withF s [(Reg.MEM_CTRL.maint, 1)]).m.getF Reg.MEM_CTRL.maint = 1 ∧ s.m.resetMemory 0 = false ∧
    r.m.resetMemory 0 = true ∧ (withOps [maintOn 1 7 true]).m.ms.ops.any (fun x => x.pc == 7) = true ∧
    (withOps [maintOn 2 7 true]).m.ms.ops.find? (fun o => o.pc == 7 && o.running) = some (maintOn 2 7 true) ∧ s.m.ms.waiting = [] ∧ s.m.transfers = [] ∧
    s.m.getF Reg.MEM_CTRL.scrub = 1 ∧ s.m.held 7 = false ∧ (heldAll s).m.held 7 = true ∧ s.m.getF Reg.MEM_CELOG.valid = 0 ∧
    (withF s [(Reg.MEM_CTRL.ce_thresh, 4)]).m.getF Reg.MEM_CTRL.ce_thresh = 4 ∧ s.m.otherContexts = false ∧
    (withF s [(Reg.HIF_CTXSTAT.state 4, 1)]).m.otherContexts = true ∧ (withF s [(Reg.MEM_TP_CMD.busy, 1)]).m.getF Reg.MEM_TP_CMD.busy = 1 := by
  refine ⟨⟨rfl, ?_, ?_, ?_⟩, ?_⟩ <;> decide +kernel

/-- A port in a state, with what the model keeps of it. -/
def onPort (st : Nat) (x : Port) : State := withF (withM State.reset (fun m => m.setPort 3 x)) [(Reg.FAB_PSTAT.state 3, st)]
def hdr (seq ack : BitVec 12) (ackv : Bool) : FrameHdr := { seq := seq, ack := ack, ackv := ackv, vc := 0, oport := 4, oseq := 7 }
def sentOne : Sent := { seq := 5, body := .data 0 Packet.blank }

/-- Port 3 is active, routes to device 9 go to port 5, and this module is device 2. -/
def fabricUp : State :=
  withM (withF (onPort pActive Port.empty) [(Reg.FAB_PSTAT.state 5, pActive), (Reg.FAB_DEVID.id, 2), (Reg.FAB_DEVID.assigned, 1)])
    (fun m => ((m.setRoute 9 (BitVec.ofNat 64 (2 ^ 63 + 2 ^ 5))).setPort 5 { Port.empty with init := List.replicate 8 100 }))

theorem witness_FramesArriveInOrderAndAreAcknowledged :
    let s := fabricUp
    let x := { Port.empty with replay := [sentOne] }
    let pkt : Packet := { Packet.blank with dst := 9, src := 4, hops := 3 }
    s.m.pstate 3 = pActive ∧ (onPort pDark Port.empty).m.pstate 3 ≠ pActive ∧ (s.m.port 3).txq = [] ∧ s.m.fab.exitAt = none ∧
    ((onPort pActive x).m.port 3).replay = [sentOne] ∧ 4096 - 5 + 4 < 4096 + 5 ∧ s.m.myId = 2 ∧ s.m.routeLost 9 = false ∧ s.m.routeValid 9 = true ∧
    s.m.routeValid 77 = false ∧ s.m.portsIn (s.m.routePorts 9) pActive = [5] ∧ s.m.flowHeld 0 pkt = false ∧ (s.m.port 5).txq = [] ∧
    s.m.fab.noData = false ∧ packetUnits pkt ≤ (s.m.port 5).credit 0 ∧ (s.m.port 5).replay.length < 2048 ∧ (lostDev s).m.routeLost 9 = true ∧
    (hdr 0 0 false).seq.toNat = (s.m.port 3).expect ∧ (hdr 4000 0 false).ackv = false ∧ (hdr 0 0 false).oport.toNat ≠ 3 := by decide +kernel

theorem witness_FramesArriveInOrderAndAreAcknowledged_joining : ∀ q, (fabricUp.m.port q).joining = false := by
  intro q
  have h : fabricUp.m.fab.ports = [(5, { Port.empty with init := List.replicate 8 100 })] := by decide +kernel
  simp only [Module.port, h, SMap.get]
  split <;> rfl

/-- A HELLO of device 9, assigned, with a credit of 16 units on each channel. -/
def helloOf (flags : BitVec 8) : Lantern := ⟨5, flags, 4, 9, 1, List.replicate 8 16#16, List.replicate 32 0#8, List.replicate 16 0#8, 0, 0, []⟩
def helloed : Port := { Port.empty with helloOut := some (helloOf 0x11), tagFor := some (9 * 256 + 5, 1, 1) }

theorem witness_PortsTrainProveDozeAndRecover :
    let s (st : Nat) (x : Port) := withF (onPort st x) [(Reg.FAB_DEVID.id, 2), (Reg.FAB_DEVID.assigned, 1)]
    (∀ st ∈ [pDark, pDetect, pTrain, pHello, pVerify, pActive, pRetrain, pFailed, pDoze], (s st Port.empty).m.pstate 3 = st) ∧
    (withF (s pDark Port.empty) [(Reg.FAB_CTRL.enable, 1), (Reg.FAB_PSTAT.port_en 3, 1)]).m.portEnabled 3 = true ∧
    (withF (s pDark Port.empty) [(Reg.FAB_CTRL.enable, 0)]).m.portEnabled 3 = false ∧ (s pHello helloed).m.dozing = false ∧
    (s pHello helloed).m.helloCause 3 (helloOf 0x11) = none ∧ (withF (s pHello helloed) [(Reg.FAB_DEVID.id, 9)]).m.helloCause 3 (helloOf 0x11) = some 3 ∧
    (s pHello helloed).m.tagEnds (helloOf 0x11) = (9 * 256 + 5, 1, 1) ∧ Nat.testBit 0x11 4 = true ∧ Nat.testBit 0x01 4 = false ∧
    (let x := { Port.empty with helloOut := some (helloOf 0x11), helloIn := some (helloOf 0x11) }
     ((s pVerify x).m.port 3).helloIn = some (helloOf 0x11) ∧ proofWhole [(0, [])] 1 ≠ none ∧ proofWhole [(0, [])] 2 = none) ∧
    ((s pActive { Port.empty with dozeSent := some (0, false) }).m.port 3).dozeSent = some (0, false) ∧
    ((s pRetrain { Port.empty with replay := [sentOne] }).m.port 3).replay = [sentOne] ∧ (s pActive Port.empty).m.getF Reg.PWR_STATE.entering = 0 ∧
    (s pActive Port.empty).m.getF Reg.FAB_QUAD.in_quad = 0 ∧
    (withF (s pRetrain { Port.empty with replay := [sentOne] }) [(Reg.FAB_PSTAT.state 4, pActive), (Reg.FAB_PNBR.valid 3, 1), (Reg.FAB_PNBR.valid 4, 1),
      (Reg.FAB_PNBR.device 3, 9), (Reg.FAB_PNBR.device 4, 9)]).m.bundle 3 = [3, 4] ∧
    (let w := { Port.empty with wakeAt := some 0, nbrKindle := true, nbrDetect := 1 }
     ((s pDoze w).m.port 3).wakeAt = some 0 ∧ Nat.testBit ((s pDoze w).m.port 3).nbrDetect ((s pDoze w).m.getF (Reg.FAB_PNBR.port 3)) = true ∧
     (s pDoze w).m.bundle 3 = []) := by decide +kernel

/-- A silent quad partner whose one ACTIVE port retrains (13 Table 13-11). -/
theorem witness_PortsTrainProveDozeAndRecover_silent :
    let s := withM (withF State.reset [(Reg.FAB_QUAD.in_quad, 1), (Reg.FAB_QUAD.silent, 1), (Reg.FAB_PSTAT.state 0, pActive),
      (Reg.FAB_PNBR.device 0, 9), (Reg.FAB_PNBR.in_quad 0, 1), (Reg.FAB_PNBR.qpos 0, 1)]) (fun m => m.setPort 0 { Port.empty with seen := true })
    s.m.pstate 0 = pActive ∧ s.m.silent 1 = true ∧ s.m.pstate 1 ≠ pActive ∧
    s.m.partnerPort 1 = some 0 ∧ (s.m.portRetrain 0).routeLost 9 = true ∧
    ((s.m.setF Reg.FAB_QUAD.silent 0).portRetrain 0).routeLost 9 = false := by decide +kernel

theorem witness_SidebandAndFabricRegisters :
    let s := fabricUp
    let pkt : Packet := { Packet.blank with dst := 9, src := 4, hops := 3 }
    let held := withM s (fun m => m.setFab { m.fab with held := [(0, pkt)] })
    let quad := withF State.reset [(Reg.FAB_QUAD.in_quad, 1), (Reg.FAB_QUAD.sb_en, 1)]
    held.m.fab.held = [(0, pkt)] ∧ held.m.portsIn (held.m.routePorts 9) pActive = [5] ∧ held.m.routeLost 4 = false ∧ held.m.myId ≠ 9 ∧
    (withF State.reset [(Reg.PWR_STATE.state, 4), (Reg.FAB_CTRL.kindle_en, 1)]).m.pwr.wake = none ∧ State.reset.m.getF Reg.FAB_CTRL.kindle_en = 1 ∧
    quad.m.aliveRuns = true ∧ State.reset.m.aliveRuns = false ∧ quad.m.silent 1 = false ∧ (withF quad [(Reg.FAB_QUAD.silent, 1)]).m.silent 1 = true ∧
    (∀ p ∈ partnerPorts 1, quad.m.pstate p ≠ pActive) ∧ (∀ p ∈ partnerPorts 1, (quad.m.port p).seen = false) ∧
    ((withM quad (fun m => m.setPort 0 { Port.empty with seen := true })).m.port 0).seen = true ∧
    (withF quad [(Reg.FAB_PSTAT.state 0, pActive)]).m.pstate 0 = pActive ∧ (∀ p ∈ List.range 16, State.reset.m.pstate p ≠ pVerify ∧ State.reset.m.pstate p ≠ pActive) ∧
    (withM State.reset (fun m => m.setFab { m.fab with exitAt := some 5 })).m.fab.exitAt = some 5 := by decide +kernel

theorem witness_SidebandAndFabricRegisters_ready : State.reset.barReady := ⟨rfl, by decide +kernel, by decide +kernel, by decide +kernel⟩

/-- A collective of one element of devices 2 and 9 on context 0, with its destination and its record in the capacity tier. -/
def collOf (op : Nat) (group : List Nat) : Coll :=
  { id := 1, ctx := 0, words := [op * 2 ^ 56, 0x8000, 2 ^ 30 + 0x100, 0, 1, 2 ^ 30 + 0x40, 0, 0], group := group, seq := 0, proc := 0, started := true, live0 := [0],
    waitFrom := 0, heard := [], met := true, sentFor := none, among := [], bads := false, noise := 0, owners := [], shards := [], gens := [], moved := [], restored := [], asked := false, acked := false,
    skipped := false, missing := false, lostAt := none, layout := [], status := none, bank := false }
def inColl (c : Coll) : State := withF (withM (pages State.reset) (fun m => m.setCp { m.cp with colls := [c] })) [(Reg.FAB_DEVID.id, 2), (Reg.FAB_CP_CTRL.accept, 1)]

theorem witness_CollectivesMeetAndMoveData :
    let d := [2 ^ 56, 0x8000, 2 ^ 30 + 0x100, 0, 1, 2 ^ 30 + 0x40, 0, 0]
    let s := poke (poke (withF (sMem 0x9000 0) [(Reg.FAB_DEVID.id, 2), (Reg.FAB_CP_CTRL.accept, 1)]) 0x9000 (d.set 0 (2 ^ 56 + 0xA000))) 0xA000 [2 ^ 48, 2 + 9 * 2 ^ 16]
    let c := collOf 1 [2, 9]
    let told := withM (inColl c) (fun m => m.setCp { m.cp with box := [⟨9, 0, [2, 9], .bytes 0 2 0 [7]⟩] })
    s.issues .xColl cth (word 61 0 3 1 0 0 0) = true ∧ s.m.subHeld = false ∧ (s.issuing cth).drained ck = true ∧ (s.thread cth).deferred = [] ∧
    (s.issuing cth).descRead 0 0x9000 8 = (d.set 0 (2 ^ 56 + 0xA000), false, false) ∧ ((s.issuing cth).engRead 0 0xA000 8 1).words = [2 ^ 48] ∧
    groupOf 2 ((s.issuing cth).engRead 0 0xA008 8 1).words = [2, 9] ∧ collValid (d.set 0 (2 ^ 56 + 0xA000)) 2 = true ∧
    (withF s [(Reg.PWR_STATE.entering, 1), (Reg.PWR_STATE.target, 3)]).m.subHeld = true ∧ (inColl c).m.coll 1 = some c ∧ (inColl c).m.coll 2 = none ∧
    (inColl c).m.liveRanks c = [0, 1] ∧ (inColl c).m.myRank c = 0 ∧ (inColl c).m.others c = [1] ∧ (inColl c).m.partFrom c 1 0 = none ∧
    told.m.partFrom c 1 0 = some [7] ∧ c.nelem = 1 ∧ (inColl c).m.ctxXlat 0 (2 ^ 30 + 0x100) .store = .ok (.ctier 0x100) false ∧
    (inColl { c with met := false }).m.meetOf { c with met := false } 1 = none ∧ (inColl c).m.fab.snuffed = [] ∧
    (let r := { collOf 11 [2, 9] with live0 := [0, 1] }
     r.live0.getD ((liveIndex r.live0 0 + r.live0.length - 1) % r.live0.length) 0 = 1 ∧ (inColl r).m.liveRanks r = [0, 1] ∧
     (lostDev (inColl r)).m.liveRanks r = [0]) := by decide +kernel

/-- A layout of one layer of one shard, that device 2 owns or that device 9 owns. -/
def layoutOf (dev : Nat) : Layout := { words := [1, 0], group := [dev] }

theorem witness_ShardsHandOversAndCollectiveEvents :
    let g := collOf opGrad [2]
    let e : ShardRun := ⟨0, 0, true, false, false, false, 0, false⟩
    let s (c : Coll) := inColl c
    (s g).m.coll 1 = some g ∧ (s g).m.coll 2 = none ∧ (s g).m.ranStatus g = sDone ∧ (s g).m.myRank g = 0 ∧ (s g).m.liveRanks g = [0] ∧
    ({ g with shards := [e], asked := true }).shards.find? (fun x => x.j == 0) = some e ∧
    (s (collOf opPermute [2, 9])).m.openGrads (collOf opPermute [2, 9]) = [] ∧ (s (collOf opPermute [2, 9])).m.others (collOf opPermute [2, 9]) = [1] ∧
    (s { g with lostAt := some 3 }).m.coll 1 = some { g with lostAt := some 3 } ∧
    (s { g with status := some 0 }).m.coll 1 = some { g with status := some 0 } ∧ g.result = 0 ∧
    (s g).m.ctxXlat 0 (2 ^ 30 + 0x40) .store = .ok (.ctier 0x40) false ∧ (s g).m.fab.inbox = [] ∧ (s g).m.jobCtx 0 = some 0 ∧ (s g).m.jobCtx 5 = none ∧
    (s g).m.ctxLive 0 = true ∧ (lostDev (s g)).m.routeLost 9 = true := by decide +kernel

theorem witness_WatchdogsAndPartitionResetsFollowTheirSteps :
    let s := State.reset
    let w := withF s [(Reg.LMP_WDOG.period 0, 100), (Reg.LMP_WDOG.state 0, 1)]
    let r (second : Bool) (aff : List Nat) : PReset := ⟨2, 1, 0, false, 0, 0, 0, none, aff, second, 0, none, 0⟩
    let u (st : Nat) (x : PReset) := withF (withM s (fun m => { m with esc := { m.esc with resets := [x] } })) [(Reg.PART_STAT.state 2, st)]
    w.m.wdCounts 0 = true ∧ s.m.wdCounts 0 = false ∧ (withF w [(Reg.LMP_WDOG.state 0, 2), (Reg.LMP_WDOG.action 0, 1)]).m.wdCounts 0 = true ∧
    SMap.wf Thread.empty s.m.threads = true ∧ s.m.oos = false ∧ s.m.getF (Reg.PART_STAT.state 2) = 0 ∧ s.m.preset 2 = none ∧
    (∀ st ∈ [1, 2, 3], (u st (r false [])).m.preset 2 = some (r false []) ∧ (u st (r true [])).m.preset 2 = some (r true []) ∧
      (u st (r false [])).m.getF (Reg.PART_STAT.state 2) = st) ∧
    (u 1 (r false [0])).m.ctxLive 0 = true ∧ (withF s [(Reg.LMP_ESC_LIMIT.part_limit, 1)]).m.getF Reg.LMP_ESC_LIMIT.part_limit ≤ 1 ∧
    s.m.esc.holds = [] ∧ s.m.ms.waiting = [] ∧ s.m.ms.ops = [] ∧ s.m.transfers = [] := by decide +kernel

/-- The module in a Wick state. -/
def wick (st : Nat) : State := withF State.reset [(Reg.PWR_STATE.state, st), (Reg.PWR_STATE.target, st)]

theorem witness_WickStatesAreEnteredAndLeft :
    let w1 := withF (withM State.reset (fun m => { m with pilot := 10 ^ 15 })) [(Reg.PWR_LAT_TOL.value, 10 ^ 9), (Reg.PWR_CTRL.max_state, 4)]
    let e (t : Nat) := withF State.reset [(Reg.PWR_STATE.entering, 1), (Reg.PWR_STATE.target, t)]
    let x := withM (wick 3) (fun m => { m with pwr := { m.pwr with wake := some (9, 0, 0) } })
    State.reset.m.pwr.wake = none ∧ (e 3).m.getF Reg.PWR_STATE.entering = 1 ∧ (e 3).m.dozeRefused = none ∧
    (withM (onPort pActive { Port.empty with replay := [sentOne] }) (fun m => { m with pilot := 5000, pwr := { m.pwr with dozeSent := some 0 } })).m.dozeRefused = some 3 ∧
    (∃ u ∈ [1, 2, 3, 4], w1.m.admits u = true ∧ w1.m.refusers.filter (fun r => refuses r.1 u) = []) ∧
    (∀ u ∈ [1, 2, 3, 4], State.reset.m.admits u = false ∨ State.reset.m.refusers.filter (fun r => refuses r.1 u) ≠ []) ∧
    (∀ p ∈ List.range 16, (e 3).m.pstate p ≠ pActive) ∧ (e 3).m.fab.ports = [] ∧
    wakesFrom 9 3 = true ∧ wakesFrom 2 3 = false ∧ wakesFrom 2 4 = true ∧ (wick 4).m.getF Reg.PWR_STATE.state = 4 ∧ x.m.railsUp = true ∧ x.m.pwr.wake = some (9, 0, 0) ∧
    (withF (wick 2) [(Reg.PWR_TIMER.atTick, 77)]).m.getF Reg.PWR_TIMER.atTick = 77 ∧ latencyUs 2 ≠ 0 := by decide +kernel

theorem witness_RailsAndSuppliesFollowTheirEvents :
    let on := withM State.reset (fun m => m.setRail 3 { Rail.empty with pending := true })
    let off := withM State.reset (fun m => { m with pwr := { m.pwr with mainGood := false } })
    (on.m.rail 3).pending = true ∧ (on.m.rail 3).attempts < 2 ∧ (State.reset.m.rail 3).pending = false ∧
    ((withM on (fun m => m.setRail 3 { m.rail 3 with attempts := 2 })).m.rail 3).attempts = 2 ∧ State.reset.m.getF (Reg.PART_STAT.state 3) = 0 ∧
    off.m.pwr.standby = true ∧ off.m.pwr.mainGood = false ∧ off.m.pwr.tripped = false ∧ off.m.pwr.converter = true ∧ State.reset.m.pwr.mainGood = true ∧
    State.reset.m.mainOn = true ∧ (wick 4).m.mainOn = false ∧
    State.reset.m.getF Reg.LMP_FW_STAT.commit ≠ 1 ∧ off.m.lmp.settings = [] ∧ off.m.lmp.sram.contains secService = true := by decide +kernel

/-- Source 300 raised and pending at instance 5, and a snapshot. -/
def raised300 : State :=
  withF (linked (withM State.reset (fun m => { m with evc := { m.evc with src := [(300, { count := 2, start := 0, pending := true })] } })))
    [(Reg.EVC_SRC.enable 300, 1), (Reg.EVC_SRC.inst 300, 5)]

theorem witness_EventsAreClaimedAndCountersRead :
    let a := raised300.m.fresh.access .pf
    let t := withF (withM State.reset (fun m => { m with evc := { m.evc with src := [(300, { count := 2, start := 0, pending := false })] } })) [(Reg.EVC_SRC.time 300, 40)]
    raised300.m.reaches .pf = true ∧ State.reset.m.reaches .pf = false ∧ raised300.m.recovery = false ∧ raised300.m.getF Reg.PWR_STATE.state = 0 ∧
    raised300.m.getF Reg.PWR_STATE.entering = 0 ∧ a.line 5 = true ∧ a.eligible 5 = [300] ∧ mayInst .pf 5 = true ∧ mayInst (.vf 3) 6 = false ∧
    a.line 6 = false ∧ a.getF (Reg.EVC_CTL.inservice 5) = 0 ∧ (withF raised300 [(Reg.EVC_CTL.inservice 5, 1), (Reg.EVC_CTL.source 5, 300)]).m.getF (Reg.EVC_CTL.inservice 5) = 1 ∧
    (t.m.source 300).count ≠ 0 ∧ (t.m.source 300).pending = false ∧ t.m.getF (Reg.EVC_SRC.time 300) ≠ 0 ∧
    (withM State.reset (fun m => { m with hif := { m.hif with msixEn := [(0, true)], pba := [(7, true)] } })).m.hif.pba = [(7, true)] ∧
    a.getF Reg.PMC_STAT.snap_busy = 0 ∧ a.getF Reg.PMC_WIN.active = 0 ∧ (withF State.reset [(Reg.PMC_WIN.active, 1)]).m.getF Reg.PMC_WIN.active = 1 ∧
    (withM State.reset (fun m => { m with pmc := { m.pmc with snapAt := some 3 } })).m.pmc.snapAt ≠ none := by decide +kernel

/-- The physical function and 3 virtual functions are on. -/
def withVfs : State := linked (withM (pages State.reset) (fun m => { m with hif := { m.hif with vfEn := true, numVfs := 3 } }))

/-- Host queue 1 of context 0 is on, with an entry of an op in its first slot. -/
def queued (s : State) (ws : List Nat) : State :=
  let u := withF s [(Reg.HIF_HQBASE.base 0 1, 1), (Reg.HIF_HQBASE.k 0 1, 4), (Reg.HIF_HQCQ.base 0 1, 2), (Reg.HIF_HQTAIL.tail 0 1, 1)]
  withM u (fun m => (ws.zip (List.range ws.length)).foldl (fun m x => m.writePlace (.host (4096 + 8 * x.2)) 8 x.1) m)

theorem witness_HostResetsTearDownAndTrain :
    let h := at1 cth { runner [] with run := .waitWord (2 ^ 31) (some (.host 0, false)) 0 0 none 3 0 }
    let x := queued (linked (pages State.reset)) [5 * 2 ^ 56, 0x9000]
    let part := withM (linked (pages State.reset)) (fun m => { m with transfers := [{ aCopy with src := 2 ^ 31, state := 1 }] })
    (State.reset.m.pwr.perst = true ∧ State.reset.m.getF Reg.HIF_LINK.state = 0 ∧ (linked State.reset).m.getF Reg.HIF_LINK.state ≠ 0 ∧
    State.reset.m.pwr.mainGood = true ∧ State.reset.m.getF Reg.PWR_STATE.entering = 0 ∧ (withVfs).m.linkUp = true ∧ withVfs.m.vfOn 3 = true ∧ withVfs.m.vfOn 4 = false ∧
    (h.m.th ck).run = .waitWord (2 ^ 31) (some (.host 0, false)) 0 0 none 3 0 ∧ (sMem 0x9000 0).issues .xLaunch cth (word 59 0 3 1 0 0 0) = true ∧
    (sMem 0x9000 0).m.subHeld = false ∧ (x.m.hqNext 0 1).isSome = true ∧ x.m.hqEntry 0 1 = []) ∧
    (∀ e, x.m.hqNext 0 1 = some e → entryOp e = 5 ∧ (x.m.hqStart 0 1 e).refusal 0 1 e = 0 ∧ x.m.ctxState (entryTarget e) ≠ 2 ∧ entryWord e 1 % 32 = 0) ∧
    part.m.xfer 0 = some { aCopy with src := 2 ^ 31, state := 1 } ∧
    (part.m.xlatRange 0 (2 ^ 31) 8 .load).map (fun y => y.2) = [.ok (.host 0) false] := by
  refine ⟨by decide +kernel, ?_, by decide +kernel⟩
  intro e he
  have h : (queued (linked (pages State.reset)) [5 * 2 ^ 56, 0x9000]).m.hqNext 0 1 = some [BitVec.ofNat 64 (5 * 2 ^ 56), 0x9000#64, 0, 0, 0, 0, 0, 0] := by
    decide +kernel
  have he' := h.symm.trans he
  injection he' with he'
  subst he'
  decide +kernel

theorem witness_BarAccessesReadAndWriteByTheirRules :
    let s := withVfs
    let off : Nat := 0x8000
    s.m.bar2Up 0 = true ∧ State.reset.m.bar2Up 0 = false ∧ s.m.recovery = false ∧ s.m.getF Reg.PWR_STATE.state = 0 ∧ s.m.getF Reg.PWR_STATE.entering = 0 ∧
    s.m.bar2Va 0 off = 0x8000 ∧ s.m.ctxLive 0 = true ∧ faultsOf (s.m.bar2Xlat 0 0x8000 8 .load) = [] ∧ s.m.anyHeld (s.m.bar2Xlat 0 0x8000 8 .load) = false ∧
    s.m.anyBad (s.m.bar2Xlat 0 0x8000 8 .load) = false ∧ (heldAll s).m.anyHeld ((heldAll s).m.bar2Xlat 0 0x8000 8 .load) = true ∧
    faultsOf (s.m.bar2Xlat 0 (2 ^ 32) 8 .load) ≠ [] ∧ (s.m.bar2Xlat 0 (3 * 2 ^ 30) 8 .store).map (fun x => x.2) = [.viol] ∧
    (s.m.bar2Xlat 0 (2 ^ 30 + 0x40) 8 .store).map (fun x => x.2) = [.ok (.ctier 0x40) false] ∧ s.m.reaches .pf = true ∧ s.m.reaches (.vf 2) = true ∧
    s.m.reaches (.vf 3) = false ∧ barAligned 0x8004 8 = false ∧ barPlace (.vf 2) 0x20000 = .denied ∧ barAligned 0x100018 8 = true ∧
    barPlace .pf 0x7000 ≠ .denied := by decide +kernel

/-- The Lamplighter runs a mailbox command. -/
def mailbox (op addr len : Nat) : State := linked (withM State.reset (fun m => { m with lmp := { m.lmp with mbx := some (op, 0, addr, len) } }))

theorem witness_LamplighterCommandsAndAttestationAnswer :
    let image : Image := { version := 2, svn := 1, floor := 1, level := 3, length := 1, digest := [], hdr := [] }
    let staged := withM (mailbox 2 0 0) (fun m => { m with lmp := { m.lmp with staged := some image } })
    let c (n : Nat) := withF (mailbox 3 0x1000 4097) [(Reg.LMP_FW_STAT.commit, n)]
    (∀ op ∈ [1, 2, 3, 4, 0x10, 0x11, 0x12, 0x13], (mailbox op 0x1000 4097).m.mbxOp = some op) ∧ State.reset.m.mbxOp = none ∧ State.reset.m.recovery = false ∧
    (withF State.reset [(Reg.LMP_FW_STAT.state, 5)]).m.recovery = true ∧ (mailbox 1 0x1000 4097).m.linkUp = true ∧
    imageDetail 0 (List.replicate 4097 0#8) = 1 ∧ staged.m.lmp.staged = some image ∧ staged.m.pwr.rails = [] ∧
    (∃ e ∈ (withM staged (fun m => m.setRail 3 { Rail.empty with pending := true })).m.pwr.rails, e.2.pending = true) ∧
    (∀ n ∈ List.range 8, staged.m.getF (Reg.PART_STAT.state n) = 0) ∧ (c 1).m.getF Reg.LMP_FW_STAT.commit = 1 ∧ (c 2).m.getF Reg.LMP_FW_STAT.commit = 2 ∧
    State.reset.m.mainOn = true ∧ (mailbox 0x10 0x1000 3461).m.blockDetail 0x10 0x1001 3461 0 [] = 1 ∧ State.reset.m.esc.resets = [] ∧
    State.reset.m.getF Reg.PWR_STATE.state = 0 := by decide +kernel

/-- 21 R497, R500: a quad partner is a recovery source, and a copy whose CRC fails gives way to the other one. -/
theorem witness_LamplighterCommandsAndAttestationAnswer_copies :
    let q := withM (withF State.reset [(Reg.FAB_QUAD.in_quad, 1), (Reg.FAB_PSTAT.state 0, pActive), (Reg.FAB_PNBR.device 0, 9), (Reg.FAB_PNBR.in_quad 0, 1),
      (Reg.FAB_PNBR.qpos 0, 1), (Reg.FAB_PNBR.valid 0, 1)]) (fun m => m.setPort 0 { Port.empty with seen := true })
    let m1 := State.reset.m.mirrorSection secService
    let m2 := m1.putCopy secService { m1.section secService 2 with crc := Nat.xor (m1.section secService 2).crc 1 }
    q.m.recoverFrom 0x10009 = some 9 ∧ q.m.recoverFrom 0x10008 = none ∧ m1.newest secService = some (State.reset.m.section secService 1) ∧
    m2.newest secService = m1.newest secService ∧ (m2.mirrorA secService).isSome = true := by decide +kernel

theorem witness_HostQueuesRunTheirCommands :
    let x (ws : List Nat) := queued (linked (pages State.reset)) ws
    let e (ws : List Nat) : List Word := (List.range 8).map (fun i => BitVec.ofNat 64 (ws.getD i 0))
    let ctx (k : Nat) := k * 2 ^ 50
    (linked State.reset).m.reaches .pf = true ∧ mayPage .pf 4 = true ∧ mayPage (.vf 2) 4 = false ∧ (x []).m.hqOn 0 1 = true ∧
    (∀ ws ∈ [[0], [2 ^ 56 + ctx 1, 0, 7, 5], [2 * 2 ^ 56 + ctx 1], [3 * 2 ^ 56, 2 ^ 21, 1], [4 * 2 ^ 56, 42], [5 * 2 ^ 56, 0x9000], [6 * 2 ^ 56, 0x9000], [7 * 2 ^ 56, 0x9000],
        [8 * 2 ^ 56, 0x9000], [9 * 2 ^ 56, 0x9000], [10 * 2 ^ 56, 2 ^ 30 + 0x100]],
      (x ws).m.hqNext 0 1 = some (e ws) ∧ (x ws).m.entryOk (e ws) = true ∧ (x ws).m.oos = false) ∧
    (x [11 * 2 ^ 56]).m.entryOk (e [11 * 2 ^ 56]) = false ∧ State.reset.m.hqNext 0 1 = none ∧ (x []).m.ctxState 0 = 1 ∧ (x []).m.ctxState 1 = 0 ∧
    (withF withVfs [(Reg.HIF_CTXSTAT.state 1, 1)]).m.ctxLive 1 = true ∧ withVfs.m.vfOn 1 = true ∧ withVfs.m.getF Reg.MEM_CTRL.maint = 0 ∧
    (x []).m.subHeld = false ∧ (x []).m.xlatInUse 0 = false ∧ SMap.wf Core.empty (x []).m.cores = true ∧
    ((at1 cth { runner [] with run := .stopped }).m.th ck).run = .stopped ∧ ck = 42 ∧ ((x []).m.core (42 / 8)).mq = [] ∧
    (moving [{ aWrite with state := 1, openTags := [(0, 0)] }]).m.transfers.find? (fun y => y.ctx == 0 && y.completion == 2 ^ 30 + 0x100) ≠ none := by decide +kernel

/-! ### Witnesses for holds, routes and waits -/

theorem witness_HeldChannelsMakeCommandsWait :
    let s := sMem 0x8000 8
    State.reset.m.noHolds = true ∧ (heldAll s).m.noHolds = false ∧ (s.issuing cth).walkHeld ck 0x8000 = false ∧
    ((heldAll s).issuing cth).walkHeld ck 0x8000 = true ∧ ((heldAll (cached s 0x8000)).issuing cth).walkHeld ck 0x8000 = false ∧
    s.m.rangeHeld 0 0x8000 8 .load = false ∧ (heldAll s).m.rangeHeld 0 0x8000 8 .load = true ∧ (heldAll s).m.rangeHeld 0 0x8000 8 .store = true ∧
    -- an earlier vector load whose elements wait
    (let u := at1 cth { loaded with outst := loaded.outst.map (fun o => { o with left := 1, vec := true, dstS := [] }) }
     (u.issuing cth).vecPending ck = true ∧ ((sRun []).issuing cth).vecPending ck = false) := by decide +kernel

/-- The fabric of `fabricUp`, with a context 0 and a collective of devices 2 and 9. -/
def inFabric (c : Coll) (l : List CollBox) : State :=
  withM fabricUp (fun m => m.setCp { m.cp with colls := [c], box := l })

theorem witness_RoutesAndFlowsLeaveOrWait :
    let s := fabricUp
    let pkt : Packet := { Packet.blank with dst := 9, src := 4, hops := 3 }
    let stuck := withF (withM s (fun m => m.setPort 3 { Port.empty with replay := [⟨5, .data 0 pkt⟩] })) [(Reg.FAB_PSTAT.state 3, pRetrain)]
    s.m.routeLost 9 = false ∧ s.m.routeValid 9 = true ∧ Nat.testBit (s.m.routePorts 9) 5 = true ∧ s.m.pstate 5 = pActive ∧ s.m.reachable 9 = true ∧
    s.m.flowStuck 5 0 pkt = false ∧ stuck.m.flowStuck 5 0 pkt = true ∧ s.m.rescueWait 0 pkt = false ∧ s.m.fab.held = [] ∧
    s.m.knownLost 9 1 = false ∧ (lostDev s).m.knownLost 9 0 = true ∧ s.m.outOfFabric = false ∧
    (withM s (fun m => m.setFab { m.fab with noData := true })).m.outOfFabric = true ∧ s.m.partnerPort 1 = none ∧
    (withF (withM s (fun m => m.setPort 0 { Port.empty with seen := true })) [(Reg.FAB_PNBR.in_quad 0, 1), (Reg.FAB_PNBR.qpos 0, 1)]).m.partnerPort 1 = some 0 := by
  decide +kernel

theorem witness_CollectivesWaitForTheirMembers :
    let c := collOf 1 [2, 9]
    let g := { collOf opGrad [2, 9] with lostAt := some 3 }
    let lay (dev : Nat) (s : State) : State := withM s (fun m => m.setCp { m.cp with layouts := [(0, some ⟨[1, 0, 0, 0, 0], [dev]⟩)] })
    let ring := { collOf 11 [2, 9] with live0 := [0, 1] }
    (inFabric c []).m.awaited c = [9] ∧ (inFabric (collOf 1 [2]) []).m.awaited (collOf 1 [2]) = [] ∧ c.since 9 = 0 ∧
    ({ c with heard := [(9, 4)] }).since 9 = 4 ∧ (lay 9 (inFabric g [])).m.layer 0 0 = some (1, [9]) ∧
    (lay 9 (inFabric g [])).m.gradHeld g = false ∧ (lay 9 (lostDev (inFabric g []))).m.gradHeld g = true ∧
    (lay 9 (inFabric g [⟨9, 0, [2, 9], .ackOwner 0 [0] false⟩])).m.shardAcked g 0 = true ∧ (lay 9 (inFabric g [])).m.shardAcked g 0 = false ∧
    (inFabric ring [⟨9, 0, [2, 9], .placed 0⟩]).m.msgsFrom ring 1 = [.placed 0] ∧ (inFabric ring []).m.msgsFrom ring 1 = [] := by decide +kernel

theorem witness_PartitionResetsPauseAndWait :
    let r : PReset := ⟨2, 1, 0, false, 0, 0, 0, none, [0], false, 0, some 5, 0⟩
    let u := withM State.reset (fun m => { m with esc := { m.esc with resets := [r] } })
    let p := withM State.reset (fun m => (m.setCtx 0 { m.ctx 0 with wdHold := some 3 }).setF (Reg.LMP_WDOG.period 0) 100)
    u.m.preset 2 = some r ∧ r.waitFrom ≠ none ∧ p.m.wdCounts 0 = false ∧
    (withOps [maintOn 1 130 true]).m.ms.ops.any (fun o => o.running && o.pc / 64 == 2) = true := by decide +kernel

theorem witness_SavedStateAndRegisterReads :
    SMap.wf 0 State.reset.m.hmp.rowState = true ∧ Memory.wf State.reset.m.ms.flash = true ∧ Module.readEffect .pf 0x7000 = none ∧
    (Module.readEffect .pf (evcOffset 5)).isSome = true ∧ (withF (wick 0) [(Reg.SQ_FS_SIZE.units, 3)]).m.getF Reg.SQ_FS_SIZE.units = 3 ∧
    (∀ n ∈ [1, 2, 3], (withF State.reset [(Reg.PART_STAT.state 4, n)]).m.getF (Reg.PART_STAT.state 4) = n) := by decide +kernel

/-- 00 R7: the read of a claim captures, and the half read that follows is the capture's. -/
theorem test_claim_is_captured :
    let m := after (.bar0ReadViolation .pf (BitVec.ofNat 26 (evcOffset 5)) 4#13) raised300
    Output.readData 300 ∈ m.out ∧ SMap.get none m.capture (evcOffset 5) = some 300#64 := by decide +kernel

/-- 12 R291: one vector store that covers a poisoned sector clears its mark, and its 256 bytes are 8 requests. -/
theorem test_vst_clears_poison :
    let s := poisoned (sMem 0x8000 8) 0x8000
    let m := after (.vst cth (word 24 1 3 1 0 0 0x700)) s
    (match s.xlat cth 0x8000 .load with | .ok p _ => s.m.badPlace p 8 && !m.badPlace p 8 | _ => false) = true := by decide +kernel

/-- 11 R266: the row table saved before W3 is read back at the exit. -/
theorem test_row_table_is_saved :
    let h : Module := { State.reset.m with hmp := { State.reset.m.hmp with rowState := [(3, 0x123456789ABCDEF#64)] } }
    let m := h.saveRows
    Memory.read m.ms.flash (rowSaveBase + 24) 8 = 0x123456789ABCDEF ∧
    ({ m with hmp := { m.hmp with rowState := [] } }.restoreRows).hmp.rowState = [(3, 0x123456789ABCDEF#64)] := by decide +kernel

/-- 03 R79: the remainder of (1, −2⁻²⁰⁰) rounds to a negative zero in FP32. -/
theorem test_negative_remainder_keeps_its_sign :
    (pairRound fp32 ((Pair.ofBits fp64 0x3FF0000000000000 0xB370000000000000).value false)).1.bits fp32 = (0x3F800000, 0x80000000) := by
  decide +kernel

/-! ### Worked examples of the specification -/

/-- 04, "one encoding": fma.f64 s10, s11, s12, s13. -/
theorem test_one_encoding : word 4 3 10 11 12 13 0 = 0x10328B30D0000000#64 ∧ classify 0x10328B30D0000000#64 = some .fpArith := by decide +kernel

/-- 03, "a normal-equation term and a cancelling sum": two_prod of 1 + 2⁻³⁰ by itself, and the pair sum of 2⁵³, 1 and −2⁵³. -/
theorem test_normal_equation_term :
    let j := fp64.decode 0x3FF0000000400000
    (twoProd fp64 j j).1.bits fp64 = (0x3FF0000000800000, 0x3C30000000000000) ∧
    (fArith fp64 .mul .rne 0 0x3FF0000000400000 0x3FF0000000400000 0).1 = 0x3FF0000000800000 := by decide +kernel

theorem test_cancelling_sum :
    let v := fp64.decode
    let a := (twoSum fp64 (v 0x4340000000000000) (v 0x3FF0000000000000)).1
    let r := pairAdd fp64 a { s := v 0xC340000000000000, e := .zero }
    a.bits fp64 = (0x4340000000000000, 0x3FF0000000000000) ∧ r.1.bits fp64 = (0x3FF0000000000000, 0) ∧ r.2 &&& (fPX ||| fNX) = 0 := by decide +kernel

/-- 02, "thread indices with a leased cluster": of the cores selected, those of the leased cluster are not used. -/
theorem test_leased_cluster_is_not_used :
    (withF State.reset [(Reg.SQ_LOWN.state 33, 2)]).m.usedCores (0x04 + 0x0003 * 2 ^ 8 + 0xFFFF * 2 ^ 24) = (List.range 16).map (fun i => 512 + i) := by
  decide +kernel

/-- 16, "counting across a power cycle": at service hour 26 the entries of hours 3 and 20.5 count, at hour 27.5 only that of hour 20.5. -/
theorem test_counting_across_a_power_cycle :
    let hour := 90000000000
    let e := [(5, 3 * hour), (5, 41 * hour / 2)]
    e.filter (State.reset.m.inWindow (26 * hour)) = e ∧ e.filter (State.reset.m.inWindow (55 * hour / 2)) = [(5, 41 * hour / 2)] ∧
    State.reset.m.getF Reg.LMP_ESC_LIMIT.part_limit = 3 := by decide +kernel

/-- 19, "a partition fault overtaking a coalesced context event": source 261 counts to 4 or 2,500 ticks, source 40 rises at once. -/
theorem test_partition_fault_overtakes :
    let m0 := (linked State.reset).m.setF (Reg.EVC_SRC.inst 261) 1
    let m1 := ((m0.setF (Reg.EVC_SRC.count 261) 4).setF (Reg.EVC_SRC.time 261) 2500).setF (Reg.EVC_SRC.enable 261) 1
    let m2 := (((m1.setF (Reg.EVC_SRC.inst 40) 1).setF (Reg.EVC_SRC.count 40) 1).setF (Reg.EVC_SRC.enable 40) 1).setF Reg.EVC_GATE.closed 0
    let m3 := (m2.raise 261).raise 261
    let s4 : State := { State.reset with m := m3.raise 40 }
    let m5 := after (.evcClaim .pf 1) s4
    m3.line 1 = false ∧ (m3.source 261).count = 2 ∧ s4.m.line 1 = true ∧ Output.readData 40 ∈ m5.out ∧ m5.line 1 = false ∧
    (let m6 := after (.eventTimerExpiry 261) { State.reset with m := m5 }
     let m7 := after (.evcDone .pf 1 40) { State.reset with m := m6 }
     m6.pilot = 2500 ∧ m6.line 1 = false ∧ m7.line 1 = false ∧ m7.tick.line 1 = true ∧
     Output.readData 261 ∈ (after (.evcClaim .pf 1) { State.reset with m := m7.tick }).out) := by
  decide +kernel

end Sys2Proof.Tests
end

section
/-! PROOFS of the scope family (00_scope), first part: the state after reset. -/

namespace Sys2Proof.Machine

/-- A memory that lists no byte reads 0 over every range. -/
theorem Memory.read_nil (a n : Nat) : Memory.read [] a n = 0 := by
  induction n generalizing a with
  | zero => rfl
  | succ n ih => simp [Memory.read, Memory.get, ih]

/-- No event has left a memory undefined, so none of its bytes is a free value. -/
theorem Module.byteAt_reset (c : Nat × Nat) : Module.reset.byteAt c = 0 := by
  unfold Module.byteAt
  split <;> simp [Module.reset, MemSys.reset, Memory.read_nil, lostRead, lostMask]

theorem Module.getF_reset (f : Fld) : Module.reset.getF f = f.rst % 2 ^ f.width := rfl

/-- HIF_CTXSTAT.state is the only context field whose After power-up value depends on the context (22 R527). -/
theorem Module.ctxLive_reset (n : Nat) : Module.reset.ctxLive n = true ↔ n = 0 := by
  rw [Module.ctxLive, Module.ctxState, Module.getF_reset]
  by_cases h : n = 0 <;> simp [Reg.HIF_CTXSTAT.state, Fld.width, h]

theorem Module.th_reset (k : Nat) : Module.reset.th k = Thread.empty := rfl

theorem Thread.getS_empty (r : Nat) : Thread.empty.getS r = 0 := by simp [Thread.getS, Thread.empty]

/-- Settles O5: no field has been written, so each reads its After power-up value; every map and list of the module is empty. -/
theorem resetHoldsThePowerUpValues : Obligations.ResetHoldsThePowerUpValues := by
  unfold Obligations.ResetHoldsThePowerUpValues
  have threads : ∀ k, (Module.reset.th k).run = .free ∧ ∀ r, (Module.reset.th k).getS r = 0 :=
    fun k => by rw [Module.th_reset]; exact ⟨rfl, Thread.getS_empty⟩
  exact ⟨rfl, rfl, rfl, rfl, rfl, Module.getF_reset, fun n _ => Module.ctxLive_reset n, rfl, rfl, rfl, rfl, rfl,
    threads, rfl, rfl, rfl, rfl, Module.byteAt_reset, fun _ => rfl⟩

end Sys2Proof.Machine
end

section
/-! PROOFS of the scope family, second part: what counting an event and looking a sector up do in W0, where no wake changes the power
state: they leave every field but `countedKey` alone, and of the memory system only the lines that the slices hold differ. -/

namespace Sys2Proof.Machine

/-- The module is in W0 with no entry under way. -/
def Module.inW0 (m : Module) : Prop := m.getF Reg.PWR_STATE.state = 0 ∧ m.getF Reg.PWR_STATE.entering = 0

/-- A field that counting an event writes in W0: an overflow bit, the freeze it may cause, and EVC_STATUS.held. -/
def countedKey (k : Nat) : Bool :=
  k == Reg.EVC_STATUS.held.key || k == Reg.PMC_CTRL.freeze.key || (decide (0x300100 * 64 ≤ k) && decide (k < 0x300140 * 64))

/-- The module with other fields, event controller, counters, pending bits, cache lines and outputs. -/
def Module.noted (m : Module) (fields : SMap Nat) (evc : Evc) (pmc : Pmc) (pba : SMap Bool) (sets : SMap (List Line))
    (out : List Output) : Module :=
  { m with fields := fields, evc := evc, pmc := pmc, hif := { m.hif with pba := pba }, ms := { m.ms with sets := sets }, out := out }

/-- Every field but those that counting writes reads as before. -/
def SameFields (m m' : Module) : Prop := ∀ f : Fld, countedKey f.key = false → m'.getF f = m.getF f

/-- Nothing differs but what counting events and looking sectors up change in W0. -/
structure Noted (m m' : Module) : Prop where
  shape : ∃ fields evc pmc pba sets out, m' = m.noted fields evc pmc pba sets out
  getF : SameFields m m'

/-! ### Fields that counting leaves alone -/

theorem SameFields.trans {a b c : Module} (h : SameFields a b) (g : SameFields b c) : SameFields a c :=
  fun f hf => (g f hf).trans (h f hf)

theorem SameFields.inW0 {m m' : Module} (h : SameFields m m') (hw : m.inW0) : m'.inW0 :=
  ⟨(h Reg.PWR_STATE.state rfl).trans hw.1, (h Reg.PWR_STATE.entering rfl).trans hw.2⟩

theorem SameFields.linkUp {m m' : Module} (h : SameFields m m') : m'.linkUp = m.linkUp := by
  unfold Module.linkUp
  rw [h Reg.HIF_LINK.state rfl]

/-- A register of a function's page is none that counting writes. -/
theorem countedKey_page {k : Nat} (h : k < 0x100000 * 64) : countedKey k = false := by
  simp [countedKey, Fld.key, Reg.EVC_STATUS.held, Reg.PMC_CTRL.freeze]
  omega

theorem SameFields.page {m m' : Module} (h : SameFields m m') {f : Fld} (hf : f.key < 0x100000 * 64) : m'.getF f = m.getF f :=
  h f (countedKey_page hf)

/-! ### The relation -/

theorem Noted.refl (m : Module) : Noted m m := ⟨⟨m.fields, m.evc, m.pmc, m.hif.pba, m.ms.sets, m.out, rfl⟩, fun _ _ => rfl⟩

theorem Noted.trans {a b c : Module} (h : Noted a b) (g : Noted b c) : Noted a c := by
  obtain ⟨⟨_, _, _, _, _, _, rfl⟩, hf⟩ := h
  obtain ⟨⟨F, e, p, q, x, o, rfl⟩, gf⟩ := g
  exact ⟨⟨F, e, p, q, x, o, rfl⟩, hf.trans gf⟩

theorem Noted.ite {m a b : Module} (c : Prop) [Decidable c] (ha : Noted m a) (hb : Noted m b) : Noted m (if c then a else b) := by
  split
  · exact ha
  · exact hb

theorem Noted.setF (m : Module) (f : Fld) (v : Nat) (hf : countedKey f.key = true) : Noted m (m.setF f v) where
  shape := ⟨(m.setF f v).fields, m.evc, m.pmc, m.hif.pba, m.ms.sets, m.out, rfl⟩
  getF g hg := m.getF_setF_ne f g v (fun e => by rw [e, hf] at hg; cases hg)

theorem Noted.evc (m : Module) (x : Evc) : Noted m { m with evc := x } :=
  ⟨⟨m.fields, x, m.pmc, m.hif.pba, m.ms.sets, m.out, rfl⟩, fun _ _ => rfl⟩

theorem Noted.pmc (m : Module) (x : Pmc) : Noted m { m with pmc := x } :=
  ⟨⟨m.fields, m.evc, x, m.hif.pba, m.ms.sets, m.out, rfl⟩, fun _ _ => rfl⟩

theorem Noted.pba (m : Module) (x : SMap Bool) : Noted m { m with hif := { m.hif with pba := x } } :=
  ⟨⟨m.fields, m.evc, m.pmc, x, m.ms.sets, m.out, rfl⟩, fun _ _ => rfl⟩

theorem Noted.sets (m : Module) (x : SMap (List Line)) : Noted m (m.setMs { m.ms with sets := x }) :=
  ⟨⟨m.fields, m.evc, m.pmc, m.hif.pba, x, m.out, rfl⟩, fun _ _ => rfl⟩

theorem Noted.emit (m : Module) (o : Output) : Noted m (m.emit o) :=
  ⟨⟨m.fields, m.evc, m.pmc, m.hif.pba, m.ms.sets, m.out ++ [o], rfl⟩, fun _ _ => rfl⟩

theorem Noted.inW0 {m m' : Module} (h : Noted m m') (hw : m.inW0) : m'.inW0 := h.getF.inW0 hw

/-- An update that in W0 only counts and looks up does no more over a list. -/
theorem Noted.each {α : Type} (l : List α) (f : Module → α → Module) (h : ∀ m, ∀ a ∈ l, m.inW0 → Noted m (f m a)) (m : Module)
    (hw : m.inW0) : Noted m (m.each l f) :=
  Module.each_keeps (fun x => Noted m x) l f (fun x a ha hx => hx.trans (h x a ha (hx.inW0 hw))) m (Noted.refl m)

/-! ### Raising a source and counting, in W0 -/

/-- In W0 there is nothing to wake from (18 R449). -/
theorem Module.wake_inW0 {m : Module} (hw : m.inW0) (code detail : Nat) : m.wake code detail = m := by
  have asleep : wakesFrom code 0 = false := by unfold wakesFrom; split <;> rfl
  simp [Module.wake, Module.bit, hw.1, hw.2, asleep]

theorem Module.sendMsix_noted (m : Module) (fn e : Nat) : Noted m (m.sendMsix fn e) := by
  unfold Module.sendMsix
  exact Noted.ite _ (Noted.refl m) (Noted.ite _ (Noted.pba m _) (Noted.ite _ (Noted.emit m _) (Noted.refl m)))

theorem Module.evalInst_noted (m : Module) (i : Nat) : Noted m (m.evalInst i) := by
  unfold Module.evalInst
  exact Noted.ite _ (Noted.ite _ (Noted.evc m _) ((Noted.evc m _).trans (Module.sendMsix_noted _ _ _))) (Noted.refl m)

theorem Module.updateSource_noted {m : Module} (hw : m.inW0) (i : Nat) (x : Source) : Noted m (m.updateSource i x) := by
  unfold Module.updateSource
  have set : Noted m (m.setSource i { x with pending := x.pending || m.dueSource i x }) := Noted.evc m _
  have held := set.trans (Noted.ite ((x.pending || m.dueSource i x) && !x.pending && m.evcHeld)
    (Noted.setF _ Reg.EVC_STATUS.held 1 rfl) (Noted.refl _))
  exact held.trans (Noted.each _ _ (fun m i _ _ => m.evalInst_noted i) _ (held.inW0 hw))

theorem Module.raise_noted {m : Module} (hw : m.inW0) (i : Nat) : Noted m (m.raise i) := by
  have h : Noted m (m.raiseQuiet i) := Module.updateSource_noted hw i _
  rw [Module.raise, Module.wake_inW0 (h.inW0 hw)]
  exact h

theorem countedKey_ovf (k : Nat) (h : k < 512) : countedKey (Reg.PMC_OVF.ovf (k / 64)).key = true := by
  simp [countedKey, Fld.key, Reg.PMC_OVF.ovf]
  omega

theorem Module.pmcBump_noted (src n fuel : Nat) : ∀ {m : Module} (k : Nat) (_ : m.inW0) (_ : k + fuel < 512), Noted m (m.pmcBump src k n fuel) := by
  induction fuel generalizing n with
  | zero => intro m k _ _; exact Noted.refl m
  | succ fuel ih =>
    intro m k hw hk
    have ovf : ∀ (p : Pmc) (v : Nat), Noted m (Module.setF { m with pmc := p } (Reg.PMC_OVF.ovf (k / 64)) v) :=
      fun p v => (Noted.pmc m p).trans (Noted.setF _ _ v (countedKey_ovf k (by omega)))
    have event : ∀ (c : Bool) (x : Module), Noted m x → Noted m (if c then x.raise src else x) :=
      fun c x hx => Noted.ite _ (hx.trans (Module.raise_noted (hx.inW0 hw) _)) hx
    have chain : ∀ (p : Pmc) (v : Nat), Noted m (Module.pmcBump { m with pmc := p } src (k + 1) v fuel) :=
      fun p v => (Noted.pmc m p).trans (ih v (k + 1) ((Noted.pmc m p).inW0 hw) (by omega))
    unfold Module.pmcBump
    exact Noted.ite _ (Noted.pmc m _) (Noted.ite _ (Noted.ite _ (chain _ _) (Noted.pmc m _))
      (Noted.ite _ (((event _ _ (ovf _ _)).trans (Noted.pmc _ _)).trans (Noted.setF _ Reg.PMC_CTRL.freeze _ rfl)) (event _ _ (ovf _ _))))

/-- Counting an event, in W0 (20 R469-R473). -/
theorem Module.count_noted {m : Module} (hw : m.inW0) (g : Nat × Nat × Nat) (code n : Nat) (e : Ev) (hg : g.1 + g.2.1 < 500) :
    Noted m (m.count g code n e) := by
  unfold Module.count
  refine Noted.ite _ (Noted.refl m) (Noted.each _ _ (fun x i hi hx => ?_) m hw)
  have := List.mem_range.mp hi
  exact Noted.ite _ (Module.pmcBump_noted _ _ _ _ hx (by omega)) (Noted.refl x)

/-! ### Lookups, in W0 -/

theorem Module.cacheTouch_noted {m : Module} (hw : m.inW0) (w : Who) (pc off : Nat) (write whole : Bool) :
    Noted m (m.cacheTouch w pc off write whole) := by
  have counted : ∀ {x : Module} (code n : Nat) (e : Ev), Noted m x → Noted m (x.count pmcMem code n e) :=
    fun code n e hx => hx.trans (Module.count_noted (hx.inW0 hw) pmcMem code n e (by decide))
  have lines : ∀ {x : Module} (ls : List Line), Noted m x → Noted m (x.writeBacks ls) :=
    fun ls hx => hx.trans (Noted.each _ _ (fun y _ _ hy => Module.count_noted hy pmcMem _ _ _ (by decide)) _ (hx.inW0 hw))
  unfold Module.cacheTouch
  refine lines _ (Noted.ite _ ?_ (counted _ _ _ ?_)) <;> exact counted _ _ _ (Noted.sets m _)

theorem Module.far_noted {m : Module} (hw : m.inW0) (w : Who) (n : Nat) (write : Bool) : Noted m (m.far w n write) :=
  Noted.ite _ (Module.count_noted hw pmcHmp _ _ _ (by decide)) (Noted.refl m)

theorem Module.touch_noted {m : Module} (hw : m.inW0) (w : Who) (p : Place) (n : Nat) (write : Bool) : Noted m (m.touch w p n write) := by
  have far : ∀ {x : Module}, Noted m x → Noted m (x.far w n write) := fun hx => hx.trans (Module.far_noted (hx.inW0 hw) w n write)
  unfold Module.touch
  cases p with
  | hbm pc off => exact far (Noted.each _ _ (fun x _ _ hx => Module.cacheTouch_noted hx _ _ _ _ _) m hw)
  | host a => exact far (Noted.ite _ (Module.count_noted hw pmcHost _ _ _ (by decide)) (Noted.refl m))
  | ctier a =>
    have h := Module.count_noted hw pmcHmp 5 n { Ev.none with ctx := some w.ctx, master := w.origin } (by decide)
    exact Noted.ite _ h (h.trans (Module.count_noted (h.inW0 hw) pmcHmp _ _ _ (by decide)))
  | store c off => exact Noted.refl m
  | hstore c off => exact Noted.refl m

theorem Module.askPiece_noted {m : Module} (hw : m.inW0) (w : Who) (p : Place) (n : Nat) (write lead whole : Bool) :
    Noted m (m.askPiece w p n write lead whole) := by
  cases p with
  | hbm pc off =>
    have h : Noted m (if lead then m.cacheTouch w pc off write whole else m) :=
      Noted.ite _ (Module.cacheTouch_noted hw w pc off write whole) (Noted.refl m)
    exact h.trans (Module.far_noted (h.inW0 hw) w n write)
  | ctier a => exact Module.touch_noted hw w (.ctier a) n write
  | host a => exact Module.touch_noted hw w (.host a) n write
  | store c off => exact Noted.refl m
  | hstore c off => exact Noted.refl m

theorem Module.askPieces_noted {m : Module} (hw : m.inW0) (w : Who) (l : List (Place × Nat)) : Noted m (m.askPieces w l) :=
  List.foldlRecOn (motive := fun r : Module × List Nat => Noted m r.1) l _ (Noted.refl m)
    (fun _ hr _ _ => hr.trans (Module.askPiece_noted (hr.inW0 hw) _ _ _ _ _ _))

/-! ### What is read alike before and after -/

section
variable {m m' : Module} (h : Noted m m')
include h

theorem Noted.retry : m'.retry = m.retry := by obtain ⟨_, _, _, _, _, _, rfl⟩ := h.shape; rfl
theorem Noted.threads : m'.threads = m.threads := by obtain ⟨_, _, _, _, _, _, rfl⟩ := h.shape; rfl
theorem Noted.ctx (n : Nat) : m'.ctx n = m.ctx n := by obtain ⟨_, _, _, _, _, _, rfl⟩ := h.shape; rfl

theorem Noted.readPlace (p : Place) (n : Nat) : m'.readPlace p n = m.readPlace p n := by
  obtain ⟨_, _, _, _, _, _, rfl⟩ := h.shape
  cases p <;> rfl

theorem Noted.sameBytes : SameBytes m m' := by
  obtain ⟨_, _, _, _, _, _, rfl⟩ := h.shape
  exact ⟨fun _ => rfl, rfl⟩

theorem Noted.linkUp : m'.linkUp = m.linkUp := h.getF.linkUp

theorem Noted.recovery : m'.recovery = m.recovery := by
  unfold Module.recovery
  rw [h.getF Reg.LMP_FW_STAT.state rfl]

theorem Noted.carveL : m'.carveL = m.carveL := h.getF Reg.MEM_CARVE.active rfl

theorem Noted.badPlace (p : Place) (n : Nat) : m'.badPlace p n = m.badPlace p n := by
  have hl := h.linkUp
  obtain ⟨_, _, _, _, _, _, rfl⟩ := h.shape
  cases p with
  | host a => simp only [Module.badPlace, hl]
  | _ => rfl

theorem Noted.localBytes : m'.localBytes = m.localBytes := by rw [Module.localBytes, Module.localBytes, h.carveL]

theorem Noted.spreadBytes : m'.spreadBytes = m.spreadBytes := by rw [Module.spreadBytes, Module.spreadBytes, h.carveL]

theorem Noted.leafOk (e : Nat) (big : Bool) : m'.leafOk e big = m.leafOk e big := by
  simp only [Module.leafOk, h.localBytes, h.spreadBytes]

theorem Noted.walk (ctx va : Nat) : m'.walk ctx va = m.walk ctx va := by
  simp only [Module.walk, h.ctx, h.badPlace, h.readPlace, h.leafOk, h.spreadBytes]

theorem Noted.walkPlaces (ctx va : Nat) : m'.walkPlaces ctx va = m.walkPlaces ctx va := by
  simp only [Module.walkPlaces, h.ctx, h.badPlace, h.readPlace, h.spreadBytes]

theorem Noted.ctxXlat (ctx va : Nat) (acc : Access) : m'.ctxXlat ctx va acc = m.ctxXlat ctx va acc := by
  simp only [Module.ctxXlat, h.walk, Module.pagePlace, h.carveL]

theorem Noted.xlatRange (ctx va n : Nat) (acc : Access) : m'.xlatRange ctx va n acc = m.xlatRange ctx va n acc := by
  simp only [Module.xlatRange, h.ctxXlat]

/-- The slices hold the same lines, so the same accesses wait for a held channel. -/
theorem Noted.rangeHeld (hm : m'.ms = m.ms) (ctx va n : Nat) (acc : Access) : m'.rangeHeld ctx va n acc = m.rangeHeld ctx va n acc := by
  have held : ∀ pc, m'.held pc = m.held pc := fun pc => by
    unfold Module.held
    rw [h.getF _ (by simp [countedKey, Fld.key, Reg.MEM_HOLD.held, Reg.EVC_STATUS.held, Reg.PMC_CTRL.freeze]; omega)]
  have wait : m'.mustWait = m.mustWait := by
    funext p
    cases p <;> simp only [Module.mustWait, held, Module.cacheHit, Module.sectorWaits, hm]
  simp only [Module.rangeHeld, Module.rangeWalks, Module.anyHeld, h.walkPlaces, h.xlatRange, wait]

end

end Sys2Proof.Machine
end

section
/-! PROOFS of the scope family, third part: an access by a requester in W0, what it leaves alone, and a violation. -/

namespace Sys2Proof.Machine

/-! ### What a command leaves alone when PILOT stands still -/

/-- Nothing differs but the fields whose key is listed and what counting an event and raising a source change. -/
structure Steady (ks : List Nat) (m m' : Module) : Prop where
  only : Only [.fields, .evc, .pmc, .pwr, .hif] m m'
  fields : ∀ f : Fld, f.key ∉ ks → sideField f.key = false → m'.getF f = m.getF f
  hif : { m'.hif with pba := [] } = { m.hif with pba := [] }

theorem Steady.trans {ks : List Nat} {a b c : Module} (h : Steady ks a b) (g : Steady ks b c) : Steady ks a c :=
  ⟨h.only.trans g.only, fun f hk hs => (g.fields f hk hs).trans (h.fields f hk hs), g.hif.trans h.hif⟩

theorem Quiet.steady {m m' : Module} (h : Quiet m m') (ks : List Nat) : Steady ks m m' :=
  ⟨h.only, fun f _ hs => (h.same 0).fields f hs, (h.same 0).hif⟩

theorem Steady.setF {ks : List Nat} (m : Module) (f : Fld) (v : Nat) (hf : f.key ∈ ks) : Steady ks m (m.setF f v) where
  only p hp := by cases p <;> simp [Part.same] at hp ⊢
  fields g hg _ := m.getF_setF_ne f g v (fun e => hg (e ▸ hf))
  hif := rfl

theorem Steady.changes {ks : List Nat} {m m' : Module} (h : Steady ks m m') : Changes ks [] m m' :=
  ⟨h.only, fun f hk hs => .inl (h.fields f hk hs), fun _ => h.hif⟩

/-- The module that a command starts from, with a value of `retry`: a command that may wait for a held channel sets it first. -/
def State.start (s : State) (b : Bool) : Module := { s.m.fresh with retry := b }

theorem State.start_quiet (s : State) (b : Bool) : Quiet s.m (s.start b) :=
  ⟨rfl, rfl, rfl, fun k => { SameBut.refl s.m k with pilot := rfl }⟩

theorem State.start_only (s : State) (b : Bool) (ps : List Part) : Only ps s.m (s.start b) := by
  intro p _
  cases p <;> simp [Part.same, State.start, Module.fresh]

/-- A command that runs on the starting module. -/
theorem Completes.of_exec {i : Instr} {s : State} {p : Module → Prop} {m' : Module} (he : exec i s = .next { s with m := m' }) (hp : p m') :
    Completes i s p := ⟨_, he, rfl, hp⟩

theorem Completes.mono {i : Instr} {s : State} {p q : Module → Prop} (h : Completes i s p) (hq : ∀ m, p m → q m) : Completes i s q := by
  obtain ⟨t, he, hs, hp⟩ := h
  exact ⟨t, he, hs, hq _ hp⟩

theorem Effect.of_exec {i : Instr} {s : State} {ks : List Nat} {p : Module → Prop} {m' : Module}
    (he : exec i s = .next { s with m := m' }) (hp : p m') (h : Steady ks s.m m') : Effect i s ks [] p :=
  Completes.of_exec he ⟨hp, h.changes⟩

/-- A command whose effect leaves the starting module. -/
theorem Does.nothing {i : Instr} {s : State} (he : exec i s = .next { s with m := s.m.fresh }) : Does i s [] (fun _ => True) :=
  Completes.of_exec he ⟨trivial, s.start_only s.m.retry []⟩

/-! ### Accesses (20 Table 20-2; 22 R515) -/

section
variable {m : Module} (hw : m.inW0)
include hw

/-- In W0 a BAR access is counted and wakes nothing. -/
theorem Module.barAccess_eq (fn : Nat) :
    m.barAccess fn = if m.linkUp then m.count pmcHost 3 1 { Ev.none with ctx := some fn, master := some 6 } else m := by
  have h := (Module.count_noted hw pmcHost 3 1 { Ev.none with ctx := some fn, master := some 6 } (by decide)).inW0 hw
  simp [Module.barAccess, Module.hostWake, Module.wake_inW0 h, h.1]

theorem Module.barAccess_noted (fn : Nat) : Noted m (m.barAccess fn) := by
  rw [Module.barAccess_eq hw]
  exact Noted.ite _ (Module.count_noted hw pmcHost _ _ _ (by decide)) (Noted.refl m)

theorem Module.barAccess_quiet (fn : Nat) : Quiet m (m.barAccess fn) := by
  rw [Module.barAccess_eq hw]
  exact Quiet.ite _ (m.count_quiet pmcHost _ _ _ (by decide)) (Quiet.refl m)

theorem Module.access_noted (r : Requester) : Noted m (m.access r) := by
  cases r with
  | lamplighter => exact Noted.refl m
  | _ => exact Module.barAccess_noted hw _

theorem Module.access_quiet (r : Requester) : Quiet m (m.access r) := by
  cases r with
  | lamplighter => exact Quiet.refl m
  | _ => exact Module.barAccess_quiet hw _

end

/-! ### The page of a function, and violations (22 R530) -/

theorem reqFn_lt (r : Requester) : reqFn r < 64 := by
  cases r <;> simp only [reqFn] <;> omega

/-- The keys of the fields that a violation of context `n` writes. -/
def violKeys (n : Nat) : List Nat := [(Reg.HIF_VIOL.count n).key, (Reg.HIF_VLOG.unit n).key, (Reg.HIF_VLOG.address n).key]

theorem Module.violate_violates (m : Module) (n unit addr : Nat) (hu : unit < 256) : Violates m (m.violate n unit addr) n unit addr := by
  refine ⟨?_, ?_, Module.getF_setF_self _ _ _⟩
  · rw [Module.violate, Module.getF_setF_ne, Module.getF_setF_ne, Module.addF, Module.getF_setF_self]
    · rfl
    all_goals simp only [Fld.key, Reg.HIF_VIOL.count, Reg.HIF_VLOG.unit, Reg.HIF_VLOG.address]; omega
  · rw [Module.violate, Module.getF_setF_ne, Module.getF_setF_self]
    · exact Nat.mod_eq_of_lt hu
    · simp only [Fld.key, Reg.HIF_VLOG.unit, Reg.HIF_VLOG.address]; omega

theorem Module.violate_steady (m : Module) (n unit addr : Nat) : Steady (violKeys n) m (m.violate n unit addr) := by
  refine ((Steady.setF m _ _ ?_).trans (Steady.setF _ _ _ ?_)).trans (Steady.setF _ _ _ ?_) <;> simp [violKeys]

theorem Module.violate_inW0 {m : Module} (hw : m.inW0) {n : Nat} (hn : n < 64) (unit addr : Nat) : (m.violate n unit addr).inW0 := by
  have kept : ∀ f : Fld, 0x100000 * 64 ≤ f.key → (m.violate n unit addr).getF f = m.getF f := fun f hf => by
    rw [Module.violate, Module.getF_setF_ne, Module.getF_setF_ne, Module.addF, Module.getF_setF_ne]
    all_goals simp only [Fld.key, Reg.HIF_VIOL.count, Reg.HIF_VLOG.unit, Reg.HIF_VLOG.address] at *; omega
  exact ⟨(kept _ (by decide)).trans hw.1, (kept _ (by decide)).trans hw.2⟩

/-- Counting events before and after leaves the violation as it is. -/
theorem Violates.counted {a b c d : Module} {n unit addr : Nat} (hn : n < 64) (h : SameFields a b) (v : Violates b c n unit addr)
    (g : SameFields c d) :
    Violates a d n unit addr := by
  obtain ⟨hc, hu, ha⟩ := v
  refine ⟨?_, ?_, ?_⟩
  · rw [g.page, hc, h.page] <;> simp only [Fld.key, Reg.HIF_VIOL.count] <;> omega
  · rw [g.page, hu]; simp only [Fld.key, Reg.HIF_VLOG.unit]; omega
  · rw [g.page, ha]; simp only [Fld.key, Reg.HIF_VLOG.address]; omega

section
variable {m : Module} (hw : m.inW0) (r : Requester) (addr : Nat)
include hw

/-- The violation that a register access is charged with: unit 3, and 6 for the Lamplighter. -/
theorem Module.accessViolation_violates :
    Violates m (m.accessViolation r 3 addr) (reqFn r) (if r = .lamplighter then 6 else 3) addr := by
  have counted : ∀ unit (e : Ev), Noted (m.violate (reqFn r) unit addr) ((m.violate (reqFn r) unit addr).count pmcHost 4 1 e) :=
    fun unit e => Module.count_noted (Module.violate_inW0 hw (reqFn_lt r) unit addr) pmcHost 4 1 e (by decide)
  cases r with
  | lamplighter => exact (m.violate_violates _ 6 addr (by decide)).counted (reqFn_lt .lamplighter) (Noted.refl m).getF (counted 6 _).getF
  | pf => exact (m.violate_violates _ 3 addr (by decide)).counted (reqFn_lt .pf) (Noted.refl m).getF (counted 3 _).getF
  | vf n => exact (m.violate_violates _ 3 addr (by decide)).counted (reqFn_lt (.vf n)) (Noted.refl m).getF (counted 3 _).getF

theorem Module.accessViolation_retry : (m.accessViolation r 3 addr).retry = m.retry :=
  (Module.count_noted (Module.violate_inW0 hw (reqFn_lt r) _ addr) pmcHost 4 1 _ (by decide)).retry

omit hw in
theorem Module.accessViolation_steady : Steady (violKeys (reqFn r)) m (m.accessViolation r 3 addr) :=
  (m.violate_steady _ _ addr).trans ((Module.count_quiet _ pmcHost 4 1 _ (by decide)).steady _)

end

end Sys2Proof.Machine
end

section
/-! PROOFS of the scope family, fourth part: what a store at a place does to every byte, and a write of bytes over the pieces of a range. -/

namespace Sys2Proof.Machine

/-! ### Bytes of numbers -/

theorem lostMask_byte (e : Nat) : ∀ (n k i : Nat), i < n → lostMask e k n / 256 ^ i % 256 = lostMask e (k + i) 1 := by
  intro n
  induction n with
  | zero => intro k i h; omega
  | succ n ih =>
    intro k i h
    by_cases he : e = 0
    · simp [lostMask, he]
    · have hb := (Config.lostByte e k).isLt
      cases i with
      | zero => simp only [lostMask, he, if_false, Nat.add_zero, Nat.pow_zero, Nat.div_one, Nat.mul_zero]; omega
      | succ i =>
        have hd : lostMask e k (n + 1) / 256 = lostMask e (k + 1) n := by simp only [lostMask, he, if_false]; omega
        rw [Nat.pow_succ, Nat.mul_comm, ← Nat.div_div_eq_div_mul, hd, ih (k + 1) i (by omega), Nat.add_assoc, Nat.add_comm 1 i]

/-- One byte of an exclusive or. -/
theorem xor_byte (a b i : Nat) : Nat.xor a b / 256 ^ i % 256 = Nat.xor (a / 256 ^ i % 256) (b / 256 ^ i % 256) := by
  have h256 : 256 ^ i = 2 ^ (8 * i) := by rw [Nat.pow_mul]
  show (a ^^^ b) / 256 ^ i % 2 ^ 8 = (a / 256 ^ i % 2 ^ 8) ^^^ (b / 256 ^ i % 2 ^ 8)
  rw [h256, ← Nat.shiftRight_eq_div_pow, ← Nat.shiftRight_eq_div_pow, ← Nat.shiftRight_eq_div_pow, Nat.shiftRight_xor_distrib,
    Nat.xor_mod_two_pow]

theorem Memory.read_one (mem : List Host.Cell) (b : Nat) : Memory.read mem b 1 = (Memory.get mem b).toNat := by simp [Memory.read]

/-- A byte after a write of `n` bytes. -/
theorem Memory.read_one_write (mem : List Host.Cell) (k n v b : Nat) :
    Memory.read (Memory.write mem k n v) b 1 = if k ≤ b ∧ b < k + n then v / 256 ^ (b - k) % 256 else Memory.read mem b 1 := by
  rw [Memory.read_one, Memory.read_one]
  split
  · next h =>
    have hg := Memory.get_write_in n mem k v (b - k) (by omega)
    rw [Nat.add_sub_cancel' h.1] at hg
    simp [hg]
  · next h => rw [Memory.get_write_out n mem k v b (by omega)]

/-- A byte of a memory that is kept as the difference from its free bytes, after a write. -/
theorem lostRead_lostWrite (e : Nat) (mem : List Host.Cell) (k n v b : Nat) :
    lostRead e (lostWrite e mem k n v) b 1 = if k ≤ b ∧ b < k + n then v / 256 ^ (b - k) % 256 else lostRead e mem b 1 := by
  unfold lostRead lostWrite
  rw [Memory.read_one_write]
  split
  · next h =>
    have hm := lostMask_byte e n k (b - k) (by omega)
    rw [Nat.add_sub_cancel' h.1] at hm
    rw [xor_byte, hm]
    exact Nat.xor_xor_cancel_right _ _
  · rfl

/-- A low byte of a number whose higher part is another one. -/
theorem byte_append_low (v w : Nat) {a i : Nat} (h : i < a) : (v % 256 ^ a + 256 ^ a * w) / 256 ^ i % 256 = v / 256 ^ i % 256 := by
  obtain ⟨d, rfl⟩ : ∃ d, a = i + 1 + d := ⟨a - (i + 1), by omega⟩
  have split : (v % 256 ^ (i + 1 + d) + 256 ^ (i + 1 + d) * w) % 256 ^ (i + 1) = v % 256 ^ (i + 1) := by
    rw [Nat.pow_add _ (i + 1) d, Nat.mul_assoc, Nat.add_mul_mod_self_left, Nat.mod_mul_right_mod]
  have cut : ∀ x, x / 256 ^ i % 256 = x % 256 ^ (i + 1) / 256 ^ i := fun x => by
    rw [Nat.pow_succ, Nat.mod_mul_right_div_self]
  rw [cut, split, ← cut]

theorem byte_append_high (v w a j : Nat) : (v % 256 ^ a + 256 ^ a * w) / 256 ^ (a + j) = w / 256 ^ j := by
  have hp : 0 < 256 ^ a := Nat.pow_pos (by decide)
  rw [Nat.pow_add, ← Nat.div_div_eq_div_mul, Nat.add_mul_div_left _ _ hp, Nat.div_eq_of_lt (Nat.mod_lt _ hp), Nat.zero_add]

theorem leVal_lt (l : List Byte) : leVal l < 256 ^ l.length := by
  induction l with
  | nil => simp [leVal]
  | cons b t ih =>
    have := b.isLt
    simp only [leVal, List.length_cons, Nat.pow_succ]
    omega

theorem leVal_append (l t : List Byte) : leVal (l ++ t) = leVal l + 256 ^ l.length * leVal t := by
  induction l with
  | nil => simp [leVal]
  | cons b l ih =>
    simp only [List.cons_append, leVal, ih, List.length_cons, Nat.pow_succ]
    ring

/-! ### A store at a place -/

theorem Place.plus_cell (p : Place) (i : Nat) : (p.plus i).cell = (p.cell.1, p.cell.2 + i) := by
  cases p <;> simp [Place.plus, Place.cell, hbmKey, Nat.add_assoc]

theorem Place.plus_plus (p : Place) (i j : Nat) : (p.plus i).plus j = p.plus (i + j) := by
  cases p <;> simp [Place.plus, Nat.add_assoc]

theorem Place.plus_zero (p : Place) : p.plus 0 = p := by cases p <;> rfl

/-- A write at a place leaves the other memories alone. -/
theorem Module.byteAt_writePlace_other (m : Module) (p : Place) (n v : Nat) (c : Nat × Nat) (h : c.1 ≠ p.cell.1) :
    (m.writePlace p n v).byteAt c = m.byteAt c := by
  obtain ⟨j, b⟩ := c
  cases p with
  | host a =>
    simp only [Module.writePlace]
    split
    · match j, h with
      | 0, _ | 1, _ | 3, _ | 4, _ | _ + 5, _ => rfl
      | 2, h => exact absurd rfl h
    · rfl
  | hbm pc off => match j, h with
    | 1, _ | 2, _ | 3, _ | 4, _ | _ + 5, _ => rfl
    | 0, h => exact absurd rfl h
  | ctier a => match j, h with
    | 0, _ | 2, _ | 3, _ | 4, _ | _ + 5, _ => rfl
    | 1, h => exact absurd rfl h
  | store co off => match j, h with
    | 0, _ | 1, _ | 2, _ | 4, _ | _ + 5, _ => rfl
    | 3, h => exact absurd rfl h
  | hstore co off => match j, h with
    | 0, _ | 1, _ | 2, _ | 3, _ | _ + 5, _ => rfl
    | 4, h => exact absurd rfl h

/-- A byte of the place's own memory after a write at the place. -/
theorem Module.byteAt_writePlace_own (m : Module) (p : Place) (n v b : Nat) :
    (m.writePlace p n v).byteAt (p.cell.1, b) =
      if p.cell.2 ≤ b ∧ b < p.cell.2 + n ∧ (p.cell.1 = 2 → m.linkUp = true) then v / 256 ^ (b - p.cell.2) % 256
      else m.byteAt (p.cell.1, b) := by
  cases p with
  | hbm pc off => simpa [Place.cell, Module.byteAt, Module.writePlace] using lostRead_lostWrite m.ms.scr m.ms.hbm (hbmKey pc off) n v b
  | ctier a => simpa [Place.cell, Module.byteAt, Module.writePlace] using lostRead_lostWrite m.ms.ctScr m.ms.ctier a n v b
  | store c off => simpa [Place.cell, Module.byteAt, Module.writePlace] using Memory.read_one_write m.ms.store (c * storeBytes + off) n v b
  | hstore c off => simpa [Place.cell, Module.byteAt, Module.writePlace] using Memory.read_one_write m.ms.hstore (c * storeBytes + off) n v b
  | host a =>
    cases hl : m.linkUp with
    | true => simpa [Place.cell, Module.byteAt, Module.writePlace, hl] using Memory.read_one_write m.ms.host a n v b
    | false => simp [Place.cell, Module.writePlace, hl]

theorem Module.writePlace_flash (m : Module) (p : Place) (n v : Nat) : (m.writePlace p n v).ms.flash = m.ms.flash := by
  cases p with
  | host a => simp only [Module.writePlace]; split <;> rfl
  | _ => rfl

/-- A write at a place stores there, and leaves every other byte as it was. -/
theorem StoresAt.writePlace (m : Module) (p : Place) (n v : Nat) : StoresAt m (m.writePlace p n v) p n v := by
  refine ⟨fun c => ?_, m.writePlace_flash p n v⟩
  by_cases h : c.1 = p.cell.1
  · obtain ⟨j, b⟩ := c
    obtain rfl : j = p.cell.1 := h
    rw [m.byteAt_writePlace_own p n v b]
    simp
  · rw [m.byteAt_writePlace_other p n v c h, if_neg (fun hc => h hc.1)]

theorem StoresAt.nothing (m : Module) (p : Place) (v : Nat) : StoresAt m m p 0 v :=
  ⟨fun c => by rw [if_neg (by omega)], rfl⟩

theorem StoresAt.after {a b c : Module} {p : Place} {n v : Nat} (h : SameBytes a b) (hl : b.linkUp = a.linkUp) (g : StoresAt b c p n v) :
    StoresAt a c p n v :=
  ⟨fun x => by rw [g.1 x, h.1 x, hl], g.2.trans h.2⟩

theorem StoresAt.before {a b c : Module} {p : Place} {n v : Nat} (h : StoresAt a b p n v) (g : SameBytes b c) : StoresAt a c p n v :=
  ⟨fun x => (g.1 x).trans (h.1 x), g.2.trans h.2⟩

/-- Two stores, the second right behind the first, are one. -/
theorem StoresAt.append {m m1 m2 : Module} {p : Place} {a b v w : Nat} (h : StoresAt m m1 p a v) (g : StoresAt m1 m2 (p.plus a) b w)
    (hl : m1.linkUp = m.linkUp) : StoresAt m m2 p (a + b) (v % 256 ^ a + 256 ^ a * w) := by
  refine ⟨fun c => ?_, g.2.trans h.2⟩
  rw [g.1 c, h.1 c, p.plus_cell, hl]
  by_cases hc : c.1 = p.cell.1 ∧ (c.1 = 2 → m.linkUp = true)
  · obtain ⟨hm, hu⟩ := hc
    by_cases low : c.2 < p.cell.2 + a
    · rw [if_neg (by omega)]
      by_cases under : p.cell.2 ≤ c.2
      · rw [if_pos ⟨hm, under, low, hu⟩, if_pos ⟨hm, under, by omega, hu⟩, byte_append_low v w (by omega)]
      · rw [if_neg (by omega), if_neg (by omega)]
    · by_cases up : c.2 < p.cell.2 + a + b
      · obtain ⟨j, hj⟩ : ∃ j, c.2 - p.cell.2 = a + j := ⟨c.2 - p.cell.2 - a, by omega⟩
        rw [if_pos ⟨hm, by simp only; omega, by simp only; omega, hu⟩, if_pos ⟨hm, by omega, by omega, hu⟩, hj, byte_append_high]
        congr 3
        simp only
        omega
      · rw [if_neg (by simp only; omega), if_neg (by omega), if_neg (by omega)]
  · rw [if_neg (fun x => hc ⟨x.1, x.2.2.2⟩), if_neg (fun x => hc ⟨x.1, x.2.2.2⟩), if_neg (fun x => hc ⟨x.1, x.2.2.2⟩)]

/-! ### One piece -/

theorem Module.writePlace_getF (m : Module) (p : Place) (n v : Nat) (f : Fld) : (m.writePlace p n v).getF f = m.getF f := by
  cases p with
  | host a => simp only [Module.writePlace]; split <;> rfl
  | _ => rfl

theorem Module.clearMark_getF (m : Module) (p : Place) (f : Fld) : (m.clearMark p).getF f = m.getF f := by cases p <;> rfl

theorem Module.clearMark_bytes (m : Module) (p : Place) : SameBytes m (m.clearMark p) := by cases p <;> exact ⟨fun _ => rfl, rfl⟩

/-- Writing one piece in W0 stores it, and changes no field but those that counting writes. -/
theorem Module.putPiece_stores {m : Module} (hw : m.inW0) (w : Who) (p : Place) (n v : Nat) (lead whole : Bool) :
    StoresAt m (m.putPiece w p n v lead whole) p n v ∧
      SameFields m (m.putPiece w p n v lead whole) := by
  have asked := Module.askPiece_noted hw w p n true lead whole
  have stored := (StoresAt.writePlace _ p n v).after asked.sameBytes asked.linkUp
  unfold Module.putPiece
  cases whole with
  | true => exact ⟨stored.before (Module.clearMark_bytes _ p), fun f hf => by
      rw [if_pos rfl, Module.clearMark_getF, Module.writePlace_getF, asked.getF f hf]⟩
  | false => exact ⟨stored, fun f hf => by
      rw [if_neg (by decide), Module.writePlace_getF, asked.getF f hf]⟩

/-! ### The pieces of a range -/

/-- Byte ranges (address, size) that follow one another from `a` to `e`. -/
def Chained (a : Nat) : List (Nat × Nat) → Nat → Prop
  | [], e => a = e
  | q :: t, e => q.1 = a ∧ Chained (a + q.2) t e

theorem Chained.le {e : Nat} : ∀ {l : List (Nat × Nat)} {a : Nat}, Chained a l e → a ≤ e
  | [], _, h => Nat.le_of_eq h
  | _ :: _, _, h => Nat.le_trans (Nat.le_add_right _ _) h.2.le

/-- The cuts of a range at 8-byte boundaries follow one another from its first byte to its end. -/
theorem chained_pieces (addr len : Nat) (hl : 1 ≤ len) : Chained addr (pieces addr len) (addr + len) := by
  have tail : ∀ k i, i + k = (addr % 8 + len + 7) / 8 → Chained (min (addr + len) (max addr (addr / 8 * 8 + 8 * i)))
      ((List.range' i k).map (fun i => let lo := max addr (addr / 8 * 8 + 8 * i)
        (lo, min (addr + len) (addr / 8 * 8 + 8 * i + 8) - lo))) (addr + len) := by
    intro k
    induction k with
    | zero => intro i hi; simp only [List.range'_zero, List.map_nil, Chained]; omega
    | succ k ih =>
      intro i hi
      have next := ih (i + 1) (by omega)
      simp only [List.range'_succ, List.map_cons, Chained]
      refine ⟨by omega, ?_⟩
      convert next using 1
      omega
  have h := tail ((addr % 8 + len + 7) / 8) 0 (by omega)
  rw [← List.range_eq_range', show min (addr + len) (max addr (addr / 8 * 8 + 8 * 0)) = addr by omega] at h
  exact h

/-- One piece of a write, with the sectors already requested; `c` is what the whole write covers. -/
def putStep (w : Who) (c : SMap Nat) (r : Module × List Nat) (x : Place × Nat × Nat) : Module × List Nat :=
  (r.1.putPiece w x.1 x.2.1 x.2.2 (x.1.request r.2).1 (coversAll c x.1), (x.1.request r.2).2)

theorem Module.putPieces_eq (m : Module) (w : Who) (l : List (Place × Nat × Nat)) :
    m.putPieces w l = (l.foldl (putStep w (coverOf (l.map (fun x => (x.1, x.2.1))))) (m, [])).1 := rfl

/-- Pieces that translate to places one after another store their bytes there. -/
theorem foldl_putStep_stores (w : Who) (c : SMap Nat) (p : Place) (va e : Nat) :
    ∀ (l : List ((Nat × Nat) × Xlat)) (a : Nat) (data : List Byte) (r : Module × List Nat), Chained a (l.map Prod.fst) e → va ≤ a →
      a + data.length = e → (∀ x ∈ l, ∃ lc, x.2 = .ok (p.plus (x.1.1 - va)) lc) → r.1.inW0 →
      StoresAt r.1 ((rangePuts l data).foldl (putStep w c) r).1 (p.plus (a - va)) data.length (leVal data) ∧
        SameFields r.1 ((rangePuts l data).foldl (putStep w c) r).1 := by
  intro l
  induction l with
  | nil =>
    intro a data r hc _ hd _ _
    have : data.length = 0 := by simp only [List.map_nil, Chained] at hc; omega
    rw [this]
    exact ⟨StoresAt.nothing _ _ _, fun _ _ => rfl⟩
  | cons x t ih =>
    intro a data r hc hv hd hx hw
    obtain ⟨rfl, hc⟩ := hc
    obtain ⟨lc, hok⟩ := hx x List.mem_cons_self
    have hn : x.1.2 ≤ data.length := by have := hc.le; omega
    have put := Module.putPiece_stores hw w (p.plus (x.1.1 - va)) x.1.2 (leVal (data.take x.1.2))
      ((p.plus (x.1.1 - va)).request r.2).1 (coversAll c (p.plus (x.1.1 - va)))
    have rest := ih (x.1.1 + x.1.2) (data.drop x.1.2) (putStep w c r (p.plus (x.1.1 - va), x.1.2, leVal (data.take x.1.2))) hc (by omega)
      (by rw [List.length_drop]; omega) (fun y hy => hx y (List.mem_cons_of_mem _ hy))
      (put.2.inW0 hw)
    have hp : p.plus (x.1.1 + x.1.2 - va) = (p.plus (x.1.1 - va)).plus x.1.2 := by
      rw [Place.plus_plus]; congr 1; omega
    have hlen : (data.take x.1.2).length = x.1.2 := List.length_take_of_le hn
    have both := put.1.append (hp ▸ rest.1) put.2.linkUp
    have hval : leVal (data.take x.1.2) % 256 ^ x.1.2 + 256 ^ x.1.2 * leVal (data.drop x.1.2) = leVal data := by
      have lt := leVal_lt (data.take x.1.2)
      have app := leVal_append (data.take x.1.2) (data.drop x.1.2)
      rw [hlen] at lt app
      rw [Nat.mod_eq_of_lt lt, ← app, List.take_append_drop]
    rw [hval, List.length_drop, Nat.add_sub_cancel' hn] at both
    simp only [rangePuts, hok, List.cons_append, List.nil_append, List.foldl_cons]
    exact ⟨both, put.2.trans rest.2⟩

/-- Bytes written over pieces that all translate to places one after another are stored there. -/
theorem Module.writeRange_stores {m : Module} (hw : m.inW0) (w : Who) (p : Place) (va : Nat) (l : List ((Nat × Nat) × Xlat)) (data : List Byte)
    (hc : Chained va (l.map Prod.fst) (va + data.length)) (hl : ∀ x ∈ l, ∃ lc, x.2 = .ok (p.plus (x.1.1 - va)) lc) :
    StoresAt m (m.writeRange w l data) p data.length (leVal data) ∧
      SameFields m (m.writeRange w l data) := by
  rw [Module.writeRange, Module.putPieces_eq]
  have h := foldl_putStep_stores w (coverOf ((rangePuts l data).map (fun x => (x.1, x.2.1)))) p va _ l va data (m, []) hc (Nat.le_refl va) rfl
    hl hw
  rw [Nat.sub_self, Place.plus_zero] at h
  exact h

/-- Denied pages ignore their bytes. -/
theorem Module.writeRange_denied (m : Module) (w : Who) (l : List ((Nat × Nat) × Xlat)) (data : List Byte) (hl : ∀ x ∈ l, x.2 = .viol) :
    m.writeRange w l data = m := by
  have noPuts : ∀ (l : List ((Nat × Nat) × Xlat)) (data : List Byte), (∀ x ∈ l, x.2 = .viol) → rangePuts l data = [] := by
    intro l
    induction l with
    | nil => intros; rfl
    | cons x t ih => intro data h; simp [rangePuts, h x List.mem_cons_self, ih _ (fun y hy => h y (List.mem_cons_of_mem _ hy))]
  rw [Module.writeRange, noPuts l data hl]
  rfl

end Sys2Proof.Machine
end

section
/-! PROOFS of the scope family, fifth part: reads and writes of BAR2 (22 R515-R517). -/

namespace Sys2Proof.Machine

/-- A TLP of `k` bytes, at most `most`, that stays in the window of BAR2. -/
def Bar2Fits (off k most : Nat) : Prop := 1 ≤ k ∧ k ≤ most ∧ off + k ≤ 2 ^ 36

/-- A TLP fails outright: its context is not live, it leaves the address space, or one of its pieces does not translate. -/
def Module.bar2Fails (m : Module) (fn va k : Nat) (acc : Access) : Bool :=
  !m.ctxLive fn || decide (2 ^ 48 < va + k) || !(faultsOf (m.bar2Xlat fn va k acc)).isEmpty

theorem Module.bar2Fails_iff (m : Module) (fn va k : Nat) (acc : Access) :
    m.bar2Fails fn va k acc = true ↔ m.ctxLive fn = false ∨ 2 ^ 48 < va + k ∨ faultsOf (m.bar2Xlat fn va k acc) ≠ [] := by
  unfold Module.bar2Fails
  cases m.ctxLive fn <;> simp

/-! ### A function's window before and after a BAR access -/

section
variable {m m' : Module} (h : Noted m m') {fn : Nat} (hf : fn < 64)
include h

theorem Noted.bar2Xlat (va k : Nat) (acc : Access) : m'.bar2Xlat fn va k acc = m.bar2Xlat fn va k acc := by
  rw [Module.bar2Xlat, Module.bar2Xlat, h.xlatRange]

include hf

theorem Noted.bar2Va (off : Nat) : m'.bar2Va fn off = m.bar2Va fn off := by
  unfold Module.bar2Va
  rw [h.getF.page]
  simp only [Fld.key, Reg.HIF_B2BASE.base]
  omega

theorem Noted.ctxLive : m'.ctxLive fn = m.ctxLive fn := by
  unfold Module.ctxLive Module.ctxState
  rw [h.getF.page]
  simp only [Fld.key, Reg.HIF_CTXSTAT.state]
  omega

end

/-! ### The outcomes of a TLP -/

theorem bar2_outside_iff (m : Module) (fn off k most : Nat) :
    (!m.bar2Up fn || k == 0 || decide (most < k) || decide (2 ^ 36 < off + k)) = true ↔ ¬ m.bar2Up fn = true ∨ ¬ Bar2Fits off k most := by
  unfold Bar2Fits
  cases m.bar2Up fn <;> simp
  omega

theorem bar2Read_outside {m : Module} {fn off k : Nat} (h : ¬ m.bar2Up fn = true ∨ ¬ Bar2Fits off k 4096) : bar2Read fn off k m = m := by
  rw [bar2Read, if_pos ((bar2_outside_iff m fn off k 4096).mpr h)]

theorem bar2Write_outside {m : Module} {fn off : Nat} {data : List Byte} (h : ¬ m.bar2Up fn = true ∨ ¬ Bar2Fits off data.length 512) :
    bar2Write fn off data m = m := by
  simp only [bar2Write, if_pos ((bar2_outside_iff m fn off data.length 512).mpr h)]

/-- What a TLP that is answered does besides its read or write: it looks up the walks, and charges at most one violation. -/
def Module.bar2Walked (m : Module) (fn va k : Nat) : Module := (m.barAccess fn).askWalks (bar2Who fn) va k

section
variable {m : Module} (hw : m.inW0) {fn : Nat} (hf : fn < 64) {off va : Nat} (hu : m.bar2Up fn = true) (hv : m.bar2Va fn off = va)
include hw hf hu hv

/-- A read within its limits, by what the context translates before it (log 57). -/
theorem bar2Read_inside {k : Nat} (hk : Bar2Fits off k 4096) :
    bar2Read fn off k m =
      if m.bar2Fails fn va k .load then ((m.barAccess fn).b2Fail fn va).emit (.readData (2 ^ (8 * k) - 1))
      else if m.rangeHeld fn va k .load then m
      else
        let l := m.bar2Xlat fn va k .load
        let r := (((m.bar2Walked fn va k).touchRange (bar2Who fn) l).bar2Viol fn va (violsIn l)).bar2Bytes l
        r.1.emit (.readData (leVal r.2)) := by
  have n := Module.barAccess_noted hw fn
  have out : ¬ (¬ m.bar2Up fn = true ∨ ¬ Bar2Fits off k 4096) := fun h => h.elim (fun h => h hu) (fun h => h hk)
  have held := n.rangeHeld ((Module.barAccess_quiet hw fn).same 0).ms fn va k .load
  rw [bar2Read, if_neg (mt (bar2_outside_iff m fn off k 4096).mp out)]
  dsimp only
  rw [n.bar2Va hf, hv, n.bar2Xlat, n.ctxLive hf, held]
  rfl

/-- A write within its limits. -/
theorem bar2Write_inside {data : List Byte} (hk : Bar2Fits off data.length 512) :
    bar2Write fn off data m =
      if m.bar2Fails fn va data.length .store then (m.barAccess fn).b2Fail fn va
      else if m.rangeHeld fn va data.length .store then m
      else
        let l := m.bar2Xlat fn va data.length .store
        ((m.bar2Walked fn va data.length).writeRange (bar2Who fn) l data).bar2Viol fn va (violsIn l) := by
  have n := Module.barAccess_noted hw fn
  have out : ¬ (¬ m.bar2Up fn = true ∨ ¬ Bar2Fits off data.length 512) := fun h => h.elim (fun h => h hu) (fun h => h hk)
  have held := n.rangeHeld ((Module.barAccess_quiet hw fn).same 0).ms fn va data.length .store
  rw [bar2Write, if_neg (mt (bar2_outside_iff m fn off data.length 512).mp out)]
  dsimp only
  rw [n.bar2Va hf, hv, n.bar2Xlat, n.ctxLive hf, held]
  rfl

end

/-! ### What the outcomes change -/

def b2Keys (fn : Nat) : List Nat := [(Reg.HIF_B2ERR.count fn).key, (Reg.HIF_B2ERR.va fn).key]

/-- One failed TLP is counted in HIF_B2ERR with its address (22 R516). -/
def B2Err (m m' : Module) (fn va : Nat) : Prop :=
  m'.getF (Reg.HIF_B2ERR.count fn) = (m.getF (Reg.HIF_B2ERR.count fn) + 1) % 2 ^ 16 ∧ m'.getF (Reg.HIF_B2ERR.va fn) = va % 2 ^ 48

theorem Module.b2Fail_counts {m x : Module} (h : SameFields m x) {fn : Nat} (hf : fn < 64) (va : Nat) : B2Err m (x.b2Fail fn va) fn va := by
  refine ⟨?_, Module.getF_setF_self _ _ _⟩
  rw [Module.b2Fail, Module.getF_setF_ne, Module.addF, Module.getF_setF_self, h.page]
  · rfl
  all_goals simp only [Fld.key, Reg.HIF_B2ERR.count, Reg.HIF_B2ERR.va]; omega

theorem Module.b2Fail_steady (m : Module) (fn va : Nat) : Steady (b2Keys fn) m (m.b2Fail fn va) :=
  (Steady.setF m _ _ (by simp [b2Keys])).trans (Steady.setF _ _ _ (by simp [b2Keys]))

/-- Whether a TLP is charged with a violation: it is when one of its pieces is denied, and never more than once. -/
def Judged (m m' : Module) (fn va : Nat) (viol : Bool) : Prop :=
  if viol then Violates m m' fn 4 va else m'.getF (Reg.HIF_VIOL.count fn) = m.getF (Reg.HIF_VIOL.count fn)

section
variable {m x : Module} (h : SameFields m x) (hw : m.inW0) {fn : Nat} (hf : fn < 64) (va : Nat) (viol : Bool)
include h hw hf

theorem Module.bar2Viol_judged : Judged m (x.bar2Viol fn va viol) fn va viol := by
  cases viol with
  | false => exact h.page (by simp only [Fld.key, Reg.HIF_VIOL.count]; omega)
  | true =>
    exact (x.violate_violates fn 4 va (by decide)).counted hf h
      (Module.count_noted (Module.violate_inW0 (h.inW0 hw) hf 4 va) pmcHost 4 1 _ (by decide)).getF

/-- Charging a violation changes no byte and no mark. -/
theorem Module.bar2Viol_memory : SameBytes x (x.bar2Viol fn va viol) ∧
    ∀ p n, (x.bar2Viol fn va viol).readPlace p n = x.readPlace p n ∧ (x.bar2Viol fn va viol).badPlace p n = x.badPlace p n := by
  cases viol with
  | false => exact ⟨⟨fun _ => rfl, rfl⟩, fun _ _ => ⟨rfl, rfl⟩⟩
  | true =>
    have counted : Noted (x.violate fn 4 va) (x.bar2Viol fn va true) :=
      Module.count_noted (Module.violate_inW0 (h.inW0 hw) hf 4 va) pmcHost 4 1 _ (by decide)
    have link : (x.violate fn 4 va).linkUp = x.linkUp := by
      unfold Module.linkUp
      rw [Module.violate, Module.getF_setF_ne, Module.getF_setF_ne, Module.addF, Module.getF_setF_ne]
      all_goals simp only [Fld.key, Reg.HIF_LINK.state, Reg.HIF_VIOL.count, Reg.HIF_VLOG.unit, Reg.HIF_VLOG.address]; omega
    refine ⟨counted.sameBytes, fun p n => ?_⟩
    rw [counted.readPlace, counted.badPlace]
    cases p with
    | host a => exact ⟨rfl, by rw [Module.badPlace, Module.badPlace, link]⟩
    | _ => exact ⟨rfl, rfl⟩

end

/-- The bytes of pieces none of which is bad: those of the range. -/
theorem Module.bar2Bytes_good (m : Module) (l : List ((Nat × Nat) × Xlat)) (h : m.anyBad l = false) : m.bar2Bytes l = (m, m.rangeBytes l) := by
  induction l using List.reverseRecOn with
  | nil => rfl
  | append_singleton l x ih =>
    simp only [Module.anyBad, List.any_append, Bool.or_eq_false_iff, List.any_cons, List.any_nil, Bool.or_false] at h ih
    have hl := ih h.1
    simp only [Module.bar2Bytes] at hl
    simp only [Module.bar2Bytes, List.foldl_append, hl, List.foldl_cons, List.foldl_nil, Module.rangeBytes, List.flatMap_append,
      List.flatMap_cons, List.flatMap_nil, List.append_nil]
    cases hx : x.2 with
    | ok p lc => simp only [hx] at h; simp [h.2]
    | viol => rfl
    | fault c => rfl

theorem Module.rangeBytes_congr {m m' : Module} (h : ∀ p n, m'.readPlace p n = m.readPlace p n) (l : List ((Nat × Nat) × Xlat)) :
    m'.rangeBytes l = m.rangeBytes l := by
  unfold Module.rangeBytes
  congr 1
  funext x
  cases x.2 <;> simp only [h]

theorem Module.anyBad_congr {m m' : Module} (h : ∀ p n, m'.badPlace p n = m.badPlace p n) (l : List ((Nat × Nat) × Xlat)) :
    m'.anyBad l = m.anyBad l := by
  unfold Module.anyBad
  congr 1
  funext x
  cases x.2 <;> simp only [h]

theorem Module.bar2Walked_noted {m : Module} (hw : m.inW0) (fn va k : Nat) : Noted m (m.bar2Walked fn va k) :=
  have n := Module.barAccess_noted hw fn
  n.trans (Module.askPieces_noted (n.inW0 hw) _ _)

/-- The pieces of a TLP follow one another over its bytes. -/
theorem Module.chained_bar2Xlat (m : Module) (fn va k : Nat) (acc : Access) (hk : 1 ≤ k) :
    Chained va ((m.bar2Xlat fn va k acc).map Prod.fst) (va + k) := by
  have fst : (m.bar2Xlat fn va k acc).map Prod.fst = pieces va k := by
    simp only [Module.bar2Xlat, Module.xlatRange, List.map_map]
    conv_rhs => rw [← List.map_id (pieces va k)]
    congr 1
    funext q
    simp only [Function.comp]
    split <;> rfl
  rw [fst]
  exact chained_pieces va k hk

/-! ### The outcomes -/

section
variable {m : Module} (hw : m.inW0) {fn : Nat} (hf : fn < 64) {off va : Nat} (hu : m.bar2Up fn = true) (hv : m.bar2Va fn off = va)
include hw hf hu hv

section
variable {k : Nat} (hk : Bar2Fits off k 4096)
include hk

/-- A read that fails outright answers ones and is counted. -/
theorem bar2Read_failed (h : m.bar2Fails fn va k .load = true) :
    (B2Err m (bar2Read fn off k m) fn va ∧ Output.readData (2 ^ (8 * k) - 1) ∈ (bar2Read fn off k m).out) ∧
      Steady (b2Keys fn) m (bar2Read fn off k m) := by
  rw [bar2Read_inside hw hf hu hv hk, if_pos h]
  exact ⟨⟨Module.b2Fail_counts (Module.barAccess_noted hw fn).getF hf va, List.mem_append_right _ List.mem_cons_self⟩,
    ((Module.barAccess_quiet hw fn).steady _).trans ((Module.b2Fail_steady _ fn va).trans ((Quiet.emit _ _).steady _))⟩

theorem bar2Read_waits (h : m.bar2Fails fn va k .load = false) (held : m.rangeHeld fn va k .load = true) : bar2Read fn off k m = m := by
  rw [bar2Read_inside hw hf hu hv hk, h, held]
  rfl

/-- A read that is answered gives the bytes of its range. -/
theorem bar2Read_answered (h : m.bar2Fails fn va k .load = false) (held : m.rangeHeld fn va k .load = false)
    (good : m.anyBad (m.bar2Xlat fn va k .load) = false) :
    Output.readData (leVal (m.rangeBytes (m.bar2Xlat fn va k .load))) ∈ (bar2Read fn off k m).out ∧ SameBytes m (bar2Read fn off k m) ∧
      Judged m (bar2Read fn off k m) fn va (violsIn (m.bar2Xlat fn va k .load)) := by
  rw [bar2Read_inside hw hf hu hv hk, h, held]
  generalize m.bar2Xlat fn va k .load = l at *
  have walked := Module.bar2Walked_noted hw fn va k
  have asked : Noted m ((m.bar2Walked fn va k).touchRange (bar2Who fn) l) := walked.trans (Module.askPieces_noted (walked.inW0 hw) _ _)
  obtain ⟨bytes, places⟩ := Module.bar2Viol_memory asked.getF hw hf va (violsIn l)
  have judged := Module.bar2Viol_judged asked.getF hw hf va (violsIn l)
  have got := Module.bar2Bytes_good _ l ((Module.anyBad_congr (fun p n => (places p n).2.trans (asked.badPlace p n)) l).trans good)
  rw [Module.rangeBytes_congr (fun p n => (places p n).1.trans (asked.readPlace p n))] at got
  simp only [Bool.false_eq_true, if_false, got]
  exact ⟨List.mem_append_right _ List.mem_cons_self, ⟨fun c => (bytes.1 c).trans (asked.sameBytes.1 c), bytes.2.trans asked.sameBytes.2⟩, judged⟩

end

section
variable {data : List Byte} (hk : Bar2Fits off data.length 512)
include hk

/-- A write that fails outright is dropped and counted. -/
theorem bar2Write_failed (h : m.bar2Fails fn va data.length .store = true) :
    B2Err m (bar2Write fn off data m) fn va ∧ Steady (b2Keys fn) m (bar2Write fn off data m) := by
  rw [bar2Write_inside hw hf hu hv hk, if_pos h]
  exact ⟨Module.b2Fail_counts (Module.barAccess_noted hw fn).getF hf va,
    ((Module.barAccess_quiet hw fn).steady _).trans (Module.b2Fail_steady _ fn va)⟩

theorem bar2Write_waits (h : m.bar2Fails fn va data.length .store = false) (held : m.rangeHeld fn va data.length .store = true) :
    bar2Write fn off data m = m := by
  rw [bar2Write_inside hw hf hu hv hk, h, held]
  rfl

variable (h : m.bar2Fails fn va data.length .store = false) (held : m.rangeHeld fn va data.length .store = false)
include h held

/-- A write whose pieces all translate stores its bytes in order. -/
theorem bar2Write_stored {p : Place} (hp : ∀ x ∈ m.bar2Xlat fn va data.length .store, ∃ lc, x.2 = .ok (p.plus (x.1.1 - va)) lc) :
    StoresAt m (bar2Write fn off data m) p data.length (leVal data) ∧
      Judged m (bar2Write fn off data m) fn va (violsIn (m.bar2Xlat fn va data.length .store)) := by
  have chained := m.chained_bar2Xlat fn va data.length .store hk.1
  rw [bar2Write_inside hw hf hu hv hk, h, held]
  generalize m.bar2Xlat fn va data.length .store = l at *
  have walked := Module.bar2Walked_noted hw fn va data.length
  obtain ⟨stored, fields⟩ := Module.writeRange_stores (walked.inW0 hw) (bar2Who fn) p va l data chained hp
  have same : SameFields m ((m.bar2Walked fn va data.length).writeRange (bar2Who fn) l data) := walked.getF.trans fields
  exact ⟨(stored.after walked.sameBytes walked.linkUp).before (Module.bar2Viol_memory same hw hf va _).1,
    Module.bar2Viol_judged same hw hf va _⟩

/-- A write all of whose pieces are denied stores nothing and is one violation of unit 4. -/
theorem bar2Write_denied (hd : ∀ x ∈ m.bar2Xlat fn va data.length .store, x.2 = .viol) :
    SameBytes m (bar2Write fn off data m) ∧ Violates m (bar2Write fn off data m) fn 4 va := by
  have chained := m.chained_bar2Xlat fn va data.length .store hk.1
  rw [bar2Write_inside hw hf hu hv hk, h, held]
  generalize m.bar2Xlat fn va data.length .store = l at *
  have walked := Module.bar2Walked_noted hw fn va data.length
  have viol : violsIn l = true := by
    cases l with
    | nil =>
      have := hk.1
      simp only [List.map_nil, Chained] at chained
      omega
    | cons x t => simp [violsIn, hd x List.mem_cons_self]
  have bytes := (Module.bar2Viol_memory walked.getF hw hf va (violsIn l)).1
  have judged := Module.bar2Viol_judged walked.getF hw hf va (violsIn l)
  simp only [Bool.false_eq_true, if_false, Module.writeRange_denied _ _ l data hd]
  rw [viol] at judged bytes ⊢
  exact ⟨⟨fun c => (bytes.1 c).trans (walked.sameBytes.1 c), bytes.2.trans walked.sameBytes.2⟩, judged⟩

end
end

end Sys2Proof.Machine
end

section
/-! PROOFS of the scope family, sixth part: what a BAR0 access of a requester reaches (00 R6-R8; 22 R514, R529, R530). -/

namespace Sys2Proof.Machine

theorem exec_registerWrite (t : RegTarget) (v : Word) (s : State) :
    exec (.registerWrite t v) s = .next { s with m := s.m.fresh.whenOpen (registerWrite t v.toNat) } := rfl

theorem exec_bar0Read (r : Requester) (off : BitVec 26) (size : BitVec 13) (s : State) :
    exec (.bar0ReadViolation r off size) s = .next { s with m := bar0ReadViolation r off.toNat size.toNat s.m.fresh } := rfl

/-- A command that may have to wait for a held channel, and does not ask to: what it does from either value of `retry`. -/
theorem Module.whenOpen_of (m : Module) (f : Module → Module) (p : Module → Prop)
    (h : ∀ b, (f { m with retry := b }).retry = b ∧ p (f { m with retry := b })) : p (m.whenOpen f) := by
  unfold Module.whenOpen
  split
  · exact (h m.retry).2
  · dsimp only
    rw [(h false).1]
    exact (h false).2

theorem registerWrite_completes {t : RegTarget} {v : Word} {s : State} {p : Module → Prop}
    (h : ∀ b, (registerWrite t v.toNat (s.start b)).retry = b ∧ p (registerWrite t v.toNat (s.start b))) :
    Completes (.registerWrite t v) s p :=
  Completes.of_exec (exec_registerWrite t v s) (s.m.fresh.whenOpen_of _ p h)

theorem registerWrite_effect {t : RegTarget} {v : Word} {s : State} {ks : List Nat} {p : Module → Prop}
    (h : ∀ b, (registerWrite t v.toNat (s.start b)).retry = b ∧ p (registerWrite t v.toNat (s.start b)) ∧
      Steady ks (s.start b) (registerWrite t v.toNat (s.start b))) : Effect (.registerWrite t v) s ks [] p :=
  registerWrite_completes (fun b => ⟨(h b).1, (h b).2.1, (((s.start_quiet b).steady ks).trans (h b).2.2).changes⟩)

/-! ### Where an access lands -/

/-- An access that breaks the rules of 00 R7, R8 or reaches what the requester may not (22 R514). -/
def barWrong (r : Requester) (off size : Nat) : Prop := barAligned off size = false ∨ barPlace r off = .denied

theorem barAligned_eight {off size : Nat} (h : barAligned off size = true) : size = 4 ∨ size = 8 ∧ off % 8 = 0 := by
  simp only [barAligned, Bool.and_eq_true, Bool.or_eq_true, beq_iff_eq] at h
  obtain ⟨rfl | rfl, ho⟩ := h
  · exact .inl rfl
  · exact .inr ⟨rfl, ho⟩

/-- A virtual function's view keeps the place of a byte in its register. -/
theorem barPlace_reg_mod {r : Requester} {off x : Nat} (h : barPlace r off = .reg x) : x % 8 = off % 8 := by
  cases r with
  | vf k =>
    simp only [barPlace] at h
    split at h
    · cases h; omega
    · split at h
      · cases h
      · split at h
        · cases h; omega
        · cases h
  | _ =>
    simp only [barPlace] at h
    split at h
    · cases h
    · split at h
      · cases h; rfl
      · cases h

/-- The registers of BAR0, for a requester that is no virtual function. -/
theorem barPlace_reg {r : Requester} (hr : ∀ n, r ≠ .vf n) {off : Nat} (h : off < 0x80000 ∨ 0x100000 ≤ off) (ht : off < 0x3800000) :
    barPlace r off = .reg off := by
  cases r with
  | vf n => exact absurd rfl (hr n)
  | _ => simp only [barPlace, if_neg (show ¬ (0x80000 ≤ off ∧ off < 0x100000) by omega), if_pos ht]

/-- The register that a write reaches is the one that holds its first byte. -/
theorem regW_off {x size : Nat} (v : Nat) (h : size = 4 ∨ size = 8 ∧ x % 8 = 0) : (regW x size v).off = x / 8 * 8 := by
  unfold regW
  split
  · simp only; omega
  · split <;> simp only; omega

/-! ### The outcomes of an access -/

section
variable {m : Module} {r : Requester} {off size : Nat}

theorem barWrite_unreached (hr : m.reaches r = false) (v : Nat) : barWrite r off size v m = m := by simp [barWrite, hr]

theorem bar0Read_unreached (hr : m.reaches r = false) : bar0ReadViolation r off size m = m := by simp [bar0ReadViolation, hr]

variable (hr : m.reaches r = true) (hw : m.inW0) (hrec : m.recovery = false)
include hw hrec

/-- Outside ROM recovery every access is answered (21 R489). -/
theorem Module.access_answered (off : Nat) : (m.access r).unanswered r off = false := by
  simp [Module.unanswered, (Module.access_noted hw r).recovery, hrec]

include hr

theorem barWrite_wrong (h : barWrong r off size) (v : Nat) : barWrite r off size v m = (m.access r).accessViolation r 3 off := by
  simp only [barWrite, hr, Module.access_answered hw hrec]
  rcases h with h | h <;> simp [h]

theorem bar0Read_wrong (h : barWrong r off size) :
    bar0ReadViolation r off size m = ((m.access r).accessViolation r 3 off).emit (.readData 0) := by
  simp only [bar0ReadViolation, hr, Module.access_answered hw hrec]
  rcases h with h | h <;> simp [h]

theorem barWrite_reg (ha : barAligned off size = true) {x : Nat} (hp : barPlace r off = .reg x) (v : Nat) :
    barWrite r off size v m = ((m.access r).writeReg r (regW x size v)).keepSet (m.hwSet r (x / 8 * 8)) := by
  simp [barWrite, hr, Module.access_answered hw hrec, ha, hp]

theorem barWrite_nothing (ha : barAligned off size = true) (hp : barPlace r off = .nothing) (v : Nat) :
    barWrite r off size v m = m.access r := by
  simp [barWrite, hr, Module.access_answered hw hrec, ha, hp]

theorem bar0Read_reg (ha : barAligned off size = true) {x : Nat} (hp : barPlace r off = .reg x) :
    bar0ReadViolation r off size m = (m.access r).readAt r off x size := by
  simp [bar0ReadViolation, hr, Module.access_answered hw hrec, ha, hp]

/-- A read that breaks no rule and has no side effect answers what the offset holds (log 76). -/
theorem bar0Read_plain (h : ¬ barWrong r off size) (hn : ∀ x, barPlace r off = .reg x → Module.readEffect r (x / 8 * 8) = none) :
    bar0ReadViolation r off size m = (m.access r).emit (.readData ((m.access r).barRead r off size)) := by
  have ha : barAligned off size = true := by
    cases e : barAligned off size with
    | false => exact absurd (.inl e) h
    | true => rfl
  cases hp : barPlace r off with
  | reg x => rw [bar0Read_reg hr hw hrec ha hp, Module.readAt, hn x hp]
  | denied => exact absurd (.inr hp) h
  | nothing => simp [bar0ReadViolation, hr, Module.access_answered hw hrec, ha, hp]
  | msix fn o => simp [bar0ReadViolation, hr, Module.access_answered hw hrec, ha, hp]

end

/-! ### Offsets that no table lists -/

theorem Noted.fieldsAt {m m' : Module} (h : Noted m m') (off : Nat) : m'.fieldsAt off = m.fieldsAt off := by
  rw [Module.fieldsAt, Module.fieldsAt, h.getF Reg.PMC_SEL.index rfl]

/-- A write to an offset that no table lists is ignored (00 R6). -/
theorem barWrite_unlisted {m : Module} {r : Requester} {off size : Nat} (hr : m.reaches r = true) (hw : m.inW0) (hrec : m.recovery = false)
    (h : ¬ barWrong r off size) (hn : barPlace r off = .nothing ∨ ∃ x, barPlace r off = .reg x ∧ m.fieldsAt (x / 8 * 8) = []) (v : Nat) :
    barWrite r off size v m = m.access r := by
  have ha : barAligned off size = true := by
    cases e : barAligned off size with
    | false => exact absurd (.inl e) h
    | true => rfl
  rcases hn with hp | ⟨x, hp, hx⟩
  · exact barWrite_nothing hr hw hrec ha hp v
  · have hoff := regW_off v ((barAligned_eight ha).imp_right (fun h8 => ⟨h8.1, (barPlace_reg_mod hp).trans h8.2⟩) : size = 4 ∨ size = 8 ∧ x % 8 = 0)
    rw [barWrite_reg hr hw hrec ha hp, Module.writeReg, hoff, (Module.access_noted hw r).fieldsAt, Module.hwSet, hx]
    rfl

end Sys2Proof.Machine
end

section
/-! PROOFS of the scope family, seventh part: writes to registers whose fields have no effect of their own (00 R7, R9, R13). -/

namespace Sys2Proof.Machine

/-! ### Writing one field -/

/-- Nothing differs but register fields and the sections of the Thermos that keep them. -/
def RegsOnly (m m' : Module) : Prop := ∃ fields lmp, m' = { m with fields := fields, lmp := lmp }

theorem RegsOnly.refl (m : Module) : RegsOnly m m := ⟨m.fields, m.lmp, rfl⟩

theorem RegsOnly.trans {a b c : Module} (h : RegsOnly a b) (g : RegsOnly b c) : RegsOnly a c := by
  obtain ⟨_, _, rfl⟩ := h
  obtain ⟨F, l, rfl⟩ := g
  exact ⟨F, l, rfl⟩

theorem RegsOnly.ite {m a b : Module} (c : Prop) [Decidable c] (ha : RegsOnly m a) (hb : RegsOnly m b) : RegsOnly m (if c then a else b) := by
  split
  · exact ha
  · exact hb

theorem RegsOnly.setF (m : Module) (f : Fld) (v : Nat) : RegsOnly m (m.setF f v) := ⟨(m.setF f v).fields, m.lmp, rfl⟩

theorem RegsOnly.setRet (m : Module) (f : Fld) (v : Nat) : RegsOnly m (m.setRet f v) :=
  RegsOnly.ite _ (RegsOnly.setF m f v) ⟨_, _, rfl⟩

theorem RegsOnly.writeField (m : Module) (w : RegW) (f : Fld) : RegsOnly m (m.writeField w f) := by
  unfold Module.writeField
  refine RegsOnly.ite _ (RegsOnly.refl m) ?_
  cases f.acc with
  | ro => exact RegsOnly.refl m
  | wo => exact RegsOnly.setF m f _
  | rw => exact RegsOnly.ite _ (RegsOnly.refl m) (RegsOnly.setRet m f _)
  | w1s => exact RegsOnly.ite _ (RegsOnly.setF m f 1) (RegsOnly.refl m)
  | w1c =>
    exact RegsOnly.ite _ (RegsOnly.ite _ ((RegsOnly.setF m f _).trans (RegsOnly.setF _ _ 0)) (RegsOnly.setF m _ _))
      (RegsOnly.ite _ (RegsOnly.setF m f 0) (RegsOnly.refl m))

theorem Module.getF_setRet_ne (m : Module) (f g : Fld) (v : Nat) (h : g.key ≠ f.key) (hp : g.key ≠ Reg.LMP_THERMOS.pending.key) :
    (m.setRet f v).getF g = m.getF g := by
  unfold Module.setRet
  split
  · exact m.getF_setF_ne f g v h
  · exact ((m.setF f v).getF_setF_ne Reg.LMP_THERMOS.pending g 1 hp).trans (m.getF_setF_ne f g v h)

theorem Module.getF_setRet_self (m : Module) (f : Fld) (v : Nat) (hp : f.key ≠ Reg.LMP_THERMOS.pending.key) :
    (m.setRet f v).getF f = v % 2 ^ f.width := by
  unfold Module.setRet
  split
  · exact m.getF_setF_self f v
  · exact ((m.setF f v).getF_setF_ne Reg.LMP_THERMOS.pending f 1 hp).trans (m.getF_setF_self f v)

/-- Writing a field outside PMC_OVF leaves the other fields alone, but the mark that a mirror is due (21 R499). -/
theorem Module.getF_writeField_ne (m : Module) (w : RegW) (f g : Fld) (hf : f.inFamily 0x300100 5 = false) (h : g.key ≠ f.key)
    (hp : g.key ≠ Reg.LMP_THERMOS.pending.key) : (m.writeField w f).getF g = m.getF g := by
  have set : ∀ v, (m.setF f v).getF g = m.getF g := fun v => m.getF_setF_ne f g v h
  unfold Module.writeField
  split
  · rfl
  · cases f.acc with
    | ro => rfl
    | wo => exact set _
    | rw => dsimp only; split; exacts [rfl, m.getF_setRet_ne f g _ h hp]
    | w1s => dsimp only; split; exacts [set 1, rfl]
    | w1c => simp only [hf, Bool.false_eq_true, if_false]; split; exacts [set 0, rfl]

/-! ### Writing the fields of a register -/

/-- The fields of a register after a write to it. -/
def Module.writeFields (m : Module) (w : RegW) (fs : List Fld) : Module := fs.foldl (fun m f => m.writeField w f) m

theorem RegsOnly.writeFields (w : RegW) (fs : List Fld) (m : Module) : RegsOnly m (m.writeFields w fs) :=
  List.foldlRecOn (motive := fun x => RegsOnly m x) fs _ (RegsOnly.refl m) (fun _ hx f _ => hx.trans (RegsOnly.writeField _ w f))

/-- Fields of one register: they lie at different places, and none is of PMC_OVF or marks a mirror. -/
def Listed (fs : List Fld) : Prop :=
  (fs.map Fld.key).Nodup ∧ ∀ f ∈ fs, f.inFamily 0x300100 5 = false ∧ f.key ≠ Reg.LMP_THERMOS.pending.key

theorem Module.getF_writeFields_ne (w : RegW) (g : Fld) (hp : g.key ≠ Reg.LMP_THERMOS.pending.key) (fs : List Fld)
    (h : ∀ f ∈ fs, f.inFamily 0x300100 5 = false ∧ g.key ≠ f.key) (m : Module) : (m.writeFields w fs).getF g = m.getF g := by
  induction fs generalizing m with
  | nil => rfl
  | cons f t ih =>
    obtain ⟨hf, hk⟩ := h f List.mem_cons_self
    exact (ih (fun x hx => h x (List.mem_cons_of_mem _ hx)) (m.writeField w f)).trans (m.getF_writeField_ne w f g hf hk hp)

/-- A write reaches each field of its register once: from the value that the field had. -/
theorem Module.getF_writeFields (w : RegW) (f : Fld) (fs : List Fld) (hl : Listed fs) (hf : f ∈ fs) (m : Module) :
    ∃ x : Module, x.getF f = m.getF f ∧ (m.writeFields w fs).getF f = (x.writeField w f).getF f := by
  induction fs generalizing m with
  | nil => cases hf
  | cons g t ih =>
    obtain ⟨hd, hl⟩ := hl
    obtain ⟨hg, ht⟩ := List.nodup_cons.mp hd
    have rest : Listed t := ⟨ht, fun x hx => hl x (List.mem_cons_of_mem _ hx)⟩
    have hp := (hl f hf).2
    rcases List.mem_cons.mp hf with rfl | hm
    · exact ⟨m, rfl, Module.getF_writeFields_ne w f hp t (fun x hx => ⟨(rest.2 x hx).1, fun e => hg (e ▸ List.mem_map_of_mem hx)⟩) _⟩
    · obtain ⟨x, hx, he⟩ := ih rest hm (m.writeField w g)
      have hne : f.key ≠ g.key := fun e => hg (e ▸ List.mem_map_of_mem hm)
      exact ⟨x, hx.trans (m.getF_writeField_ne w g f (hl g List.mem_cons_self).1 hne hp), he⟩

/-! ### Registers without an effect of their own -/

/-- The registers at which the rules of the fields are shown. -/
def plainRegs : List Nat :=
  [Reg.FAB_CP_TMO.ticks.reg, Reg.FAB_CP_DRAIN.ticks.reg, Reg.PWR_DWELL.w4.reg, Reg.PMC_SEL.index.reg, Reg.FAB_RT_ADDR.index.reg,
    Reg.HMP_RS_ADDR.index.reg, Reg.PWR_TIMER.atTick.reg, (Reg.FAB_CP_ST.base 3).reg, Reg.FAB_LOST.valid.reg, Reg.MEM_CARVE.pending.reg]

theorem plainRegs_place : ∀ q ∈ plainRegs, 0x100000 ≤ q ∧ q + 8 ≤ 0x3800000 ∧ q % 8 = 0 := by decide

theorem plainRegs_listed : ∀ q ∈ plainRegs, Listed (regFieldsAt q) ∧ regFieldsAt q ≠ [] ∧ ∀ f ∈ regFieldsAt q, countedKey f.key = false := by
  unfold Listed
  decide +kernel

/-- Of their fields only FAB_LOST.valid is W1C. -/
theorem plainRegs_w1c : ∀ q ∈ plainRegs, (regFieldsAt q).filter (fun f => f.acc == .w1c) = [] ∨
    (regFieldsAt q).filter (fun f => f.acc == .w1c) = [Reg.FAB_LOST.valid] := by decide +kernel

theorem plainRegs_fieldsAt (m : Module) {q : Nat} (hq : q ∈ plainRegs) : m.fieldsAt q = regFieldsAt q := by
  have h : ∀ q ∈ plainRegs, ¬ (q = 0x300030 ∨ q = 0x300038 ∨ q = 0x300040) := by decide
  rw [Module.fieldsAt, if_neg (h q hq)]

theorem RegW.fires_elsewhere {w : RegW} {f : Fld} (h : f.reg ≠ w.off) : w.fires f = false := by simp [RegW.fires, h]

theorem RegW.one_elsewhere {w : RegW} {f : Fld} (h : f.reg ≠ w.off) : w.one f = false := by simp [RegW.one, RegW.fires_elsewhere h]

/-- The registers of FAB that have an effect: FAB_CTRL, FAB_QUAD, FAB_RT_DATA, FAB_DECLARE and FAB_PSTAT (13 R338). -/
theorem Module.fabEffect_none (m : Module) (w : RegW) (h : w.off ∉ [0x1000008, 0x1000018, 0x1000028, 0x1000040])
    (hp : w.off < 0x1000100 ∨ 0x1000180 ≤ w.off) : m.fabEffect w = m := by
  simp only [List.mem_cons, List.not_mem_nil, or_false, not_or] at h
  obtain ⟨h1, h2, h3, h4⟩ := h
  have port : (Reg.FAB_PSTAT.port_en ((w.off - 0x1000100) / 8 % 16)).reg ≠ w.off := by simp only [Reg.FAB_PSTAT.port_en]; omega
  simp [Module.fabEffect, RegW.fires_elsewhere (f := Reg.FAB_CTRL.enable) (Ne.symm h1), RegW.one_elsewhere (f := Reg.FAB_QUAD.beat) (Ne.symm h2),
    show w.off ≠ Reg.FAB_RT_DATA.entry.reg from h3, RegW.one_elsewhere (f := Reg.FAB_DECLARE.go) (Ne.symm h4), RegW.fires_elsewhere port]

/-- HMP_RS_ADDR only selects an entry (11 R266). -/
theorem Module.hmpEffect_rsAddr (m : Module) (w : RegW) (h : w.off = Reg.HMP_RS_ADDR.index.reg) : m.hmpEffect w = m := by
  have elsewhere : ∀ f : Fld, f.reg ≠ Reg.HMP_RS_ADDR.index.reg → w.fires f = false := fun f hf => RegW.fires_elsewhere (h ▸ hf)
  unfold Module.hmpEffect
  simp only [h, elsewhere Reg.HMP_RESUME.core (by decide), elsewhere Reg.HMP_FPTR.tail (by decide), elsewhere Reg.HMP_CTRL.accept (by decide),
    elsewhere Reg.HMP_FLSUB.va (by decide)]
  rfl

/-- A write to one of these registers has no effect beyond its fields. -/
theorem plainRegs_effect (m : Module) (r : Requester) (w : RegW) (hq : w.off ∈ plainRegs) : m.regEffect r w = m := by
  have blocks : ∀ q ∈ plainRegs,
      (0x1000000 ≤ q ∧ q < 0x1800000 ∧ q ∉ [0x1000008, 0x1000018, 0x1000028, 0x1000040] ∧ (q < 0x1000100 ∨ 0x1000180 ≤ q)) ∨
      q = Reg.HMP_RS_ADDR.index.reg ∨
      q ∈ [Reg.PWR_DWELL.w4.reg, Reg.PWR_TIMER.atTick.reg, Reg.PMC_SEL.index.reg, Reg.MEM_CARVE.pending.reg] := by decide
  rcases blocks w.off hq with ⟨lo, hi, h, hp⟩ | h | h
  · rw [Module.regEffect, if_neg (by omega), if_neg (by omega), if_neg (by omega), if_neg (by omega), if_neg (by omega), if_neg (by omega),
      if_pos hi, Module.fabEffect_none m w h hp]
  · have hn : w.off = 0x1800020 := h
    rw [Module.regEffect, if_neg (by omega), if_neg (by omega), if_neg (by omega), if_neg (by omega), if_neg (by omega), if_neg (by omega),
      if_neg (by omega), if_pos (by omega), Module.hmpEffect_rsAddr m w h]
  · obtain ⟨q, lo, hi, d⟩ := w
    simp only [List.mem_cons, List.not_mem_nil, or_false] at h
    rcases h with rfl | rfl | rfl | rfl <;> rfl

/-- An access sets no W1C field of these registers (00 R10). -/
theorem plainRegs_hwSet {m : Module} (hw : m.inW0) (r : Requester) {q : Nat} (hq : q ∈ plainRegs) : m.hwSet r q = [] := by
  unfold Module.hwSet
  rw [plainRegs_fieldsAt m hq]
  rcases plainRegs_w1c q hq with h | h
  · rw [h]; rfl
  · have cleared : (m.setF Reg.FAB_LOST.valid 0).inW0 :=
      ⟨(m.getF_setF_ne _ _ 0 (by decide)).trans hw.1, (m.getF_setF_ne _ _ 0 (by decide)).trans hw.2⟩
    have zero : ((m.setF Reg.FAB_LOST.valid 0).access r).getF Reg.FAB_LOST.valid = 0 := by
      rw [(Module.access_noted cleared r).getF _ rfl, Module.getF_setF_self]; rfl
    rw [h]
    simp [Module.each, zero]

/-- What a write to such a register does: it reaches each of its fields once, and leaves memory and threads alone. -/
structure Written (m m' : Module) (w : RegW) : Prop where
  bytes : SameBytes m m'
  threads : m'.threads = m.threads
  field : ∀ f ∈ regFieldsAt w.off, ∃ x : Module, x.getF f = m.getF f ∧ m'.getF f = (x.writeField w f).getF f

theorem barWrite_written {m : Module} {r : Requester} {off size : Nat} (hr : m.reaches r = true) (hw : m.inW0) (hrec : m.recovery = false)
    (ha : barAligned off size = true) (hp : barPlace r off = .reg off) (v : Nat) (hq : off / 8 * 8 ∈ plainRegs) :
    (barWrite r off size v m).retry = m.retry ∧ Written m (barWrite r off size v m) (regW off size v) := by
  have hoff : (regW off size v).off = off / 8 * 8 := regW_off v (barAligned_eight ha)
  obtain ⟨listed, nonempty, apart⟩ := plainRegs_listed _ hq
  have acc := Module.access_noted hw r
  have write : (m.access r).writeReg r (regW off size v) =
      ((m.access r).endCapture (regW off size v).off).writeFields (regW off size v) (regFieldsAt (off / 8 * 8)) := by
    rw [Module.writeReg, hoff, plainRegs_fieldsAt _ hq, if_neg (by simpa using nonempty), plainRegs_effect _ _ _ (by rw [hoff]; exact hq)]
    rfl
  rw [barWrite_reg hr hw hrec ha hp, plainRegs_hwSet hw r hq, write]
  have regs := RegsOnly.writeFields (regW off size v) (regFieldsAt (off / 8 * 8)) ((m.access r).endCapture (regW off size v).off)
  refine ⟨?_, ?_, ?_, ?_⟩
  · obtain ⟨F, l, h⟩ := regs
    rw [h]; exact acc.retry
  · obtain ⟨F, l, h⟩ := regs
    rw [h]; exact acc.sameBytes
  · obtain ⟨F, l, h⟩ := regs
    rw [h]; exact acc.threads
  · intro f hf
    rw [hoff] at hf
    obtain ⟨x, hx, he⟩ := Module.getF_writeFields (regW off size v) f _ listed hf ((m.access r).endCapture (regW off size v).off)
    exact ⟨x, hx.trans (acc.getF f (apart f hf)), he⟩

end Sys2Proof.Machine
end

section
/-! PROOFS of the scope family, eighth part: the values of the fields after a write (00 R7, R9), and what reads answer (00 R6, R7, log 76). -/

namespace Sys2Proof.Machine

/-! ### The bits that a write gives a field -/

theorem regW_eight (off : Nat) (v : Word) : regW off 8 v.toNat = { off := off, lo := 0, hi := 63, d := v.toNat } := by
  have := v.isLt
  simp [regW, Nat.mod_eq_of_lt this]

theorem regW_low {q : Nat} (v : Nat) (hq : q % 8 = 0) : regW q 4 v = { off := q, lo := 0, hi := 31, d := v % 2 ^ 32 } := by simp [regW, hq]

theorem regW_high {q : Nat} (v : Nat) (hq : q % 8 = 0) : regW (q + 4) 4 v = { off := q, lo := 32, hi := 63, d := v % 2 ^ 32 * 2 ^ 32 } := by
  have h : (q + 4) % 8 ≠ 0 := by omega
  have h2 : (q + 4) / 8 * 8 = q := by omega
  simp [regW, h, h2]

/-- A write that covers a field gives it the bits at its place. -/
theorem RegW.merge_whole (w : RegW) (f : Fld) (cur : Nat) (hl : w.lo ≤ f.lo) (hh : f.hi ≤ w.hi) (hf : f.lo ≤ f.hi) (hc : cur < 2 ^ f.width) :
    w.merge f cur = w.d / 2 ^ f.lo % 2 ^ f.width := by
  have ha : max f.lo w.lo - f.lo = 0 := by omega
  have hb : min f.hi w.hi + 1 - f.lo = f.width := by unfold Fld.width; omega
  simp [RegW.merge, ha, hb, Nat.div_eq_of_lt hc, Nat.mod_one]

/-- A write to the low half covers a field that lies there. -/
theorem low_half_bits (v : Nat) {f : Fld} (hf : f.lo ≤ f.hi) (hh : f.hi < 32) :
    v % 2 ^ 32 / 2 ^ f.lo % 2 ^ f.width = v / 2 ^ f.lo % 2 ^ f.width := by
  obtain ⟨d, hd⟩ : ∃ d, 32 = f.lo + f.width + d := ⟨32 - (f.lo + f.width), by unfold Fld.width; omega⟩
  rw [hd, Nat.pow_add, Nat.pow_add, Nat.mul_assoc, Nat.mod_mul_right_div_self, Nat.mod_mul_right_mod]

/-! ### Read-write fields without a limit -/

/-- The read-write fields at which the rules of a write are shown. -/
def plainFlds : List Fld :=
  [Reg.FAB_CP_TMO.ticks, Reg.FAB_CP_DRAIN.ticks, Reg.PWR_DWELL.w4, Reg.PWR_DWELL.w3, Reg.PWR_DWELL.w2, Reg.PMC_SEL.index,
    Reg.FAB_RT_ADDR.index, Reg.HMP_RS_ADDR.index, Reg.PWR_TIMER.atTick, Reg.FAB_CP_ST.base 3, Reg.FAB_CP_ST.count_m1 3]

theorem plainFlds_place : ∀ f ∈ plainFlds, f.reg ∈ plainRegs ∧ f ∈ regFieldsAt f.reg ∧ f.acc = .rw ∧
    f.key ≠ Reg.LMP_THERMOS.pending.key ∧ f.lo ≤ f.hi ∧ f.hi < 64 := by decide +kernel

/-- No limit and no rule of storing is about these fields. -/
theorem plainFlds_stored (m : Module) (v : Nat) : ∀ f ∈ plainFlds, m.keeps f v = false ∧ m.storedAs f v = v := by
  simp only [plainFlds, List.forall_mem_cons]
  refine ⟨?_, ?_, ?_, ?_, ?_, ?_, ?_, ?_, ?_, ?_, ?_, fun _ h => nomatch h⟩ <;> exact ⟨rfl, rfl⟩

/-- A read-write field that the write reaches takes the merged value; another keeps its own. -/
theorem getF_writeField_plain (x : Module) (w : RegW) {f : Fld} (hf : f ∈ plainFlds) :
    (x.writeField w f).getF f = if w.touches f then w.merge f (x.getF f) % 2 ^ f.width else x.getF f := by
  obtain ⟨-, -, hacc, hp, -, -⟩ := plainFlds_place f hf
  obtain ⟨hk, hs⟩ := plainFlds_stored x (w.merge f (x.getF f)) f hf
  unfold Module.writeField
  cases w.touches f with
  | false => rfl
  | true => simp [hacc, hk, hs, Module.getF_setRet_self x f _ hp]

/-- A write that covers the field gives it its bits. -/
theorem Written.covered {m m' : Module} {w : RegW} (h : Written m m' w) {f : Fld} (hf : f ∈ plainFlds) (hw : w.off = f.reg)
    (hl : w.lo ≤ f.lo) (hh : f.hi ≤ w.hi) : m'.getF f = w.d / 2 ^ f.lo % 2 ^ f.width := by
  obtain ⟨-, hm, -, -, hlh, -⟩ := plainFlds_place f hf
  obtain ⟨x, hx, he⟩ := h.field f (hw ▸ hm)
  have touched : w.touches f = true := by simp only [RegW.touches, Bool.and_eq_true, decide_eq_true_eq]; omega
  rw [he, getF_writeField_plain x w hf, if_pos touched, RegW.merge_whole w f _ hl hh hlh (x.getF_lt f), Nat.mod_mod]

/-- A write to the other half leaves the field. -/
theorem Written.missed {m m' : Module} {w : RegW} (h : Written m m' w) {f : Fld} (hf : f ∈ plainFlds) (hw : w.off = f.reg) (hl : f.hi < w.lo) :
    m'.getF f = m.getF f := by
  obtain ⟨-, hm, -, -, -, -⟩ := plainFlds_place f hf
  obtain ⟨x, hx, he⟩ := h.field f (hw ▸ hm)
  have missed : w.touches f = false := by simp only [RegW.touches, Bool.and_eq_false_iff, decide_eq_false_iff_not]; omega
  rw [he, getF_writeField_plain x w hf, missed, hx]
  rfl

/-- A write to the high half of PWR_TIMER keeps the low half. -/
theorem Written.timer_high {m m' : Module} {w : RegW} (h : Written m m' w) (v : Nat)
    (hw : w = { off := Reg.PWR_TIMER.atTick.reg, lo := 32, hi := 63, d := v % 2 ^ 32 * 2 ^ 32 }) :
    m'.getF Reg.PWR_TIMER.atTick = v % 2 ^ 32 * 2 ^ 32 + m.getF Reg.PWR_TIMER.atTick % 2 ^ 32 := by
  subst hw
  have hf : Reg.PWR_TIMER.atTick ∈ plainFlds := by decide
  obtain ⟨x, hx, he⟩ := h.field Reg.PWR_TIMER.atTick (plainFlds_place _ hf).2.1
  have lt := m.getF_lt Reg.PWR_TIMER.atTick
  have touched : RegW.touches { off := Reg.PWR_TIMER.atTick.reg, lo := 32, hi := 63, d := v % 2 ^ 32 * 2 ^ 32 } Reg.PWR_TIMER.atTick = true := rfl
  rw [he, getF_writeField_plain x _ hf, if_pos touched, hx]
  simp only [RegW.merge, Fld.width, Reg.PWR_TIMER.atTick] at lt ⊢
  generalize SMap.get _ _ _ = c at *
  norm_num at lt ⊢
  omega

/-! ### W1C fields, read-only fields and limits -/

theorem Written.readOnly {m m' : Module} {w : RegW} (h : Written m m' w) {f : Fld} (hw : w.off = f.reg) (hf : f ∈ regFieldsAt f.reg)
    (ha : f.acc = .ro) : m'.getF f = m.getF f := by
  obtain ⟨x, hx, he⟩ := h.field f (hw ▸ hf)
  rw [he, ← hx]
  unfold Module.writeField
  rw [ha]
  split <;> rfl

/-- A one clears FAB_LOST.valid, a zero keeps it. -/
theorem Written.lost_valid {m m' : Module} {d : Nat} (h : Written m m' { off := Reg.FAB_LOST.valid.reg, lo := 0, hi := 63, d := d })
    (hd : d < 2 ^ 64) : m'.getF Reg.FAB_LOST.valid = if d / 2 ^ 63 = 1 then 0 else m.getF Reg.FAB_LOST.valid := by
  have mem : Reg.FAB_LOST.valid ∈ regFieldsAt Reg.FAB_LOST.valid.reg := by decide +kernel
  obtain ⟨x, hx, he⟩ := h.field Reg.FAB_LOST.valid mem
  have one : RegW.one { off := Reg.FAB_LOST.valid.reg, lo := 0, hi := 63, d := d } Reg.FAB_LOST.valid = (d / 2 ^ 63 % 2 == 1) := rfl
  have bit : d / 2 ^ 63 % 2 = d / 2 ^ 63 := Nat.mod_eq_of_lt (by omega)
  have clear : ∀ w : RegW, w.touches Reg.FAB_LOST.valid = true → x.writeField w Reg.FAB_LOST.valid =
      if w.one Reg.FAB_LOST.valid then x.setF Reg.FAB_LOST.valid 0 else x := fun w hw => by
    rw [Module.writeField, hw]; rfl
  rw [he, clear _ rfl, one, bit]
  by_cases hb : d / 2 ^ 63 = 1
  · rw [if_pos (beq_iff_eq.mpr hb), if_pos hb, Module.getF_setF_self]
    rfl
  · rw [if_neg (mt beq_iff_eq.mp hb), if_neg hb, hx]

/-- The carve-out takes no value above 24 (12 R274). -/
theorem Module.keeps_carve (m : Module) (v : Nat) : m.keeps Reg.MEM_CARVE.pending v = decide (24 < v) := by
  unfold Module.keeps
  generalize decide (24 < v) = b
  cases b <;> rfl

theorem Written.carve_pending {m m' : Module} {d : Nat} (h : Written m m' { off := Reg.MEM_CARVE.pending.reg, lo := 0, hi := 63, d := d }) :
    m'.getF Reg.MEM_CARVE.pending = if d / 2 ^ 16 % 2 ^ 5 ≤ 24 then d / 2 ^ 16 % 2 ^ 5 else m.getF Reg.MEM_CARVE.pending := by
  have mem : Reg.MEM_CARVE.pending ∈ regFieldsAt Reg.MEM_CARVE.pending.reg := by decide +kernel
  obtain ⟨x, hx, he⟩ := h.field Reg.MEM_CARVE.pending mem
  have write : ∀ w : RegW, w.touches Reg.MEM_CARVE.pending = true → x.writeField w Reg.MEM_CARVE.pending =
      if x.keeps Reg.MEM_CARVE.pending (w.merge Reg.MEM_CARVE.pending (x.getF Reg.MEM_CARVE.pending)) then x
      else x.setRet Reg.MEM_CARVE.pending (w.merge Reg.MEM_CARVE.pending (x.getF Reg.MEM_CARVE.pending)) := fun w hw => by
    rw [Module.writeField, hw]; rfl
  rw [he, write _ rfl, RegW.merge_whole _ _ _ (Nat.zero_le _) (show 20 ≤ 63 by decide) (by decide) (x.getF_lt _), Module.keeps_carve]
  show (if decide (24 < d / 2 ^ 16 % 2 ^ 5) = true then x else x.setRet Reg.MEM_CARVE.pending (d / 2 ^ 16 % 2 ^ 5)).getF _ = _
  by_cases hv : d / 2 ^ 16 % 2 ^ 5 ≤ 24
  · rw [if_neg (by simpa using hv), if_pos hv, Module.getF_setRet_self x _ _ (by decide)]
    exact Nat.mod_mod _ _
  · rw [if_pos (by simpa using hv), if_neg hv, hx]

/-! ### Plain reads -/

/-- The fields at which a plain read is shown. -/
def readFlds : List Fld :=
  [Reg.FAB_CP_TMO.ticks, Reg.PWR_DWELL.w3, Reg.SQ_QUEUE.free, Reg.FAB_LOST.count, Reg.MEM_CARVE.active, Reg.HIF_LINK.resets]

/-- Fields of one register, listed from the highest bit down, that do not overlap. -/
def Layered (fs : List Fld) : Prop := fs.Pairwise (fun f g => g.hi < f.lo) ∧ ∀ f ∈ fs, f.lo ≤ f.hi ∧ f.hi < 64

theorem Module.getF_shift_lt (m : Module) (f : Fld) (hf : f.lo ≤ f.hi) : m.getF f * 2 ^ f.lo + 2 ^ f.lo ≤ 2 ^ (f.hi + 1) := by
  have h : 2 ^ (f.hi + 1) = 2 ^ f.width * 2 ^ f.lo := by rw [← Nat.pow_add]; congr 1; unfold Fld.width; omega
  rw [h, ← Nat.succ_mul]
  exact Nat.mul_le_mul_right _ (m.getF_lt f)

/-- What the fields below bit `L` add to a value. -/
theorem Module.fold_fields_below (m : Module) (fs : List Fld) (hl : Layered fs) (L : Nat) (hL : ∀ f ∈ fs, f.hi < L) (a : Nat) :
    ∃ r, r < 2 ^ L ∧ fs.foldl (fun v f => v + m.getF f * 2 ^ f.lo) a = a + r := by
  induction fs generalizing a L with
  | nil => exact ⟨0, Nat.two_pow_pos L, rfl⟩
  | cons f t ih =>
    obtain ⟨hp, hw⟩ := hl
    obtain ⟨hf, ht⟩ := List.pairwise_cons.mp hp
    obtain ⟨r, hr, he⟩ := ih ⟨ht, fun g hg => hw g (List.mem_cons_of_mem _ hg)⟩ f.lo hf (a + m.getF f * 2 ^ f.lo)
    have top := m.getF_shift_lt f (hw f List.mem_cons_self).1
    have le : 2 ^ (f.hi + 1) ≤ 2 ^ L := Nat.pow_le_pow_right (by decide) (hL f List.mem_cons_self)
    exact ⟨m.getF f * 2 ^ f.lo + r, by omega, by rw [List.foldl_cons, he]; omega⟩

/-- The sum of the fields holds each field at its place. -/
theorem Module.fold_fields_at (m : Module) (f : Fld) (fs : List Fld) (hl : Layered fs) (hm : f ∈ fs) (a : Nat) (ha : ∀ g ∈ fs, 2 ^ (g.hi + 1) ∣ a) :
    fs.foldl (fun v f => v + m.getF f * 2 ^ f.lo) a / 2 ^ f.lo % 2 ^ f.width = m.getF f := by
  induction fs generalizing a with
  | nil => cases hm
  | cons g t ih =>
    obtain ⟨hp, hw⟩ := hl
    obtain ⟨hg, ht⟩ := List.pairwise_cons.mp hp
    have rest : Layered t := ⟨ht, fun x hx => hw x (List.mem_cons_of_mem _ hx)⟩
    rcases List.mem_cons.mp hm with rfl | hm
    · obtain ⟨r, hr, he⟩ := m.fold_fields_below t rest f.lo hg (a + m.getF f * 2 ^ f.lo)
      obtain ⟨c, hc⟩ := ha f List.mem_cons_self
      have hpow : 2 ^ (f.hi + 1) = 2 ^ f.lo * 2 ^ f.width := by
        rw [← Nat.pow_add]; congr 1; have := (hw f List.mem_cons_self).1; unfold Fld.width; omega
      have sum : a + m.getF f * 2 ^ f.lo + r = r + 2 ^ f.lo * (m.getF f + 2 ^ f.width * c) := by rw [hc, hpow]; ring
      rw [List.foldl_cons, he, sum, Nat.add_mul_div_left _ _ (Nat.two_pow_pos _), Nat.div_eq_of_lt hr, Nat.zero_add, Nat.add_mul_mod_self_left,
        Nat.mod_eq_of_lt (m.getF_lt f)]
    · refine ih rest hm _ (fun x hx => ?_)
      have below : 2 ^ (x.hi + 1) ∣ 2 ^ g.lo := Nat.pow_dvd_pow 2 (hg x hx)
      exact Nat.dvd_add (ha x (List.mem_cons_of_mem _ hx)) (Dvd.dvd.mul_left below _)

theorem readFlds_place : ∀ f ∈ readFlds, (f.reg < 0x80000 ∨ 0x100000 ≤ f.reg) ∧ f.reg < 0x3800000 ∧ f.reg % 8 = 0 ∧ countedKey f.key = false ∧
    f ∈ regFieldsAt f.reg ∧ (f.reg < 0x101000 ∨ 0x105100 ≤ f.reg) ∧ ¬ (f.reg = 0x300030 ∨ f.reg = 0x300038 ∨ f.reg = 0x300040) ∧
    f.reg ∉ [Reg.LMP_ESC_STAT.oos.reg, Reg.PMC_DATA.value.reg, Reg.HMP_RS_DATA.entry.reg, Reg.FAB_RT_DATA.entry.reg] := by decide +kernel

theorem readFlds_layered : ∀ f ∈ readFlds, Layered (regFieldsAt f.reg) ∧
    ∀ g ∈ regFieldsAt f.reg, g.acc ≠ .wo ∧ g.inFamily 0x100100 8 = false := by
  unfold Layered
  decide +kernel

/-- Only the windows and EVC_CLAIM have a read effect (00 R7). -/
theorem readEffect_none (r : Requester) {q : Nat}
    (hq : q ∉ [Reg.LMP_ESC_STAT.oos.reg, Reg.PMC_DATA.value.reg, Reg.HMP_RS_DATA.entry.reg, Reg.FAB_RT_DATA.entry.reg])
    (hc : q < 0x101000 ∨ 0x105100 ≤ q) : Module.readEffect r q = none := by
  simp only [List.mem_cons, List.not_mem_nil, or_false, not_or] at hq
  obtain ⟨-, h1, h2, h3⟩ := hq
  have claim : ¬ ((q - 0x101000) / 0x100 < 65 ∧ q = evcOffset ((q - 0x101000) / 0x100)) := by unfold evcOffset; omega
  simp only [Module.readEffect, h1, h2, h3, if_false]
  exact if_neg (by simpa using claim)

/-- A register whose fields are neither write-only nor pending sources (EVC_PEND, 19 R467) reads as what it holds. -/
theorem Module.regValue_stored (m : Module) {off : Nat}
    (ho : off ∉ [Reg.LMP_ESC_STAT.oos.reg, Reg.PMC_DATA.value.reg, Reg.HMP_RS_DATA.entry.reg, Reg.FAB_RT_DATA.entry.reg])
    (hf : ∀ f ∈ m.fieldsAt off, f.acc ≠ .wo ∧ f.inFamily 0x100100 8 = false) : m.regValue off = m.stored off := by
  simp only [List.mem_cons, List.not_mem_nil, or_false, not_or] at ho
  obtain ⟨h1, h2, h3, h4⟩ := ho
  simp only [Module.regValue, h1, h2, h3, h4, if_false, Module.stored]
  refine List.foldl_ext _ _ _ (fun v f hm => ?_)
  simp [(hf f hm).1, (hf f hm).2]

/-- What 8 bytes of a register read as, for a requester that is no virtual function. -/
theorem Module.barRead_eight (m : Module) {r : Requester} (hr : ∀ n, r ≠ .vf n) {q : Nat} (hq : q % 8 = 0) (hu : m.unanswered r q = false)
    (hp : barPlace r q = .reg q) : m.barRead r q 8 = m.regValue q % 2 ^ 64 := by
  have ha : barAligned q 8 = true := by simp [barAligned, hq]
  have h8 : q / 8 * 8 = q := by omega
  cases r with
  | vf n => exact absurd rfl (hr n)
  | _ =>
    simp only [Module.barRead, ha, hu, hp, h8, hq]
    cases SMap.get none m.capture q <;> simp

/-- A plain read answers the field at its place. -/
theorem Module.barRead_field {m : Module} {r : Requester} (hr : ∀ n, r ≠ .vf n) {f : Fld} (hf : f ∈ readFlds) (hu : m.unanswered r f.reg = false) :
    m.barRead r f.reg 8 / 2 ^ f.lo % 2 ^ f.width = m.getF f := by
  obtain ⟨hlow, htop, hq, -, hmem, -, hsel, hwin⟩ := readFlds_place f hf
  obtain ⟨hl, hplain⟩ := readFlds_layered f hf
  have fields : m.fieldsAt f.reg = regFieldsAt f.reg := by rw [Module.fieldsAt, if_neg hsel]
  obtain ⟨r64, hlt, he⟩ := m.fold_fields_below _ hl 64 (fun g hg => (hl.2 g hg).2) 0
  have small : (regFieldsAt f.reg).foldl (fun v f => v + m.getF f * 2 ^ f.lo) 0 < 2 ^ 64 := by rw [he]; omega
  rw [Module.barRead_eight m hr hq hu (barPlace_reg hr hlow htop), Module.regValue_stored m hwin (by rw [fields]; exact hplain), Module.stored, fields,
    Nat.mod_eq_of_lt small]
  exact m.fold_fields_at f _ hl hmem 0 (fun _ _ => Nat.dvd_zero _)

/-! ### Reads with an effect of their own (19 R461; 20 R475) -/

/-- A read of 8 bytes of such a register is that effect. -/
theorem Module.readAt_effect (m : Module) {r : Requester} {q : Nat} {f : Module → Module} (hq : q % 8 = 0)
    (h : Module.readEffect r q = some f) : m.readAt r q q 8 = f m := by
  have h8 : q / 8 * 8 = q := by omega
  simp [Module.readAt, h8, h, hq]

theorem readEffect_claim (r : Requester) (i : Fin 65) : Module.readEffect r (evcOffset i.val) = some (evcClaim r i.val) := by
  have hi : (evcOffset i.val - 0x101000) / 0x100 = i.val := by unfold evcOffset; omega
  unfold Module.readEffect
  rw [hi, if_neg, if_neg, if_neg, if_pos (by simp)]
  all_goals simp only [evcOffset, Reg.PMC_DATA.value, Reg.HMP_RS_DATA.entry, Reg.FAB_RT_DATA.entry]; omega

/-- A BAR0 read of such a register runs the effect as the command of its own does. -/
theorem bar0Read_effect {s : State} (hw : s.m.inW0) (hrec : s.m.recovery = false) {r : Requester} (hr : ∀ n, r ≠ .vf n) {q : Nat}
    (hq : q % 8 = 0 ∧ 0x100000 ≤ q ∧ q < 0x3800000) {f : Module → Module} (h : Module.readEffect r q = some f) :
    exec (.bar0ReadViolation r (BitVec.ofNat 26 q) 8#13) s = s.goByAs r true f := by
  obtain ⟨h8, hlow, htop⟩ := hq
  have off : (BitVec.ofNat 26 q).toNat = q := by simp; omega
  rw [exec_bar0Read, off, State.goByAs, State.go_eq]
  congr 2
  cases hreach : s.m.fresh.reaches r with
  | false => exact bar0Read_unreached hreach
  | true =>
    have recov : s.m.fresh.recovery = false := hrec
    have ha : barAligned q 8 = true := by simp [barAligned, h8]
    rw [show (8#13 : BitVec 13).toNat = 8 from rfl, bar0Read_reg hreach hw recov ha (barPlace_reg hr (.inr hlow) htop), Module.readAt_effect _ h8 h, recov]
    rfl

end Sys2Proof.Machine
end

section
/-! PROOFS of the scope family, ninth part: the rules of BAR accesses. -/

namespace Sys2Proof.Machine

/-! ### The controls of configuration space (22 R514, R529) -/

/-- Sending what is pending clears pending bits and sends messages. -/
theorem Module.msixFlush_shape (m : Module) (fn : Nat) : ∃ pba out, m.msixFlush fn = { m with hif := { m.hif with pba := pba }, out := out } := by
  unfold Module.msixFlush
  split
  · exact ⟨m.hif.pba, m.out, rfl⟩
  · refine Module.each_keeps (fun x => ∃ pba out, x = { m with hif := { m.hif with pba := pba }, out := out }) _ _ ?_ m ⟨m.hif.pba, m.out, rfl⟩
    rintro x e - ⟨pba, out, rfl⟩
    exact ⟨_, _, rfl⟩

theorem registerWrite_msixControl {s : State} {fn : Fin 64} {en mask : Bool} {v : Word} (hr : s.m.reaches (fnReq fn) = true) :
    Completes (.registerWrite (.msixControl fn en mask) v) s (fun m => SMap.get false m.hif.msixEn fn.val = en ∧
      SMap.get false m.hif.fnMask fn.val = mask ∧ m.hif.msix = s.m.hif.msix) := by
  refine registerWrite_completes (fun b => ?_)
  have start : (s.start b).reaches (fnReq fn) = true := hr
  simp only [registerWrite, start, Bool.not_true, Bool.false_eq_true, if_false]
  obtain ⟨pba, out, h⟩ := Module.msixFlush_shape { s.start b with hif := { (s.start b).hif with
    msixEn := SMap.set false (s.start b).hif.msixEn fn.val en, fnMask := SMap.set false (s.start b).hif.fnMask fn.val mask } } fn.val
  rw [h]
  exact ⟨rfl, SMap.get_set_self _ _ _ _, SMap.get_set_self _ _ _ _, rfl⟩

theorem registerWrite_vfEnable {s : State} {en : Bool} {num : Fin 64} {v : Word} (hr : s.m.reaches .pf = true) :
    Does (.registerWrite (.vfEnable en num) v) s [.hif] (fun m => m.hif = { s.m.hif with vfEn := en, numVfs := num.val }) := by
  refine registerWrite_completes (fun b => ?_)
  have start : (s.start b).reaches .pf = true := hr
  simp only [registerWrite, start, Bool.not_true, Bool.false_eq_true, if_false]
  refine ⟨rfl, rfl, fun p hp => ?_⟩
  cases p <;> simp [Part.same, State.start, Module.fresh] at hp ⊢

/-- A write whose access does not arrive changes nothing (22 R512, R514). -/
theorem registerWrite_nothing {s : State} {t : RegTarget} {v : Word} (h : ∀ b, registerWrite t v.toNat (s.start b) = s.start b) :
    Does (.registerWrite t v) s [] (fun _ => True) :=
  registerWrite_completes (fun b => by rw [h b]; exact ⟨rfl, trivial, s.start_only b []⟩)

theorem registerWrite_msixUnreached {s : State} {fn : Fin 64} {en mask : Bool} {v : Word} (hr : s.m.reaches (fnReq fn) = false) :
    Does (.registerWrite (.msixControl fn en mask) v) s [] (fun _ => True) :=
  registerWrite_nothing (fun b => by
    have start : (s.start b).reaches (fnReq fn) = false := hr
    simp [registerWrite, start])

/-! ### BAR0 -/

section
variable {s : State} {r : Requester} {off : BitVec 26} {size : BitVec 13} {v : Word}

theorem bar0_unreached (hr : s.m.reaches r = false) :
    Does (.registerWrite (.bar0 r off size) v) s [] (fun _ => True) ∧ Does (.bar0ReadViolation r off size) s [] (fun _ => True) :=
  ⟨registerWrite_nothing (fun b => barWrite_unreached (m := s.start b) hr _),
    Does.nothing (by rw [exec_bar0Read, bar0Read_unreached (m := s.m.fresh) hr])⟩

variable (hr : s.m.reaches r = true) (hw : s.m.inW0) (hrec : s.m.recovery = false)
include hr hw hrec

/-- An access that breaks the rules is one violation, and a read answers zero (00 R7, R8; 22 R514). -/
theorem bar0_wrong (h : barWrong r off.toNat size.toNat) :
    Effect (.registerWrite (.bar0 r off size) v) s (violKeys (reqFn r)) []
        (fun m => Violates s.m m (reqFn r) (if r = .lamplighter then 6 else 3) off.toNat) ∧
      Effect (.bar0ReadViolation r off size) s (violKeys (reqFn r)) []
        (fun m => Violates s.m m (reqFn r) (if r = .lamplighter then 6 else 3) off.toNat ∧ Output.readData 0 ∈ m.out) := by
  have charged : ∀ {m : Module}, m.inW0 → Violates m ((m.access r).accessViolation r 3 off.toNat) (reqFn r) (if r = .lamplighter then 6 else 3) off.toNat ∧
      ((m.access r).accessViolation r 3 off.toNat).retry = m.retry ∧
      Steady (violKeys (reqFn r)) m ((m.access r).accessViolation r 3 off.toNat) := fun {m} hm =>
    have acc := Module.access_noted hm r
    ⟨(Module.accessViolation_violates (acc.inW0 hm) r off.toNat).counted (reqFn_lt r) acc.getF (Noted.refl _).getF,
      (Module.accessViolation_retry (acc.inW0 hm) r off.toNat).trans acc.retry,
      ((Module.access_quiet hm r).steady _).trans (Module.accessViolation_steady r off.toNat)⟩
  constructor
  · refine registerWrite_effect (fun b => ?_)
    obtain ⟨viol, retry, steady⟩ := charged (m := s.start b) hw
    rw [registerWrite, barWrite_wrong (m := s.start b) hr hw hrec h]
    exact ⟨retry, viol, steady⟩
  · obtain ⟨viol, -, steady⟩ := charged (m := s.m.fresh) hw
    refine Effect.of_exec ((exec_bar0Read r off size s).trans (by rw [bar0Read_wrong (m := s.m.fresh) hr hw hrec h])) ?_ ?_
    · exact ⟨viol, List.mem_append_right _ List.mem_cons_self⟩
    · exact ((s.start_quiet s.m.retry).steady _).trans (steady.trans ((Quiet.emit _ _).steady _))

/-- A write to an offset that no table lists is ignored (00 R6). -/
theorem bar0_unlisted (h : ¬ barWrong r off.toNat size.toNat)
    (hn : barPlace r off.toNat = .nothing ∨ ∃ x, barPlace r off.toNat = .reg x ∧ s.m.fieldsAt (x / 8 * 8) = []) :
    Effect (.registerWrite (.bar0 r off size) v) s [] [] (fun _ => True) :=
  registerWrite_effect (fun b => by
    rw [registerWrite, barWrite_unlisted (m := s.start b) hr hw hrec h hn]
    exact ⟨(Module.access_noted (m := s.start b) hw r).retry, trivial, (Module.access_quiet (m := s.start b) hw r).steady []⟩)

/-- Any other read answers what the offset holds (00 R6, R7; log 76). -/
theorem bar0_read (h : ¬ barWrong r off.toNat size.toNat)
    (hn : ∀ x, barPlace r off.toNat = .reg x → Module.readEffect r (x / 8 * 8) = none) :
    Effect (.bar0ReadViolation r off size) s [] [] (fun m => Output.readData ((s.m.fresh.access r).barRead r off.toNat size.toNat) ∈ m.out) :=
  Effect.of_exec ((exec_bar0Read r off size s).trans (by rw [bar0Read_plain (m := s.m.fresh) hr hw hrec h hn]))
    (List.mem_append_right _ List.mem_cons_self)
    ((((s.start_quiet s.m.retry).trans (Module.access_quiet (m := s.m.fresh) hw r)).trans (Quiet.emit _ _)).steady [])

end

/-! ### Registers by their offset, for a requester that is no virtual function -/

section
variable {s : State} {r : Requester} (hr : s.m.reaches r = true) (hw : s.m.inW0) (hrec : s.m.recovery = false) (hf : ∀ n, r ≠ .vf n)
include hr hw hrec hf

theorem registerWrite_written (v : Word) {off : Nat} {size : BitVec 13} (ha : barAligned off size.toNat = true) (hq : off / 8 * 8 ∈ plainRegs) :
    Completes (.registerWrite (.bar0 r (BitVec.ofNat 26 off) size) v) s (fun m => Written s.m m (regW off size.toNat v.toNat)) := by
  obtain ⟨hlow, htop, -⟩ := plainRegs_place _ hq
  have offset : (BitVec.ofNat 26 off).toNat = off := by simp; omega
  refine registerWrite_completes (fun b => ?_)
  rw [registerWrite, offset]
  obtain ⟨retry, bytes, threads, field⟩ :=
    barWrite_written (m := s.start b) hr hw hrec ha (barPlace_reg hf (by omega) (by omega)) v.toNat hq
  exact ⟨retry, bytes, threads, field⟩

/-- A write of the whole register. -/
theorem registerWrite_eight (v : Word) {q : Nat} (hq : q ∈ plainRegs) :
    Completes (.registerWrite (.bar0 r (BitVec.ofNat 26 q) 8#13) v) s (fun m => Written s.m m { off := q, lo := 0, hi := 63, d := v.toNat }) := by
  obtain ⟨-, -, h8⟩ := plainRegs_place q hq
  have h := registerWrite_written hr hw hrec hf v (off := q) (size := 8#13) (by simp [barAligned, h8])
    (by rw [show q / 8 * 8 = q by omega]; exact hq)
  rwa [show (8#13 : BitVec 13).toNat = 8 from rfl, regW_eight] at h

/-- A write of its low half. -/
theorem registerWrite_low (v : Word) {q : Nat} (hq : q ∈ plainRegs) :
    Completes (.registerWrite (.bar0 r (BitVec.ofNat 26 (q + 4 * 0)) 4#13) v) s
      (fun m => Written s.m m { off := q, lo := 0, hi := 31, d := v.toNat % 2 ^ 32 }) := by
  obtain ⟨-, -, h8⟩ := plainRegs_place q hq
  have h := registerWrite_written hr hw hrec hf v (off := q) (size := 4#13) (by simp [barAligned]; omega)
    (by rw [show q / 8 * 8 = q by omega]; exact hq)
  rwa [show (4#13 : BitVec 13).toNat = 4 from rfl, regW_low _ h8] at h

/-- A write of its high half. -/
theorem registerWrite_high (v : Word) {q : Nat} (hq : q ∈ plainRegs) :
    Completes (.registerWrite (.bar0 r (BitVec.ofNat 26 (q + 4 * 1)) 4#13) v) s
      (fun m => Written s.m m { off := q, lo := 32, hi := 63, d := v.toNat % 2 ^ 32 * 2 ^ 32 }) := by
  obtain ⟨-, -, h8⟩ := plainRegs_place q hq
  have h := registerWrite_written hr hw hrec hf v (off := q + 4) (size := 4#13) (by simp [barAligned]; omega)
    (by rw [show (q + 4) / 8 * 8 = q by omega]; exact hq)
  rwa [show (4#13 : BitVec 13).toNat = 4 from rfl, regW_high _ h8] at h

/-- A write of the register gives a read-write field its bits. -/
theorem registerWrite_field (v : Word) {f : Fld} (hp : f ∈ plainFlds) :
    Completes (.registerWrite (.bar0 r (BitVec.ofNat 26 f.reg) 8#13) v) s
      (fun m => m.getF f = v.toNat / 2 ^ f.lo % 2 ^ f.width ∧ SameBytes s.m m ∧ m.threads = s.m.threads) := by
  obtain ⟨hq, -, -, -, -, hhi⟩ := plainFlds_place f hp
  exact (registerWrite_eight hr hw hrec hf v hq).mono
    (fun m h => ⟨h.covered hp rfl (Nat.zero_le _) (Nat.le_of_lt_succ hhi), h.bytes, h.threads⟩)

/-- A write of one half reaches a field only in that half. -/
theorem registerWrite_halves (v : Word) {f : Fld} (hp : f ∈ plainFlds) (hh : f.hi < 32) :
    Completes (.registerWrite (.bar0 r (BitVec.ofNat 26 (f.reg + 4 * 0)) 4#13) v) s (fun m => m.getF f = v.toNat / 2 ^ f.lo % 2 ^ f.width) ∧
      Completes (.registerWrite (.bar0 r (BitVec.ofNat 26 (f.reg + 4 * 1)) 4#13) v) s (fun m => m.getF f = s.m.getF f) := by
  obtain ⟨hq, -, -, -, hlh, -⟩ := plainFlds_place f hp
  refine ⟨(registerWrite_low hr hw hrec hf v hq).mono (fun m h => ?_), (registerWrite_high hr hw hrec hf v hq).mono (fun m h => ?_)⟩
  · rw [h.covered hp rfl (Nat.zero_le _) (Nat.le_of_lt_succ hh), low_half_bits _ hlh hh]
  · exact h.missed hp rfl hh

/-- A plain read answers each field at its place. -/
theorem bar0Read_field {f : Fld} (hp : f ∈ readFlds) :
    Effect (.bar0ReadViolation r (BitVec.ofNat 26 f.reg) 8#13) s [] [] (fun m => ∃ v, Output.readData v ∈ m.out ∧
      v / 2 ^ f.lo % 2 ^ f.width = s.m.getF f) := by
  obtain ⟨hlow, htop, h8, hcount, -, hclaim, -, hwin⟩ := readFlds_place f hp
  have offset : (BitVec.ofNat 26 f.reg).toNat = f.reg := by simp; omega
  have place := barPlace_reg hf hlow htop
  have right : ¬ barWrong r (BitVec.ofNat 26 f.reg).toNat (8#13 : BitVec 13).toNat := by
    rw [offset, barWrong, place]
    simp [barAligned, h8]
  have noEffect : ∀ x, barPlace r (BitVec.ofNat 26 f.reg).toNat = .reg x → Module.readEffect r (x / 8 * 8) = none := by
    intro x hx
    rw [offset, place] at hx
    cases hx
    rw [show f.reg / 8 * 8 = f.reg by omega]
    exact readEffect_none r hwin hclaim
  have read := bar0_read hr hw hrec right noEffect
  rw [offset, show (8#13 : BitVec 13).toNat = 8 from rfl] at read
  refine Completes.mono read (fun m h => ⟨⟨_, h.1, ?_⟩, h.2⟩)
  rw [Module.barRead_field hf hp (Module.access_answered (m := s.m.fresh) hw hrec f.reg)]
  exact (Module.access_noted (m := s.m.fresh) hw r).getF f hcount

end

/-! ### BAR2, as the commands -/

theorem exec_bar2Read (fn : Fin 64) (off : BitVec 36) (len : BitVec 13) (s : State) :
    exec (.bar2Read fn off len) s = .next { s with m := bar2Read fn.val off.toNat len.toNat s.m.fresh } := rfl

theorem exec_bar2Write (fn : Fin 64) (off : BitVec 36) (data : List Byte) (s : State) :
    exec (.bar2Write fn off data) s = .next { s with m := bar2Write fn.val off.toNat data s.m.fresh } := rfl

/-- A TLP outside its limits changes nothing. -/
theorem bar2_ignored (s : State) (fn : Fin 64) (off : BitVec 36) (len : BitVec 13) (data : List Byte) :
    (¬ s.m.bar2Up fn.val = true ∨ ¬ Bar2Fits off.toNat len.toNat 4096 → Does (.bar2Read fn off len) s [] (fun _ => True)) ∧
    (¬ s.m.bar2Up fn.val = true ∨ ¬ Bar2Fits off.toNat data.length 512 → Does (.bar2Write fn off data) s [] (fun _ => True)) :=
  ⟨fun h => Does.nothing (by rw [exec_bar2Read, bar2Read_outside (m := s.m.fresh) h]),
    fun h => Does.nothing (by rw [exec_bar2Write, bar2Write_outside (m := s.m.fresh) h])⟩

section
variable {s : State} (hw : s.m.inW0) {fn : Fin 64} (hu : s.m.bar2Up fn.val = true) {off : BitVec 36} {va : Nat} (hv : s.m.bar2Va fn.val off.toNat = va)
include hw hu hv

section
variable {len : BitVec 13} (hk : Bar2Fits off.toNat len.toNat 4096)
include hk

/-- A read that fails outright. -/
theorem exec_bar2Read_failed (h : s.m.bar2Fails fn.val va len.toNat .load = true) : Effect (.bar2Read fn off len) s (b2Keys fn.val) []
    (fun m => B2Err s.m m fn.val va ∧ Output.readData (2 ^ (8 * len.toNat) - 1) ∈ m.out) := by
  obtain ⟨answer, steady⟩ := bar2Read_failed (m := s.m.fresh) hw fn.isLt hu hv hk h
  exact Effect.of_exec (exec_bar2Read fn off len s) answer (((s.start_quiet s.m.retry).steady _).trans steady)

variable (h : s.m.bar2Fails fn.val va len.toNat .load = false)
include h

/-- A read that waits for a held channel (12 R293). -/
theorem exec_bar2Read_waits (held : s.m.rangeHeld fn.val va len.toNat .load = true) : Does (.bar2Read fn off len) s [] (fun _ => True) :=
  Does.nothing (by rw [exec_bar2Read, bar2Read_waits (m := s.m.fresh) hw fn.isLt hu hv hk h held])

/-- A read that is answered. -/
theorem exec_bar2Read_answered (held : s.m.rangeHeld fn.val va len.toNat .load = false)
    (good : s.m.anyBad (s.m.bar2Xlat fn.val va len.toNat .load) = false) :
    Completes (.bar2Read fn off len) s (fun m =>
      Output.readData (leVal (s.m.rangeBytes (s.m.bar2Xlat fn.val va len.toNat .load))) ∈ m.out ∧ SameBytes s.m m ∧
      Judged s.m m fn.val va (violsIn (s.m.bar2Xlat fn.val va len.toNat .load))) :=
  Completes.of_exec (exec_bar2Read fn off len s) (bar2Read_answered (m := s.m.fresh) hw fn.isLt hu hv hk h held good)

end

section
variable {data : List Byte} (hk : Bar2Fits off.toNat data.length 512)
include hk

/-- A write that fails outright. -/
theorem exec_bar2Write_failed (h : s.m.bar2Fails fn.val va data.length .store = true) :
    Effect (.bar2Write fn off data) s (b2Keys fn.val) [] (fun m => B2Err s.m m fn.val va) := by
  obtain ⟨counted, steady⟩ := bar2Write_failed (m := s.m.fresh) hw fn.isLt hu hv hk h
  exact Effect.of_exec (exec_bar2Write fn off data s) counted (((s.start_quiet s.m.retry).steady _).trans steady)

variable (h : s.m.bar2Fails fn.val va data.length .store = false)
include h

/-- A write that waits for a held channel (12 R293). -/
theorem exec_bar2Write_waits (held : s.m.rangeHeld fn.val va data.length .store = true) : Does (.bar2Write fn off data) s [] (fun _ => True) :=
  Does.nothing (by rw [exec_bar2Write, bar2Write_waits (m := s.m.fresh) hw fn.isLt hu hv hk h held])

variable (held : s.m.rangeHeld fn.val va data.length .store = false)
include held

/-- A write that stores every byte. -/
theorem exec_bar2Write_stored {p : Place} (hp : ∀ x ∈ s.m.bar2Xlat fn.val va data.length .store, ∃ lc, x.2 = .ok (p.plus (x.1.1 - va)) lc) :
    Completes (.bar2Write fn off data) s (fun m => StoresAt s.m m p data.length (leVal data) ∧
      Judged s.m m fn.val va (violsIn (s.m.bar2Xlat fn.val va data.length .store))) :=
  Completes.of_exec (exec_bar2Write fn off data s) (bar2Write_stored (m := s.m.fresh) hw fn.isLt hu hv hk h held hp)

/-- A write that stores none. -/
theorem exec_bar2Write_denied (hd : ∀ x ∈ s.m.bar2Xlat fn.val va data.length .store, x.2 = .viol) :
    Completes (.bar2Write fn off data) s (fun m => SameBytes s.m m ∧ Violates s.m m fn.val 4 va) :=
  Completes.of_exec (exec_bar2Write fn off data s) (bar2Write_denied (m := s.m.fresh) hw fn.isLt hu hv hk h held hd)

end
end

/-- A read of PMC_DATA is the command of its own (20 R475). -/
theorem exec_pmcDataRead {r : Requester} (hf : ∀ n, r ≠ .vf n) (s : State) : exec (.pmcDataRead r) s = s.goByAs r true pmcDataRead := by
  cases r with
  | vf n => exact absurd rfl (hf n)
  | _ => rfl

/-- Settles O58: an access in W0 is counted and wakes nothing, so it lands by what the module holds before it. -/
theorem barAccessesReadAndWriteByTheirRules : Obligations.BarAccessesReadAndWriteByTheirRules := by
  unfold Obligations.BarAccessesReadAndWriteByTheirRules
  intro s
  refine ⟨fun fn off len data => ⟨(bar2_ignored s fn off len data).1, (bar2_ignored s fn off len data).2, fun hu w0 => ?_⟩,
    fun r off size v => ⟨bar0_unreached, fun hr w0 => ?_⟩, fun r w0 hf => ?_, fun r v hr w0 hf => ?_,
    fun fn en mask v => ⟨registerWrite_msixUnreached, registerWrite_msixControl⟩, fun en num v => registerWrite_vfEnable⟩
  · have hw : s.m.inW0 := w0.2
    have fails := s.m.bar2Fails_iff fn.val (s.m.bar2Va fn.val off.toNat)
    have runs := fun k acc h => Bool.eq_false_iff.mpr (mt (fails k acc).mp h)
    exact ⟨fun hk h => exec_bar2Read_failed hw hu rfl hk ((fails _ _).mpr h), fun hk h => exec_bar2Read_waits hw hu rfl hk (runs _ _ h),
      fun hk h => exec_bar2Read_answered hw hu rfl hk (runs _ _ h), fun hk h => exec_bar2Write_failed hw hu rfl hk ((fails _ _).mpr h),
      fun hk h => exec_bar2Write_waits hw hu rfl hk (runs _ _ h),
      fun p hk h held hp _ => exec_bar2Write_stored hw hu rfl hk (runs _ _ h) held hp,
      fun hk h held => exec_bar2Write_denied hw hu rfl hk (runs _ _ h) held⟩
  · obtain ⟨hrec, hw⟩ := w0
    exact ⟨bar0_wrong hr hw hrec, bar0_unlisted hr hw hrec, bar0_read hr hw hrec⟩
  · obtain ⟨hrec, hw⟩ := w0
    refine ⟨fun i => bar0Read_effect hw hrec hf (by unfold evcOffset; omega) (readEffect_claim r i), ?_, fun hr f hp => bar0Read_field hr hw hrec hf hp⟩
    exact (bar0Read_effect hw hrec hf (by decide) (f := pmcDataRead) rfl).trans (exec_pmcDataRead hf s).symm
  · obtain ⟨hrec, hw⟩ := w0
    have low : ∀ f ∈ [Reg.PWR_DWELL.w3, Reg.PWR_DWELL.w2, Reg.FAB_CP_TMO.ticks], f ∈ plainFlds ∧ f.hi < 32 := by decide
    refine ⟨fun f hp => registerWrite_field hr hw hrec hf v hp, fun f hp => registerWrite_halves hr hw hrec hf v (low f hp).1 (low f hp).2,
      ?_, ?_, ?_⟩
    · exact (registerWrite_high hr hw hrec hf v (by decide)).mono (fun m h => h.timer_high v.toNat rfl)
    · exact (registerWrite_eight hr hw hrec hf v (by decide)).mono (fun m h =>
        ⟨h.lost_valid v.isLt, h.readOnly (f := Reg.FAB_LOST.device) rfl (by decide +kernel) rfl,
          h.readOnly (f := Reg.FAB_LOST.count) rfl (by decide +kernel) rfl⟩)
    · exact (registerWrite_eight hr hw hrec hf v (by decide)).mono (fun m h =>
        ⟨h.readOnly (f := Reg.MEM_CARVE.active) rfl (by decide +kernel) rfl, h.carve_pending⟩)

end Sys2Proof.Machine
end

section
/-! PROOFS of the threads family (02_threads_contexts_and_address_space), first part: what counting events, looking sectors up, caching
translations and the progress of contexts leave alone in every power state, and what translation reads. -/

namespace Sys2Proof.Machine

/-- Nothing differs but the memories, the threads whose key is listed, and what counting an event, caching a translation and the progress of
a context change. -/
structure Elsewhere (ks : List Nat) (m m' : Module) : Prop where
  pilot : m'.pilot = m.pilot
  th : ∀ j, j ∉ ks → m'.th j = m.th j
  coreGrids : ∀ c, (m'.core c).grids = (m.core c).grids
  ctxs : ∀ n, { m'.ctx n with wdSince := 0 } = { m.ctx n with wdSince := 0 }
  fields : ∀ f : Fld, sideField f.key = false → m'.getF f = m.getF f
  grids : m'.grids = m.grids
  nextGrid : m'.nextGrid = m.nextGrid
  fab : m'.fab = m.fab
  esc : m'.esc = m.esc

/-- Of the memories, too, nothing differs but the lines that the slices hold. -/
structure Beside (ks : List Nat) (m m' : Module) : Prop extends Elsewhere ks m m' where
  ms : m'.ms = { m.ms with sets := m'.ms.sets }

/-! ### The relations are preorders -/

theorem Elsewhere.refl (ks : List Nat) (m : Module) : Elsewhere ks m m := by constructor <;> intros <;> rfl

theorem Elsewhere.trans {ks : List Nat} {a b c : Module} (h : Elsewhere ks a b) (g : Elsewhere ks b c) : Elsewhere ks a c where
  pilot := g.pilot.trans h.pilot
  th j hj := (g.th j hj).trans (h.th j hj)
  coreGrids n := (g.coreGrids n).trans (h.coreGrids n)
  ctxs n := (g.ctxs n).trans (h.ctxs n)
  fields f hf := (g.fields f hf).trans (h.fields f hf)
  grids := g.grids.trans h.grids
  nextGrid := g.nextGrid.trans h.nextGrid
  fab := g.fab.trans h.fab
  esc := g.esc.trans h.esc

theorem Elsewhere.mono {ks : List Nat} {a b : Module} (h : Elsewhere [] a b) : Elsewhere ks a b :=
  { h with th := fun j _ => h.th j List.not_mem_nil }

theorem Beside.refl (ks : List Nat) (m : Module) : Beside ks m m := ⟨Elsewhere.refl ks m, rfl⟩

theorem Beside.trans {ks : List Nat} {a b c : Module} (h : Beside ks a b) (g : Beside ks b c) : Beside ks a c :=
  ⟨h.toElsewhere.trans g.toElsewhere, by rw [g.ms, h.ms]⟩

theorem Beside.mono {ks : List Nat} {a b : Module} (h : Beside [] a b) : Beside ks a b := ⟨h.toElsewhere.mono, h.ms⟩

theorem Beside.ite {ks : List Nat} {m a b : Module} (c : Prop) [Decidable c] (ha : Beside ks m a) (hb : Beside ks m b) :
    Beside ks m (if c then a else b) := by
  split
  · exact ha
  · exact hb

theorem Beside.each {α : Type} (ks : List Nat) (l : List α) (f : Module → α → Module) (h : ∀ m a, Beside ks m (f m a)) (m : Module) :
    Beside ks m (m.each l f) :=
  Module.each_keeps (fun x => Beside ks m x) l f (fun x a _ hx => hx.trans (h x a)) m (Beside.refl ks m)

/-! ### The updates that are made beside -/

theorem Quiet.beside {m m' : Module} (h : Quiet m m') : Beside [] m m' where
  pilot := (h.same 0).pilot
  th j _ := Module.th_congr h.threads j
  coreGrids c := by rw [Module.core_congr h.cores]
  ctxs := (h.same 0).ctxs
  fields := (h.same 0).fields
  grids := (h.same 0).grids
  nextGrid := (h.same 0).nextGrid
  fab := (h.same 0).fab
  esc := (h.same 0).esc
  ms := by rw [(h.same 0).ms]

theorem Beside.setTh (m : Module) (k : Nat) (t : Thread) : Beside [k] m (m.setTh k t) :=
  { Beside.refl [k] m with th := fun j hj => by rw [Module.th_setTh, if_neg (by simpa using hj)] }

theorem Beside.setCore (m : Module) (c : Nat) (x : Core) (h : x.grids = (m.core c).grids) : Beside [] m (m.setCore c x) :=
  { Beside.refl [] m with
    coreGrids := fun d => by
      rw [Module.core_setCore]
      split
      · next e => rw [h, e]
      · rfl }

theorem Beside.sets (m : Module) (x : SMap (List Line)) : Beside [] m (m.setMs { m.ms with sets := x }) :=
  { Beside.refl [] m with ms := rfl }

theorem Module.progress_beside (m : Module) (n : Nat) : Beside [] m (m.progress n) where
  pilot := (m.progress_same n 0).pilot
  th j _ := Module.th_congr (m.progress_threads n) j
  coreGrids c := by rw [Module.core_congr (m.progress_cores n)]
  ctxs := (m.progress_same n 0).ctxs
  fields := (m.progress_same n 0).fields
  grids := (m.progress_same n 0).grids
  nextGrid := (m.progress_same n 0).nextGrid
  fab := (m.progress_same n 0).fab
  esc := (m.progress_same n 0).esc
  ms := by rw [(m.progress_same n 0).ms]

theorem Module.count_beside (m : Module) (g : Nat × Nat × Nat) (code n : Nat) (e : Ev) (hg : g.1 + g.2.1 < 4000) :
    Beside [] m (m.count g code n e) := (m.count_quiet g code n e hg).beside

theorem Module.countPart_beside (m : Module) (k code n : Nat) : Beside [] m (m.countPart k code n) :=
  (m.countPart_quiet k code n (keyCore_lt k)).beside

/-- Moving on past an instruction is written in the thread, and counted. -/
theorem Module.retire_beside (m : Module) (k : Nat) (wide : Bool) :
    Beside [] (m.setTh k { m.th k with ip := (m.th k).ip + 8, retiredAt := m.pilot }) (m.retire k wide) := by
  have clock := Beside.setCore (m.setTh k { m.th k with ip := (m.th k).ip + 8, retiredAt := m.pilot }) (k / 8)
    (if wide then { m.core (k / 8) with lastWide := keyThread k, clockOn := true }
      else { m.core (k / 8) with lastScalar := keyThread k, clockOn := true }) (by cases wide <;> rfl)
  exact (clock.trans (Module.countPart_beside _ k (if wide then 3 else 2) 1)).trans (Module.progress_beside _ _)

theorem Module.settle_beside (m : Module) (k : Nat) : Beside [k] m (m.settle k) := by
  unfold Module.settle
  exact Beside.ite _ (Beside.refl _ m) (Beside.setTh m k _)

/-- The module in which an instruction issues differs from the one before in its thread. -/
theorem State.issuing_beside (s : State) (th : ThreadId) : Beside [ThreadId.key th] s.m (s.issuing th) :=
  have fresh : Beside [ThreadId.key th] s.m s.m.fresh := { Beside.refl _ s.m with pilot := rfl }
  fresh.trans (Module.settle_beside _ _)

/-! ### Lookups (12 R279) -/

theorem Module.cacheTouch_beside (m : Module) (w : Who) (pc off : Nat) (write whole : Bool) : Beside [] m (m.cacheTouch w pc off write whole) := by
  have counted : ∀ {x : Module} (code n : Nat) (e : Ev), Beside [] m x → Beside [] m (x.count pmcMem code n e) :=
    fun code n e hx => hx.trans (Module.count_beside _ pmcMem code n e (by decide))
  unfold Module.cacheTouch
  refine Beside.trans (b := _) ?_ (Beside.each [] _ _ (fun x _ => Module.count_beside x pmcMem _ _ _ (by decide)) _)
  exact Beside.ite _ (counted _ _ _ (Beside.sets m _)) (counted _ _ _ (counted _ _ _ (Beside.sets m _)))

theorem Module.far_beside (m : Module) (w : Who) (n : Nat) (write : Bool) : Beside [] m (m.far w n write) :=
  Beside.ite _ (m.count_beside pmcHmp _ _ _ (by decide)) (Beside.refl [] m)

theorem Module.touch_beside (m : Module) (w : Who) (p : Place) (n : Nat) (write : Bool) : Beside [] m (m.touch w p n write) := by
  unfold Module.touch
  cases p with
  | hbm pc off => exact (Beside.each [] _ _ (fun x _ => x.cacheTouch_beside _ _ _ _ _) m).trans (Module.far_beside _ w n write)
  | host a => exact (Beside.ite _ (m.count_beside pmcHost _ _ _ (by decide)) (Beside.refl [] m)).trans (Module.far_beside _ w n write)
  | ctier a =>
    have tier := m.count_beside pmcHmp 5 n { Ev.none with ctx := some w.ctx, master := w.origin } (by decide)
    exact Beside.ite _ tier (tier.trans (Module.count_beside _ pmcHmp _ _ _ (by decide)))
  | store c off => exact Beside.refl [] m
  | hstore c off => exact Beside.refl [] m

theorem Module.askPiece_beside (m : Module) (w : Who) (p : Place) (n : Nat) (write lead whole : Bool) :
    Beside [] m (m.askPiece w p n write lead whole) := by
  cases p with
  | hbm pc off => exact (Beside.ite _ (m.cacheTouch_beside w pc off write whole) (Beside.refl [] m)).trans (Module.far_beside _ w n write)
  | ctier a => exact m.touch_beside w (.ctier a) n write
  | host a => exact m.touch_beside w (.host a) n write
  | store c off => exact Beside.refl [] m
  | hstore c off => exact Beside.refl [] m

theorem Module.askPieces_beside (m : Module) (w : Who) (l : List (Place × Nat)) : Beside [] m (m.askPieces w l) :=
  List.foldlRecOn (motive := fun r : Module × List Nat => Beside [] m r.1) l _ (Beside.refl [] m)
    (fun _ hr _ _ => hr.trans (Module.askPiece_beside _ _ _ _ _ _ _))

theorem Module.askWalks_beside (m : Module) (w : Who) (va n : Nat) : Beside [] m (m.askWalks w va n) := m.askPieces_beside _ _

theorem Module.touchRange_beside (m : Module) (w : Who) (l : List ((Nat × Nat) × Xlat)) : Beside [] m (m.touchRange w l) := m.askPieces_beside _ _

theorem Module.countReq_beside (m : Module) (k : Nat) (p : Place) (lead : Bool) : Beside [] m (m.countReq k p lead) := by
  cases p with
  | store c off => exact Beside.refl [] m
  | hstore c off => exact Beside.refl [] m
  | _ => exact Beside.ite _ (m.countPart_beside k 9 1) (Beside.refl [] m)

/-- The module after translating by a walk, whatever it finds, holds one more translation and has looked up the entries. -/
def Module.translated (m : Module) (k va : Nat) (kept : Option Walk) : Module :=
  (if (SMap.get none (m.core (k / 8)).tlb (va / 2 ^ 21)).isSome then m
    else m.askPieces { ctx := (m.th k).ctx, master := keyKind k, lc := false }
      ((m.walkPlaces (m.th k).ctx va).map (fun p => (p, 8)))).setCore (k / 8)
    { m.core (k / 8) with tlb := SMap.set none (m.core (k / 8)).tlb (va / 2 ^ 21) kept }

theorem Module.translated_beside (m : Module) (k va : Nat) (kept : Option Walk) : Beside [] m (m.translated k va kept) := by
  have asked := Beside.ite ((SMap.get none (m.core (k / 8)).tlb (va / 2 ^ 21)).isSome = true) (Beside.refl [] m)
    (m.askPieces_beside { ctx := (m.th k).ctx, master := keyKind k, lc := false } ((m.walkPlaces (m.th k).ctx va).map (fun p => (p, 8))))
  exact asked.trans (Beside.setCore _ (k / 8) _ (asked.coreGrids (k / 8)).symm)

theorem ite_keeps {α β : Type} (c : Prop) [Decidable c] {a b : α × β} {m : α} (ha : ∃ x, a = (m, x)) (hb : ∃ x, b = (m, x)) :
    ∃ x, (if c then a else b) = (m, x) := by
  split
  · exact ha
  · exact hb

/-- The core-local window is no translation (02 R33). -/
theorem Module.thXlat_window (m : Module) (k va : Nat) (acc : Access) (h : ¬ 2 ^ 48 ≤ va) (hw : windowBase ≤ va) :
    ∃ x, m.thXlat k va acc = (m, x) := by
  rw [Module.thXlat, if_neg h, if_pos hw]
  exact ite_keeps _ ⟨_, rfl⟩ (ite_keeps _ ⟨_, rfl⟩ ⟨_, rfl⟩)

theorem Module.thXlat_translated (m : Module) (k va : Nat) (acc : Access) (h : ¬ 2 ^ 48 ≤ va) (hw : ¬ windowBase ≤ va) :
    ∃ kept, (m.thXlat k va acc).1 = m.translated k va kept := by
  rw [Module.thXlat, if_neg h, if_neg hw]
  dsimp only
  split <;> exact ⟨_, rfl⟩

/-- Translating for a thread caches the walk and looks its entries up (02 R38). -/
theorem Module.thXlat_beside (m : Module) (k va : Nat) (acc : Access) : Beside [] m (m.thXlat k va acc).1 := by
  by_cases h : 2 ^ 48 ≤ va
  · rw [show m.thXlat k va acc = (m, .fault cNonCanonical) from if_pos h]
    exact Beside.refl [] m
  · by_cases hw : windowBase ≤ va
    · obtain ⟨x, hx⟩ := m.thXlat_window k va acc h hw
      rw [hx]
      exact Beside.refl [] m
    · obtain ⟨kept, hx⟩ := m.thXlat_translated k va acc h hw
      rw [hx]
      exact m.translated_beside k va kept

/-! ### Fields that nothing beside changes -/

/-- A key outside EVC, PWR and PMC that is the state of no port and of no watchdog is no side field. -/
theorem sideField_eq_false {k : Nat} (hk : k < 0x100000 * 64 ∨ 0x400000 * 64 ≤ k) (hp : ∀ p, p < 16 → (Reg.FAB_PSTAT.state p).key ≠ k)
    (hw : ∀ n, n < 64 → (Reg.LMP_WDOG.state n).key ≠ k) : sideField k = false := by
  have block : (decide (0x100000 * 64 ≤ k) && decide (k < 0x400000 * 64)) = false := by
    obtain h | h := hk
    · rw [decide_eq_false (Nat.not_le.mpr h), Bool.false_and]
    · rw [decide_eq_false (Nat.not_lt.mpr h), Bool.and_false]
  have port : ((List.range 16).any fun p => (Reg.FAB_PSTAT.state p).key == k) = false :=
    List.any_eq_false.mpr fun p h => by simpa using hp p (List.mem_range.mp h)
  have watch : ((List.range 64).any fun n => (Reg.LMP_WDOG.state n).key == k) = false :=
    List.any_eq_false.mpr fun n h => by simpa using hw n (List.mem_range.mp h)
  rw [sideField, block, port, watch]
  rfl

theorem sideField_page {k : Nat} (h : k < 0x100000 * 64) : sideField k = false :=
  sideField_eq_false (.inl h) (fun p _ => by simp only [Fld.key, Reg.FAB_PSTAT.state]; omega)
    (fun n _ => by simp only [Fld.key, Reg.LMP_WDOG.state]; omega)

/-- Beyond PMC a side field is the state of a port or of a watchdog, which lie at bit 60. -/
theorem sideField_above {k : Nat} (h : 0x400000 * 64 ≤ k) (hb : k % 64 ≠ 60) : sideField k = false :=
  sideField_eq_false (.inr h) (fun p _ => by simp only [Fld.key, Reg.FAB_PSTAT.state]; omega)
    (fun n _ => by simp only [Fld.key, Reg.LMP_WDOG.state]; omega)

section
variable {ks : List Nat} {m m' : Module} (h : Elsewhere ks m m')
include h

theorem Elsewhere.page {f : Fld} (hf : f.key < 0x100000 * 64) : m'.getF f = m.getF f := h.fields f (sideField_page hf)

theorem Elsewhere.above {f : Fld} (hf : 0x400000 * 64 ≤ f.key) (hb : f.key % 64 ≠ 60) : m'.getF f = m.getF f :=
  h.fields f (sideField_above hf hb)

theorem Elsewhere.linkUp : m'.linkUp = m.linkUp := by
  unfold Module.linkUp
  rw [h.page (by decide)]

theorem Elsewhere.myId : m'.myId = m.myId := h.above (by decide) (by decide)

theorem Elsewhere.hold (n : Nat) : m'.getF (Reg.MEM_HOLD.held n) = m.getF (Reg.MEM_HOLD.held n) := by
  apply h.above <;> simp only [Fld.key, Reg.MEM_HOLD.held] <;> omega

theorem Elsewhere.noHolds : m'.noHolds = m.noHolds := by
  unfold Module.noHolds
  simp only [h.hold]

theorem Elsewhere.ctxState {n : Nat} (hn : n < 64) : m'.ctxState n = m.ctxState n := by
  apply h.page
  simp only [Fld.key, Reg.HIF_CTXSTAT.state]
  omega

theorem Elsewhere.ctxLive {n : Nat} (hn : n < 64) : m'.ctxLive n = m.ctxLive n := by rw [Module.ctxLive, Module.ctxLive, h.ctxState hn]

theorem Elsewhere.root (n : Nat) : (m'.ctx n).root = (m.ctx n).root :=
  have e := congrArg (fun c : Context => c.root) (h.ctxs n)
  e

theorem Elsewhere.touched (n : Nat) : (m'.ctx n).touched = (m.ctx n).touched :=
  have e := congrArg (fun c : Context => c.touched) (h.ctxs n)
  e

theorem Elsewhere.waitRecs (n : Nat) : (m'.ctx n).waitRecs = (m.ctx n).waitRecs :=
  have e := congrArg (fun c : Context => c.waitRecs) (h.ctxs n)
  e

theorem Elsewhere.alone {th : ThreadId} (hk : ks ⊆ [ThreadId.key th]) : Alone m m' th :=
  ⟨fun j hj => h.th j (fun hm => hj (by simpa using hk hm)), h.fields⟩

end

/-! ### What is read and translated alike -/

/-- The memories differ in no more than the lines that the slices hold, and the page tables and the fields that translation reads are the
same. -/
structure Alike (m m' : Module) : Prop where
  fields : ∀ f : Fld, sideField f.key = false → m'.getF f = m.getF f
  root : ∀ n, (m'.ctx n).root = (m.ctx n).root
  ms : m'.ms = { m.ms with sets := m'.ms.sets }

theorem Beside.alike {ks : List Nat} {m m' : Module} (h : Beside ks m m') : Alike m m' := ⟨h.fields, h.root, h.ms⟩

section
variable {m m' : Module} (h : Alike m m')
include h

theorem Alike.carveL : m'.carveL = m.carveL := h.fields Reg.MEM_CARVE.active (sideField_above (by decide) (by decide))

theorem Alike.linkUp : m'.linkUp = m.linkUp := by
  unfold Module.linkUp
  rw [h.fields _ (sideField_page (by decide))]

theorem Alike.held (pc : Nat) : m'.held pc = m.held pc := by
  unfold Module.held
  rw [h.fields]
  apply sideField_above <;> simp only [Fld.key, Reg.MEM_HOLD.held] <;> omega

theorem Alike.sameBytes : SameBytes m m' := by
  refine ⟨fun c => ?_, by rw [h.ms]⟩
  unfold Module.byteAt
  rw [h.ms]

theorem Alike.readPlace (p : Place) (n : Nat) : m'.readPlace p n = m.readPlace p n := by
  unfold Module.readPlace
  rw [h.ms]

theorem Alike.badPlace (p : Place) (n : Nat) : m'.badPlace p n = m.badPlace p n := by
  unfold Module.badPlace
  rw [h.ms, h.linkUp]

theorem Alike.localBytes : m'.localBytes = m.localBytes := by rw [Module.localBytes, Module.localBytes, h.carveL]

theorem Alike.spreadBytes : m'.spreadBytes = m.spreadBytes := by rw [Module.spreadBytes, Module.spreadBytes, h.carveL]

theorem Alike.leafOk (e : Nat) (big : Bool) : m'.leafOk e big = m.leafOk e big := by
  simp only [Module.leafOk, h.localBytes, h.spreadBytes]

theorem Alike.walk (ctx va : Nat) : m'.walk ctx va = m.walk ctx va := by
  simp only [Module.walk, h.root, h.badPlace, h.readPlace, h.leafOk, h.spreadBytes]

theorem Alike.walkPlaces (ctx va : Nat) : m'.walkPlaces ctx va = m.walkPlaces ctx va := by
  simp only [Module.walkPlaces, h.root, h.badPlace, h.readPlace, h.spreadBytes]

theorem Alike.ctxXlat (ctx va : Nat) (acc : Access) : m'.ctxXlat ctx va acc = m.ctxXlat ctx va acc := by
  simp only [Module.ctxXlat, h.walk, Module.pagePlace, h.carveL]

theorem Alike.xlatRange (ctx va n : Nat) (acc : Access) : m'.xlatRange ctx va n acc = m.xlatRange ctx va n acc := by
  simp only [Module.xlatRange, h.ctxXlat]

/-- The slices hold the same lines, so the same accesses wait for a held channel. -/
theorem Alike.mustWait (hm : m'.ms = m.ms) (p : Place) : m'.mustWait p = m.mustWait p := by
  cases p <;> simp only [Module.mustWait, h.held, Module.cacheHit, Module.sectorWaits, hm]

theorem Alike.rangeHeld (hm : m'.ms = m.ms) (ctx va n : Nat) (acc : Access) : m'.rangeHeld ctx va n acc = m.rangeHeld ctx va n acc := by
  simp only [Module.rangeHeld, Module.rangeWalks, Module.anyHeld, h.walkPlaces, h.xlatRange, funext (h.mustWait hm)]

end

section
variable {ks : List Nat} {m m' : Module} (h : Beside ks m m')
include h

theorem Beside.sameBytes : SameBytes m m' := h.alike.sameBytes

theorem Beside.readPlace (p : Place) (n : Nat) : m'.readPlace p n = m.readPlace p n := h.alike.readPlace p n

theorem Beside.badPlace (p : Place) (n : Nat) : m'.badPlace p n = m.badPlace p n := h.alike.badPlace p n

theorem Beside.waiting : m'.ms.waiting = m.ms.waiting := by rw [h.ms]

end

theorem SameBytes.trans {a b c : Module} (h : SameBytes a b) (g : SameBytes b c) : SameBytes a c :=
  ⟨fun x => (g.1 x).trans (h.1 x), g.2.trans h.2⟩

theorem Alone.trans {a b c : Module} {th : ThreadId} (h : Alone a b th) (g : Alone b c th) : Alone a c th :=
  ⟨fun j hj => (g.1 j hj).trans (h.1 j hj), fun f hf => (g.2 f hf).trans (h.2 f hf)⟩

/-- What is counted beside a violation leaves it as it is. -/
theorem Violates.beside {ks ls : List Nat} {a b c d : Module} {n unit addr : Nat} (hn : n < 64) (h : Elsewhere ks a b)
    (v : Violates b c n unit addr) (g : Elsewhere ls c d) : Violates a d n unit addr := by
  obtain ⟨hc, hu, ha⟩ := v
  refine ⟨?_, ?_, ?_⟩
  · rw [g.page, hc, h.page] <;> simp only [Fld.key, Reg.HIF_VIOL.count] <;> omega
  · rw [g.page, hu]; simp only [Fld.key, Reg.HIF_VLOG.unit]; omega
  · rw [g.page, ha]; simp only [Fld.key, Reg.HIF_VLOG.address]; omega

end Sys2Proof.Machine
end

section
/-! PROOFS of the threads family, second part: what an access of a thread does: when it may be made, how it is kept outstanding, what it stores,
what a violation counts, and how a fault stops the thread. -/

namespace Sys2Proof.Machine

/-! ### When an access is made (15 R373; 12 R293) -/

/-- An access whose ordering allows it, and whose walks do not wait, is made. -/
theorem Module.ordered_made {m : Module} {k ord : Nat} {vas : List Nat} (body : Module → Module) (ha : m.acqPending k = false)
    (hv : vas.any (m.walkHeld k) = false) (hr : 2 ≤ ord → m.drained k = true ∧ (m.th k).deferred = []) :
    m.ordered k ord vas body = body m := by
  rw [Module.ordered, if_neg (by simp [ha, hv])]
  split
  · next h =>
    obtain ⟨hd, hf⟩ := hr h
    simp [Module.afterDrain, hd, hf]
  · rfl

/-- An access whose walk waits for a held channel is not made. -/
theorem Module.ordered_waits {m : Module} {k ord : Nat} {vas : List Nat} (body : Module → Module) (hv : vas.any (m.walkHeld k) = true) :
    m.ordered k ord vas body = m := by
  rw [Module.ordered, if_pos (by simp [hv])]

/-! ### The issuing module -/

theorem State.walked_beside (s : State) (th : ThreadId) (va : Nat) (acc : Access) : Beside [ThreadId.key th] s.m (s.walked th va acc) :=
  (s.issuing_beside th).trans (Module.thXlat_beside _ _ _ _).mono

/-- What is made beside after the translation leaves the thread as it issues. -/
theorem State.thread_walked {s : State} {th : ThreadId} {va : Nat} {acc : Access} {m : Module} (h : Beside [] (s.walked th va acc) m) :
    m.th (ThreadId.key th) = s.thread th :=
  (h.th _ List.not_mem_nil).trans ((Module.thXlat_beside _ _ _ _).th _ List.not_mem_nil)

theorem State.pilot_walked {s : State} {th : ThreadId} {va : Nat} {acc : Access} {m : Module} (h : Beside [] (s.walked th va acc) m) :
    m.pilot = s.m.pilot :=
  h.pilot.trans ((s.walked_beside th va acc).pilot)

/-- Every access of the thread that is outstanding as it issues has something left to be performed or counted. -/
theorem Module.settle_open (m : Module) (k : Nat) : ((m.settle k).th k).outst.filter Outst.ready = [] := by
  have kept : ∀ (l : List Outst) (t : Thread), (l.foldl Thread.deliver t).outst = t.outst := by
    have put : ∀ (gs : List Got) (t : Thread), (gs.foldl Thread.put t).outst = t.outst := fun gs => by
      induction gs with
      | nil => intro t; rfl
      | cons g gs ih =>
        intro t
        refine (ih _).trans ?_
        unfold Thread.put Thread.setSN Thread.setS
        split
        · rfl
        · split <;> rfl
    intro l
    induction l with
    | nil => intro t; rfl
    | cons o l ih => exact fun t => (ih _).trans (put _ t)
  unfold Module.settle
  dsimp only
  split
  · next h => exact List.isEmpty_iff.mp h
  · rw [Module.th_setTh_self, kept]
    simp [List.filter_filter]

/-! ### An access that is kept outstanding (15 R371) -/

/-- The thread with one more access outstanding. -/
def Thread.opens (t : Thread) (o : Outst) : Thread := { t with outst := t.outst ++ [{ o with id := t.issued }], issued := t.issued + 1 }

/-- The access that an instruction of the thread makes. -/
def Thread.access (t : Thread) (got : List Got) (left : Nat) (isLoad acq : Bool) (dstS dstV : List Nat) (addr device : Nat) (tag : Option Nat)
    (vec : Bool) : Outst :=
  { id := 0, ip := t.ip, isLoad := isLoad, acq := acq, dstS := dstS, dstV := dstV, got := got, left := left, cause := 0, addr := addr,
    device := device, tag := tag, vec := vec }

theorem Module.recordAccess_opens (m : Module) (k : Nat) {got : List Got} {left : Nat} (h : got ≠ [] ∨ left ≠ 0) (isLoad acq : Bool)
    (dstS dstV : List Nat) (addr device : Nat) (tag : Option Nat) (vec : Bool) :
    m.recordAccess k got left isLoad acq dstS dstV addr device tag vec =
      m.setTh k ((m.th k).opens ((m.th k).access got left isLoad acq dstS dstV addr device tag vec)) := by
  rw [Module.recordAccess, if_neg ?_]
  · rfl
  · obtain h | h := h <;> simp [h]

/-- Nothing performed and nothing left: nothing is kept. -/
theorem Module.recordAccess_nothing (m : Module) (k : Nat) (isLoad acq : Bool) (dstS dstV : List Nat) (addr device : Nat) (tag : Option Nat)
    (vec : Bool) : m.recordAccess k [] 0 isLoad acq dstS dstV addr device tag vec = m := rfl

/-- Moving on with one more access outstanding. -/
theorem State.issued_retire {s : State} {th : ThreadId} {m : Module} (hp : m.pilot = s.m.pilot)
    (o : Outst) (wide : Bool) :
    Issued s th ((m.setTh (ThreadId.key th) ((s.thread th).opens o)).retire (ThreadId.key th) wide) o.left :=
  ⟨{ o with id := (s.thread th).issued }, rfl, by rw [Module.retire_th, Module.th_setTh_self]; simp only [Thread.opens]; rw [← hp]; rfl⟩

/-- Moving on, whatever is outstanding, touches the thread and what is beside it. -/
theorem Module.setTh_retire_beside (m : Module) (k : Nat) (t : Thread) (wide : Bool) : Beside [k] m ((m.setTh k t).retire k wide) :=
  ((Beside.setTh m k t).trans (Beside.setTh _ k _)).trans (Module.retire_beside _ k wide).mono

theorem Module.retire_beside_self (m : Module) (k : Nat) (wide : Bool) : Beside [k] m (m.retire k wide) :=
  (Beside.setTh m k _).trans (Module.retire_beside m k wide).mono

/-- The value of a performed load is what the next instruction reads from its register. -/
theorem Module.settledS_last {m : Module} {th : ThreadId} {l : List Outst} {o : Outst} {g : Got}
    (hm : (m.th (ThreadId.key th)).outst = l ++ [o]) (hl : l.filter Outst.ready = []) (hw : o.left = 0) (hg : o.got = [g]) (hviol : g.viol = false)
    (hv : g.vec = false) (hr : g.reg ≠ 0) : m.settledS th g.reg = BitVec.ofNat 64 g.val := by
  have ready : o.ready = true := by simp [Outst.ready, hw, hg, hviol]
  have done : (m.th (ThreadId.key th)).outst.filter Outst.ready = [o] := by rw [hm, List.filter_append, hl]; simp [ready]
  simp only [Module.settledS, Module.settle, done, List.isEmpty_cons, Bool.false_eq_true, if_false, Module.th_setTh_self, List.foldl_cons,
    List.foldl_nil, Thread.deliver, hg, Thread.put, hv, Thread.setSN, Thread.setS, Thread.getS, if_neg hr, SMap.get_set_self]

/-! ### An access that waits for a held channel (12 R293) -/

theorem Elsewhere.setMs (m : Module) (x : MemSys) : Elsewhere [] m (m.setMs x) := { Elsewhere.refl [] m with pilot := rfl }

/-- An access waits as one entry more, and changes nothing else. Only a place in HBM waits. -/
theorem Module.wait_adds {m : Module} {p : Place} (hp : m.mustWait p = true) (x : Module) (k va n : Nat) (act : ElemAct) (lc lead whole : Bool) :
    Elsewhere [] x (x.wait k p va n act lc lead whole) ∧ SameBytes x (x.wait k p va n act lc lead whole) ∧
    ∃ e, (x.wait k p va n act lc lead whole).ms.waiting = x.ms.waiting ++ [e] ∧ e.thread = k ∧ e.place = p ∧ e.size = n ∧ e.act = act := by
  cases p with
  | hbm pc off => exact ⟨Elsewhere.setMs x _, ⟨fun _ => rfl, rfl⟩, _, rfl, rfl, rfl, rfl, rfl⟩
  | _ => cases hp

/-! ### What a store writes -/

theorem Elsewhere.writePlace (m : Module) (p : Place) (n v : Nat) : Elsewhere [] m (m.writePlace p n v) := by
  cases p with
  | host a =>
    simp only [Module.writePlace]
    split
    · exact Elsewhere.setMs m _
    · exact Elsewhere.refl [] m
  | _ => exact Elsewhere.setMs m _

theorem Elsewhere.clearMark (m : Module) (p : Place) : Elsewhere [] m (m.clearMark p) := by
  cases p with
  | hbm pc off => exact Elsewhere.setMs m _
  | ctier a => exact Elsewhere.setMs m _
  | _ => exact Elsewhere.refl [] m

/-- Writing one piece stores it and changes nothing else but what is beside. -/
theorem Module.putPiece_stored (m : Module) (w : Who) (p : Place) (n v : Nat) (lead whole : Bool) :
    StoresAt m (m.putPiece w p n v lead whole) p n v ∧ Elsewhere [] m (m.putPiece w p n v lead whole) := by
  have asked := m.askPiece_beside w p n true lead whole
  have stored := (StoresAt.writePlace (m.askPiece w p n true lead whole) p n v).after asked.sameBytes asked.linkUp
  have rest := asked.toElsewhere.trans (Elsewhere.writePlace (m.askPiece w p n true lead whole) p n v)
  unfold Module.putPiece
  cases whole with
  | true => exact ⟨stored.before (Module.clearMark_bytes _ p), rest.trans (Elsewhere.clearMark _ p)⟩
  | false => exact ⟨stored, rest⟩

/-! ### A violation of a thread (22 R530) -/

/-- One violation is counted against the thread's context; nothing of the memories and no thread changes. -/
theorem Module.thViol_one (m : Module) (k addr : Nat) :
    ∃ v : Module, v = m.violate (m.th k).ctx 1 (addr % 2 ^ 48) ∧ m.thViol k addr 1 = v.countPart k 0x0B 1 := ⟨_, rfl, rfl⟩

theorem Module.thViol_ms (m : Module) (k addr n : Nat) : (m.thViol k addr n).ms = m.ms := by
  unfold Module.thViol
  split
  · rfl
  · rw [((Module.countPart_quiet _ k 0x0B n (keyCore_lt k)).same 0).ms]
    unfold Module.violateN
    split <;> rfl

theorem Module.thViol_threads (m : Module) (k addr n : Nat) : (m.thViol k addr n).threads = m.threads := by
  unfold Module.thViol
  split
  · rfl
  · rw [(Module.countPart_quiet _ k 0x0B n (keyCore_lt k)).threads]
    unfold Module.violateN
    split <;> rfl

theorem Module.thViol_pilot (m : Module) (k addr n : Nat) : (m.thViol k addr n).pilot = m.pilot := by
  unfold Module.thViol
  split
  · rfl
  · rw [((Module.countPart_quiet _ k 0x0B n (keyCore_lt k)).same 0).pilot]
    unfold Module.violateN
    split <;> rfl

theorem SameBytes.of_ms {m m' : Module} (h : m'.ms = m.ms) : SameBytes m m' :=
  ⟨fun c => by unfold Module.byteAt; rw [h], by rw [h]⟩

theorem Violates.mod {m m' : Module} {n unit addr : Nat} (h : Violates m m' n unit (addr % 2 ^ 48)) : Violates m m' n unit addr := by
  obtain ⟨hc, hu, ha⟩ := h
  exact ⟨hc, hu, ha.trans (Nat.mod_mod _ _)⟩

theorem Module.thViol_violates (m : Module) (k addr : Nat) (hn : (m.th k).ctx < 64) : Violates m (m.thViol k addr 1) (m.th k).ctx 1 addr :=
  have counted := (Module.countPart_beside (m.violate (m.th k).ctx 1 (addr % 2 ^ 48)) k 0x0B 1).toElsewhere
  (Violates.beside hn (Elsewhere.refl [] m) (m.violate_violates _ 1 _ (by decide)) counted).mod

/-! ### Fault records (02 R50, R53; 22 R528) -/

theorem Module.ringFull_elsewhere {ks : List Nat} {a b : Module} (h : Elsewhere ks a b) {n : Nat} (hn : n < 64) : b.ringFull n = a.ringFull n := by
  have base : b.getF (Reg.HIF_FRING.base n) = a.getF (Reg.HIF_FRING.base n) := h.page (by simp only [Fld.key, Reg.HIF_FRING.base]; omega)
  have head : b.getF (Reg.HIF_FPTR.head n) = a.getF (Reg.HIF_FPTR.head n) := h.page (by simp only [Fld.key, Reg.HIF_FPTR.head]; omega)
  have tail : b.getF (Reg.HIF_FPTR.tail n) = a.getF (Reg.HIF_FPTR.tail n) := h.page (by simp only [Fld.key, Reg.HIF_FPTR.tail]; omega)
  have size : b.getF (Reg.HIF_FRING.size n) = a.getF (Reg.HIF_FRING.size n) := h.page (by simp only [Fld.key, Reg.HIF_FRING.size]; omega)
  rw [Module.ringFull, Module.ringFull, base, head, tail, size]

/-- What is made beside a record leaves it as it is. -/
theorem Recorded.beside {ks ls : List Nat} {a b c d : Module} {n : Nat} {r : FaultRec} (hn : n < 64) (h : Beside ks a b) (v : Recorded b c n r)
    (g : Beside ls c d) : Recorded a d n r := by
  have base : b.getF (Reg.HIF_FRING.base n) = a.getF (Reg.HIF_FRING.base n) := h.page (by simp only [Fld.key, Reg.HIF_FRING.base]; omega)
  have head : b.getF (Reg.HIF_FPTR.head n) = a.getF (Reg.HIF_FPTR.head n) := h.page (by simp only [Fld.key, Reg.HIF_FPTR.head]; omega)
  have head' : d.getF (Reg.HIF_FPTR.head n) = c.getF (Reg.HIF_FPTR.head n) := g.page (by simp only [Fld.key, Reg.HIF_FPTR.head]; omega)
  have size : b.getF (Reg.HIF_FRING.size n) = a.getF (Reg.HIF_FRING.size n) := h.page (by simp only [Fld.key, Reg.HIF_FRING.size]; omega)
  obtain ⟨kept, written⟩ := v
  rw [Module.ringFull_elsewhere h.toElsewhere hn] at kept written
  refine ⟨fun hf => ?_, fun hf => ?_⟩
  · obtain ⟨hw, hm⟩ := kept hf
    exact ⟨by rw [g.waitRecs, hw, h.waitRecs], by rw [g.ms, hm, h.ms]⟩
  · have w := written hf
    simp only [base, head, size, h.linkUp] at w
    simp only [head', g.readPlace]
    exact w

theorem Module.readPlace_host_write (m : Module) (hl : m.linkUp = true) (a b n v : Nat) (h : b + 8 ≤ a ∨ a + n ≤ b) :
    (m.writePlace (.host a) n v).readPlace (.host b) 8 = m.readPlace (.host b) 8 := by
  simp only [Module.writePlace, hl, if_true, Module.readPlace]
  exact Memory.read_write_out n 8 _ _ _ _ h

theorem Module.readPlace_host_self (m : Module) (hl : m.linkUp = true) (a : Nat) (w : Word) :
    (m.writePlace (.host a) 8 w.toNat).readPlace (.host a) 8 = w.toNat := by
  simp only [Module.writePlace, hl, if_true, Module.readPlace]
  exact (Memory.read_write 8 _ _ _).trans (Nat.mod_eq_of_lt w.isLt)

/-- The four words of a record, written in the host from an address on. -/
def Module.writeRecord (m : Module) (a : Nat) (r : FaultRec) : Module :=
  (((m.writePlace (.host a) 8 r.w0.toNat).writePlace (.host (a + 8)) 8 r.w1.toNat).writePlace (.host (a + 16)) 8
    r.w2.toNat).writePlace (.host (a + 24)) 8 r.w3.toNat

/-- Where the next record of context `n` is written. -/
def Module.recordAt (m : Module) (n : Nat) : Nat :=
  m.getF (Reg.HIF_FRING.base n) * 4096 + m.getF (Reg.HIF_FPTR.head n) % 2 ^ (m.getF (Reg.HIF_FRING.size n) + 4) * 32

theorem Module.putRecord_eq (m : Module) (n : Nat) (r : FaultRec) :
    m.putRecord n r = ((((m.writeRecord (m.recordAt n) r).touch { ctx := n, master := 6, lc := false } (.host (m.recordAt n)) 32 true).addF
      (Reg.HIF_FPTR.head n) 1).raise (256 + n)) := rfl

theorem Elsewhere.writeRecord (m : Module) (a : Nat) (r : FaultRec) : Elsewhere [] m (m.writeRecord a r) :=
  (((Elsewhere.writePlace m _ _ _).trans (Elsewhere.writePlace _ _ _ _)).trans (Elsewhere.writePlace _ _ _ _)).trans
    (Elsewhere.writePlace _ _ _ _)

/-- The four words of a record stand in the host, when it can be reached. -/
theorem Module.writeRecord_reads (m : Module) (hl : m.linkUp = true) (a : Nat) (r : FaultRec) :
    (m.writeRecord a r).readPlace (.host a) 8 = r.w0.toNat ∧ (m.writeRecord a r).readPlace (.host (a + 8)) 8 = r.w1.toNat ∧
      (m.writeRecord a r).readPlace (.host (a + 16)) 8 = r.w2.toNat ∧ (m.writeRecord a r).readPlace (.host (a + 24)) 8 = r.w3.toNat := by
  have up : ∀ (x : Module) (b v : Nat), x.linkUp = true → (x.writePlace (.host b) 8 v).linkUp = true :=
    fun x b v hx => (Elsewhere.writePlace x (.host b) 8 v).linkUp.trans hx
  have h1 := up m a r.w0.toNat hl
  have h2 := up _ (a + 8) r.w1.toNat h1
  have h3 := up _ (a + 16) r.w2.toNat h2
  unfold Module.writeRecord
  refine ⟨?_, ?_, ?_, Module.readPlace_host_self _ h3 _ _⟩
  · rw [Module.readPlace_host_write _ h3 _ _ _ _ (by omega), Module.readPlace_host_write _ h2 _ _ _ _ (by omega),
      Module.readPlace_host_write _ h1 _ _ _ _ (by omega), Module.readPlace_host_self _ hl]
  · rw [Module.readPlace_host_write _ h3 _ _ _ _ (by omega), Module.readPlace_host_write _ h2 _ _ _ _ (by omega),
      Module.readPlace_host_self _ h1]
  · rw [Module.readPlace_host_write _ h3 _ _ _ _ (by omega), Module.readPlace_host_self _ h2]

/-- A record that is written stands at the head of its ring, which moves on. -/
theorem Module.putRecord_written (m : Module) (n : Nat) (r : FaultRec) (hn : n < 64) :
    (m.putRecord n r).getF (Reg.HIF_FPTR.head n) = (m.getF (Reg.HIF_FPTR.head n) + 1) % 2 ^ 32 ∧
    (m.linkUp = true → (m.putRecord n r).readPlace (.host (m.recordAt n)) 8 = r.w0.toNat ∧
      (m.putRecord n r).readPlace (.host (m.recordAt n + 8)) 8 = r.w1.toNat ∧
      (m.putRecord n r).readPlace (.host (m.recordAt n + 16)) 8 = r.w2.toNat ∧
      (m.putRecord n r).readPlace (.host (m.recordAt n + 24)) 8 = r.w3.toNat) := by
  rw [Module.putRecord_eq]
  generalize m.recordAt n = a
  have wrote := Elsewhere.writeRecord m a r
  have asked := (m.writeRecord a r).touch_beside { ctx := n, master := 6, lc := false } (.host a) 32 true
  generalize hx : (m.writeRecord a r).touch { ctx := n, master := 6, lc := false } (.host a) 32 true = x at asked
  have raised := ((x.addF (Reg.HIF_FPTR.head n) 1).raise_quiet (256 + n)).beside
  have key : (Reg.HIF_FPTR.head n).key < 0x100000 * 64 := by simp only [Fld.key, Reg.HIF_FPTR.head]; omega
  refine ⟨?_, fun hl => ?_⟩
  · rw [raised.page key, Module.addF, Module.getF_setF_self, asked.page key, wrote.page key]
    rfl
  · have same : ∀ p, ((x.addF (Reg.HIF_FPTR.head n) 1).raise (256 + n)).readPlace p 8 = (m.writeRecord a r).readPlace p 8 :=
      fun p => (raised.readPlace p 8).trans (asked.readPlace p 8)
    simp only [same]
    exact m.writeRecord_reads hl a r

/-- A record is kept while its ring is full, and otherwise written. -/
theorem Module.faultRecord_recorded (m : Module) (n : Nat) (r : FaultRec) (hn : n < 64) (hl : m.ctxLive n = true) :
    Recorded m (m.faultRecord n r) n r := by
  unfold Module.faultRecord
  rw [hl, Bool.not_true, if_neg Bool.false_ne_true]
  refine ⟨fun hf => ?_, fun hf => ?_⟩
  · rw [if_pos hf]
    exact ⟨by rw [Module.ctx_setCtx_self], rfl⟩
  · rw [if_neg (by simp [hf])]
    exact m.putRecord_written n r hn

/-! ### What a record leaves alone -/

/-- The threads and the marks of poisoned sectors of HBM are as before. -/
structure Unmarked (m m' : Module) : Prop where
  th : ∀ j, m'.th j = m.th j
  poison : m'.ms.poison = m.ms.poison

/-- So are the marks and the count of the capacity tier. -/
structure UnmarkedTier (m m' : Module) : Prop extends Unmarked m m' where
  ctPoison : m'.ms.ctPoison = m.ms.ctPoison
  uncorrected : m'.getF Reg.HMP_CT.uncorrected = m.getF Reg.HMP_CT.uncorrected

theorem Unmarked.trans {a b c : Module} (h : Unmarked a b) (g : Unmarked b c) : Unmarked a c :=
  ⟨fun j => (g.th j).trans (h.th j), g.poison.trans h.poison⟩

theorem UnmarkedTier.trans {a b c : Module} (h : UnmarkedTier a b) (g : UnmarkedTier b c) : UnmarkedTier a c :=
  ⟨h.toUnmarked.trans g.toUnmarked, g.ctPoison.trans h.ctPoison, g.uncorrected.trans h.uncorrected⟩

theorem Beside.apart {m m' : Module} (h : Beside [] m m') : UnmarkedTier m m' where
  th j := h.th j List.not_mem_nil
  poison := by rw [h.ms]
  ctPoison := by rw [h.ms]
  uncorrected := h.above (by decide) (by decide)

theorem UnmarkedTier.writeHost (m : Module) (a n v : Nat) : UnmarkedTier m (m.writePlace (.host a) n v) := by
  simp only [Module.writePlace]
  split <;> exact ⟨⟨fun _ => rfl, rfl⟩, rfl, rfl⟩

theorem UnmarkedTier.addHead (m : Module) (n : Nat) : UnmarkedTier m (m.addF (Reg.HIF_FPTR.head n) 1) where
  th _ := rfl
  poison := rfl
  ctPoison := rfl
  uncorrected := by
    rw [Module.addF, Module.getF_setF_ne]
    simp only [Fld.key, Reg.HMP_CT.uncorrected, Reg.HIF_FPTR.head]
    omega

theorem Module.putRecord_apart (m : Module) (n : Nat) (r : FaultRec) : UnmarkedTier m (m.putRecord n r) := by
  rw [Module.putRecord_eq]
  have wrote : UnmarkedTier m (m.writeRecord (m.recordAt n) r) :=
    (((UnmarkedTier.writeHost m _ _ _).trans (UnmarkedTier.writeHost _ _ _ _)).trans (UnmarkedTier.writeHost _ _ _ _)).trans
      (UnmarkedTier.writeHost _ _ _ _)
  exact ((wrote.trans (Module.touch_beside _ _ _ _ _).apart).trans (UnmarkedTier.addHead _ n)).trans (Module.raise_quiet _ _).beside.apart

theorem Module.faultRecord_apart (m : Module) (n : Nat) (r : FaultRec) : UnmarkedTier m (m.faultRecord n r) := by
  unfold Module.faultRecord
  split
  · exact (Beside.refl [] m).apart
  · split
    · exact ⟨⟨fun _ => rfl, rfl⟩, rfl, rfl⟩
    · exact m.putRecord_apart n r

theorem Unmarked.writeTier (m : Module) (a n v : Nat) : Unmarked m (m.writePlace (.ctier a) n v) := ⟨fun _ => rfl, rfl⟩

theorem Unmarked.clearTier (m : Module) (a : Nat) : Unmarked m (m.clearMark (.ctier a)) := ⟨fun _ => rfl, rfl⟩

theorem Module.putHmpRecord_apart (m : Module) (r : FaultRec) : Unmarked m (m.putHmpRecord r) := by
  unfold Module.putHmpRecord
  have raised : ∀ x : Module, Unmarked m x → Unmarked m ((x.addF Reg.HMP_FPTR.head 1).raise 226) := fun x hx =>
    have added : Unmarked x (x.addF Reg.HMP_FPTR.head 1) := ⟨fun _ => rfl, rfl⟩
    (hx.trans added).trans (Module.raise_quiet _ 226).beside.apart.toUnmarked
  dsimp only
  split
  · exact raised m (Beside.refl [] m).apart.toUnmarked
  · exact raised _ (((((Unmarked.writeTier m _ _ _).trans (Unmarked.writeTier _ _ _ _)).trans (Unmarked.writeTier _ _ _ _)).trans
      (Unmarked.writeTier _ _ _ _)).trans (Unmarked.clearTier _ _))

theorem Module.threadRecord_apart (m : Module) (k : Nat) (r : FaultRec) :
    Unmarked m (m.threadRecord k r) ∧ (keyKind k ≠ 1 → UnmarkedTier m (m.threadRecord k r)) := by
  by_cases h : keyKind k = 1
  · refine ⟨?_, fun hn => absurd h hn⟩
    rw [Module.threadRecord, if_pos h]
    split
    · exact ⟨fun _ => rfl, rfl⟩
    · exact m.putHmpRecord_apart r
  · rw [Module.threadRecord, if_neg h]
    exact ⟨(m.faultRecord_apart _ r).toUnmarked, fun _ => m.faultRecord_apart _ r⟩

/-! ### A thread that stops (02 R50) -/

/-- The module in which the record of a thread that stops is made. -/
def Module.stoppedTh (m : Module) (k : Nat) (ip : Word) : Module := (m.setTh k { m.th k with run := .stopped, ip := ip }).rests k

theorem Module.stopAt_eq (m : Module) (k : Nat) (ip : Word) (cause addr vidx device : Nat) :
    m.stopAt k ip cause addr vidx device =
      ((m.stoppedTh k ip).threadRecord k (mkRecord addr cause (m.th k).ctx (keyCore k) (keyThread k) vidx ip.toNat device)).countPart k 0x0A 1 :=
  rfl

theorem Module.stoppedTh_beside (m : Module) (k : Nat) (ip : Word) :
    Beside [] (m.setTh k { m.th k with run := .stopped, ip := ip }) (m.stoppedTh k ip) :=
  Beside.ite _ (Quiet.pwr _ _).beside (Beside.refl [] _)

/-- A thread that stops leaves every other thread as it is. -/
theorem Module.stopAt_th (m : Module) (k : Nat) (ip : Word) (cause addr vidx device j : Nat) :
    (m.stopAt k ip cause addr vidx device).th j = if j = k then { m.th k with run := .stopped, ip := ip } else m.th j := by
  rw [Module.stopAt_eq, (Module.countPart_beside _ k 0x0A 1).th j List.not_mem_nil, (Module.threadRecord_apart _ k _).1.th,
    (m.stoppedTh_beside k ip).th j List.not_mem_nil, Module.th_setTh]

/-- What a thread that stops leaves of the marks. -/
theorem Module.stopAt_apart (m : Module) (k : Nat) (ip : Word) (cause addr vidx device : Nat) :
    (m.stopAt k ip cause addr vidx device).ms.poison = m.ms.poison ∧ (keyKind k ≠ 1 →
      (m.stopAt k ip cause addr vidx device).ms.ctPoison = m.ms.ctPoison ∧
      (m.stopAt k ip cause addr vidx device).getF Reg.HMP_CT.uncorrected = m.getF Reg.HMP_CT.uncorrected) := by
  have before := (m.stoppedTh_beside k ip).apart
  have after := fun x => (Module.countPart_beside x k 0x0A 1).apart
  have made := (m.stoppedTh k ip).threadRecord_apart k (mkRecord addr cause (m.th k).ctx (keyCore k) (keyThread k) vidx ip.toNat device)
  rw [Module.stopAt_eq]
  exact ⟨((before.toUnmarked.trans made.1).trans (after _).toUnmarked).poison,
    fun h => ⟨((before.trans (made.2 h)).trans (after _)).ctPoison, ((before.trans (made.2 h)).trans (after _)).uncorrected⟩⟩

/-- The record of a thread that stops, which is no thread of an update core, goes to its context. -/
theorem Module.stopAt_recorded (m : Module) (k : Nat) (ip : Word) (cause addr vidx device : Nat) (hk : keyKind k ≠ 1) (hn : (m.th k).ctx < 64)
    (hl : m.ctxLive (m.th k).ctx = true) :
    Recorded m (m.stopAt k ip cause addr vidx device) (m.th k).ctx
      (mkRecord addr cause (m.th k).ctx (keyCore k) (keyThread k) vidx ip.toNat device) := by
  have before : Beside [k] m (m.stoppedTh k ip) := (Beside.setTh m k _).trans (m.stoppedTh_beside k ip).mono
  have ctx : ((m.stoppedTh k ip).th k).ctx = (m.th k).ctx := by
    rw [(m.stoppedTh_beside k ip).th k List.not_mem_nil, Module.th_setTh_self]
  rw [Module.stopAt_eq, Module.threadRecord, if_neg hk, ctx]
  exact Recorded.beside hn before (Module.faultRecord_recorded _ _ _ hn ((before.ctxLive hn).trans hl)) (Module.countPart_beside _ k 0x0A 1)

/-- An instruction that stops its thread before it, after what is beside has been done. -/
theorem Stops.of_exec {i : Instr} {s : State} {th : ThreadId} {m : Module} {c a d : Nat} (h : Beside [] (s.issuing th) m)
    (he : exec i s = .next { s with m := m.faultStop (ThreadId.key th) c a d }) : Stops i s th (s.thread th) c a 0 d := by
  have ht : m.th (ThreadId.key th) = s.thread th := h.th _ List.not_mem_nil
  have before : Beside [ThreadId.key th] s.m m := (s.issuing_beside th).trans h.mono
  unfold Stops
  refine Completes.of_exec he ⟨?_, fun j hj => ?_, fun hk hn hl => ?_⟩
  · rw [Module.faultStop, Module.stopAt_th, if_pos rfl, ht]
  · rw [Module.faultStop, Module.stopAt_th, if_neg hj, before.th j (by simpa using hj)]
  · have r := m.stopAt_recorded (ThreadId.key th) (m.th (ThreadId.key th)).ip c a 0 d hk (by rw [ht]; exact hn)
      ((before.ctxLive (by rw [ht]; exact hn)).trans (by rw [ht]; exact hl))
    rw [ht] at r
    rw [Module.faultStop, ht]
    exact Recorded.beside hn before r (Beside.refl [] _)

end Sys2Proof.Machine
end

section
/-! PROOFS of the threads family, third part: a store of a thread. -/

namespace Sys2Proof.Machine

/-! ### One element to store -/

/-- An access of which one element is to be stored. -/
def Acc1.one (m : Module) (x : Put) : Acc1 := { Acc1.start m with puts := [x] }

section
variable {m : Module} {k va : Nat}

theorem Acc1.store_ok {p : Place} {lc : Bool} (h : (m.thXlat k va .store).2 = .ok p lc) (n e v : Nat) :
    (Acc1.start m).store k va n e v =
      Acc1.one (m.thXlat k va .store).1 { place := p, lc := lc, va := va, size := n, val := v } := by
  unfold Acc1.store Acc1.start
  generalize m.thXlat k va .store = r at *
  obtain ⟨m1, x⟩ := r
  obtain rfl : x = .ok p lc := h
  rfl

theorem Acc1.store_viol (h : (m.thXlat k va .store).2 = .viol) (n e v : Nat) :
    (Acc1.start m).store k va n e v = Acc1.start ((m.thXlat k va .store).1.thViol k va 1) := by
  unfold Acc1.store Acc1.start
  generalize m.thXlat k va .store = r at *
  obtain ⟨m1, x⟩ := r
  obtain rfl : x = .viol := h
  rfl

theorem Acc1.store_fault {c : Nat} (h : (m.thXlat k va .store).2 = .fault c) (n e v : Nat) :
    (Acc1.start m).store k va n e v = { Acc1.start (m.thXlat k va .store).1 with stop := some (e, c, va) } := by
  unfold Acc1.store Acc1.start
  generalize m.thXlat k va .store = r at *
  obtain ⟨m1, x⟩ := r
  obtain rfl : x = .fault c := h
  rfl

end

/-! ### The store of one element is finished -/

/-- Do the bytes of one element cover the whole sector of its place? -/
def Put.whole (x : Put) : Bool := coversAll (coverOf [(x.place, x.size)]) x.place

/-- The module in which the sector of one element has been requested. -/
def Module.asking (m : Module) (k : Nat) (x : Put) : Module := m.countReq k x.place (x.place.request []).1

theorem Acc1.finish_put (m : Module) (x : Put) (k va : Nat) (acq : Bool) (h : m.mustWait x.place = false) :
    (Acc1.one m x).finish k false acq [] va =
      ((m.asking k x).putPiece (m.who k x.lc) x.place x.size x.val (x.place.request []).1 x.whole).retire k false := by
  simp only [Acc1.finish, Acc1.one, Acc1.start, Acc1.flush, List.foldl_cons, List.foldl_nil, h, Bool.false_eq_true, if_false]
  rfl

theorem Acc1.finish_put_waits (m : Module) (x : Put) (k va : Nat) (acq : Bool) (h : m.mustWait x.place = true) :
    (Acc1.one m x).finish k false acq [] va =
      (((m.asking k x).wait k x.place x.va x.size (.store x.val) x.lc (x.place.request []).1 x.whole).recordAccess k [] 1 false acq [] [] va 0
        none false).retire k false := by
  simp only [Acc1.finish, Acc1.one, Acc1.start, Acc1.flush, List.foldl_cons, List.foldl_nil, h, if_true]
  rfl

/-! ### The store instruction -/

/-- The element that a store instruction stores. -/
def State.storePut (s : State) (th : ThreadId) (w : Word) (p : Place) (lc : Bool) : Put :=
  { place := p, lc := lc, va := (xAddr (s.thread th) w).toNat, size := 2 ^ Word.minor w, val := ((s.thread th).getS (Word.rb w)).toNat }

/-- The access of an aligned store. -/
def State.storeAcc (s : State) (th : ThreadId) (w : Word) : Acc1 :=
  (Acc1.start (s.issuing th)).store (ThreadId.key th) (xAddr (s.thread th) w).toNat (2 ^ Word.minor w) 0
    ((s.thread th).getS (Word.rb w)).toNat

section
variable {s : State} {th : ThreadId} {w : Word} (hi : s.issues .st th w = true) (ha : (xAddr (s.thread th) w).toNat % 2 ^ Word.minor w = 0)
include hi ha

theorem State.store_made (hm : s.mayAccess th (ordOf w)) (ho : s.walkOpen th (xAddr (s.thread th) w).toNat) :
    exec (.st th w) s =
      .next { s with m := (s.storeAcc th w).finish (ThreadId.key th) false (isAcq (ordOf w)) [] (xAddr (s.thread th) w).toNat } := by
  refine (State.inst_issues s .st th w (stBody w) hi).trans ?_
  rw [stBody, if_neg (by simpa [State.thread] using ha), Module.ordered_made _ hm.1 (by simpa [State.walkOpen, State.thread] using ho) hm.2]
  rfl

theorem State.store_waits : WaitsAtWalk (.st th w) s th (xAddr (s.thread th) w).toNat := by
  intro hw
  refine Completes.of_exec ((State.inst_issues s .st th w (stBody w) hi).trans ?_) rfl
  rw [stBody, if_neg (by simpa [State.thread] using ha), Module.ordered_waits _ (by simpa [State.thread] using hw)]

end

/-- The core-local window is the core's store (02 R33). -/
theorem Module.thXlat_store_window (m : Module) (k va : Nat) (acc : Access) (hk : keyKind k = 0) (h : windowBase ≤ va)
    (hs : va < windowBase + storeBytes) : m.thXlat k va acc = (m, .ok (.store (keyCore k) (va - windowBase)) false) := by
  have small : ¬ 2 ^ 48 ≤ va := by simp only [windowBase, storeBytes] at h hs; omega
  have inside : (decide (va - windowBase < storeBytes) && keyKind k == 0) = true := by
    rw [decide_eq_true (Nat.sub_lt_left_of_lt_add h hs), hk]
    rfl
  rw [Module.thXlat, if_neg small, if_pos h]
  exact if_pos inside

/-- A thread that is as it issued moves on as the statements say. -/
theorem State.retired_th {s : State} {th : ThreadId} {m : Module} (ht : m.th (ThreadId.key th) = s.thread th) (hp : m.pilot = s.m.pilot)
    (wide : Bool) :
    (m.retire (ThreadId.key th) wide).th (ThreadId.key th) = { s.thread th with ip := (s.thread th).ip + 8, retiredAt := s.m.pilot } := by
  rw [Module.retire_th, ht, hp]

theorem State.thread_at_walk (s : State) (th : ThreadId) (va : Nat) (acc : Access) :
    (s.walked th va acc).th (ThreadId.key th) = s.thread th := State.thread_walked (Beside.refl [] (s.walked th va acc))

/-- The thread has moved on with one access outstanding, whose one element waits for a held channel; nothing is written. -/
def WaitsWith (s : State) (th : ThreadId) (m : Module) (p : Place) (n : Nat) (act : ElemAct) : Prop :=
  Issued s th m 1 ∧ SameBytes s.m m ∧ Alone s.m m th ∧
    ∃ e, m.ms.waiting = s.m.ms.waiting ++ [e] ∧ e.thread = ThreadId.key th ∧ e.place = p ∧ e.size = n ∧ e.act = act

/-- An element that waits for a held channel moves its thread on with one access outstanding, and writes nothing. -/
theorem State.waiting_issued {s : State} {th : ThreadId} {m x : Module} {p : Place} (hb : Beside [ThreadId.key th] s.m m)
    (ht : m.th (ThreadId.key th) = s.thread th) (hx : Beside [] m x) (hp : m.mustWait p = true) (va n : Nat) (act : ElemAct)
    (lc lead whole isLoad acq : Bool) (dstS : List Nat) :
    WaitsWith s th (((x.wait (ThreadId.key th) p va n act lc lead whole).recordAccess (ThreadId.key th) [] 1 isLoad acq dstS [] va 0 none
      false).retire (ThreadId.key th) false) p n act := by
  obtain ⟨waits, bytes, e, he, named⟩ := Module.wait_adds hp x (ThreadId.key th) va n act lc lead whole
  generalize x.wait (ThreadId.key th) p va n act lc lead whole = y at waits bytes he
  have before := hb.trans hx.mono
  have thread : y.th (ThreadId.key th) = s.thread th := (waits.th _ List.not_mem_nil).trans ((hx.th _ List.not_mem_nil).trans ht)
  have after := Module.setTh_retire_beside y (ThreadId.key th)
    ((s.thread th).opens ((s.thread th).access [] 1 isLoad acq dstS [] va 0 none false)) false
  rw [Module.recordAccess_opens y _ (.inr one_ne_zero), thread]
  exact ⟨State.issued_retire (waits.pilot.trans before.pilot) _ false, before.sameBytes.trans (bytes.trans after.sameBytes),
    ((before.toElsewhere.trans waits.mono).trans after.toElsewhere).alone (fun _ h => h),
    e, after.waiting.trans (he.trans (by rw [before.waiting])), named⟩

/-- A violation of a thread as it issues moves it on with what `f` keeps outstanding, and writes nothing. -/
theorem State.violation_counted {s : State} {th : ThreadId} {m x : Module} {va : Nat} (hb : Beside [ThreadId.key th] s.m m)
    (ht : m.th (ThreadId.key th) = s.thread th) (hn : (s.thread th).ctx < 64)
    (hx : Beside [ThreadId.key th] (m.thViol (ThreadId.key th) va 1) x) : SameBytes s.m x ∧ Violates s.m x (s.thread th).ctx 1 va := by
  have viol := m.thViol_violates (ThreadId.key th) va (by rw [ht]; exact hn)
  rw [ht] at viol
  exact ⟨hb.sameBytes.trans ((SameBytes.of_ms (Module.thViol_ms m _ va 1)).trans hx.sameBytes), viol.beside hn hb.toElsewhere hx.toElsewhere⟩

/-- Settles O27: what the finished access of one element leaves, for each answer of translation. -/
theorem storesWriteTheBytesAtTheirAddress : Obligations.StoresWriteTheBytesAtTheirAddress := by
  unfold Obligations.StoresWriteTheBytesAtTheirAddress
  intro s th w hi t va n v next ha
  refine ⟨State.store_waits hi ha, fun hm ho => ?_⟩
  have made := State.store_made hi ha hm ho
  have walked := s.walked_beside th va .store
  have same := s.thread_at_walk th va .store
  refine ⟨fun p lc hx hw => ?_, fun p lc hx hw => ?_, fun hx hn => ?_, fun c hx => ?_, fun hk h hs => ?_⟩
  case refine_1 =>
    have acc : s.storeAcc th w = Acc1.one (s.walked th va .store) (s.storePut th w p lc) := Acc1.store_ok hx n 0 v
    rw [acc, Acc1.finish_put _ (s.storePut th w p lc) _ _ _ hw] at made
    have asked := Module.countReq_beside (s.walked th va .store) (ThreadId.key th) p (p.request []).1
    have put := Module.putPiece_stored ((s.walked th va .store).asking (ThreadId.key th) (s.storePut th w p lc))
      ((s.walked th va .store).who (ThreadId.key th) lc) p n v (p.request []).1 (s.storePut th w p lc).whole
    have left := asked.toElsewhere.trans put.2
    have retired := fun x : Module => x.retire_beside_self (ThreadId.key th) false
    exact Completes.of_exec made ⟨State.retired_th ((left.th _ List.not_mem_nil).trans same) (left.pilot.trans walked.pilot) false,
      ((put.1.after (walked.trans asked.mono).sameBytes (walked.trans asked.mono).linkUp).before (retired _).sameBytes),
      ((walked.toElsewhere.trans left.mono).trans (retired _).toElsewhere).alone (fun _ h => h)⟩
  case refine_2 =>
    have acc : s.storeAcc th w = Acc1.one (s.walked th va .store) (s.storePut th w p lc) := Acc1.store_ok hx n 0 v
    rw [acc, Acc1.finish_put_waits _ (s.storePut th w p lc) _ _ _ hw] at made
    obtain ⟨issued, bytes, alone, e, waiting, -, place, size, act⟩ := State.waiting_issued walked same
      (Module.countReq_beside (s.walked th va .store) (ThreadId.key th) p (p.request []).1) hw va n (.store v) lc (p.request []).1
      (s.storePut th w p lc).whole false (isAcq (ordOf w)) []
    exact Completes.of_exec made ⟨issued, bytes, alone, e, waiting, place, size, act⟩
  case refine_3 =>
    have acc : s.storeAcc th w = Acc1.start ((s.walked th va .store).thViol (ThreadId.key th) va 1) := Acc1.store_viol hx n 0 v
    rw [acc] at made
    have thread : ((s.walked th va .store).thViol (ThreadId.key th) va 1).th (ThreadId.key th) = s.thread th :=
      (Module.th_congr (Module.thViol_threads _ _ _ _) _).trans same
    exact Completes.of_exec made ⟨State.retired_th thread ((Module.thViol_pilot _ _ _ _).trans walked.pilot) false,
      State.violation_counted walked same hn (Module.retire_beside_self _ _ false)⟩
  case refine_4 =>
    have acc : s.storeAcc th w = { Acc1.start (s.walked th va .store) with stop := some (0, c, va) } := Acc1.store_fault hx n 0 v
    rw [acc] at made
    exact Stops.of_exec (Module.thXlat_beside _ _ _ _) made
  case refine_5 => exact congrArg Prod.snd (Module.thXlat_store_window _ _ va .store hk h hs)

end Sys2Proof.Machine
end

section
/-! PROOFS of the threads family, fourth part: a load of a thread. -/

namespace Sys2Proof.Machine

/-! ### The value of a signed load (12 R281) -/

theorem ofNat_intBits (z : Int) : BitVec.ofNat 64 (intBits 64 z) = BitVec.ofInt 64 z := by
  apply BitVec.eq_of_toNat_eq
  rw [BitVec.toNat_ofInt, BitVec.toNat_ofNat, intBits]
  exact Nat.mod_eq_of_lt (by omega)

theorem intOf_toInt (b v : Nat) (hb : 0 < b) : intOf true b v = (BitVec.ofNat b v).toInt := by
  have half : 2 * 2 ^ (b - 1) = 2 ^ b := by rw [← Nat.pow_succ']; congr 1; omega
  rw [intOf, BitVec.toInt_eq_toNat_cond, BitVec.toNat_ofNat]
  simp only [Bool.true_and, decide_eq_true_eq]
  by_cases h : 2 ^ (b - 1) ≤ v % 2 ^ b
  · rw [if_pos h, if_neg (by omega)]
  · rw [if_neg h, if_pos (by omega)]

/-- A signed load sign-extends, any other zero-extends. -/
theorem extendLoad_eq (signed : Bool) (n v : Nat) (hn : 0 < n) :
    BitVec.ofNat 64 (extendLoad signed n v) =
      if signed then (BitVec.ofNat (8 * n) v).signExtend 64 else BitVec.ofNat 64 v := by
  cases signed with
  | false => rfl
  | true => rw [extendLoad, if_pos rfl, if_pos rfl, ofNat_intBits, intOf_toInt _ _ (by omega), BitVec.signExtend]

/-! ### One element to load -/

/-- An access of which some elements have been performed, `left` wait, and none is to be stored. -/
def Acc1.performed (m : Module) (asked : List Nat) (got : List Got) (left : Nat) : Acc1 :=
  { m := m, got := got, puts := [], asked := asked, left := left, stop := none }

/-- The value that is read at a place for a scalar register. -/
def readGot (reg v : Nat) (p : Place) (va : Nat) : Got := { gotOf false reg 0 64 v (some p) with va := va }

/-- The module in which its sector has been requested. -/
def Module.reading (m : Module) (k : Nat) (p : Place) : Module := m.countReq k p (p.request []).1

section
variable {m : Module} {k va : Nat} (n e reg : Nat) (signed : Bool)

theorem Acc1.load_read {p : Place} {lc : Bool} (h : (m.thXlat k va .load).2 = .ok p lc) (hw : (m.thXlat k va .load).1.mustWait p = false)
    (hb : (m.thXlat k va .load).1.badPlace p n = false) :
    (Acc1.start m).load k va n e false reg 0 64 signed =
      Acc1.performed (((m.thXlat k va .load).1.reading k p).askPiece
          ((m.thXlat k va .load).1.who k ((m.thXlat k va .load).1.readClass k va lc)) p n false (p.request []).1 false) (p.request []).2
        [readGot reg (extendLoad signed n ((m.thXlat k va .load).1.readPlace p n)) p va] 0 := by
  unfold Acc1.load Acc1.start
  generalize m.thXlat k va .load = r at *
  obtain ⟨m1, x⟩ := r
  obtain rfl : x = .ok p lc := h
  simp only at hw hb
  simp only [hw, hb, Bool.false_eq_true, if_false]
  rfl

theorem Acc1.load_waits {p : Place} {lc : Bool} (h : (m.thXlat k va .load).2 = .ok p lc) (hw : (m.thXlat k va .load).1.mustWait p = true) :
    (Acc1.start m).load k va n e false reg 0 64 signed =
      Acc1.performed (((m.thXlat k va .load).1.reading k p).wait k p va n (.load false reg 0 64 (if signed then n else 0))
          ((m.thXlat k va .load).1.readClass k va lc) (p.request []).1 false) (p.request []).2 [] 1 := by
  unfold Acc1.load Acc1.start
  generalize m.thXlat k va .load = r at *
  obtain ⟨m1, x⟩ := r
  obtain rfl : x = .ok p lc := h
  simp only at hw
  simp only [hw, if_true]
  rfl

theorem Acc1.load_bad {p : Place} {lc : Bool} (h : (m.thXlat k va .load).2 = .ok p lc) (hw : (m.thXlat k va .load).1.mustWait p = false)
    (hb : (m.thXlat k va .load).1.badPlace p n = true) :
    (Acc1.start m).load k va n e false reg 0 64 signed =
      { Acc1.start ((m.thXlat k va .load).1.reading k p) with stop := some (e, cMedia, va) } := by
  unfold Acc1.load Acc1.start
  generalize m.thXlat k va .load = r at *
  obtain ⟨m1, x⟩ := r
  obtain rfl : x = .ok p lc := h
  simp only at hw hb
  simp only [hw, hb, Bool.false_eq_true, if_false, if_true]
  rfl

theorem Acc1.load_viol (h : (m.thXlat k va .load).2 = .viol) :
    (Acc1.start m).load k va n e false reg 0 64 signed =
      Acc1.performed ((m.thXlat k va .load).1.thViol k va 1) [] [gotOf false reg 0 64 0 none] 0 := by
  unfold Acc1.load Acc1.start
  generalize m.thXlat k va .load = r at *
  obtain ⟨m1, x⟩ := r
  obtain rfl : x = .viol := h
  rfl

theorem Acc1.load_fault {c : Nat} (h : (m.thXlat k va .load).2 = .fault c) :
    (Acc1.start m).load k va n e false reg 0 64 signed = { Acc1.start (m.thXlat k va .load).1 with stop := some (e, c, va) } := by
  unfold Acc1.load Acc1.start
  generalize m.thXlat k va .load = r at *
  obtain ⟨m1, x⟩ := r
  obtain rfl : x = .fault c := h
  rfl

end

/-- An access with nothing to store that does not stop is recorded, and its thread moves on. -/
theorem Acc1.finish_performed (m : Module) (asked : List Nat) (got : List Got) (left k va : Nat) (isLoad acq : Bool) (dstS : List Nat) :
    (Acc1.performed m asked got left).finish k isLoad acq dstS va =
      (m.recordAccess k got left isLoad acq dstS [] va 0 none false).retire k false := rfl

/-- A performed load moves its thread on with its value outstanding, which the next instruction reads. -/
theorem State.delivers {s : State} {th : ThreadId} {m : Module} (ht : m.th (ThreadId.key th) = s.thread th) (hp : m.pilot = s.m.pilot)
    {g : Got} {d v : Nat} (hd : g.reg = d) (hg : g.val = v) (hv : g.vec = false) (hviol : g.viol = false)
    (isLoad acq : Bool) (dstS : List Nat) (va dev : Nat) (tag : Option Nat) :
    Issued s th ((m.recordAccess (ThreadId.key th) [g] 0 isLoad acq dstS [] va dev tag false).retire (ThreadId.key th) false) 0 ∧
    Beside [ThreadId.key th] m ((m.recordAccess (ThreadId.key th) [g] 0 isLoad acq dstS [] va dev tag false).retire (ThreadId.key th) false) ∧
    (d ≠ 0 → ((m.recordAccess (ThreadId.key th) [g] 0 isLoad acq dstS [] va dev tag false).retire (ThreadId.key th) false).settledS th d =
      BitVec.ofNat 64 v) := by
  subst hd hg
  rw [Module.recordAccess_opens m _ (.inl (by simp)), ht]
  refine ⟨State.issued_retire hp _ false, Module.setTh_retire_beside m _ _ false, fun hr => ?_⟩
  have outst : (((m.setTh (ThreadId.key th) ((s.thread th).opens ((s.thread th).access [g] 0 isLoad acq dstS [] va dev tag false))).retire
      (ThreadId.key th) false).th (ThreadId.key th)).outst =
      (s.thread th).outst ++ [{ (s.thread th).access [g] 0 isLoad acq dstS [] va dev tag false with id := (s.thread th).issued }] := by
    rw [Module.retire_th, Module.th_setTh_self]
    rfl
  exact Module.settledS_last outst (Module.settle_open s.m.fresh (ThreadId.key th)) rfl rfl hviol hv hr

/-! ### The load instruction -/

/-- The access of an aligned load. -/
def State.loadAcc (s : State) (th : ThreadId) (w : Word) : Acc1 :=
  (Acc1.start (s.issuing th)).load (ThreadId.key th) (xAddr (s.thread th) w).toNat (loadBytes (Word.minor w)) 0 false (Word.rd w) 0 64
    (decide (4 ≤ Word.minor w))

section
variable {s : State} {th : ThreadId} {w : Word} (hi : s.issues .ld th w = true)
  (ha : (xAddr (s.thread th) w).toNat % loadBytes (Word.minor w) = 0)
include hi ha

theorem State.load_made (hm : s.mayAccess th (ordOf w)) (ho : s.walkOpen th (xAddr (s.thread th) w).toNat) :
    exec (.ld th w) s =
      .next { s with m := (s.loadAcc th w).finish (ThreadId.key th) true (isAcq (ordOf w)) [Word.rd w] (xAddr (s.thread th) w).toNat } := by
  refine (State.inst_issues s .ld th w (ldBody w) hi).trans ?_
  rw [ldBody, if_neg (by simpa [State.thread] using ha), Module.ordered_made _ hm.1 (by simpa [State.walkOpen, State.thread] using ho) hm.2]
  rfl

theorem State.load_waits : WaitsAtWalk (.ld th w) s th (xAddr (s.thread th) w).toNat := by
  intro hw
  refine Completes.of_exec ((State.inst_issues s .ld th w (ldBody w) hi).trans ?_) rfl
  rw [ldBody, if_neg (by simpa [State.thread] using ha), Module.ordered_waits _ (by simpa [State.thread] using hw)]

/-- What a load does, for each answer of translation (02 R49-R51; 12 R291, R293). -/
theorem State.load_effects (hm : s.mayAccess th (ordOf w)) (ho : s.walkOpen th (xAddr (s.thread th) w).toNat) :
    let t := s.thread th
    let va := (xAddr t w).toNat
    let n := loadBytes (Word.minor w)
    let d := Word.rd w
    (∀ p lc, s.xlat th va .load = .ok p lc → s.m.badPlace p n = false → (s.walked th va .load).mustWait p = false →
      Completes (.ld th w) s (fun m => Issued s th m 0 ∧ SameBytes s.m m ∧ Alone s.m m th ∧
        (d ≠ 0 → m.settledS th d = BitVec.ofNat 64 (extendLoad (decide (4 ≤ Word.minor w)) n (s.m.readPlace p n))))) ∧
    (∀ p lc, s.xlat th va .load = .ok p lc → (s.walked th va .load).mustWait p = true →
      Completes (.ld th w) s (fun m => ∃ act, WaitsWith s th m p n act)) ∧
    (s.xlat th va .load = .viol → t.ctx < 64 → Completes (.ld th w) s (fun m => Issued s th m 0 ∧ SameBytes s.m m ∧
      (d ≠ 0 → m.settledS th d = 0) ∧ Violates s.m m t.ctx 1 va)) ∧
    (∀ p lc, s.xlat th va .load = .ok p lc → s.m.badPlace p n = true → (s.walked th va .load).mustWait p = false →
      Stops (.ld th w) s th t 6 va 0 0) ∧
    (∀ c, s.xlat th va .load = .fault c → Stops (.ld th w) s th t c va 0 0) := by
  intro t va n d
  have made := State.load_made hi ha hm ho
  have walked := s.walked_beside th va .load
  have same := s.thread_at_walk th va .load
  refine ⟨fun p lc hx hb hw => ?_, fun p lc hx hw => ?_, fun hx hn => ?_, fun p lc hx hb hw => ?_, fun c hx => ?_⟩
  case refine_1 =>
    have acc := Acc1.load_read n 0 d (decide (4 ≤ Word.minor w)) hx hw ((walked.badPlace p n).trans hb)
    have read : (s.walked th va .load).readPlace p n = s.m.readPlace p n := walked.readPlace p n
    rw [State.loadAcc, acc, Acc1.finish_performed] at made
    have asked := (Module.countReq_beside (s.walked th va .load) (ThreadId.key th) p (p.request []).1).trans
      (Module.askPiece_beside _ ((s.walked th va .load).who (ThreadId.key th) ((s.walked th va .load).readClass (ThreadId.key th) va lc)) p n
        false (p.request []).1 false)
    obtain ⟨issued, after, value⟩ := State.delivers ((asked.th _ List.not_mem_nil).trans same) (asked.pilot.trans walked.pilot)
      (g := readGot d (extendLoad (decide (4 ≤ Word.minor w)) n ((s.walked th va .load).readPlace p n)) p va) (d := d)
      (v := extendLoad (decide (4 ≤ Word.minor w)) n ((s.walked th va .load).readPlace p n)) rfl rfl rfl rfl true (isAcq (ordOf w)) [d] va 0 none
    have whole := (walked.trans asked.mono).trans after
    exact Completes.of_exec made ⟨issued, whole.sameBytes, whole.alone (fun _ h => h), fun hd => (value hd).trans (by rw [read])⟩
  case refine_2 =>
    rw [State.loadAcc, Acc1.load_waits n 0 d _ hx hw, Acc1.finish_performed] at made
    exact Completes.of_exec made ⟨_, State.waiting_issued walked same
      (Module.countReq_beside (s.walked th va .load) (ThreadId.key th) p (p.request []).1) hw va n _ _ (p.request []).1 false true
      (isAcq (ordOf w)) [d]⟩
  case refine_3 =>
    rw [State.loadAcc, Acc1.load_viol n 0 d _ hx, Acc1.finish_performed] at made
    have thread : ((s.walked th va .load).thViol (ThreadId.key th) va 1).th (ThreadId.key th) = s.thread th :=
      (Module.th_congr (Module.thViol_threads _ _ _ _) _).trans same
    obtain ⟨issued, after, value⟩ := State.delivers thread ((Module.thViol_pilot _ _ _ _).trans walked.pilot) (g := gotOf false d 0 64 0 none)
      (d := d) (v := 0) rfl rfl rfl rfl true (isAcq (ordOf w)) [d] va 0 none
    obtain ⟨bytes, viol⟩ := State.violation_counted walked same hn after
    exact Completes.of_exec made ⟨issued, bytes, value, viol⟩
  case refine_4 =>
    rw [State.loadAcc, Acc1.load_bad n 0 d _ hx hw ((walked.badPlace p n).trans hb)] at made
    exact Stops.of_exec ((Module.thXlat_beside _ _ _ _).trans (Module.countReq_beside _ _ p (p.request []).1)) made
  case refine_5 =>
    rw [State.loadAcc, Acc1.load_fault n 0 d _ hx] at made
    exact Stops.of_exec (Module.thXlat_beside _ _ _ _) made

end

end Sys2Proof.Machine
end

section
/-! PROOFS of the threads family, fifth part: what a memory response returns, counts and marks. -/

namespace Sys2Proof.Machine

/-! ### A performed access returns (15 R371) -/

/-- The one performed access of a thread, with one value, is delivered. -/
theorem Module.settle_one {m : Module} {k : Nat} {o : Outst} {g : Got} (hm : (m.th k).outst = [o]) (hw : o.left = 0) (hg : o.got = [g])
    (hv : g.viol = false) : m.settle k = m.setTh k ({ m.th k with outst := [] }.put g) := by
  have ready : o.ready = true := by simp [Outst.ready, hw, hg, hv]
  simp [Module.settle, hm, ready, Thread.deliver, hg]

theorem Module.settle_setTh_th (m : Module) (k : Nat) {t : Thread} {o : Outst} {g : Got} (ht : t.outst = [o]) (hw : o.left = 0) (hg : o.got = [g])
    (hv : g.viol = false) : ((m.setTh k t).settle k).th k = { t with outst := [] }.put g := by
  rw [Module.settle_one (by rw [Module.th_setTh_self]; exact ht) hw hg hv, Module.th_setTh_self, Module.th_setTh_self]

/-- The one performed access of a thread, with nothing left to deliver, is gone. -/
theorem Module.settle_empty {m : Module} {k : Nat} {o : Outst} (hm : (m.th k).outst = [o]) (hw : o.left = 0) (hg : o.got = []) :
    m.settle k = m.setTh k { m.th k with outst := [] } := by
  have ready : o.ready = true := by simp [Outst.ready, hw, hg]
  simp [Module.settle, hm, ready, Thread.deliver, hg]

/-- No violation is left to be counted: the performed accesses are delivered. -/
theorem Module.returned_settle {m : Module} {k : Nat} (h : ∀ o ∈ (m.th k).outst, o.left = 0 → ∀ g ∈ o.got, g.viol = false) :
    m.returned k = m.settle k := by
  have late : ((m.th k).outst.filter (fun o => o.left == 0)).flatMap (fun o => o.got.filter (fun g => g.viol)) = [] := by
    rw [List.flatMap_eq_nil_iff]
    intro o ho
    obtain ⟨hm, hl⟩ := List.mem_filter.mp ho
    exact List.filter_eq_nil_iff.mpr fun g hg => by simp [h o hm (by simpa using hl) g hg]
  unfold Module.returned
  dsimp only
  rw [late]
  rfl

/-- The thread of which the violations of its one performed access have been counted. -/
def Thread.counted (t : Thread) (o : Outst) (g : Got) : Thread := { t with outst := [{ o with got := [{ g with viol := false }], left := 0 }] }

/-- A violation that was left for its return is counted first. -/
theorem Module.returned_viol {m : Module} {k : Nat} {o : Outst} {g : Got} (hm : (m.th k).outst = [o]) (hw : o.left = 0) (hg : o.got = [g])
    (hv : g.viol = true) : m.returned k = ((m.thViol k g.va 1).setTh k ((m.th k).counted o g)).settle k := by
  have late : ((m.th k).outst.filter (fun o => o.left == 0)).flatMap (fun o => o.got.filter (fun g => g.viol)) = [g] := by
    simp [hm, hw, hg, hv]
  have thread : (m.thViol k g.va 1).th k = m.th k := Module.th_congr (m.thViol_threads k g.va 1) k
  unfold Module.returned
  dsimp only
  rw [late, if_neg (by simp)]
  simp only [Module.each, List.foldl_cons, List.foldl_nil, thread, hm, List.map_cons, List.map_nil, hw, if_true, hg]
  rfl

theorem Thread.put_scalar (t : Thread) (g : Got) (hv : g.vec = false) (hr : g.reg ≠ 0) :
    (t.put g).getS g.reg = BitVec.ofNat 64 g.val ∧ (t.put g).outst = t.outst := by
  simp [Thread.put, hv, Thread.setSN, Thread.setS, Thread.getS, hr]

/-- The core's clock runs once the values have returned to a thread that runs. -/
def Module.clocked (m : Module) (k : Nat) : Module :=
  if (m.th k).run = .running then m.setCore (k / 8) { m.core (k / 8) with clockOn := true } else m

theorem Module.clocked_beside (m : Module) (k : Nat) : Beside [] m (m.clocked k) :=
  Beside.ite _ (Beside.setCore m (k / 8) _ rfl) (Beside.refl [] m)

theorem Module.clocked_th (m : Module) (k j : Nat) : (m.clocked k).th j = m.th j := (m.clocked_beside k).th j List.not_mem_nil

theorem Module.clocked_only (m : Module) (k : Nat) : Only [.threads, .cores] m (m.clocked k) := by
  unfold Module.clocked
  split
  · intro p hp
    cases p <;> simp [Part.same] at hp ⊢
  · exact Only.refl _ m

/-- A response with nothing uncorrectable. -/
theorem memoryResponse_none (k : Nat) (c d : BitVec 16) (m : Module) :
    memoryResponse k ⟨c, d, none⟩ m = (((m.corrected c.toNat).tierCorrected d.toNat).returned k).clocked k := rfl

theorem memoryResponse_clean (k : Nat) (m : Module) : memoryResponse k .clean m = (m.returned k).clocked k := rfl

/-- An element that cannot be corrected. -/
theorem memoryResponse_element (k : Nat) (e : Fin 256) (m : Module) :
    memoryResponse k (.error (.element e)) m = mediaResponse k e.val m := rfl

theorem memoryResponse_sector (k : Nat) (pc : Fin 512) (off : BitVec 31) (m : Module) :
    memoryResponse k (.error (.sector pc off)) m =
      if pcBytes ≤ off.toNat then m else m.sectorError (.hbm pc.val off.toNat) (m.th k).ctx := rfl

theorem exec_memoryResponse (s : State) (th : ThreadId) (a : MemAnswer) :
    exec (.memoryResponse th a) s = .next { s with m := memoryResponse (ThreadId.key th) a s.m.fresh } := rfl

theorem Beside.fresh (ks : List Nat) (m : Module) : Beside ks m m.fresh := { Beside.refl ks m with pilot := rfl }

/-! ### What is counted -/

theorem Module.thViol_getF (m : Module) (k addr n : Nat) (f : Fld) (hs : sideField f.key = false)
    (hf : ∀ x, f.key ≠ (Reg.HIF_VIOL.count x).key ∧ f.key ≠ (Reg.HIF_VLOG.unit x).key ∧ f.key ≠ (Reg.HIF_VLOG.address x).key) :
    (m.thViol k addr n).getF f = m.getF f := by
  unfold Module.thViol
  split
  · rfl
  · rw [(Module.countPart_beside _ k 0x0B n).fields f hs]
    obtain ⟨hc, hu, ha⟩ := hf (m.th k).ctx
    unfold Module.violateN
    split
    · rfl
    · rw [Module.getF_setF_ne _ _ _ _ ha, Module.getF_setF_ne _ _ _ _ hu, Module.addF, Module.getF_setF_ne _ _ _ _ hc]

/-- Returning changes no byte, and no field but those of violations. -/
theorem Module.returned_keeps (m : Module) (k : Nat) : SameBytes m (m.returned k) ∧
    ∀ f : Fld, sideField f.key = false →
      (∀ x, f.key ≠ (Reg.HIF_VIOL.count x).key ∧ f.key ≠ (Reg.HIF_VLOG.unit x).key ∧ f.key ≠ (Reg.HIF_VLOG.address x).key) →
      (m.returned k).getF f = m.getF f := by
  have settled := fun x : Module => x.settle_beside k
  unfold Module.returned
  dsimp only
  split
  · exact ⟨(settled m).sameBytes, fun f hs _ => (settled m).fields f hs⟩
  · generalize ((m.th k).outst.filter (fun o => o.left == 0)).flatMap (fun o => o.got.filter (fun g => g.viol)) = late
    have ms : (m.each late (fun m g => m.thViol k g.va 1)).ms = m.ms :=
      Module.each_same Module.ms late _ (fun x g => x.thViol_ms k g.va 1) m
    refine ⟨(SameBytes.of_ms ?_).trans (settled _).sameBytes, fun f hs hf => ((settled _).fields f hs).trans ?_⟩
    · exact ms
    · exact Module.each_same (fun x => x.getF f) late _ (fun x g => x.thViol_getF k g.va 1 f hs hf) m

theorem Module.corrected_ms (m : Module) (n : Nat) : (m.corrected n).ms = m.ms := by
  unfold Module.corrected
  split
  · rfl
  · rw [((Module.count_quiet _ pmcMem 9 n Ev.none (by decide)).same 0).ms]
    rfl

theorem Module.tierCorrected_ms (m : Module) (n : Nat) : (m.tierCorrected n).ms = m.ms := by
  unfold Module.tierCorrected
  split <;> rfl

theorem Module.corrected_count (m : Module) (n : Nat) :
    (m.corrected n).getF Reg.MEM_ERRCNT.corrected = (m.getF Reg.MEM_ERRCNT.corrected + n) % 2 ^ 32 ∧
    (m.corrected n).getF Reg.HMP_CT.corrected = m.getF Reg.HMP_CT.corrected := by
  unfold Module.corrected
  split
  · next h => exact ⟨by rw [h, Nat.add_zero]; exact (Nat.mod_eq_of_lt (m.getF_lt Reg.MEM_ERRCNT.corrected)).symm, rfl⟩
  · have counted := Module.count_beside (m.addF Reg.MEM_ERRCNT.corrected n) pmcMem 9 n Ev.none (by decide)
    rw [counted.above (by decide) (by decide), counted.above (by decide) (by decide), Module.addF, Module.getF_setF_self,
      Module.getF_setF_ne _ _ _ _ (by decide)]
    exact ⟨rfl, rfl⟩

theorem Module.tierCorrected_count (m : Module) (n : Nat) :
    (m.tierCorrected n).getF Reg.HMP_CT.corrected = (m.getF Reg.HMP_CT.corrected + n) % 2 ^ 32 ∧
    (m.tierCorrected n).getF Reg.MEM_ERRCNT.corrected = m.getF Reg.MEM_ERRCNT.corrected := by
  unfold Module.tierCorrected
  split
  · next h => exact ⟨by rw [h, Nat.add_zero]; exact (Nat.mod_eq_of_lt (m.getF_lt Reg.HMP_CT.corrected)).symm, rfl⟩
  · rw [Module.addF, Module.getF_setF_self, Module.getF_setF_ne _ _ _ _ (by decide)]
    exact ⟨rfl, rfl⟩

/-- The corrected errors that a response brings are counted, and no byte changes (12 R290; 11 Table 11-10). -/
theorem memoryResponse_corrected (s : State) (th : ThreadId) (c d : BitVec 16) :
    Completes (.memoryResponse th ⟨c, d, none⟩) s (fun m => SameBytes s.m m ∧
      m.getF Reg.HMP_CT.corrected = (s.m.getF Reg.HMP_CT.corrected + d.toNat) % 2 ^ 32 ∧
      m.getF Reg.MEM_ERRCNT.corrected = (s.m.getF Reg.MEM_ERRCNT.corrected + c.toNat) % 2 ^ 32) := by
  refine Completes.of_exec (exec_memoryResponse s th _) ?_
  rw [memoryResponse_none]
  obtain ⟨hm, hk⟩ := s.m.fresh.corrected_count c.toNat
  obtain ⟨tk, tm⟩ := (s.m.fresh.corrected c.toNat).tierCorrected_count d.toNat
  have bytes : SameBytes s.m ((s.m.fresh.corrected c.toNat).tierCorrected d.toNat) :=
    SameBytes.of_ms ((Module.tierCorrected_ms _ _).trans (Module.corrected_ms _ _))
  generalize (s.m.fresh.corrected c.toNat).tierCorrected d.toNat = x at tk tm bytes
  obtain ⟨kept, fields⟩ := x.returned_keeps (ThreadId.key th)
  have clock := (x.returned (ThreadId.key th)).clocked_beside (ThreadId.key th)
  refine ⟨bytes.trans (kept.trans clock.sameBytes), ?_, ?_⟩
  · rw [clock.above (by decide) (by decide), fields _ (sideField_above (by decide) (by decide)), tk, hk]
    · rfl
    · intro n
      simp only [Fld.key, Reg.HMP_CT.corrected, Reg.HIF_VIOL.count, Reg.HIF_VLOG.unit, Reg.HIF_VLOG.address]
      omega
  · rw [clock.above (by decide) (by decide), fields _ (sideField_above (by decide) (by decide)), tm, hm]
    · rfl
    · intro n
      simp only [Fld.key, Reg.MEM_ERRCNT.corrected, Reg.HIF_VIOL.count, Reg.HIF_VLOG.unit, Reg.HIF_VLOG.address]
      omega

/-! ### A response with one performed access -/

section
variable {s : State} {th : ThreadId} {o : Outst} {g : Got} (ho : (s.m.th (ThreadId.key th)).outst = [o]) (hw : o.left = 0) (hg : o.got = [g])
include ho hw hg

theorem memoryResponse_delivers (hv : g.vec = false) (hr : g.reg ≠ 0) (hviol : g.viol = false) :
    Does (.memoryResponse th .clean) s [.threads, .cores] (fun m => (m.th (ThreadId.key th)).getS g.reg = BitVec.ofNat 64 g.val ∧
      (m.th (ThreadId.key th)).outst = [] ∧ ∀ j, j ≠ ThreadId.key th → m.th j = s.m.th j) := by
  obtain ⟨value, outst⟩ := Thread.put_scalar { s.m.th (ThreadId.key th) with outst := [] } g hv hr
  have settled : s.m.fresh.returned (ThreadId.key th) =
      s.m.fresh.setTh (ThreadId.key th) (Thread.put { s.m.th (ThreadId.key th) with outst := [] } g) := by
    rw [Module.returned_settle, Module.settle_one (m := s.m.fresh) ho hw hg hviol]
    · rfl
    · intro x hx _ y hy
      have hx : x ∈ (s.m.th (ThreadId.key th)).outst := hx
      rw [ho, List.mem_singleton] at hx
      rw [hx, hg, List.mem_singleton] at hy
      rw [hy, hviol]
  refine Completes.of_exec (exec_memoryResponse s th _) ?_
  rw [memoryResponse_clean, settled]
  generalize Thread.put { s.m.th (ThreadId.key th) with outst := [] } g = t at value outst
  have only : Only [.threads, .cores] s.m (s.m.fresh.setTh (ThreadId.key th) t) := by
    intro p hp
    cases p <;> simp [Part.same, Module.fresh] at hp ⊢
  refine ⟨⟨?_, ?_, fun j hj => ?_⟩, only.trans (Module.clocked_only _ _)⟩
  · rw [Module.clocked_th, Module.th_setTh_self, value]
  · rw [Module.clocked_th, Module.th_setTh_self, outst]
  · rw [Module.clocked_th, Module.th_setTh, if_neg hj]
    rfl

theorem memoryResponse_counts (hv : g.vec = false) (hr : g.reg ≠ 0) (hviol : g.viol = true) (hn : (s.m.th (ThreadId.key th)).ctx < 64) :
    Completes (.memoryResponse th .clean) s (fun m => (m.th (ThreadId.key th)).getS g.reg = BitVec.ofNat 64 g.val ∧
      (m.th (ThreadId.key th)).outst = [] ∧ Violates s.m m (s.m.th (ThreadId.key th)).ctx 1 g.va) := by
  refine Completes.of_exec (exec_memoryResponse s th _) ?_
  rw [memoryResponse_clean, Module.returned_viol (m := s.m.fresh) ho hw hg hviol]
  have viol := s.m.fresh.thViol_violates (ThreadId.key th) g.va hn
  generalize s.m.fresh.thViol (ThreadId.key th) g.va 1 = x at viol
  have after := (Beside.setTh x (ThreadId.key th) ((s.m.fresh.th (ThreadId.key th)).counted o g)).trans
    ((Module.settle_beside _ (ThreadId.key th)).trans (Module.clocked_beside _ (ThreadId.key th)).mono)
  obtain ⟨value, outst⟩ := Thread.put_scalar { (s.m.fresh.th (ThreadId.key th)).counted o g with outst := [] } { g with viol := false } hv hr
  have delivered := x.settle_setTh_th (ThreadId.key th) (t := (s.m.fresh.th (ThreadId.key th)).counted o g) (g := { g with viol := false })
    rfl rfl rfl rfl
  refine ⟨?_, ?_, viol.beside hn (Beside.fresh [] s.m).toElsewhere after.toElsewhere⟩
  · rw [Module.clocked_th, delivered]
    exact value
  · rw [Module.clocked_th, delivered]
    exact outst

end

end Sys2Proof.Machine
end

section
/-! PROOFS of the threads family, sixth part: a memory response that finds an uncorrectable error, and what a load delivers. -/

namespace Sys2Proof.Machine

/-! ### A new uncorrectable error (12 R291; 11 R249) -/

/-- The first error of HBM is logged with its place. -/
def Module.logError (m : Module) (sector ctx : Nat) : Module :=
  if m.bit Reg.MEM_ERRLOG.valid then m
  else (((m.setF Reg.MEM_ERRLOG.valid 1).setF Reg.MEM_ERRLOG.pc (sector * 32 / pcBytes)).setF Reg.MEM_ERRLOG.context ctx).setF
    Reg.MEM_ERRLOG.offset (sector * 32 % pcBytes)

theorem Module.mediaError_eq (m : Module) (sector ctx : Nat) :
    m.mediaError sector ctx = (((m.setMs { m.ms with poison := SMap.set false m.ms.poison sector true }).addF Reg.MEM_ERRCNT.uncorrected
      1).logError sector ctx).raise 160 := rfl

theorem Module.logError_keeps (m : Module) (sector ctx : Nat) : (m.logError sector ctx).threads = m.threads ∧
    (m.logError sector ctx).ms = m.ms ∧ (m.logError sector ctx).getF Reg.MEM_ERRCNT.uncorrected = m.getF Reg.MEM_ERRCNT.uncorrected := by
  unfold Module.logError
  split
  · exact ⟨rfl, rfl, rfl⟩
  · refine ⟨rfl, rfl, ?_⟩
    rw [Module.getF_setF_ne _ _ _ _ (by decide), Module.getF_setF_ne _ _ _ _ (by decide), Module.getF_setF_ne _ _ _ _ (by decide),
      Module.getF_setF_ne _ _ _ _ (by decide)]

/-- An error of HBM marks its sector and is counted; no thread and no byte changes. -/
theorem Module.mediaError_marks (m : Module) (sector ctx : Nat) :
    (m.mediaError sector ctx).threads = m.threads ∧ SameBytes m (m.mediaError sector ctx) ∧
    SMap.get false (m.mediaError sector ctx).ms.poison sector = true ∧
    (m.mediaError sector ctx).getF Reg.MEM_ERRCNT.uncorrected = (m.getF Reg.MEM_ERRCNT.uncorrected + 1) % 2 ^ 32 := by
  rw [Module.mediaError_eq]
  generalize hx : (m.setMs { m.ms with poison := SMap.set false m.ms.poison sector true }).addF Reg.MEM_ERRCNT.uncorrected 1 = x
  have threads : x.threads = m.threads := by rw [← hx]; rfl
  have ms : x.ms = { m.ms with poison := SMap.set false m.ms.poison sector true } := by rw [← hx]; rfl
  have bytes : SameBytes m x := ⟨fun c => by unfold Module.byteAt; rw [ms], by rw [ms]⟩
  have count : x.getF Reg.MEM_ERRCNT.uncorrected = (m.getF Reg.MEM_ERRCNT.uncorrected + 1) % 2 ^ 32 := by
    rw [← hx, Module.addF, Module.getF_setF_self]
    rfl
  obtain ⟨lt, lm, lu⟩ := x.logError_keeps sector ctx
  have raised := (x.logError sector ctx).raise_quiet 160
  refine ⟨raised.threads.trans (lt.trans threads), bytes.trans ((SameBytes.of_ms lm).trans raised.beside.sameBytes), ?_, ?_⟩
  · rw [(raised.same 0).ms, lm, ms, SMap.get_set_self]
  · rw [raised.beside.above (by decide) (by decide), lu, count]

/-- An error of the capacity tier marks its sector and is counted; no thread changes. -/
theorem Module.tierError_marks (m : Module) (sector : Nat) :
    (m.tierError sector).threads = m.threads ∧ SMap.get false (m.tierError sector).ms.ctPoison sector = true ∧
    (m.tierError sector).getF Reg.HMP_CT.uncorrected = (m.getF Reg.HMP_CT.uncorrected + 1) % 2 ^ 32 := by
  unfold Module.tierError
  generalize hx : (m.setMs { m.ms with ctPoison := SMap.set false m.ms.ctPoison sector true }).addF Reg.HMP_CT.uncorrected 1 = x
  have raised := x.raise_quiet 228
  refine ⟨raised.threads.trans (by rw [← hx]; rfl), ?_, ?_⟩
  · rw [(raised.same 0).ms, ← hx]
    exact SMap.get_set_self false m.ms.ctPoison sector true
  · rw [raised.beside.above (by decide) (by decide), ← hx, Module.addF, Module.getF_setF_self]
    rfl

/-! ### The load that meets it -/

/-- The one load of a thread fails at its one value: it returns nothing, and the thread stops at the instruction. -/
theorem Module.loadFails_stops {m : Module} {k : Nat} {o : Outst} {g : Got} (hm : (m.th k).outst = [o]) (hw : o.left = 0) (hg : o.got = [g]) :
    ∃ (x : Module) (vidx : Nat), m.loadFails k o g = x.stopAt k o.ip cMedia g.va vidx 0 ∧ Beside [k] m x ∧ (x.th k).outst = [] := by
  have dropped : ((m.modOutst k o.id (fun x => { x with got := o.got.takeWhile (fun x => x != g) })).dropAfter k o.id) =
      (m.setTh k { m.th k with outst := [{ o with got := [] }] }).setTh k { m.th k with outst := [{ o with got := [] }] } := by
    simp [Module.modOutst, Module.dropAfter, hm, hg]
  unfold Module.loadFails
  simp only [dropped, Module.th_setTh_self]
  generalize hv : (if g.vec then BitVec.ofNat 8 g.idx else (m.th k).vidx) = v
  generalize hy : ((m.setTh k { m.th k with outst := [{ o with got := [] }] }).setTh k { m.th k with outst := [{ o with got := [] }] }).setTh k
    { m.th k with outst := [{ o with got := [] }], vidx := v } = y
  have made : Beside [k] m y := hy ▸ ((Beside.setTh m k _).trans (Beside.setTh _ k _)).trans (Beside.setTh _ k _)
  have one : (y.th k).outst = [{ o with got := [] }] := by rw [← hy, Module.th_setTh_self]
  have settled : y.returned k = y.settle k := Module.returned_settle (by simp [one])
  refine ⟨y.returned k, _, rfl, ?_, ?_⟩
  · rw [settled]
    exact made.trans (y.settle_beside k)
  · rw [settled, Module.settle_empty one hw rfl, Module.th_setTh_self]

section
variable {s : State} {th : ThreadId} {o : Outst} {g : Got} {e : Fin 256} (ho : (s.m.th (ThreadId.key th)).outst = [o]) (hw : o.left = 0)
  (hg : o.got = [g]) (he : g.idx = e.val) (hl : o.isLoad = true)
include ho hw hg he hl

/-- The element of the response is the one value of the thread's one load. -/
theorem Thread.lastLoad_one {p : Place} (hp : g.src = some p) (hd : p.isDram = true) :
    (s.m.th (ThreadId.key th)).lastLoad Place.isDram e.val = some (o, g) := by
  simp [Thread.lastLoad, ho, hw, hl, hg, he, hp, hd]

/-- The thread stops at its load, in the module in which the error has been marked. -/
theorem memoryResponse_stops {p : Place} (hp : g.src = some p) (hd : p.isDram = true)
    (same : (s.m.fresh.errorAt p (s.m.th (ThreadId.key th)).ctx).threads = s.m.threads) :
    ∃ (x : Module) (vidx : Nat), exec (.memoryResponse th (.error (.element e))) s =
        .next { s with m := x.stopAt (ThreadId.key th) o.ip cMedia g.va vidx 0 } ∧
      Beside [ThreadId.key th] (s.m.fresh.errorAt p (s.m.th (ThreadId.key th)).ctx) x ∧ (x.th (ThreadId.key th)).outst = [] := by
  have last := Thread.lastLoad_one ho hw hg he hl hp hd
  have response : memoryResponse (ThreadId.key th) (.error (.element e)) s.m.fresh =
      (s.m.fresh.errorAt p (s.m.th (ThreadId.key th)).ctx).loadFails (ThreadId.key th) o g := by
    rw [memoryResponse_element, mediaResponse]
    simp only [show s.m.fresh.th (ThreadId.key th) = s.m.th (ThreadId.key th) from rfl, last, hp, Option.elim_some]
  obtain ⟨x, vidx, fails, made, outst⟩ := Module.loadFails_stops (m := s.m.fresh.errorAt p (s.m.th (ThreadId.key th)).ctx)
    (k := ThreadId.key th) (by rw [Module.th_congr same]; exact ho) hw hg
  exact ⟨x, vidx, by rw [exec_memoryResponse, response, fails], made, outst⟩

theorem memoryResponse_tier {a : Nat} (hp : g.src = some (.ctier a)) (hk : keyKind (ThreadId.key th) ≠ 1) :
    Completes (.memoryResponse th (.error (.element e))) s (fun m => (m.th (ThreadId.key th)).run = .stopped ∧
      (m.th (ThreadId.key th)).ip = o.ip ∧ (m.th (ThreadId.key th)).outst = [] ∧ SMap.get false m.ms.ctPoison (a / 32) = true ∧
      m.getF Reg.HMP_CT.uncorrected = (s.m.getF Reg.HMP_CT.uncorrected + 1) % 2 ^ 32) := by
  obtain ⟨threads, mark, count⟩ := s.m.fresh.tierError_marks (a / 32)
  obtain ⟨x, vidx, exec, made, outst⟩ := memoryResponse_stops ho hw hg he hl hp rfl threads
  obtain ⟨ctPoison, uncorrected⟩ := (x.stopAt_apart (ThreadId.key th) o.ip cMedia g.va vidx 0).2 hk
  refine Completes.of_exec exec ⟨?_, ?_, ?_, ?_, ?_⟩
  · rw [Module.stopAt_th, if_pos rfl]
  · rw [Module.stopAt_th, if_pos rfl]
  · rw [Module.stopAt_th, if_pos rfl]
    exact outst
  · rw [ctPoison, made.ms]
    exact mark
  · rw [uncorrected, made.above (by decide) (by decide)]
    exact count

theorem memoryResponse_hbm {pc off : Nat} (hp : g.src = some (.hbm pc off)) :
    Completes (.memoryResponse th (.error (.element e))) s (fun m => (m.th (ThreadId.key th)).run = .stopped ∧
      (m.th (ThreadId.key th)).ip = o.ip ∧ (m.th (ThreadId.key th)).outst = [] ∧ SMap.get false m.ms.poison (hbmKey pc off / 32) = true ∧
      ∀ j, j ≠ ThreadId.key th → m.th j = s.m.th j) := by
  obtain ⟨threads, -, mark, -⟩ := s.m.fresh.mediaError_marks (hbmKey pc off / 32) (s.m.th (ThreadId.key th)).ctx
  obtain ⟨x, vidx, exec, made, outst⟩ := memoryResponse_stops ho hw hg he hl hp rfl threads
  rw [Module.errorAt] at made
  refine Completes.of_exec exec ⟨?_, ?_, ?_, ?_, fun j hj => ?_⟩
  · rw [Module.stopAt_th, if_pos rfl]
  · rw [Module.stopAt_th, if_pos rfl]
  · rw [Module.stopAt_th, if_pos rfl]
    exact outst
  · rw [(x.stopAt_apart (ThreadId.key th) o.ip cMedia g.va vidx 0).1, made.ms, mark]
  · rw [Module.stopAt_th, if_neg hj, made.th j (by simpa using hj)]
    exact Module.th_congr threads j

end

/-- A sector that another read of the thread meets is marked and counted, and stops nothing. -/
theorem memoryResponse_otherRead (s : State) (th : ThreadId) (pc : Fin 512) (off : BitVec 31) (ho : off.toNat < pcBytes)
    (hb : s.m.badPlace (.hbm pc.val off.toNat) 1 = false) :
    Completes (.memoryResponse th (.error (.sector pc off))) s (fun m => m.threads = s.m.threads ∧ SameBytes s.m m ∧
      SMap.get false m.ms.poison (hbmKey pc.val off.toNat / 32) = true ∧
      m.getF Reg.MEM_ERRCNT.uncorrected = (s.m.getF Reg.MEM_ERRCNT.uncorrected + 1) % 2 ^ 32) := by
  refine Completes.of_exec (exec_memoryResponse s th _) ?_
  have good : s.m.fresh.badPlace (.hbm pc.val off.toNat) 1 = false := hb
  rw [memoryResponse_sector, if_neg (Nat.not_le.mpr ho), Module.sectorError, good, if_neg Bool.false_ne_true, Module.errorAt]
  exact s.m.fresh.mediaError_marks _ _

/-- The sign of a load's value is said by its minor. -/
theorem loadedValue_eq (mn v : Nat) : BitVec.ofNat 64 (extendLoad (decide (4 ≤ mn)) (loadBytes mn) v) =
    if mn < 4 then BitVec.ofNat 64 v else (BitVec.ofNat (8 * loadBytes mn) v).signExtend 64 := by
  rw [extendLoad_eq _ (loadBytes mn) _ (Nat.two_pow_pos _)]
  by_cases h : mn < 4
  · rw [if_pos h, if_neg (by simpa using h)]
  · rw [if_neg h, if_pos (by simpa using h)]

/-- Settles O26: the effects of a load for each answer of translation, and those of a memory response on the one performed access. -/
theorem loadsDeliverTheBytesAtTheirAddress : Obligations.LoadsDeliverTheBytesAtTheirAddress := by
  unfold Obligations.LoadsDeliverTheBytesAtTheirAddress
  intro s th w t k va mn n d
  refine ⟨fun hi ha => State.load_waits hi ha, fun hi ha hm ho => ?_, fun o g ho hw hg => ⟨fun hv hr hviol => ?_, fun hv hr hviol hn => ?_,
    fun e a he hl hp hk => ?_, fun e pc off he hl hp => ?_⟩, memoryResponse_corrected s th, memoryResponse_otherRead s th⟩
  · obtain ⟨read, waits, viol, bad, fault⟩ := State.load_effects hi ha hm ho
    refine ⟨fun p lc hx hb hw => (read p lc hx hb hw).mono fun m ⟨issued, bytes, alone, value⟩ =>
      ⟨issued, bytes, alone, fun hd => (value hd).trans (loadedValue_eq _ _)⟩, fun p lc hx hw => (waits p lc hx hw).mono ?_, viol, bad, fault⟩
    rintro m ⟨act, issued, bytes, alone, e, waiting, thread, place, size, -⟩
    exact ⟨issued, bytes, alone, e, waiting, thread, place, size⟩
  · exact memoryResponse_delivers ho hw hg hv hr hviol
  · exact memoryResponse_counts ho hw hg hv hr hviol hn
  · exact memoryResponse_tier ho hw hg he hl hp hk
  · exact memoryResponse_hbm ho hw hg he hl hp

end Sys2Proof.Machine
end

section
/-! PROOFS of the threads family, seventh part: the requests of other devices, each served in the context of its job. -/

namespace Sys2Proof.Machine

/-! ### The packet is taken (15 R389) -/

/-- The module from which its one delivered packet has been taken. -/
def State.taken (s : State) : Module := s.m.fresh.setFab { s.m.fab with inbox := [] }

/-- The module in which a request of a live context is performed: its device is in the context's touched set (02 R40). -/
def State.entered (s : State) (ctx dev : Nat) : Module := s.taken.touchDev ctx dev

theorem State.takeOp_one {s : State} {vc : Nat} {p : Packet} (h : s.m.fab.inbox = [(vc, p)]) {op : Nat} (ho : p.op.toNat = op) :
    s.m.fresh.takeOp op = some (vc, p, s.taken) := by
  have hm : s.m.fresh.fab.inbox = [(vc, p)] := h
  simp only [Module.takeOp, hm, takePacket, ho, beq_self_eq_true, List.any_nil, Bool.not_false, Bool.and_self, if_true, Option.map_some]
  rfl

theorem Module.touchDev_touched (m : Module) (ctx dev : Nat) : ((m.touchDev ctx dev).ctx ctx).touched.contains dev = true := by
  unfold Module.touchDev
  dsimp only
  split
  · assumption
  · rw [Module.ctx_setCtx_self]
    simp

/-- A context that is entered reads and translates as before. -/
theorem Module.touchDev_alike (m : Module) (ctx dev : Nat) :
    Alike m (m.touchDev ctx dev) ∧ (m.touchDev ctx dev).ms = m.ms ∧ (m.touchDev ctx dev).fab = m.fab := by
  unfold Module.touchDev
  dsimp only
  split
  · exact ⟨⟨fun _ _ => rfl, fun _ => rfl, rfl⟩, rfl, rfl⟩
  · refine ⟨⟨fun _ _ => rfl, fun n => ?_, rfl⟩, rfl, rfl⟩
    rw [Module.ctx_setCtx]
    split
    · next h => rw [h]
    · rfl

theorem State.entered_alike (s : State) (ctx dev : Nat) : Alike s.m (s.entered ctx dev) :=
  have e := (s.taken.touchDev_alike ctx dev).1
  ⟨e.fields, e.root, e.ms⟩

theorem State.entered_ms (s : State) (ctx dev : Nat) : (s.entered ctx dev).ms = s.m.ms := (s.taken.touchDev_alike ctx dev).2.1

theorem State.entered_inbox (s : State) (ctx dev : Nat) : (s.entered ctx dev).fab.inbox = [] :=
  congrArg Fab.inbox (s.taken.touchDev_alike ctx dev).2.2

theorem Module.jobCtx_lt {m : Module} {job x : Nat} (h : m.jobCtx job = some x) : x < 64 := by
  have := List.mem_of_find?_eq_some h
  simpa using this

theorem State.entered_live {s : State} {job x : Nat} (h : s.m.jobCtx job = some x) (dev : Nat) : (s.entered x dev).ctxLive x = s.m.ctxLive x := by
  have hx := Module.jobCtx_lt h
  have state := (s.entered_alike x dev).fields (Reg.HIF_CTXSTAT.state x)
    (sideField_page (by simp only [Fld.key, Reg.HIF_CTXSTAT.state]; omega))
  rw [Module.ctxLive, Module.ctxLive, Module.ctxState, Module.ctxState, state]

/-! ### How a request is served (02 R41; 15 R396) -/

/-- Who performs a request of another device. -/
def remoteWho (ctx : Nat) : Who := { ctx := ctx, master := 8, lc := false }

section
variable {s : State} {vc : Nat} {p : Packet} (h : s.m.fab.inbox = [(vc, p)]) {op : Nat} (ho : p.op.toNat = op) (zero : Packet → List Byte)
  (f : Module → Who → Packet → Dest)
include h ho

theorem Module.serve_violation (hj : s.m.jobCtx p.job.toNat = none) : s.m.fresh.serve op zero f =
    (s.taken.remoteViol p.src.toNat p.job.toNat).respond vc p (op + 0x10) 0 (zero p) := by
  have hj : s.taken.jobCtx p.job.toNat = none := hj
  simp only [Module.serve, State.takeOp_one h ho, hj]
  rfl

section
variable {x : Nat} (hj : s.m.jobCtx p.job.toNat = some x)
include hj

theorem Module.serve_dead (hl : s.m.ctxLive x = false) :
    s.m.fresh.serve op zero f = (s.entered x p.src.toNat).respond vc p (op + 0x10) 4 [] := by
  have hl := (State.entered_live hj p.src.toNat).trans hl
  have hj : s.taken.jobCtx p.job.toNat = some x := hj
  simp only [Module.serve, State.takeOp_one h ho, hj]
  exact if_pos (by rw [show s.taken.touchDev x p.src.toNat = s.entered x p.src.toNat from rfl, hl]; rfl)

variable (hl : s.m.ctxLive x = true)
include hl

theorem Module.serve_waits (hw : (f (s.entered x p.src.toNat) (remoteWho x) p).wait = true) : s.m.fresh.serve op zero f = s.m.fresh := by
  have hl := (State.entered_live hj p.src.toNat).trans hl
  have hj : s.taken.jobCtx p.job.toNat = some x := hj
  simp only [Module.serve, State.takeOp_one h ho, hj]
  rw [if_neg (by rw [show s.taken.touchDev x p.src.toNat = s.entered x p.src.toNat from rfl, hl]; decide)]
  exact if_pos hw

theorem Module.serve_answers {m : Module} {status : Nat} {data : List Byte}
    (hd : f (s.entered x p.src.toNat) (remoteWho x) p = { m := m, status := status, data := data, viol := false, wait := false }) :
    s.m.fresh.serve op zero f = m.respond vc p (op + 0x10) status data := by
  have hl := (State.entered_live hj p.src.toNat).trans hl
  have hj : s.taken.jobCtx p.job.toNat = some x := hj
  simp only [Module.serve, State.takeOp_one h ho, hj]
  rw [if_neg (by rw [show s.taken.touchDev x p.src.toNat = s.entered x p.src.toNat from rfl, hl]; decide)]
  have hd : f (s.taken.touchDev x p.src.toNat) { ctx := x, master := 8, lc := false } p =
    { m := m, status := status, data := data, viol := false, wait := false } := hd
  simp only [hd, Bool.false_eq_true, if_false]
  rfl

end

end

/-! ### An aligned word of 8 bytes is one piece -/

theorem pieces_word {a : Nat} (h : a % 8 = 0) : pieces a 8 = [(a, 8)] := by
  have one : (a % 8 + 8 + 7) / 8 = 1 := by omega
  have low : max a (a / 8 * 8 + 8 * 0) = a := by omega
  have high : min (a + 8) (a / 8 * 8 + 8 * 0 + 8) - a = 8 := by omega
  simp only [pieces, one, List.range_one, List.map_cons, List.map_nil, low, high]

theorem Module.xlatRange_word (m : Module) (ctx : Nat) {a : Nat} (h : a % 8 = 0) (acc : Access) :
    m.xlatRange ctx a 8 acc = [((a, 8), m.ctxXlat ctx a acc)] := by
  rw [Module.xlatRange, pieces_word h]
  rfl

/-! ### What the destination answers (15 Table 15-8) -/

section
variable {m : Module} {w : Who} {a : Nat}

theorem Module.destRead_waits {len : Nat} (h : m.rangeHeld w.ctx a len .load = true) : (m.destRead w a len).wait = true := by
  simp [Module.destRead, h]

theorem Module.destWrite_waits {data : List Byte} (h : m.rangeHeld w.ctx a data.length .store = true) : (m.destWrite w a data).wait = true := by
  simp [Module.destWrite, h]

theorem Module.destAtomic_waits {width : Nat} (h : m.rangeHeld w.ctx a (atomicBytes width) .atomic = true) (op b c : Nat) (amo : Bool) :
    (m.destAtomic w a op width b c amo).wait = true := by
  simp [Module.destAtomic, h]

theorem Module.destRead_fault {c : Nat} (h : m.rangeHeld w.ctx a 8 .load = false) (ha : a % 8 = 0) (hx : m.ctxXlat w.ctx a .load = .fault c) :
    m.destRead w a 8 = { m := m.askWalks w a 8, status := walkStatus c, data := [], viol := false, wait := false } := by
  simp only [Module.destRead, h, m.xlatRange_word _ ha, hx, faultsOf, List.filterMap_cons, List.filterMap_nil]
  rfl

theorem Module.destWrite_fault {c : Nat} {data : List Byte} (hd : data.length = 8) (h : m.rangeHeld w.ctx a 8 .store = false) (ha : a % 8 = 0)
    (hx : m.ctxXlat w.ctx a .store = .fault c) (hc : c ≠ 6) :
    m.destWrite w a data = { m := m.askWalks w a 8, status := walkStatus c, data := [], viol := false, wait := false } := by
  simp only [Module.destWrite, hd, h, m.xlatRange_word _ ha, hx, faultsOf, List.filterMap_cons, List.filterMap_nil,
    if_neg (show ¬ c = cMedia from hc)]
  rfl

theorem Module.destAtomic_fault {c width : Nat} (h : m.rangeHeld w.ctx a (atomicBytes width) .atomic = false)
    (hx : m.ctxXlat w.ctx a .atomic = .fault c) (hc : c ≠ 6) (op b b' : Nat) (amo : Bool) :
    m.destAtomic w a op width b b' amo =
      { m := m.askWalks w a (atomicBytes width), status := walkStatus c, data := [], viol := false, wait := false } := by
  have media : (!amo && c == cMedia) = false := by
    rw [beq_eq_false_iff_ne.mpr (show c ≠ cMedia from hc), Bool.and_false]
  simp only [Module.destAtomic, h, hx, media]
  rfl

section
variable {p : Place} {lc : Bool}

theorem Module.destRead_word (h : m.rangeHeld w.ctx a 8 .load = false) (ha : a % 8 = 0) (hx : m.ctxXlat w.ctx a .load = .ok p lc)
    (hb : m.badPlace p 8 = false) :
    m.destRead w a 8 = { m := (m.askWalks w a 8).touchRange w [((a, 8), .ok p lc)], status := 0, data := leBytes 8 (m.readPlace p 8),
                         viol := false, wait := false } := by
  simp only [Module.destRead, h, m.xlatRange_word _ ha, hx, faultsOf, List.filterMap_cons, List.filterMap_nil, Module.anyBad, List.any_cons, hb,
    List.any_nil, Bool.or_self, Bool.false_eq_true, if_false, Module.rangeBytes, List.flatMap_cons, List.flatMap_nil, List.append_nil]
  rfl

theorem Module.destWrite_word {data : List Byte} (hd : data.length = 8) (h : m.rangeHeld w.ctx a 8 .store = false) (ha : a % 8 = 0)
    (hx : m.ctxXlat w.ctx a .store = .ok p lc) :
    m.destWrite w a data = { m := (m.askWalks w a 8).writeRange w [((a, 8), .ok p lc)] data, status := 0, data := [], viol := false,
                             wait := false } := by
  simp only [Module.destWrite, hd, h, m.xlatRange_word _ ha, hx, faultsOf, List.filterMap_cons, List.filterMap_nil]
  rfl

theorem Module.destAtomic_hbm {width : Nat} (h : m.rangeHeld w.ctx a (atomicBytes width) .atomic = false) (hx : m.ctxXlat w.ctx a .atomic = .ok p lc)
    (hp : p.isHbm = true) (hb : m.badPlace p (atomicBytes width) = false) (op b c : Nat) (amo : Bool) :
    m.destAtomic w a op width b c amo =
      { m := ((m.askWalks w a (atomicBytes width)).atomicAt w p op width b c amo).1, status := 0,
        data := if amo then leBytes (atomicBytes width) ((m.askWalks w a (atomicBytes width)).readPlace p (atomicBytes width)) else [],
        viol := false, wait := false } := by
  cases p with
  | hbm pc off =>
    simp only [Module.destAtomic, h, hx, hb]
    rfl
  | _ => cases hp

end

end

/-! ### What it writes -/

/-- One word is stored at its place. -/
theorem Module.writeRange_word (m : Module) (w : Who) (a n : Nat) (p : Place) (lc : Bool) {data : List Byte} (hd : data.length = n) :
    StoresAt m (m.writeRange w [((a, n), .ok p lc)] data) p n (leVal data) ∧ Elsewhere [] m (m.writeRange w [((a, n), .ok p lc)] data) := by
  have take : data.take n = data := List.take_of_length_le (Nat.le_of_eq hd)
  simp only [Module.writeRange, rangePuts, Module.putPieces, List.append_nil, List.map_cons, List.map_nil, List.foldl_cons, List.foldl_nil, take]
  exact Module.putPiece_stored m w p n (leVal data) _ _

/-- An atomic operation leaves its result at the place. -/
theorem Module.atomicAt_stores (m : Module) (w : Who) (p : Place) (op width b c : Nat) (amo : Bool) (hb : b < 2 ^ (8 * atomicBytes width))
    (hc : c < 2 ^ (8 * atomicBytes width)) :
    StoresAt m (m.atomicAt w p op width b c amo).1 p (atomicBytes width) (atomicOp op width (m.readPlace p (atomicBytes width)) b c).1 ∧
    Elsewhere [] m (m.atomicAt w p op width b c amo).1 := by
  unfold Module.atomicAt
  simp only [Nat.mod_eq_of_lt hb, Nat.mod_eq_of_lt hc]
  generalize (atomicOp op width (m.readPlace p (atomicBytes width)) b c).1 = v
  have asked := m.touch_beside w p (atomicBytes width) true
  have counted := fun (x : Module) (e : Ev) => x.count_beside pmcMem (if amo then 5 else 6) 1 e (by decide)
  exact ⟨((StoresAt.writePlace _ p (atomicBytes width) v).after asked.sameBytes asked.linkUp).before (counted _ _).sameBytes,
    (asked.toElsewhere.trans (Elsewhere.writePlace _ p _ v)).trans (counted _ _).toElsewhere⟩

end Sys2Proof.Machine
end

section
/-! PROOFS of the threads family, eighth part: the answers of a request in every case. -/

namespace Sys2Proof.Machine

/-- The bytes that a request of an op reads or writes, and the access that it makes. -/
def requestLen (p : Packet) (op : Nat) : Nat := if op = 1 then p.len.toNat else if op = 2 then p.data.length else 4 * 2 ^ p.awidth.toNat

def requestAccess (op : Nat) : Access := if op = 1 then .load else if op = 2 then .store else .atomic

/-- The command answers the packet, from a module that has taken it and satisfies `q`. -/
def State.Answers (s : State) (vc : Nat) (p : Packet) (i : Instr) (op status : Nat) (data : List Byte) (q : Module → Prop) : Prop :=
  Completes i s (fun m => ∃ m0, m = m0.respond vc p op status data ∧ m0.fab.inbox = [] ∧ q m0)

theorem State.Answers.of_exec {s : State} {vc : Nat} {p : Packet} {i : Instr} {op status : Nat} {data : List Byte} {q : Module → Prop} {m0 : Module}
    (he : exec i s = .next { s with m := m0.respond vc p op status data }) (hi : m0.fab.inbox = []) (hq : q m0) :
    s.Answers vc p i op status data q := Completes.of_exec he ⟨m0, rfl, hi, hq⟩

theorem exec_read (s : State) : exec .read s =
    .next { s with m := s.m.fresh.serve 1 (fun p => leBytes p.len.toNat 0) (fun m w p => m.destRead w p.addr.toNat p.len.toNat) } := rfl

theorem exec_write (s : State) : exec .write s =
    .next { s with m := s.m.fresh.serve 2 (fun _ => []) (fun m w p => m.destWrite w p.addr.toNat p.data) } := rfl

/-- How requests of an op are served: what a violation reads, when they wait, and what a failed walk answers. -/
structure ServesOp (p : Packet) (op : Nat) (z : Nat) (zero : Packet → List Byte) (f : Module → Who → Packet → Dest) : Prop where
  zeros : zero p = List.replicate z 0
  waits : ∀ (m : Module) x, m.rangeHeld x p.addr.toNat (requestLen p op) (requestAccess op) = true → (f m (remoteWho x) p).wait = true
  fault : ∀ (m : Module) x c, p.len.toNat = 8 → p.data.length = 8 → p.addr.toNat % 8 = 0 → c ≠ 6 →
    m.rangeHeld x p.addr.toNat (requestLen p op) (requestAccess op) = false → m.ctxXlat x p.addr.toNat (requestAccess op) = .fault c →
    f m (remoteWho x) p = { m := m.askWalks (remoteWho x) p.addr.toNat (requestLen p op), status := walkStatus c, data := [], viol := false,
                            wait := false }

theorem leBytes_zero (n : Nat) : leBytes n 0 = List.replicate n 0 := by
  induction n with
  | zero => rfl
  | succ n ih => simp only [leBytes, Nat.zero_div, ih, List.replicate_succ]; rfl

theorem Module.remoteViol_logs (m : Module) (dev job : Nat) (hd : dev < 2 ^ 16) (hj : job < 2 ^ 32) :
    (m.remoteViol dev job).getF Reg.HIF_RVIOL.count = (m.getF Reg.HIF_RVIOL.count + 1) % 2 ^ 48 ∧
    (m.remoteViol dev job).getF Reg.HIF_RVLOG.device = dev ∧ (m.remoteViol dev job).getF Reg.HIF_RVLOG.job = job := by
  refine ⟨?_, ?_, ?_⟩
  · rw [Module.remoteViol, Module.getF_setF_ne _ _ _ _ (by decide), Module.getF_setF_ne _ _ _ _ (by decide), Module.addF, Module.getF_setF_self]
    rfl
  · rw [Module.remoteViol, Module.getF_setF_ne _ _ _ _ (by decide), Module.getF_setF_self]
    exact Nat.mod_eq_of_lt hd
  · rw [Module.remoteViol, Module.getF_setF_self]
    exact Nat.mod_eq_of_lt hj

/-- Every request that waits, finds no context, finds one that is not live, or fails its walk is answered alike. -/
theorem ServesOp.answers {s : State} {vc : Nat} {p : Packet} (h : s.m.fab.inbox = [(vc, p)]) {op z : Nat} {i : Instr} {zero : Packet → List Byte}
    {f : Module → Who → Packet → Dest} (hs : ServesOp p op z zero f) (he : exec i s = .next { s with m := s.m.fresh.serve op zero f })
    (ho : p.op.toNat = op) :
    (∀ x, s.m.jobCtx p.job.toNat = some x → s.m.ctxLive x = true →
      s.m.rangeHeld x p.addr.toNat (requestLen p op) (requestAccess op) = true → Completes i s (fun m => m = s.m.fresh)) ∧
    (s.m.jobCtx p.job.toNat = none → s.Answers vc p i (op + 0x10) 0 (List.replicate z 0) (fun m => SameBytes s.m m ∧
      m.getF Reg.HIF_RVIOL.count = (s.m.getF Reg.HIF_RVIOL.count + 1) % 2 ^ 48 ∧ m.getF Reg.HIF_RVLOG.device = p.src.toNat ∧
      m.getF Reg.HIF_RVLOG.job = p.job.toNat)) ∧
    (∀ x, s.m.jobCtx p.job.toNat = some x → s.m.ctxLive x = false →
      s.Answers vc p i (op + 0x10) 4 [] (fun m => SameBytes s.m m)) ∧
    (∀ x c, s.m.jobCtx p.job.toNat = some x → s.m.ctxLive x = true → p.len.toNat = 8 → p.data.length = 8 → p.addr.toNat % 8 = 0 →
      c ≠ 6 →
      s.m.rangeHeld x p.addr.toNat (requestLen p op) (requestAccess op) = false →
      s.m.ctxXlat x p.addr.toNat (requestAccess op) = .fault c →
      s.Answers vc p i (op + 0x10) (walkStatus c) [] (fun m => SameBytes s.m m)) := by
  have enter := fun x : Nat => s.entered_alike x p.src.toNat
  have held := fun x : Nat => (enter x).rangeHeld (s.entered_ms x p.src.toNat) x p.addr.toNat (requestLen p op) (requestAccess op)
  refine ⟨fun x hj hl hh => ?_, fun hj => ?_, fun x hj hl => ?_, fun x c hj hl hlen hdata ha hc hh hx => ?_⟩
  · rw [Module.serve_waits h ho zero f hj hl (hs.waits _ x ((held x).trans hh))] at he
    exact Completes.of_exec he rfl
  · rw [Module.serve_violation h ho zero f hj, hs.zeros] at he
    exact .of_exec he rfl ⟨⟨fun _ => rfl, rfl⟩, s.taken.remoteViol_logs _ _ p.src.isLt p.job.isLt⟩
  · rw [Module.serve_dead h ho zero f hj hl] at he
    exact .of_exec he (s.entered_inbox x _) (enter x).sameBytes
  · rw [Module.serve_answers h ho zero f hj hl (hs.fault _ x c hlen hdata ha hc ((held x).trans hh) (((enter x).ctxXlat _ _ _).trans hx))] at he
    have asked := (s.entered x p.src.toNat).askWalks_beside (remoteWho x) p.addr.toNat (requestLen p op)
    exact .of_exec he (by rw [asked.fab]; exact s.entered_inbox x _) ((enter x).sameBytes.trans asked.sameBytes)

/-! ### The four ops -/

section
variable (s : State) (p : Packet)

theorem servesRead : ServesOp p 1 p.len.toNat (fun p => leBytes p.len.toNat 0) (fun m w p => m.destRead w p.addr.toNat p.len.toNat) where
  zeros := leBytes_zero _
  waits _ _ hw := Module.destRead_waits hw
  fault m x c hl _ ha _ hh hx := by
    have len : requestLen p 1 = 8 := hl
    rw [len] at hh
    rw [len, hl]
    exact Module.destRead_fault hh ha hx

theorem servesWrite : ServesOp p 2 0 (fun _ => []) (fun m w p => m.destWrite w p.addr.toNat p.data) where
  zeros := rfl
  waits _ _ hw := Module.destWrite_waits hw
  fault m x c _ hd ha hc hh hx := by
    have len : requestLen p 2 = 8 := hd
    rw [len] at hh
    rw [len]
    exact Module.destWrite_fault hd hh ha hx hc

theorem servesAtomic : ServesOp p 3 (4 * 2 ^ p.awidth.toNat) (fun p => leBytes (atomicBytes p.awidth.toNat) 0) (fun m w p =>
    m.destAtomic w p.addr.toNat p.aop.toNat p.awidth.toNat (amoArg p 0) (amoArg p 1) true) where
  zeros := leBytes_zero _
  waits _ _ hw := Module.destAtomic_waits hw _ _ _ _
  fault _ _ _ _ _ _ hc hh hx := Module.destAtomic_fault hh hx hc _ _ _ _

theorem servesReduce : ServesOp p 4 0 (fun _ => []) (fun m w p =>
    m.destAtomic w p.addr.toNat p.aop.toNat p.awidth.toNat (amoArg p 0) 0 false) where
  zeros := rfl
  waits _ _ hw := Module.destAtomic_waits hw _ _ _ _
  fault _ _ _ _ _ _ hc hh hx := Module.destAtomic_fault hh hx hc _ _ _ _

end

/-- An operand of an atomic fits its width. -/
theorem amoArg_lt (p : Packet) (i : Nat) : amoArg p i < 2 ^ (8 * atomicBytes p.awidth.toNat) := by
  have h := leVal_lt ((p.data.drop (i * atomicBytes p.awidth.toNat)).take (atomicBytes p.awidth.toNat))
  refine Nat.lt_of_lt_of_le h ?_
  rw [Nat.pow_mul]
  exact Nat.pow_le_pow_right (by decide) (by rw [List.length_take]; omega)

section
variable {s : State} {vc : Nat} {p : Packet} (h : s.m.fab.inbox = [(vc, p)]) {x : Nat} {q : Place} {lc : Bool}
  (hj : s.m.jobCtx p.job.toNat = some x) (hl : s.m.ctxLive x = true)
include h hj hl

theorem read_answers (ho : p.op.toNat = 1) (hh : s.m.rangeHeld x p.addr.toNat 8 .load = false) (ha : p.addr.toNat % 8 = 0) (hlen : p.len.toNat = 8)
    (hx : s.m.ctxXlat x p.addr.toNat .load = .ok q lc) (hb : s.m.badPlace q 8 = false) :
    s.Answers vc p .read 0x11 0 (leBytes 8 (s.m.readPlace q 8)) (fun m => SameBytes s.m m ∧ (m.ctx x).touched.contains p.src.toNat = true) := by
  have enter := s.entered_alike x p.src.toNat
  have word := Module.destRead_word (w := remoteWho x) ((enter.rangeHeld (s.entered_ms x _) _ _ _ _).trans hh) ha ((enter.ctxXlat _ _ _).trans hx)
    ((enter.badPlace q 8).trans hb)
  rw [enter.readPlace] at word
  have asked := ((s.entered x p.src.toNat).askWalks_beside (remoteWho x) p.addr.toNat 8).trans
    (Module.touchRange_beside _ (remoteWho x) [((p.addr.toNat, 8), .ok q lc)])
  have he := exec_read s
  rw [Module.serve_answers h ho _ (fun m w p => m.destRead w p.addr.toNat p.len.toNat) hj hl (by rw [hlen]; exact word)] at he
  refine .of_exec he
    (by rw [asked.fab]; exact s.entered_inbox x _) ⟨enter.sameBytes.trans asked.sameBytes, ?_⟩
  rw [asked.touched]
  exact s.taken.touchDev_touched x _

theorem write_answers (ho : p.op.toNat = 2) (hh : s.m.rangeHeld x p.addr.toNat 8 .store = false) (ha : p.addr.toNat % 8 = 0)
    (hd : p.data.length = 8) (hx : s.m.ctxXlat x p.addr.toNat .store = .ok q lc) :
    s.Answers vc p .write 0x12 0 [] (fun m => StoresAt s.m m q 8 (leVal p.data) ∧ (m.ctx x).touched.contains p.src.toNat = true) := by
  have enter := s.entered_alike x p.src.toNat
  have word := Module.destWrite_word (w := remoteWho x) hd ((enter.rangeHeld (s.entered_ms x _) _ _ _ _).trans hh) ha
    ((enter.ctxXlat _ _ _).trans hx)
  have asked := (s.entered x p.src.toNat).askWalks_beside (remoteWho x) p.addr.toNat 8
  obtain ⟨stored, rest⟩ := Module.writeRange_word
    ((s.entered x p.src.toNat).askWalks (remoteWho x) p.addr.toNat 8) (remoteWho x) p.addr.toNat 8 q lc hd
  have left := asked.toElsewhere.trans rest
  have he := exec_write s
  rw [Module.serve_answers h ho _ (fun m w p => m.destWrite w p.addr.toNat p.data) hj hl word] at he
  refine .of_exec he
    (by rw [left.fab]; exact s.entered_inbox x _)
    ⟨stored.after (enter.sameBytes.trans asked.sameBytes) (asked.linkUp.trans enter.linkUp), ?_⟩
  rw [left.touched]
  exact s.taken.touchDev_touched x _

variable (hh : s.m.rangeHeld x p.addr.toNat (atomicBytes p.awidth.toNat) .atomic = false) (hx : s.m.ctxXlat x p.addr.toNat .atomic = .ok q lc)
  (hq : q.isHbm = true) (hb : s.m.badPlace q (atomicBytes p.awidth.toNat) = false)
include hh hx hq hb

/-- Both forms leave the result of the operation; `amo` says whether the old value is answered. -/
theorem atomic_answers {i : Instr} {op c : Nat} (amo : Bool) (zero : Packet → List Byte) (ho : p.op.toNat = op)
    (hc : c < 2 ^ (8 * atomicBytes p.awidth.toNat)) {f : Module → Who → Packet → Dest}
    (hf : ∀ m w, f m w p = m.destAtomic w p.addr.toNat p.aop.toNat p.awidth.toNat (amoArg p 0) c amo)
    (he : exec i s = .next { s with m := s.m.fresh.serve op zero f }) :
    s.Answers vc p i (op + 0x10) 0 (if amo then leBytes (atomicBytes p.awidth.toNat) (s.m.readPlace q (atomicBytes p.awidth.toNat)) else [])
      (fun m => StoresAt s.m m q (atomicBytes p.awidth.toNat)
        (atomicOp p.aop.toNat p.awidth.toNat (s.m.readPlace q (atomicBytes p.awidth.toNat)) (amoArg p 0) c).1) := by
  have enter := s.entered_alike x p.src.toNat
  have word := Module.destAtomic_hbm (w := remoteWho x) ((enter.rangeHeld (s.entered_ms x _) _ _ _ _).trans hh) ((enter.ctxXlat _ _ _).trans hx) hq
    ((enter.badPlace q _).trans hb) p.aop.toNat (amoArg p 0) c amo
  have asked := (s.entered x p.src.toNat).askWalks_beside (remoteWho x) p.addr.toNat (atomicBytes p.awidth.toNat)
  obtain ⟨stored, rest⟩ := Module.atomicAt_stores ((s.entered x p.src.toNat).askWalks (remoteWho x) p.addr.toNat (atomicBytes p.awidth.toNat))
    (remoteWho x) q p.aop.toNat p.awidth.toNat (amoArg p 0) c amo (amoArg_lt p 0) hc
  have read := (asked.readPlace q (atomicBytes p.awidth.toNat)).trans (enter.readPlace q _)
  rw [read] at word stored
  rw [Module.serve_answers h ho zero f hj hl ((hf _ _).trans word)] at he
  exact .of_exec he (by rw [rest.fab, asked.fab]; exact s.entered_inbox x _)
    (stored.after (enter.sameBytes.trans asked.sameBytes) (asked.linkUp.trans enter.linkUp))

end

/-- Settles O37: the answers that every op shares, and what each op does on a readable or writable place. -/
theorem requestsAreServedInTheContextOfTheirJob : Obligations.RequestsAreServedInTheContextOfTheirJob := by
  unfold Obligations.RequestsAreServedInTheContextOfTheirJob
  intro s vc p h job dev va wd n b c answers held every
  have operands : amoArg p 0 = b ∧ amoArg p 1 = c := by
    simp only [amoArg, Nat.zero_mul, List.drop_zero, Nat.one_mul]
    exact ⟨rfl, rfl⟩
  refine ⟨fun ho => (servesRead p).answers h rfl ho, fun ho => (servesWrite p).answers h rfl ho, fun ho => (servesAtomic p).answers h rfl ho,
    fun ho => (servesReduce p).answers h rfl ho, fun x q lc hj hl hh ha => ⟨fun ho hlen hx hb => ?_, fun ho hd hx => ?_, fun ho hx hq hb => ?_,
    fun ho hx hq hb => ?_⟩⟩
  all_goals
    have hh : s.m.rangeHeld x va (requestLen p p.op.toNat) (requestAccess p.op.toNat) = false := hh
    rw [ho] at hh
  · rw [show requestLen p 1 = 8 from hlen] at hh
    exact read_answers h hj hl ho hh ha hlen hx hb
  · rw [show requestLen p 2 = 8 from hd] at hh
    exact write_answers h hj hl ho hh ha hd hx
  · have made := atomic_answers h hj hl hh hx hq hb (i := .atomic) true (fun p => leBytes (atomicBytes p.awidth.toNat) 0) ho (amoArg_lt p 1)
      (f := fun m w p => m.destAtomic w p.addr.toNat p.aop.toNat p.awidth.toNat (amoArg p 0) (amoArg p 1) true) (fun _ _ => rfl) rfl
    rw [operands.1, operands.2] at made
    exact made
  · have made := atomic_answers h hj hl hh hx hq hb (i := .reduce) false (fun _ => []) ho (Nat.two_pow_pos _)
      (f := fun m w p => m.destAtomic w p.addr.toNat p.aop.toNat p.awidth.toNat (amoArg p 0) 0 false) (fun _ _ => rfl) rfl
    rw [operands.1] at made
    exact made

end Sys2Proof.Machine
end

section
/-! PROOFS of the threads family, ninth part: what sending a packet leaves alone, and which words are global stores. -/

namespace Sys2Proof.Machine

/-! ### The words of a global store (04 R88; 12 Table 12-2) -/

theorem rowIf_eq_some (ok : Bool) (r r' : Row) : rowIf ok r = some r' ↔ ok = true ∧ r = r' := by
  cases ok <;> simp [rowIf]

theorem scalar_ne_gst (w : Word) : classifyIntReg w ≠ some .gst ∧ classifyIntImm w ≠ some .gst ∧ classifyLi w ≠ some .gst ∧
    classifyConv w ≠ some .gst ∧ classifyCmp w ≠ some .gst ∧ classifyJump w ≠ some .gst ∧
    rowIf (w.only false true true false && decide (w.minor ≤ 5)) .branch ≠ some .gst := by
  simp [classifyIntReg, classifyIntImm, classifyLi, classifyConv, classifyCmp, classifyJump, ite_eq_iff, rowIf_eq_some]

theorem tabled_ne_gst (w : Word) : classifyFp true w ≠ some .gst ∧ classifyFp false w ≠ some .gst ∧ classifyCtl w ≠ some .gst ∧
    classifySr w ≠ some .gst := by
  refine ⟨?_, ?_, ?_, ?_⟩
  · unfold classifyFp; dsimp only; split <;> simp [rowIf_eq_some]
  · unfold classifyFp; dsimp only; split <;> simp [rowIf_eq_some]
  · unfold classifyCtl; dsimp only; split <;> simp [rowIf_eq_some]
  · unfold classifySr; dsimp only; split <;> simp [rowIf_eq_some]

theorem vector_ne_gst (w : Word) : classifyVint w ≠ some .gst ∧ classifyVfixed w ≠ some .gst ∧ classifyVfloat w ≠ some .gst ∧
    classifyVpair w ≠ some .gst ∧ classifyVcvt w ≠ some .gst ∧ classifyVcmp w ≠ some .gst ∧ classifyMask w ≠ some .gst := by
  simp [classifyVint, classifyVfixed, classifyVfloat, classifyVpair, classifyVcvt, classifyVcmp, classifyMask, rowIf_eq_some]

theorem moved_ne_gst (w : Word) : classifyVmove w ≠ some .gst ∧ classifyVmem w ≠ some .gst ∧ classifyQ w ≠ some .gst ∧
    classifyM w ≠ some .gst := by
  refine ⟨?_, ?_, ?_, ?_⟩
  · unfold classifyVmove; dsimp only; split <;> simp [rowIf_eq_some]
  · unfold classifyVmem; dsimp only; split <;> simp [rowIf_eq_some]
  · unfold classifyQ; dsimp only; split <;> simp [ite_eq_iff, rowIf_eq_some]
  · unfold classifyM
    dsimp only
    split
    case h_4 => split <;> simp [rowIf_eq_some]
    all_goals simp [ite_eq_iff, rowIf_eq_some]

theorem classifyX_gst {w : Word} (h : classifyX w = some .gst) : w.minor ≤ 3 := by
  unfold classifyX at h
  dsimp only at h
  split at h <;> simp [ite_eq_iff, rowIf_eq_some] at h
  exact h.1

/-- A global store is of the X class, and its minor is a width. -/
theorem wordIs_gst {w : Word} (h : wordIs .gst w = true) : w.minor ≤ 3 := by
  have h : classify w = some .gst := by simpa [wordIs] using h
  obtain ⟨_, _, _, _, _, _, _⟩ := scalar_ne_gst w
  obtain ⟨_, _, _, _⟩ := tabled_ne_gst w
  obtain ⟨_, _, _, _, _, _, _⟩ := vector_ne_gst w
  obtain ⟨_, _, _, _⟩ := moved_ne_gst w
  refine classifyX_gst ?_
  by_contra hx
  unfold classify at h
  split at h <;> contradiction

/-! ### Sending a packet (13 R327) -/

/-- The threads, the memories and the outstanding requests are the same. -/
structure Sends (m m' : Module) : Prop where
  pilot : m'.pilot = m.pilot
  threads : m'.threads = m.threads
  ms : m'.ms = m.ms
  reqs : m'.fab.reqs = m.fab.reqs

theorem Sends.refl (m : Module) : Sends m m := ⟨rfl, rfl, rfl, rfl⟩

theorem Sends.trans {a b c : Module} (h : Sends a b) (g : Sends b c) : Sends a c :=
  ⟨g.pilot.trans h.pilot, g.threads.trans h.threads, g.ms.trans h.ms, g.reqs.trans h.reqs⟩

theorem Sends.ite {m a b : Module} (c : Prop) [Decidable c] (ha : Sends m a) (hb : Sends m b) : Sends m (if c then a else b) := by
  split
  · exact ha
  · exact hb

theorem Quiet.sends {m m' : Module} (h : Quiet m m') : Sends m m' :=
  ⟨(h.same 0).pilot, h.threads, (h.same 0).ms, by rw [(h.same 0).fab]⟩

theorem Sends.setPort (m : Module) (p : Nat) (x : Port) : Sends m (m.setPort p x) := ⟨rfl, rfl, rfl, rfl⟩

theorem Sends.setF (m : Module) (f : Fld) (v : Nat) : Sends m (m.setF f v) := ⟨rfl, rfl, rfl, rfl⟩

theorem Sends.setCtx (m : Module) (n : Nat) (c : Context) : Sends m (m.setCtx n c) := ⟨rfl, rfl, rfl, rfl⟩

theorem Module.touchDev_sends (m : Module) (n dev : Nat) : Sends m (m.touchDev n dev) := Sends.ite _ (Sends.refl m) (Sends.setCtx m n _)

theorem Module.sendSeq_sends (m : Module) (p : Nat) (b : FrameBody) : Sends m (m.sendSeq p b) := by
  have sent : ∀ (y : Port) (o : Output), Sends m ((m.setPort p y).emit o) := fun y o => ⟨rfl, rfl, rfl, rfl⟩
  have counted : ∀ (x : Module) (code n : Nat) (e : Ev), Sends x (x.count pmcFab code n e) :=
    fun x code n e => (x.count_quiet pmcFab code n e (by decide)).sends
  unfold Module.sendSeq
  cases b with
  | data v q => exact Sends.ite _ (((sent _ _).trans (counted _ _ _ _)).trans (Quiet.pmc _ _).sends) ((sent _ _).trans (counted _ _ _ _))
  | rescue v o n q => exact (sent _ _).trans (counted _ _ _ _)
  | _ => exact sent _ _

theorem Module.pump_sends (m : Module) (p : Nat) : Sends m (m.pump p) := by
  refine Sends.trans (b := _) ?_ (Sends.setPort _ p _)
  refine List.foldlRecOn (motive := fun r : Module × List FrameBody => Sends m r.1) _ _ (Sends.setPort m p _) fun r hr b _ => ?_
  split
  · exact hr.trans (r.1.sendSeq_sends p b)
  · exact hr

theorem Module.queueFrame_sends (m : Module) (p : Nat) (b : FrameBody) : Sends m (m.queueFrame p b) :=
  (Sends.setPort m p _).trans (Module.pump_sends _ p)

theorem Module.portTo_sends (m : Module) (p s : Nat) : Sends m (m.portTo p s) := by
  have set := Sends.setF m (Reg.FAB_PSTAT.state p) s
  exact Sends.ite _ set (Sends.ite _ (set.trans (Module.raiseQuiet_quiet _ _).sends)
    (Sends.ite _ (set.trans (Module.raise_quiet _ _).sends) set))

theorem Module.wakeNeighbour_sends (m : Module) (p : Nat) : Sends m (m.wakeNeighbour p) := by
  have woken := Sends.setPort m p { m.port p with wakeAt := some ((m.port p).wakeAt.getD m.pilot) }
  exact Sends.ite _ (Sends.refl m) (Sends.ite _ woken ((woken.trans (Sends.setPort _ p _)).trans (Module.portTo_sends _ p pTrain)))

theorem Module.dropPacket_sends (m : Module) (f : Fld) (vc : Nat) : Sends m (m.dropPacket f vc) :=
  (Sends.setF m f _).trans (Module.count_quiet _ pmcFab 5 1 _ (by decide)).sends

theorem Module.deliverHere_sends (m : Module) (vc : Nat) (p : Packet) : Sends m (m.deliverHere vc p) := by
  have kept : Sends m (m.setFab { m.fab with inbox := m.fab.inbox ++ [(vc, p)] }) := ⟨rfl, rfl, rfl, rfl⟩
  unfold Module.deliverHere
  dsimp only
  split
  · exact kept.trans (Module.wake_quiet _ 3 _).sends
  · exact kept

/-- Whatever becomes of a packet, no thread, no byte and no request changes (13 Table 13-10). -/
theorem Module.handlePacket_sends (m : Module) (received again : Bool) (vc : Nat) (p : Packet) : Sends m (m.handlePacket received again vc p) := by
  have held : ∀ q, Sends m (m.setFab { m.fab with held := m.fab.held ++ [(vc, q)] }) := fun q => ⟨rfl, rfl, rfl, rfl⟩
  have dropped := fun f : Fld => m.dropPacket_sends f vc
  have waking : ∀ (x : Module) (l : List Nat), Sends m x → Sends m (x.each l Module.wakeNeighbour) := fun x l hx =>
    Module.each_keeps (fun y => Sends m y) l _ (fun y q _ hy => hy.trans (y.wakeNeighbour_sends q)) x hx
  unfold Module.handlePacket
  exact Sends.ite _ (dropped _) (Sends.ite _ (m.deliverHere_sends vc p) (Sends.ite _ (dropped _) (Sends.ite _ (dropped _)
    (Sends.ite _ (dropped _) (Sends.ite _ (Sends.ite _ (held _) (m.queueFrame_sends _ _))
      (Sends.ite _ (waking _ _ ((held _).trans (Module.wake_quiet _ 3 _).sends)) (Sends.ite _ (held _) (dropped _))))))))

theorem Module.sendPacket_sends (m : Module) (vc : Nat) (p : Packet) : Sends m (m.sendPacket vc p) := m.handlePacket_sends _ _ _ _

/-- Sending a request keeps it among the outstanding ones, with the next tag (15 R389). -/
theorem Module.sendRequest_sends (m : Module) (ctx dev vc op addr aop awidth ord len : Nat) (data : List Byte) (o : Origin) :
    (m.sendRequest ctx dev vc op addr aop awidth ord len data o).pilot = m.pilot ∧
    (m.sendRequest ctx dev vc op addr aop awidth ord len data o).threads = m.threads ∧
    (m.sendRequest ctx dev vc op addr aop awidth ord len data o).ms = m.ms ∧
    ∃ r : Req, (m.sendRequest ctx dev vc op addr aop awidth ord len data o).fab.reqs = m.fab.reqs ++ [r] ∧ r.dev = dev ∧ r.ctx = ctx ∧
      r.op = op ∧ r.vc = vc ∧ r.tag = m.fab.nextTag % 2 ^ 32 := by
  unfold Module.sendRequest
  dsimp only
  generalize hr : ({ tag := m.fab.nextTag % 2 ^ 32, dev := dev, vc := vc, ctx := ctx, job := m.jobOf ctx, op := op, aop := aop, width := awidth,
                     b := leVal (data.take (4 * 2 ^ awidth)), sentAt := m.pilot, origin := o } : Req) = r
  generalize hx : m.setFab { m.fab with nextTag := (m.fab.nextTag % 2 ^ 32 + 1) % 2 ^ 32, reqs := m.fab.reqs ++ [r] } = x
  have sent := fun p : Packet => (x.touchDev_sends ctx dev).trans (Module.sendPacket_sends _ vc p)
  have kept : x.pilot = m.pilot ∧ x.threads = m.threads ∧ x.ms = m.ms ∧ x.fab.reqs = m.fab.reqs ++ [r] := by
    subst hx
    exact ⟨rfl, rfl, rfl, rfl⟩
  obtain ⟨pilot, threads, ms, reqs⟩ := kept
  exact ⟨(sent _).pilot.trans pilot, (sent _).threads.trans threads, (sent _).ms.trans ms, r, (sent _).reqs.trans reqs,
    by subst hr; exact ⟨rfl, rfl, rfl, rfl, rfl⟩⟩

end Sys2Proof.Machine
end

section
/-! PROOFS of the threads family, tenth part: global loads and stores. -/

namespace Sys2Proof.Machine

/-! ### Bytes and numbers -/

theorem leBytes_length (n : Nat) : ∀ v, (leBytes n v).length = n := by
  induction n with
  | zero => intro v; rfl
  | succ n ih => intro v; simp only [leBytes, List.length_cons, ih]

theorem leVal_leBytes (n : Nat) : ∀ v, leVal (leBytes n v) = v % 256 ^ n := by
  induction n with
  | zero => intro v; simp only [leBytes, leVal, Nat.pow_zero, Nat.mod_one]
  | succ n ih =>
    intro v
    rw [leBytes, leVal, ih, BitVec.toNat_ofNat, show 256 ^ (n + 1) = 256 * 256 ^ n from Nat.pow_succ']
    exact Nat.mod_mul.symm

/-! ### The issuing module -/

theorem State.issuing_getF (s : State) (th : ThreadId) (f : Fld) : (s.issuing th).getF f = s.m.getF f := by
  unfold State.issuing Module.settle
  dsimp only
  split <;> rfl

theorem State.issuing_fab (s : State) (th : ThreadId) : (s.issuing th).fab = s.m.fab := (s.issuing_beside th).fab

theorem State.issuing_ms (s : State) (th : ThreadId) : (s.issuing th).ms = s.m.ms := (s.issuing_same th).ms

theorem State.issuing_refused (s : State) (th : ThreadId) (ctx dev : Nat) :
    (s.issuing th).refusedAtOnce ctx dev = s.m.refusedAtOnce ctx dev := by
  simp only [Module.refusedAtOnce, Module.routeLost, Module.route, Module.jobOf, s.issuing_fab th, s.issuing_getF th]
  rfl

theorem State.issuing_held (s : State) (th : ThreadId) (ctx va n : Nat) (acc : Access) :
    (s.issuing th).rangeHeld ctx va n acc = s.m.rangeHeld ctx va n acc :=
  (s.issuing_beside th).alike.rangeHeld (s.issuing_ms th) ctx va n acc

/-- Moving on from a module whose thread has one more access outstanding. -/
theorem State.issued_of {s : State} {th : ThreadId} {m : Module} {o : Outst} (ht : m.th (ThreadId.key th) = (s.thread th).opens o)
    (hp : m.pilot = s.m.pilot) (wide : Bool) : Issued s th (m.retire (ThreadId.key th) wide) o.left :=
  ⟨{ o with id := (s.thread th).issued }, rfl, by rw [Module.retire_th, ht, hp]; rfl⟩

/-! ### The address of a global pointer (12 R281) -/

/-- The sum of a pointer's 48-bit address and the offset of a word. -/
def globalSum (p : Word) (w : Word) : Int := ((p.toNat % 2 ^ 48 : Nat) : Int) + signedOf 26 (Word.slice w 25 0)

theorem globalAddr_inside {p w : Word} (h : 0 ≤ globalSum p w ∧ globalSum p w < 2 ^ 48) :
    globalAddr p (signedOf 26 (Word.slice w 25 0)) = (p.toNat / 2 ^ 48, some (globalSum p w).toNat) := by
  have inside : (decide (0 ≤ globalSum p w) && decide (globalSum p w < (2 ^ 48 : Nat))) = true := by
    rw [decide_eq_true h.1, decide_eq_true (by exact_mod_cast h.2)]
    rfl
  exact congrArg (Prod.mk _) (if_pos inside)

theorem globalAddr_outside {p w : Word} (h : ¬ (0 ≤ globalSum p w ∧ globalSum p w < 2 ^ 48)) :
    globalAddr p (signedOf 26 (Word.slice w 25 0)) = (p.toNat / 2 ^ 48, none) := by
  have outside : ¬ (decide (0 ≤ globalSum p w) && decide (globalSum p w < (2 ^ 48 : Nat))) = true := by
    rw [Bool.and_eq_true, decide_eq_true_eq, decide_eq_true_eq]
    exact fun x => h ⟨x.1, by exact_mod_cast x.2⟩
  exact congrArg (Prod.mk _) (if_neg outside)

/-- The sum is aligned as the address is. -/
theorem globalSum_aligned {t : Thread} {w : Word} (ha : (xAddr t w).toNat % 8 = 0) :
    (globalSum (t.getS (Word.ra w)) w).toNat % 8 = 0 := by
  rw [xAddr, BitVec.toNat_add, BitVec.toNat_ofInt] at ha
  rw [globalSum]
  omega

/-! ### A global access of another device -/

/-- A request is sent, and its thread moves on with one access outstanding (15 R389-R391). -/
theorem State.global_sends {s : State} {th : ThreadId} {i : Instr} {dev va op aop awidth ord len : Nat} {data : List Byte} {isLoad : Bool}
    {dstS : List Nat} (hr : s.m.refusedAtOnce (s.thread th).ctx dev = none)
    (he : exec i s = .next { s with m := (s.issuing th).globalSend (ThreadId.key th) va dev op aop awidth ord len data isLoad dstS }) :
    Completes i s (fun m => Issued s th m 1 ∧ SameBytes s.m m ∧ ∃ q : Req, m.fab.reqs = s.m.fab.reqs ++ [q] ∧ q.dev = dev ∧
      q.ctx = (s.thread th).ctx ∧ q.op = op ∧ q.vc = 1 ∧ q.tag = s.m.fab.nextTag % 2 ^ 32) := by
  obtain ⟨pilot, threads, ms, r, reqs, named⟩ := (s.issuing th).sendRequest_sends (s.thread th).ctx dev 1 op va aop awidth ord len data
    (.thread (ThreadId.key th) (s.thread th).issued isLoad va)
  refine Completes.of_exec he ?_
  rw [Module.globalSend]
  simp only [show (s.issuing th).th (ThreadId.key th) = s.thread th from rfl, s.issuing_refused, hr]
  rw [s.issuing_fab] at *
  generalize (s.issuing th).sendRequest (s.thread th).ctx dev 1 op va aop awidth ord len data
    (.thread (ThreadId.key th) (s.thread th).issued isLoad va) = x at *
  have thread : x.th (ThreadId.key th) = s.thread th := Module.th_congr threads _
  rw [Module.recordAccess_opens x _ (.inr one_ne_zero), thread]
  generalize ho : (s.thread th).access [] 1 isLoad (isAcq ord) dstS [] va dev (some (s.m.fab.nextTag % 2 ^ 32)) false = o
  have opened := Beside.setTh x (ThreadId.key th) ((s.thread th).opens o)
  have counted := Module.countPart_beside (x.setTh (ThreadId.key th) ((s.thread th).opens o)) (ThreadId.key th) 9 1
  have after := (opened.trans counted.mono).trans (Module.retire_beside_self _ (ThreadId.key th) false)
  refine ⟨?_, (SameBytes.of_ms (ms.trans (s.issuing_ms th))).trans after.sameBytes, r, by rw [after.fab, reqs], named⟩
  have left : o.left = 1 := by rw [← ho]; rfl
  have issued := State.issued_of ((counted.th _ List.not_mem_nil).trans (Module.th_setTh_self _ _ _))
    (counted.pilot.trans (opened.pilot.trans (pilot.trans (s.issuing_pilot th)))) false
  rw [left] at issued
  exact issued

/-- A device that is lost refuses a request at once (15 R392). -/
theorem Module.refusedAtOnce_lost {m : Module} {dev : Nat} (h : m.routeLost dev = true) (ctx : Nat) : m.refusedAtOnce ctx dev = some sPeerLost := by
  rw [Module.refusedAtOnce, if_pos h]

section
variable {s : State} {th : ThreadId} {dev : Nat} (h : s.m.routeLost dev = true) (va op aop awidth ord len : Nat) (data : List Byte)
  (dstS : List Nat)
include h

theorem Module.globalSend_lost_load : (s.issuing th).globalSend (ThreadId.key th) va dev op aop awidth ord len data true dstS =
    (s.issuing th).faultStop (ThreadId.key th) 7 va dev := by
  have refused : (s.issuing th).refusedAtOnce ((s.issuing th).th (ThreadId.key th)).ctx dev = some sPeerLost :=
    (s.issuing_refused th _ dev).trans (Module.refusedAtOnce_lost h _)
  rw [Module.globalSend]
  simp only [refused]
  rfl

theorem Module.globalSend_lost_store : (s.issuing th).globalSend (ThreadId.key th) va dev op aop awidth ord len data false dstS =
    ((s.issuing th).setTh (ThreadId.key th) { s.thread th with
      deferred := (s.thread th).deferred ++ [{ cause := 7, addr := va, device := dev }] }).retire (ThreadId.key th) false := by
  have refused : (s.issuing th).refusedAtOnce ((s.issuing th).th (ThreadId.key th)).ctx dev = some sPeerLost :=
    (s.issuing_refused th _ dev).trans (Module.refusedAtOnce_lost h _)
  rw [Module.globalSend]
  simp only [refused]
  rfl

end

/-! ### A global access of this device -/

theorem Module.globalLocal_waits {r : Dest} (h : r.wait = true) (m : Module) (k va dev : Nat) (isLoad : Bool) (dstS : List Nat)
    (got : Nat → List Got) : m.globalLocal k va dev r isLoad dstS got = m := by
  rw [Module.globalLocal, if_pos h]

/-- An access that is performed is recorded, and its thread moves on. -/
theorem Module.globalLocal_done (m x : Module) (k va dev : Nat) (data : List Byte) (isLoad : Bool) (dstS : List Nat) (got : Nat → List Got) :
    m.globalLocal k va dev { m := x, status := 0, data := data, viol := false, wait := false } isLoad dstS got =
      ((x.countPart k 9 1).recordAccess k (if isLoad then got (leVal data) else []) 0 isLoad false dstS [] va dev none false).retire k false := rfl

/-! ### The instructions -/

section
variable {s : State} {th : ThreadId} {w : Word} (hm : s.mayAccess th (ordOf w))

section
variable (hi : s.issues .gld th w = true) (ha : (xAddr (s.thread th) w).toNat % loadBytes (Word.minor w) = 0)
include hm hi ha

theorem State.gld_outside (h : ¬ (0 ≤ globalSum ((s.thread th).getS (Word.ra w)) w ∧ globalSum ((s.thread th).getS (Word.ra w)) w < 2 ^ 48)) :
    exec (.gld th w) s = .next { s with m := (s.issuing th).faultStop (ThreadId.key th) 3 (xAddr (s.thread th) w).toNat 0 } := by
  refine (State.inst_issues s .gld th w (gldBody w) hi).trans ?_
  rw [gldBody]
  simp only [show (s.issuing th).th (ThreadId.key th) = s.thread th from rfl]
  rw [if_neg (by simpa using ha), Module.ordered_made _ hm.1 rfl hm.2, globalAddr_outside h]
  rfl

/-- What a global load does inside the 48-bit range: this device answers in place, another is sent a request. -/
theorem State.gld_inside {va dev : Nat} (hva : va = (globalSum ((s.thread th).getS (Word.ra w)) w).toNat)
    (hdev : dev = ((s.thread th).getS (Word.ra w)).toNat / 2 ^ 48)
    (h : 0 ≤ globalSum ((s.thread th).getS (Word.ra w)) w ∧ globalSum ((s.thread th).getS (Word.ra w)) w < 2 ^ 48) :
    exec (.gld th w) s = .next { s with m := (if dev = s.m.myId then
      (s.issuing th).globalLocal (ThreadId.key th) va dev
        ((s.issuing th).destRead ((s.issuing th).who (ThreadId.key th) false) va (loadBytes (Word.minor w))) true [Word.rd w]
        (fun v => [gotOf false (Word.rd w) 0 64 (extendLoad (decide (4 ≤ Word.minor w)) (loadBytes (Word.minor w)) v) none])
      else (s.issuing th).globalSend (ThreadId.key th) va dev 1 0 (if decide (4 ≤ Word.minor w) then 1 else 0) (ordOf w)
        (loadBytes (Word.minor w)) [] true [Word.rd w]) } := by
  subst hva hdev
  refine (State.inst_issues s .gld th w (gldBody w) hi).trans ?_
  rw [gldBody]
  simp only [show (s.issuing th).th (ThreadId.key th) = s.thread th from rfl]
  rw [if_neg (by simpa using ha), Module.ordered_made _ hm.1 rfl hm.2, globalAddr_inside h]
  simp only [(s.issuing_beside th).myId]

end

section
variable (hi : s.issues .gst th w = true) (ha : (xAddr (s.thread th) w).toNat % 2 ^ Word.minor w = 0)
include hm hi ha

/-- What a global store does inside the 48-bit range. -/
theorem State.gst_inside {va dev : Nat} (hva : va = (globalSum ((s.thread th).getS (Word.ra w)) w).toNat)
    (hdev : dev = ((s.thread th).getS (Word.ra w)).toNat / 2 ^ 48)
    (h : 0 ≤ globalSum ((s.thread th).getS (Word.ra w)) w ∧ globalSum ((s.thread th).getS (Word.ra w)) w < 2 ^ 48) :
    exec (.gst th w) s = .next { s with m := (if dev = s.m.myId then
      (s.issuing th).globalLocal (ThreadId.key th) va dev ((s.issuing th).destWrite ((s.issuing th).who (ThreadId.key th) false) va
        (leBytes (2 ^ Word.minor w) ((s.thread th).getS (Word.rb w)).toNat)) false [] (fun _ => [])
      else (s.issuing th).globalSend (ThreadId.key th) va dev 2 0 0 (ordOf w) (2 ^ Word.minor w)
        (leBytes (2 ^ Word.minor w) ((s.thread th).getS (Word.rb w)).toNat) false []) } := by
  subst hva hdev
  refine (State.inst_issues s .gst th w (gstBody w) hi).trans ?_
  rw [gstBody]
  simp only [show (s.issuing th).th (ThreadId.key th) = s.thread th from rfl]
  rw [if_neg (by simpa using ha), Module.ordered_made _ hm.1 rfl hm.2, globalAddr_inside h]
  simp only [(s.issuing_beside th).myId]

end

end

/-! ### The place of a word of this device -/

section
variable {s : State} {th : ThreadId} {va : Nat} {q : Place} {lc : Bool} (ha : va % 8 = 0)
include ha

/-- Reading a word in place answers its bytes, and what it looks up is beside. -/
theorem State.destRead_here (hh : s.m.rangeHeld (s.thread th).ctx va 8 .load = false) (hx : s.m.ctxXlat (s.thread th).ctx va .load = .ok q lc)
    (hb : s.m.badPlace q 8 = false) :
    ∃ x, (s.issuing th).destRead ((s.issuing th).who (ThreadId.key th) false) va 8 =
      { m := x, status := 0, data := leBytes 8 (s.m.readPlace q 8), viol := false, wait := false } ∧ Beside [] (s.issuing th) x := by
  have same := s.issuing_beside th
  have word := Module.destRead_word (w := (s.issuing th).who (ThreadId.key th) false) ((s.issuing_held th _ _ _ _).trans hh) ha
    ((same.alike.ctxXlat _ _ _).trans hx) ((same.badPlace q 8).trans hb)
  rw [same.readPlace] at word
  exact ⟨_, word, ((s.issuing th).askWalks_beside _ va 8).trans (Module.touchRange_beside _ _ _)⟩

/-- Writing a word in place stores it. -/
theorem State.destWrite_here {data : List Byte} (hd : data.length = 8) (hh : s.m.rangeHeld (s.thread th).ctx va 8 .store = false)
    (hx : s.m.ctxXlat (s.thread th).ctx va .store = .ok q lc) :
    ∃ x, (s.issuing th).destWrite ((s.issuing th).who (ThreadId.key th) false) va data =
      { m := x, status := 0, data := [], viol := false, wait := false } ∧ StoresAt (s.issuing th) x q 8 (leVal data) ∧
      Elsewhere [] (s.issuing th) x := by
  have word := Module.destWrite_word (w := (s.issuing th).who (ThreadId.key th) false) hd ((s.issuing_held th _ _ _ _).trans hh) ha
    (((s.issuing_beside th).alike.ctxXlat _ _ _).trans hx)
  have asked := (s.issuing th).askWalks_beside ((s.issuing th).who (ThreadId.key th) false) va 8
  obtain ⟨stored, rest⟩ := Module.writeRange_word ((s.issuing th).askWalks ((s.issuing th).who (ThreadId.key th) false) va 8)
    ((s.issuing th).who (ThreadId.key th) false) va 8 q lc hd
  exact ⟨_, word, stored.after asked.sameBytes asked.linkUp, asked.toElsewhere.trans rest⟩

/-- A load of a word of this device delivers it. -/
theorem State.globalLocal_loads {i : Instr} {dev : Nat} {n d : Nat} {signed : Bool} (hn : n = 8)
    (he : exec i s = .next { s with m := ((s.issuing th).globalLocal (ThreadId.key th) va dev
      ((s.issuing th).destRead ((s.issuing th).who (ThreadId.key th) false) va n) true [d]
      (fun v => [gotOf false d 0 64 (extendLoad signed n v) none])) })
    (hh : s.m.rangeHeld (s.thread th).ctx va 8 .load = false) (hx : s.m.ctxXlat (s.thread th).ctx va .load = .ok q lc)
    (hb : s.m.badPlace q 8 = false) :
    Completes i s (fun m => Issued s th m 0 ∧ SameBytes s.m m ∧ (d ≠ 0 → m.settledS th d = BitVec.ofNat 64 (s.m.readPlace q 8))) := by
  subst hn
  obtain ⟨x, read, asked⟩ := State.destRead_here ha hh hx hb
  rw [read, Module.globalLocal_done] at he
  have counted := asked.trans (x.countPart_beside (ThreadId.key th) 9 1)
  obtain ⟨issued, after, value⟩ := State.delivers (counted.th (ThreadId.key th) List.not_mem_nil) (counted.pilot.trans (s.issuing_pilot th))
    (g := gotOf false d 0 64 (extendLoad signed 8 (leVal (leBytes 8 (s.m.readPlace q 8)))) none) (d := d)
    (v := extendLoad signed 8 (leVal (leBytes 8 (s.m.readPlace q 8)))) rfl rfl rfl rfl true false [d] va dev none
  refine Completes.of_exec he ⟨issued, (((s.issuing_beside th).trans counted.mono).trans after).sameBytes, fun hd => (value hd).trans ?_⟩
  have word : BitVec.ofNat 64 (leVal (leBytes 8 (s.m.readPlace q 8))) = BitVec.ofNat 64 (s.m.readPlace q 8) := by
    apply BitVec.eq_of_toNat_eq
    rw [leVal_leBytes, BitVec.toNat_ofNat, BitVec.toNat_ofNat]
    exact Nat.mod_mod _ _
  rw [extendLoad_eq _ 8 _ (by decide), BitVec.signExtend_eq, word, ite_self]

/-- A store of a word of this device writes it. -/
theorem State.globalLocal_stores {i : Instr} {dev n v : Nat} (hn : n = 8) (hv : v < 2 ^ 64)
    (he : exec i s = .next { s with m := ((s.issuing th).globalLocal (ThreadId.key th) va dev
      ((s.issuing th).destWrite ((s.issuing th).who (ThreadId.key th) false) va (leBytes n v)) false [] (fun _ => [])) })
    (hh : s.m.rangeHeld (s.thread th).ctx va 8 .store = false) (hx : s.m.ctxXlat (s.thread th).ctx va .store = .ok q lc) :
    Completes i s (fun m => m.th (ThreadId.key th) = { s.thread th with ip := (s.thread th).ip + 8, retiredAt := s.m.pilot } ∧
      StoresAt s.m m q 8 v) := by
  subst hn
  have same := s.issuing_beside th
  obtain ⟨x, wrote, stored, rest⟩ := State.destWrite_here ha (leBytes_length 8 v) hh hx
  rw [wrote, Module.globalLocal_done] at he
  rw [leVal_leBytes, Nat.mod_eq_of_lt (show v < 256 ^ 8 from hv)] at stored
  have counted := x.countPart_beside (ThreadId.key th) 9 1
  have left := rest.trans counted.toElsewhere
  exact Completes.of_exec he ⟨State.retired_th (left.th _ List.not_mem_nil) (left.pilot.trans (s.issuing_pilot th)) false,
    (stored.after same.sameBytes same.linkUp).before (counted.sameBytes.trans (Module.retire_beside_self _ _ false).sameBytes)⟩

end

/-- Settles O28: a pointer outside its range stops; inside it, this device answers in place and another is sent a request or is lost. -/
theorem globalAccessesGoToTheirDevice : Obligations.GlobalAccessesGoToTheirDevice := by
  unfold Obligations.GlobalAccessesGoToTheirDevice
  intro s th w t k mn p n dev sum va inside sends ha hm
  have load := fun (hi : s.issues .gld th w = true) (h : inside) => State.gld_inside hm hi ha (va := va) (dev := dev) rfl rfl h
  have width : s.issues .gst th w = true → n = 2 ^ Word.minor w := fun hi => by
    have low := wordIs_gst (w := w) (Bool.and_eq_true_iff.mp hi).1
    simp only [n, mn, if_pos (Nat.lt_succ_of_le low)]
  have store := fun (hi : s.issues .gst th w = true) (h : inside) => State.gst_inside hm hi (width hi ▸ ha) (va := va) (dev := dev) rfl rfl h
  have word : n = 8 → va % 8 = 0 := fun hn => globalSum_aligned (t := t) (w := w) (hn ▸ ha)
  refine ⟨fun hi h hd hr => ?_, fun hi h hd hr => ?_, fun hi h hd hn q lc hx hb hh => ?_, fun hi h hd hh => ?_, fun hi h hd hh => ?_,
    fun hi h hd hn q lc hx hh => ?_, fun hi h => ?_, fun hi h hd hl => ?_, fun hi h hd hl => ?_⟩
  · have he := load hi h
    rw [if_neg hd] at he
    exact State.global_sends hr he
  · have he := store hi h
    rw [if_neg hd] at he
    exact State.global_sends hr he
  · have he := load hi h
    rw [if_pos hd] at he
    exact State.globalLocal_loads (word hn) hn he hh hx hb
  · have he := load hi h
    rw [if_pos hd, Module.globalLocal_waits (Module.destRead_waits ((s.issuing_held th _ _ _ _).trans hh))] at he
    exact Completes.of_exec he rfl
  · have he := store hi h
    have held : s.m.rangeHeld t.ctx va (leBytes (2 ^ Word.minor w) (t.getS (Word.rb w)).toNat).length .store = true := by
      rw [leBytes_length, ← width hi]
      exact hh
    rw [if_pos hd, Module.globalLocal_waits (Module.destWrite_waits ((s.issuing_held th _ _ _ _).trans held))] at he
    exact Completes.of_exec he rfl
  · have he := store hi h
    rw [if_pos hd] at he
    exact State.globalLocal_stores (word hn) ((width hi).symm.trans hn) (BitVec.isLt _) he hh hx
  · exact Stops.of_exec (Beside.refl [] _) (State.gld_outside hm hi ha h)
  · have he := load hi h
    rw [if_neg hd, Module.globalSend_lost_load hl] at he
    exact Stops.of_exec (Beside.refl [] _) he
  · have he := store hi h
    rw [if_neg hd, Module.globalSend_lost_store hl] at he
    obtain ⟨same, thread⟩ := (s.issuing th).setTh_retire (ThreadId.key th)
      { t with deferred := t.deferred ++ [{ cause := 7, addr := va, device := dev }] } false
    exact Completes.of_exec he ⟨thread.trans (by rw [s.issuing_pilot]), (s.issuing_same th).trans same⟩

end Sys2Proof.Machine
end

section
/-! PROOFS of the threads family, eleventh part: what is read where words have been stored, and a completion record. -/

namespace Sys2Proof.Machine

/-! ### A place is read byte by byte -/

theorem eq_of_bytes (n : Nat) : ∀ {x y : Nat}, x < 256 ^ n → y < 256 ^ n →
    (∀ i, i < n → x / 256 ^ i % 256 = y / 256 ^ i % 256) → x = y := by
  induction n with
  | zero => intro x y hx hy _; simp only [Nat.pow_zero, Nat.lt_one_iff] at hx hy; rw [hx, hy]
  | succ n ih =>
    intro x y hx hy h
    rw [Nat.pow_succ'] at hx hy
    have low := h 0 (by omega)
    simp only [Nat.pow_zero, Nat.div_one] at low
    have high : x / 256 = y / 256 := ih (Nat.div_lt_of_lt_mul hx) (Nat.div_lt_of_lt_mul hy) fun i hi => by
      have := h (i + 1) (by omega)
      rwa [Nat.pow_succ', ← Nat.div_div_eq_div_mul, ← Nat.div_div_eq_div_mul] at this
    omega

theorem Memory.read_byte (n : Nat) : ∀ (mem : List Host.Cell) (a i : Nat), i < n →
    Memory.read mem a n / 256 ^ i % 256 = Memory.read mem (a + i) 1 := by
  induction n with
  | zero => intro mem a i h; omega
  | succ n ih =>
    intro mem a i h
    have hb := (Memory.get mem a).isLt
    cases i with
    | zero =>
      simp only [Memory.read_one, Nat.pow_zero, Nat.div_one, Nat.add_zero]
      rw [Memory.read]
      omega
    | succ i =>
      have rest : Memory.read mem a (n + 1) / 256 = Memory.read mem (a + 1) n := by rw [Memory.read]; omega
      rw [Nat.pow_succ', ← Nat.div_div_eq_div_mul, rest, ih mem (a + 1) i (by omega), Nat.add_assoc, Nat.add_comm 1 i]

theorem lostRead_byte (e : Nat) (mem : List Host.Cell) {k n i : Nat} (h : i < n) :
    lostRead e mem k n / 256 ^ i % 256 = lostRead e mem (k + i) 1 := by
  rw [lostRead, xor_byte, Memory.read_byte n mem k i h, lostMask_byte e n k i h, lostRead]

theorem lostMask_lt (e : Nat) : ∀ n k, lostMask e k n < 256 ^ n := by
  intro n
  induction n with
  | zero => intro k; simp [lostMask]
  | succ n ih =>
    intro k
    have hb := (Config.lostByte e k).isLt
    have hr := ih (k + 1)
    rw [lostMask, Nat.pow_succ]
    split <;> omega

theorem lostRead_lt (e : Nat) (mem : List Host.Cell) (k n : Nat) : lostRead e mem k n < 256 ^ n := by
  have hr := Memory.read_lt n mem k
  have hm := lostMask_lt e n k
  rw [show 256 ^ n = 2 ^ (8 * n) from by rw [Nat.pow_mul]] at *
  exact Nat.xor_lt_two_pow hr hm

theorem Module.readPlace_lt (m : Module) (p : Place) (n : Nat) : m.readPlace p n < 256 ^ n := by
  cases p with
  | hbm pc off => exact lostRead_lt _ _ _ _
  | ctier a => exact lostRead_lt _ _ _ _
  | host a => exact Memory.read_lt _ _ _
  | store c off => exact Memory.read_lt _ _ _
  | hstore c off => exact Memory.read_lt _ _ _

theorem Module.readPlace_byte (m : Module) (p : Place) {n i : Nat} (h : i < n) :
    m.readPlace p n / 256 ^ i % 256 = m.byteAt (p.cell.1, p.cell.2 + i) := by
  cases p with
  | hbm pc off => exact lostRead_byte _ _ h
  | ctier a => exact lostRead_byte _ _ h
  | host a => exact Memory.read_byte n _ _ i h
  | store c off => exact Memory.read_byte n _ _ i h
  | hstore c off => exact Memory.read_byte n _ _ i h

/-- Part of what has been stored is read back. -/
theorem StoresAt.readPlace {m m' : Module} {p : Place} {len v : Nat} (h : StoresAt m m' p len v) (hu : ∀ a, p = .host a → m.linkUp = true)
    {i n : Nat} (hi : i + n ≤ len) : m'.readPlace (p.plus i) n = v / 256 ^ i % 256 ^ n := by
  have up : p.cell.1 = 2 → m.linkUp = true := fun hc => by
    cases p with
    | host a => exact hu a rfl
    | _ => cases hc
  refine eq_of_bytes n (Module.readPlace_lt _ _ _) (Nat.mod_lt _ (Nat.pow_pos (by decide))) fun j hj => ?_
  rw [Module.readPlace_byte _ _ hj, h.1, p.plus_cell, if_pos ⟨rfl, by simp only; omega, by simp only; omega, up⟩]
  have cut : v / 256 ^ i % 256 ^ n / 256 ^ j % 256 = v / 256 ^ i / 256 ^ j % 256 := by
    obtain ⟨d, rfl⟩ : ∃ d, n = j + (1 + d) := ⟨n - j - 1, by omega⟩
    rw [Nat.pow_add _ j, Nat.mod_mul_right_div_self, Nat.pow_add, Nat.pow_one, Nat.mod_mul_right_mod]
  rw [cut, Nat.div_div_eq_div_mul, ← Nat.pow_add]
  congr 3
  simp only
  omega

/-- What is not stored is as before. -/
theorem StoresAt.outside {m m' : Module} {p : Place} {len v : Nat} (h : StoresAt m m' p len v) : SameOutside m m' p len :=
  fun c hc => by rw [h.1, if_neg fun x => hc ⟨x.1, x.2.1, x.2.2.1⟩]

/-! ### Words written one after another -/

/-- The number that words of 8 bytes make, the first at the lowest address. -/
def wordsVal : List Nat → Nat
  | [] => 0
  | v :: t => v % 256 ^ 8 + 256 ^ 8 * wordsVal t

theorem foldl_putStep_words (w : Who) (c : SMap Nat) (p : Place) : ∀ (vs : List Nat) (i : Nat) (r : Module × List Nat),
    StoresAt r.1 (((vs.zipIdx i).map (fun x => (p.plus (8 * x.2), 8, x.1))).foldl (putStep w c) r).1 (p.plus (8 * i)) (8 * vs.length)
        (wordsVal vs) ∧
      Elsewhere [] r.1 (((vs.zipIdx i).map (fun x => (p.plus (8 * x.2), 8, x.1))).foldl (putStep w c) r).1 := by
  intro vs
  induction vs with
  | nil => exact fun i r => ⟨StoresAt.nothing _ _ _, Elsewhere.refl [] _⟩
  | cons v t ih =>
    intro i r
    have put := Module.putPiece_stored r.1 w (p.plus (8 * i)) 8 v ((p.plus (8 * i)).request r.2).1 (coversAll c (p.plus (8 * i)))
    have rest := ih (i + 1) (putStep w c r (p.plus (8 * i), 8, v))
    have next : p.plus (8 * (i + 1)) = (p.plus (8 * i)).plus 8 := by rw [Place.plus_plus, Nat.mul_succ]
    rw [next] at rest
    simp only [List.zipIdx_cons, List.map_cons, List.foldl_cons]
    refine ⟨?_, put.2.trans rest.2⟩
    rw [List.length_cons, show 8 * (t.length + 1) = 8 + 8 * t.length by omega]
    exact put.1.append rest.1 put.2.linkUp

theorem Module.putPieces_words (m : Module) (w : Who) (p : Place) (vs : List Nat) :
    StoresAt m (m.putPieces w (vs.zipIdx.map (fun x => (p.plus (8 * x.2), 8, x.1)))) p (8 * vs.length) (wordsVal vs) ∧
      Elsewhere [] m (m.putPieces w (vs.zipIdx.map (fun x => (p.plus (8 * x.2), 8, x.1)))) := by
  rw [Module.putPieces_eq]
  have h := foldl_putStep_words w (coverOf ((vs.zipIdx.map (fun x => (p.plus (8 * x.2), 8, x.1))).map (fun x => (x.1, x.2.1)))) p vs 0 (m, [])
  rw [Nat.mul_zero, Place.plus_zero] at h
  exact h

/-! ### A completion record (15 R385, R387) -/

/-- The four words of a record stand where they have been stored. -/
theorem HasRecord.of_stores {m m' : Module} {r : Place} {status kind count pilot : Nat}
    (h : StoresAt m m' r 32 (wordsVal (recordWords pilot status kind count 0))) (hu : ∀ a, r = .host a → m.linkUp = true)
    (hs : status < 256) (hk : kind < 256) (hc : count < 2 ^ 40) : HasRecord m' r status kind count 0 pilot := by
  have at0 := h.readPlace hu (i := 0) (n := 8) (by decide)
  have at1 := h.readPlace hu (i := 8) (n := 8) (by decide)
  have at2 := h.readPlace hu (i := 16) (n := 8) (by decide)
  have at3 := h.readPlace hu (i := 24) (n := 8) (by decide)
  rw [Place.plus_zero] at at0
  simp only [recordWords, wordsVal] at at0 at1 at2 at3
  refine ⟨at0.trans ?_, at1.trans ?_, at2.trans ?_, at3.trans ?_⟩ <;> omega

/-- None of the places that a record reads and writes waits for a held channel. -/
theorem Module.recordPlaces_open {m : Module} {ctx va : Nat} {r : Place} (h : m.recordPlace ctx va r) :
    (m.recordPlaces ctx va).find? m.mustWait = none := by
  obtain ⟨-, -, -, hbm, ⟨lc, hx⟩, -, walks⟩ := h
  rw [List.find?_eq_none]
  intro q hq
  rw [Module.recordPlaces, hx, List.mem_append, List.mem_singleton] at hq
  obtain hq | rfl := hq
  · split at hq
    · cases q with
      | hbm pc off => simp [Module.mustWait, walks pc off hq]
      | _ => simp [Module.mustWait]
    · cases hq
  · cases q with
    | hbm pc off => cases hbm
    | _ => simp [Module.mustWait]

/-- A record's place is one for what translates alike. -/
theorem Module.recordPlace_alike {m m' : Module} (h : Alike m m') {ctx va : Nat} {r : Place} (p : m.recordPlace ctx va r) :
    m'.recordPlace ctx va r := by
  obtain ⟨live, hn, align, hbm, ⟨lc, hx⟩, up, walks⟩ := p
  refine ⟨?_, hn, align, hbm, ⟨lc, (h.ctxXlat _ _ _).trans hx⟩, fun a ha => h.linkUp.trans (up a ha), fun pc off hq => ?_⟩
  · rw [Module.ctxLive, Module.ctxState, h.fields]
    · exact live
    · exact sideField_page (by simp only [Fld.key, Reg.HIF_CTXSTAT.state]; omega)
  · rw [h.walkPlaces] at hq
    exact (h.held pc).trans (walks pc off hq)

/-- A completion record is written, and nothing else but what is beside. -/
theorem Module.complete_writes {m : Module} {ctx va status kind count : Nat} {r : Place} (h : m.recordPlace ctx va r) (hs : status < 256)
    (hk : kind < 256) (hc : count < 2 ^ 40) :
    HasRecord (m.complete ctx va status kind count 0) r status kind count 0 m.pilot ∧
    SameOutside m (m.complete ctx va status kind count 0) r 32 ∧ Elsewhere [] m (m.complete ctx va status kind count 0) := by
  have wait := Module.recordPlaces_open h
  obtain ⟨live, -, -, -, ⟨lc, hx⟩, up, -⟩ := h
  have asked : Beside [] m (if va < windowBase then
      m.askPieces (engWho ctx (recordMaster kind) false) ((m.walkPlaces ctx va).map (fun p => (p, 8))) else m) :=
    Beside.ite _ (m.askPieces_beside _ _) (Beside.refl [] m)
  have done : m.complete ctx va status kind count 0 = ((if va < windowBase then
      m.askPieces (engWho ctx (recordMaster kind) false) ((m.walkPlaces ctx va).map (fun p => (p, 8))) else m).putPieces
        (engWho ctx (recordMaster kind) false)
        ((recordWords m.pilot status kind count 0).zipIdx.map (fun x => (r.plus (8 * x.2), 8, x.1)))).progress ctx := by
    simp only [Module.complete, Module.completeAs, live, Bool.not_true, Bool.false_eq_true, if_false, wait, hx]
  obtain ⟨stored, rest⟩ := Module.putPieces_words (if va < windowBase then
    m.askPieces (engWho ctx (recordMaster kind) false) ((m.walkPlaces ctx va).map (fun p => (p, 8))) else m)
    (engWho ctx (recordMaster kind) false) r (recordWords m.pilot status kind count 0)
  rw [done]
  generalize (if va < windowBase then m.askPieces (engWho ctx (recordMaster kind) false) ((m.walkPlaces ctx va).map (fun p => (p, 8)))
    else m) = x at asked stored rest ⊢
  have made := (x.putPieces (engWho ctx (recordMaster kind) false)
    ((recordWords m.pilot status kind count 0).zipIdx.map (fun x => (r.plus (8 * x.2), 8, x.1)))).progress_beside ctx
  have whole := (stored.after asked.sameBytes asked.linkUp).before made.sameBytes
  exact ⟨HasRecord.of_stores whole up hs hk hc, whole.outside, (asked.toElsewhere.trans rest).trans made.toElsewhere⟩

end Sys2Proof.Machine
end

section
/-! PROOFS of the threads family, twelfth part: X.LAUNCH. -/

namespace Sys2Proof.Machine

/-! ### Reading a descriptor (12 R279) -/

theorem Alike.descRead {m m' : Module} (h : Alike m m') (ctx va n : Nat) : m'.descRead ctx va n = m.descRead ctx va n := by
  simp only [Module.descRead, Module.engRead, Module.engWord, h.ctxXlat, h.badPlace, h.readPlace]

theorem Module.retry_beside (m : Module) (b : Bool) : Beside [] m { m with retry := b } := { Beside.refl [] m with pilot := rfl }

theorem Module.lookWalk_beside (m : Module) (w : Who) (va : Nat) : Beside [] m (m.lookWalk w va) :=
  Beside.ite _ (m.retry_beside true) (m.askPieces_beside _ _)

theorem Module.lookWalks_beside (m : Module) (w : Who) (vas : List Nat) : Beside [] m (m.lookWalks w vas) :=
  Beside.each [] _ _ (fun x _ => x.lookWalk_beside w _) m

/-- The lookups of a descriptor change nothing but what is beside. -/
theorem Module.look_beside (m : Module) (w : Who) (va len : Nat) : Beside [] m (m.look w va len) := by
  unfold Module.look Module.lookAt
  dsimp only
  have walked := m.lookWalks_beside w
  exact Beside.ite _ ((walked _).trans (Module.retry_beside _ true)) ((walked _).trans (Module.askPieces_beside _ _ _))

/-! ### What a launch does (15 R378, R387) -/

/-- The lookups of the descriptor of a launch. -/
def Module.launchLook (m : Module) (ctx va : Nat) : Module := m.look (engWho ctx 7 false) va 32

/-- A descriptor that breaks a limit of its fields. -/
def malformed (ws : List Nat) : Bool :=
  ws.getD 0 0 / 2 ^ 48 != 0 || ws.getD 1 0 / 2 ^ 48 != 0 || ws.getD 2 0 / 2 ^ 43 != 0 || ws.getD 3 0 / 2 ^ 48 != 0 ||
    ws.getD 0 0 % 2 ^ 48 % 8 != 0

/-- The descriptor keeps every limit of its fields, and its completion address is aligned. -/
def LaunchOk (ws : List Nat) : Prop :=
  ws.getD 0 0 < 2 ^ 48 ∧ ws.getD 1 0 < 2 ^ 48 ∧ ws.getD 2 0 < 2 ^ 43 ∧ ws.getD 3 0 < 2 ^ 48 ∧ ws.getD 0 0 % 8 = 0 ∧ ws.getD 3 0 % 32 = 0

theorem malformed_iff {ws : List Nat} (h : ws.getD 3 0 % 32 = 0) : malformed ws = true ↔ ¬ LaunchOk ws := by
  simp only [malformed, LaunchOk, Bool.or_eq_true, bne_iff_ne, ne_eq]
  omega

theorem LaunchOk.fits {ws : List Nat} (ok : LaunchOk ws) : ws.getD 3 0 % 32 = 0 ∧ malformed ws = false :=
  have aligned : ws.getD 3 0 % 32 = 0 := ok.2.2.2.2.2
  ⟨aligned, Bool.eq_false_iff.mpr fun bad => (malformed_iff aligned).mp bad ok⟩

/-- As many grids are pending as may be. -/
def Module.launchFull (m : Module) : Prop := 1024 ≤ (m.grids.filter (fun g => !g.waiting.isEmpty)).length

/-- The grid of a descriptor, for the cores of it that can be used. -/
def gridFor (id ctx : Nat) (ws cores : List Nat) : Grid :=
  { id := id, ctx := ctx, entry := ws.getD 0 0 % 2 ^ 48, arg := ws.getD 1 0 % 2 ^ 48, threads := ws.getD 2 0 / 2 ^ 40 % 8 + 1,
    cores := cores, waiting := cores, live := (ws.getD 2 0 / 2 ^ 40 % 8 + 1) * cores.length, lost := 0,
    completion := ws.getD 3 0 % 2 ^ 48 }

/-- A grid is queued last. -/
def Module.queueGrid (m : Module) (ctx : Nat) (ws : List Nat) : Module :=
  { m with grids := m.grids ++ [gridFor m.nextGrid ctx ws (m.usedCores (ws.getD 2 0))], nextGrid := m.nextGrid + 1 }

/-- A core gets a grid last in its launch order. -/
def Module.giveGrid (id : Nat) (m : Module) (c : Nat) : Module := m.setCore c { m.core c with grids := (m.core c).grids ++ [id] }

section
variable {m : Module} {ctx va : Nat}

theorem Module.launchGrid_misaligned (h : va % 32 ≠ 0) : m.launchGrid ctx va = (m.violate ctx 2 va, 2) := by
  rw [Module.launchGrid, if_pos (by simpa using h)]

variable (h : va % 32 = 0)
include h

theorem Module.launchGrid_unreadable {d : List Nat × Bool × Bool} (hd : m.descRead ctx va 4 = d) (hb : d.2.1 = true) :
    m.launchGrid ctx va = (m.launchLook ctx va, 4) := by
  obtain ⟨ws, bad, viol⟩ := d
  obtain rfl : bad = true := hb
  rw [Module.launchGrid, if_neg (by simpa using h)]
  simp only [hd]
  rfl

variable {ws : List Nat} (hd : m.descRead ctx va 4 = (ws, false, false))
include hd

theorem Module.launchGrid_lostRecord (h3 : ws.getD 3 0 % 32 ≠ 0) :
    m.launchGrid ctx va = ((m.launchLook ctx va).violate ctx 2 va, 0) := by
  have off : (ws.getD 3 0 % 2 ^ 48 % 32 != 0) = true := by rw [bne_iff_ne]; omega
  rw [Module.launchGrid, if_neg (by simpa using h)]
  simp only [hd, off]
  rfl

variable (h3 : ws.getD 3 0 % 32 = 0)
include h3

theorem Module.launchGrid_malformed (hm : malformed ws = true) :
    m.launchGrid ctx va = (((m.launchLook ctx va).complete ctx (ws.getD 3 0 % 2 ^ 48) 9 1 0 0).violate ctx 2 va, 0) := by
  have on : (ws.getD 3 0 % 2 ^ 48 % 32 != 0) = false := by rw [bne_eq_false_iff_eq]; omega
  rw [malformed] at hm
  rw [Module.launchGrid, if_neg (by simpa using h)]
  simp only [hd, on, hm]
  rfl

variable (hm : malformed ws = false)
include hm

theorem Module.launchGrid_full (hf : (m.launchLook ctx va).launchFull) : m.launchGrid ctx va = (m.launchLook ctx va, 1) := by
  have on : (ws.getD 3 0 % 2 ^ 48 % 32 != 0) = false := by rw [bne_eq_false_iff_eq]; omega
  rw [malformed] at hm
  rw [Module.launchGrid, if_neg (by simpa using h)]
  simp only [hd, on, hm]
  exact if_pos hf

variable (hf : ¬ (m.launchLook ctx va).launchFull)
include hf

theorem Module.launchGrid_coreless (hc : (m.launchLook ctx va).usedCores (ws.getD 2 0) = []) :
    m.launchGrid ctx va = ((m.launchLook ctx va).complete ctx (ws.getD 3 0 % 2 ^ 48) 0 1 0 0, 0) := by
  have on : (ws.getD 3 0 % 2 ^ 48 % 32 != 0) = false := by rw [bne_eq_false_iff_eq]; omega
  rw [malformed] at hm
  rw [Module.launchGrid, if_neg (by simpa using h)]
  simp only [hd, on, hm]
  exact (if_neg hf).trans (if_pos (List.isEmpty_iff.mpr hc))

theorem Module.launchGrid_queued (hc : (m.launchLook ctx va).usedCores (ws.getD 2 0) ≠ []) :
    m.launchGrid ctx va =
      ((((m.launchLook ctx va).queueGrid ctx ws).wake 5 ctx).each ((m.launchLook ctx va).usedCores (ws.getD 2 0))
        (Module.giveGrid (m.launchLook ctx va).nextGrid), 0) := by
  have on : (ws.getD 3 0 % 2 ^ 48 % 32 != 0) = false := by rw [bne_eq_false_iff_eq]; omega
  rw [malformed] at hm
  rw [Module.launchGrid, if_neg (by simpa using h)]
  simp only [hd, on, hm]
  exact (if_neg hf).trans (if_neg fun e => hc (List.isEmpty_iff.mp e))

end

/-! ### The cores of a grid (02 R22) -/

/-- Beside changes neither which cores are selected nor which of them can be used. -/
theorem Elsewhere.usedCores {ks : List Nat} {m m' : Module} (h : Elsewhere ks m m') (w2 : Nat) : m'.usedCores w2 = m.usedCores w2 := by
  refine List.filter_congr fun c hc => ?_
  have hc := List.mem_range.mp hc
  have part : m'.getF (Reg.PART_STAT.state (c / 256)) = m.getF (Reg.PART_STAT.state (c / 256)) := by
    refine h.fields _ (sideField_eq_false (.inr ?_) (fun p _ => ?_) (fun n _ => ?_)) <;>
      simp only [Fld.key, Reg.PART_STAT.state, Reg.FAB_PSTAT.state, Reg.LMP_WDOG.state] <;> omega
  have lease : m'.getF (Reg.SQ_LOWN.state (c / 16)) = m.getF (Reg.SQ_LOWN.state (c / 16)) := by
    apply h.above <;> simp only [Fld.key, Reg.SQ_LOWN.state] <;> omega
  simp only [Module.partPooled, Module.partReady, part, lease, h.esc]

theorem Module.usedCores_nodup (m : Module) (w2 : Nat) : (m.usedCores w2).Nodup := List.nodup_range.filter _

/-- Each of the cores gets the grid once, and nothing else changes. -/
theorem Module.each_giveGrid (id : Nat) : ∀ (l : List Nat) (m : Module), l.Nodup →
    (∀ c, ((m.each l (Module.giveGrid id)).core c).grids = (m.core c).grids ++ (if l.contains c then [id] else [])) ∧
    (m.each l (Module.giveGrid id)).threads = m.threads ∧ (m.each l (Module.giveGrid id)).ms = m.ms ∧
    (m.each l (Module.giveGrid id)).pilot = m.pilot ∧ (m.each l (Module.giveGrid id)).grids = m.grids := by
  intro l
  induction l with
  | nil => exact fun m _ => ⟨fun c => (List.append_nil _).symm, rfl, rfl, rfl, rfl⟩
  | cons a t ih =>
    intro m hl
    obtain ⟨ha, ht⟩ := List.nodup_cons.mp hl
    obtain ⟨cores, threads, ms, pilot, grids⟩ := ih (m.giveGrid id a) ht
    refine ⟨fun c => ?_, threads, ms, pilot, grids⟩
    refine (cores c).trans ?_
    rw [Module.giveGrid, Module.core_setCore]
    by_cases h : c = a
    · subst h
      rw [if_pos rfl, if_neg (by simpa using ha), if_pos (by simp), List.append_nil]
    · rw [if_neg h]
      simp [h]

/-! ### The instruction -/

/-- What X.LAUNCH does once nothing earlier is open. -/
def launchBody (w : Word) (k : Nat) (m : Module) : Module :=
  (m.launchGrid (m.th k).ctx ((m.th k).getS (Word.ra w)).toNat).1.retireS k (Word.rd w)
    (BitVec.ofNat 64 (m.launchGrid (m.th k).ctx ((m.th k).getS (Word.ra w)).toNat).2)

theorem exec_xLaunch {s : State} {th : ThreadId} {w : Word} (hi : s.issues .xLaunch th w = true)
    (hd : (s.issuing th).drained (ThreadId.key th) = true) (hf : (s.thread th).deferred = []) :
    exec (.xLaunch th w) s = .next { s with m := (s.issuing th).whenOpen (launchBody w (ThreadId.key th)) } := by
  refine (State.inst_issues s .xLaunch th w _ hi).trans ?_
  have hf : ((s.issuing th).th (ThreadId.key th)).deferred = [] := hf
  simp only [Module.afterDrain, hd, hf]
  rfl

/-- A command that may be given again while a channel is held, and otherwise does what it does from either value of `retry`. -/
theorem Module.whenOpen_cases (m : Module) (f : Module → Module) (p : Module → Prop) (h : ∀ b, p (f { m with retry := b })) :
    (m.noHolds = false ∧ m.whenOpen f = m) ∨ p (m.whenOpen f) := by
  unfold Module.whenOpen
  split
  · exact .inr (h m.retry)
  · next hn =>
    dsimp only
    split
    · exact .inl ⟨by simpa using hn, rfl⟩
    · exact .inr (h false)

theorem Thread.setS_ip (t : Thread) (d : Nat) (v : Word) : (t.setS d v).ip = t.ip := by
  unfold Thread.setS
  split <;> rfl

theorem Module.retireS_beside (m : Module) (k d : Nat) (v : Word) : Beside [k] m (m.retireS k d v) := m.setTh_retire_beside k _ false

theorem State.code_th {s : State} {th : ThreadId} {w : Word} {m : Module} (ht : m.th (ThreadId.key th) = s.thread th) (hp : m.pilot = s.m.pilot)
    (code : Nat) : (m.retireS (ThreadId.key th) (Word.rd w) (BitVec.ofNat 64 code)).th (ThreadId.key th) = s.withCode th w code := by
  rw [Module.retireS, (Module.setTh_retire m _ _ false).2, ht, hp, Thread.setS_ip]
  rfl

section
variable {s : State} {th : ThreadId} {w : Word}

/-- A launch that answers a code, from what it leaves before its thread moves on. -/
theorem State.launch_completes (hi : s.issues .xLaunch th w = true) (hd : (s.issuing th).drained (ThreadId.key th) = true)
    (hf : (s.thread th).deferred = []) {code : Nat} {p : Module → Prop}
    (h : ∀ y, Beside [] (s.issuing th) y → ∃ x, y.launchGrid (s.thread th).ctx ((s.thread th).getS (Word.ra w)).toNat = (x, code) ∧
      x.th (ThreadId.key th) = s.thread th ∧ x.pilot = s.m.pilot ∧ ∀ z, Beside [ThreadId.key th] x z → p z) :
    CompletesOpen (.xLaunch th w) s (s.issuing th) (fun m => m.th (ThreadId.key th) = s.withCode th w code ∧ p m) := by
  refine Completes.of_exec (exec_xLaunch hi hd hf) ?_
  have holds : (s.issuing th).noHolds = s.m.noHolds := (s.issuing_beside th).noHolds
  rw [← holds]
  refine Module.whenOpen_cases _ _ (fun m => m.th (ThreadId.key th) = s.withCode th w code ∧ p m) fun b => ?_
  obtain ⟨x, launched, thread, pilot, rest⟩ := h { s.issuing th with retry := b } ((s.issuing th).retry_beside b)
  have body : launchBody w (ThreadId.key th) { s.issuing th with retry := b } =
      x.retireS (ThreadId.key th) (Word.rd w) (BitVec.ofNat 64 code) := by
    unfold launchBody
    rw [show ({ s.issuing th with retry := b } : Module).th (ThreadId.key th) = s.thread th from rfl, launched]
  rw [body]
  exact ⟨State.code_th thread pilot code, rest _ (x.retireS_beside _ _ _)⟩

end

end Sys2Proof.Machine
end

section
/-! PROOFS of the threads family, thirteenth part: what a thread that launches a grid leaves. -/

namespace Sys2Proof.Machine

theorem SameOutside.of_same {a b c d : Module} {p : Place} {n : Nat} (h : SameBytes a b) (o : SameOutside b c p n) (g : SameBytes c d) :
    SameOutside a d p n := fun x hx => (g.1 x).trans ((o x hx).trans (h.1 x))

theorem HasRecord.beside {ks : List Nat} {m m' : Module} {r : Place} {status kind count parts pilot : Nat} (h : Beside ks m m')
    (v : HasRecord m r status kind count parts pilot) : HasRecord m' r status kind count parts pilot := by
  obtain ⟨w0, w1, w2, w3⟩ := v
  exact ⟨(h.readPlace _ _).trans w0, (h.readPlace _ _).trans w1, (h.readPlace _ _).trans w2, (h.readPlace _ _).trans w3⟩

/-- What a launch leaves that writes its record at once. -/
theorem State.launch_record {s : State} {th : ThreadId} {r : Place} {va : Nat}
    (hr : s.m.recordPlace (s.thread th).ctx va r) {x : Module} (hx : Beside [] (s.issuing th) x) {status : Nat} (hs : status < 256) :
    (x.complete (s.thread th).ctx va status 1 0 0).th (ThreadId.key th) = s.thread th ∧
    Elsewhere [ThreadId.key th] s.m (x.complete (s.thread th).ctx va status 1 0 0) ∧
    HasRecord (x.complete (s.thread th).ctx va status 1 0 0) r status 1 0 0 s.m.pilot ∧
    SameOutside s.m (x.complete (s.thread th).ctx va status 1 0 0) r 32 := by
  have whole := (s.issuing_beside th).trans hx.mono
  obtain ⟨record, outside, rest⟩ := Module.complete_writes (count := 0) (kind := 1) (Module.recordPlace_alike whole.alike hr) hs (by decide)
    (by decide)
  rw [whole.pilot] at record
  exact ⟨(rest.th _ List.not_mem_nil).trans (hx.th _ List.not_mem_nil), whole.toElsewhere.trans rest.mono, record,
    SameOutside.of_same whole.sameBytes outside ⟨fun _ => rfl, rfl⟩⟩

section
variable {s : State} {th : ThreadId} {w : Word} (hi : s.issues .xLaunch th w = true)
  (hd : (s.issuing th).drained (ThreadId.key th) = true) (hf : (s.thread th).deferred = []) {code : Nat}
include hi hd hf

/-- A launch that looks its descriptor up at most, and answers a code. -/
theorem State.launch_answers (h : ∀ y, Beside [] (s.issuing th) y → ∃ x, Beside [] (s.issuing th) x ∧
      y.launchGrid (s.thread th).ctx ((s.thread th).getS (Word.ra w)).toNat = (x, code)) :
    CompletesOpen (.xLaunch th w) s (s.issuing th) (fun m => m.th (ThreadId.key th) = s.withCode th w code ∧ SameBytes s.m m ∧
      m.grids = s.m.grids) := by
  refine State.launch_completes hi hd hf fun y hy => ?_
  obtain ⟨x, hx, e⟩ := h y hy
  have whole := (s.issuing_beside th).trans hx.mono
  exact ⟨x, e, hx.th _ List.not_mem_nil, whole.pilot, fun z hz => ⟨(whole.trans hz).sameBytes, (whole.trans hz).grids⟩⟩

/-- A launch that counts a violation, and answers a code. -/
theorem State.launch_violates (hn : (s.thread th).ctx < 64)
    (h : ∀ y, Beside [] (s.issuing th) y → ∃ x, Beside [] (s.issuing th) x ∧
      y.launchGrid (s.thread th).ctx ((s.thread th).getS (Word.ra w)).toNat =
        (x.violate (s.thread th).ctx 2 ((s.thread th).getS (Word.ra w)).toNat, code)) :
    CompletesOpen (.xLaunch th w) s (s.issuing th) (fun m => m.th (ThreadId.key th) = s.withCode th w code ∧ SameBytes s.m m ∧
      m.grids = s.m.grids ∧ Violates s.m m (s.thread th).ctx 2 ((s.thread th).getS (Word.ra w)).toNat) := by
  refine State.launch_completes hi hd hf fun y hy => ?_
  obtain ⟨x, hx, e⟩ := h y hy
  have whole := (s.issuing_beside th).trans hx.mono
  have counted := SameBytes.of_ms (m := x) (m' := x.violate (s.thread th).ctx 2 ((s.thread th).getS (Word.ra w)).toNat) rfl
  exact ⟨_, e, hx.th _ List.not_mem_nil, whole.pilot, fun z hz => ⟨(whole.sameBytes.trans counted).trans hz.sameBytes,
    hz.grids.trans whole.grids, Violates.beside hn whole.toElsewhere (x.violate_violates _ 2 _ (by decide)) hz.toElsewhere⟩⟩

variable {r : Place} {va : Nat} (hr : s.m.recordPlace (s.thread th).ctx va r)
include hr

/-- A launch of a malformed descriptor: its record says so, and a violation is counted. -/
theorem State.launch_rejects (h : ∀ y, Beside [] (s.issuing th) y → ∃ x, Beside [] (s.issuing th) x ∧
      y.launchGrid (s.thread th).ctx ((s.thread th).getS (Word.ra w)).toNat =
        ((x.complete (s.thread th).ctx va 9 1 0 0).violate (s.thread th).ctx 2 ((s.thread th).getS (Word.ra w)).toNat, code)) :
    CompletesOpen (.xLaunch th w) s (s.issuing th) (fun m => m.th (ThreadId.key th) = s.withCode th w code ∧ m.grids = s.m.grids ∧
      HasRecord m r 9 1 0 0 s.m.pilot ∧ SameOutside s.m m r 32 ∧
      Violates s.m m (s.thread th).ctx 2 ((s.thread th).getS (Word.ra w)).toNat) := by
  refine State.launch_completes hi hd hf fun y hy => ?_
  obtain ⟨x, hx, e⟩ := h y hy
  obtain ⟨thread, rest, record, outside⟩ := State.launch_record hr hx (status := 9) (by decide)
  have hn : (s.thread th).ctx < 64 := hr.2.1
  exact ⟨_, e, thread, rest.pilot, fun z hz => ⟨hz.grids.trans rest.grids, HasRecord.beside hz record,
    SameOutside.of_same ⟨fun _ => rfl, rfl⟩ outside hz.sameBytes,
    Violates.beside hn rest (Module.violate_violates _ _ 2 _ (by decide)) hz.toElsewhere⟩⟩

/-- A launch of a grid that no core can run: it is done at once. -/
theorem State.launch_ends (h : ∀ y, Beside [] (s.issuing th) y → ∃ x, Beside [] (s.issuing th) x ∧
      y.launchGrid (s.thread th).ctx ((s.thread th).getS (Word.ra w)).toNat = (x.complete (s.thread th).ctx va 0 1 0 0, code)) :
    CompletesOpen (.xLaunch th w) s (s.issuing th) (fun m => m.th (ThreadId.key th) = s.withCode th w code ∧ m.grids = s.m.grids ∧
      HasRecord m r 0 1 0 0 s.m.pilot ∧ SameOutside s.m m r 32 ∧ True) := by
  refine State.launch_completes hi hd hf fun y hy => ?_
  obtain ⟨x, hx, e⟩ := h y hy
  obtain ⟨thread, rest, record, outside⟩ := State.launch_record hr hx (status := 0) (by decide)
  exact ⟨_, e, thread, rest.pilot, fun z hz => ⟨hz.grids.trans rest.grids, HasRecord.beside hz record,
    SameOutside.of_same ⟨fun _ => rfl, rfl⟩ outside hz.sameBytes, trivial⟩⟩

end

/-! ### A grid is queued -/

/-- A grid is queued last, and each of its cores gets it last in its launch order. -/
def Module.giveCores (m : Module) (ctx : Nat) (ws cores : List Nat) : Module :=
  ((m.queueGrid ctx ws).wake 5 ctx).each cores (Module.giveGrid m.nextGrid)

theorem Module.giveCores_leaves (m : Module) (ctx : Nat) (ws : List Nat) {cores : List Nat} (h : cores.Nodup) :
    (m.giveCores ctx ws cores).grids = m.grids ++ [gridFor m.nextGrid ctx ws (m.usedCores (ws.getD 2 0))] ∧
    (m.giveCores ctx ws cores).threads = m.threads ∧
    (m.giveCores ctx ws cores).pilot = m.pilot ∧ SameBytes m (m.giveCores ctx ws cores) ∧
    ∀ c, ((m.giveCores ctx ws cores).core c).grids = (m.core c).grids ++ (if cores.contains c then [m.nextGrid] else []) := by
  have woken := Module.wake_quiet (m.queueGrid ctx ws) 5 ctx
  obtain ⟨given, threads, ms, pilot, grids⟩ := Module.each_giveGrid m.nextGrid cores ((m.queueGrid ctx ws).wake 5 ctx) h
  refine ⟨grids.trans woken.beside.grids, threads.trans woken.threads, pilot.trans woken.beside.pilot,
    SameBytes.trans woken.beside.sameBytes (SameBytes.of_ms ms), fun c => (given c).trans ?_⟩
  rw [woken.beside.coreGrids c]
  rfl

theorem State.launch_queues {s : State} {th : ThreadId} {w : Word} (hi : s.issues .xLaunch th w = true)
    (hd : (s.issuing th).drained (ThreadId.key th) = true) (hf : (s.thread th).deferred = []) {ws : List Nat} (ok : LaunchOk ws)
    (h : ∀ y, Beside [] (s.issuing th) y → ∃ x, Beside [] (s.issuing th) x ∧
      y.launchGrid (s.thread th).ctx ((s.thread th).getS (Word.ra w)).toNat =
        (x.giveCores (s.thread th).ctx ws (x.usedCores (ws.getD 2 0)), 0)) :
    CompletesOpen (.xLaunch th w) s (s.issuing th) (fun m => m.th (ThreadId.key th) = s.withCode th w 0 ∧ SameBytes s.m m ∧
      ∃ g : Grid, m.grids = s.m.grids ++ [g] ∧ g.ctx = (s.thread th).ctx ∧ g.entry = ws.getD 0 0 ∧ g.arg = ws.getD 1 0 ∧
        g.completion = ws.getD 3 0 ∧ g.threads = ws.getD 2 0 / 2 ^ 40 % 8 + 1 ∧ g.cores = s.m.usedCores (ws.getD 2 0) ∧
        g.waiting = g.cores ∧ g.live = g.threads * g.cores.length ∧
        ∀ c, (m.core c).grids = (s.m.core c).grids ++ (if g.cores.contains c then [g.id] else [])) := by
  refine State.launch_completes hi hd hf fun y hy => ?_
  obtain ⟨x, hx, e⟩ := h y hy
  have whole := (s.issuing_beside th).trans hx.mono
  have used := whole.usedCores (ws.getD 2 0)
  obtain ⟨grids, threads, pilot, bytes, cores⟩ := x.giveCores_leaves (s.thread th).ctx ws (x.usedCores_nodup (ws.getD 2 0))
  rw [used] at e grids threads pilot bytes cores
  generalize s.m.usedCores (ws.getD 2 0) = cs at *
  obtain ⟨h0, h1, -, h3, -, -⟩ := ok
  refine ⟨_, e, (Module.th_congr threads _).trans (hx.th _ List.not_mem_nil), pilot.trans whole.pilot, fun z hz =>
    ⟨(whole.sameBytes.trans bytes).trans hz.sameBytes, gridFor x.nextGrid (s.thread th).ctx ws cs, ?_, rfl, Nat.mod_eq_of_lt h0,
      Nat.mod_eq_of_lt h1, Nat.mod_eq_of_lt h3, rfl, rfl, rfl, rfl, fun c => ?_⟩⟩
  · rw [hz.grids, grids, whole.grids]
  · rw [hz.coreGrids, cores, whole.coreGrids]
    rfl

end Sys2Proof.Machine
end

section
/-! PROOFS of the threads family, fourteenth part: the threads of a grid start on a core. -/

namespace Sys2Proof.Machine

/-! ### A thread that starts (02 R24, R26) -/

theorem Thread.getS_setSN (t : Thread) {d : Nat} (v r : Nat) (hd : d ≠ 0) :
    (t.setSN d v).getS r = if r = d then BitVec.ofNat 64 v else t.getS r := by
  unfold Thread.setSN Thread.setS Thread.getS
  rw [if_neg hd, SMap.get_set]
  by_cases hr : r = 0
  · rw [if_pos hr, if_neg (hr ▸ hd.symm), if_pos hr]
  · rw [if_neg hr, if_neg hr]

/-- The thread of an ordinal of a grid on its core of the given rank, as it starts. -/
def Grid.firstThread (g : Grid) (rank gen pilot o : Nat) : Thread :=
  ((({ Thread.empty with run := .running, ctx := g.ctx, gen := gen, ip := BitVec.ofNat 64 g.entry, work := .grid g.id, retiredAt := pilot }
    : Thread).setSN 1 g.arg).setSN 2 (rank * g.threads + o)).setSN 3 g.count

theorem Grid.firstThread_getS (g : Grid) (rank gen pilot o r : Nat) : (g.firstThread rank gen pilot o).getS r =
    if r = 1 then BitVec.ofNat 64 g.arg else if r = 2 then BitVec.ofNat 64 (rank * g.threads + o)
      else if r = 3 then BitVec.ofNat 64 g.count else 0 := by
  unfold Grid.firstThread
  rw [Thread.getS_setSN _ _ _ (by decide), Thread.getS_setSN _ _ _ (by decide), Thread.getS_setSN _ _ _ (by decide)]
  by_cases h1 : r = 1
  · subst h1; rfl
  · rw [if_neg h1, if_neg h1]
    by_cases h2 : r = 2
    · subst h2; rfl
    · rw [if_neg h2, if_neg h2]
      exact congrArg (ite (r = 3) _) (Thread.getS_empty r)

/-! ### One ordinal after another (02 R25) -/

/-- What starting ordinals leaves: each has a slot of its own among the free ones with its first thread, and no other slot changes. -/
def Starts (m m' : Module) (g : Grid) (rank : Nat) (os free : List Nat) : Prop :=
  ∃ f : Nat → Nat, (∀ o ∈ os, f o ∈ free) ∧ (∀ o ∈ os, ∀ o' ∈ os, f o = f o' → o = o') ∧
    (∀ k, (∀ o ∈ os, f o ≠ k) → m'.th k = m.th k) ∧
    ∀ o ∈ os, m'.th (f o) = g.firstThread rank (m.ctx g.ctx).gen m.pilot o

/-- One more ordinal takes a free slot, and the rest the others. -/
theorem Starts.cons {m m' : Module} {g : Grid} {rank o k : Nat} {os free : List Nat} (ho : o ∉ os) (hk : k ∈ free)
    (h : Starts (m.setTh k (g.firstThread rank (m.ctx g.ctx).gen m.pilot o)) m' g rank os (free.filter (fun x => x != k))) :
    Starts m m' g rank (o :: os) free := by
  obtain ⟨f, member, distinct, others, started⟩ := h
  have apart : ∀ o' ∈ os, f o' ∈ free ∧ f o' ≠ k := fun o' h' => by simpa using member o' h'
  have rest : ∀ o' ∈ os, (if o' = o then k else f o') = f o' := fun o' h' => if_neg fun (e : o' = o) => ho (e ▸ h')
  refine ⟨fun x => if x = o then k else f x, ?_, ?_, ?_, ?_⟩
  · rintro o' (_ | ⟨_, h'⟩)
    · simpa using hk
    · simpa only [rest o' h'] using (apart o' h').1
  · rintro a (_ | ⟨_, ha⟩) b (_ | ⟨_, hb⟩) e
    · rfl
    · simp only [if_true, rest b hb] at e
      exact absurd e.symm (apart b hb).2
    · simp only [if_true, rest a ha] at e
      exact absurd e (apart a ha).2
    · simp only [rest a ha, rest b hb] at e
      exact distinct a ha b hb e
  · intro j hj
    have jk : j ≠ k := fun e => hj o List.mem_cons_self (by simp [e])
    rw [others j fun o' h' => by simpa only [rest o' h'] using hj o' (List.mem_cons_of_mem _ h'), Module.th_setTh, if_neg jk]
  · rintro o' (_ | ⟨_, h'⟩)
    · simp only [if_true]
      rw [others k fun o' h' => (apart o' h').2, Module.th_setTh_self]
    · simp only [rest o' h']
      exact started o' h'

theorem Starts.same {a b m' : Module} {g : Grid} {rank : Nat} {os free : List Nat} (h : Starts b m' g rank os free)
    (threads : b.threads = a.threads) (ctxs : b.ctxs = a.ctxs) (pilot : b.pilot = a.pilot) : Starts a m' g rank os free := by
  obtain ⟨f, member, distinct, others, started⟩ := h
  refine ⟨f, member, distinct, fun k hk => (others k hk).trans (Module.th_congr threads k), fun o ho => ?_⟩
  rw [started o ho, pilot, Module.ctx_congr ctxs]

theorem Module.startOrdinals_starts (g : Grid) (core rank : Nat) : ∀ (os free : List Nat) (m : Module), os.Nodup → free.Nodup →
    os.length ≤ free.length →
    Starts m (m.startOrdinals g core rank os free) g rank os free ∧ (m.startOrdinals g core rank os free).cores = m.cores ∧
      (m.startOrdinals g core rank os free).ms = m.ms := by
  intro os
  induction os with
  | nil => exact fun free m _ _ _ => ⟨⟨id, by simp, by simp, fun _ _ => rfl, by simp⟩, rfl, rfl⟩
  | cons o os ih =>
    intro free m ho hf hl
    obtain ⟨fresh, ho⟩ := List.nodup_cons.mp ho
    rw [List.length_cons] at hl
    have some : m.freePick.2 % free.length < free.length := Nat.mod_lt _ (by omega)
    have hk : free.getD (m.freePick.2 % free.length) 0 ∈ free := by
      rw [List.getD_eq_getElem _ _ some]
      exact List.getElem_mem some
    unfold Module.startOrdinals
    dsimp only
    generalize free.getD (m.freePick.2 % free.length) 0 = k at hk
    have less : os.length ≤ (free.filter (fun x => x != k)).length := by
      rw [← hf.erase_eq_filter, List.length_erase_of_mem hk]
      omega
    obtain ⟨starts, cores, ms⟩ := ih (free.filter (fun x => x != k))
      (m.freePick.1.startThread k g.ctx g.entry [(1, g.arg), (2, rank * g.threads + o), (3, g.count)] (.grid g.id)) ho (hf.filter _) less
    exact ⟨Starts.cons fresh hk starts, cores, ms⟩

/-! ### A core is taken (02 R26) -/

/-- What a core holds of its last context is zero. -/
def Module.CoreZero (m : Module) (c : Nat) : Prop :=
  (m.core c).acc = [] ∧ (m.core c).set0 = [] ∧ (m.core c).set1 = [] ∧ ∀ off, off < storeBytes → m.byteAt (3, c * storeBytes + off) = 0

theorem Module.zeroCore_zero (m : Module) (c : Nat) (who : Nat × Nat) : (m.zeroCore c who).CoreZero c := by
  have core : (m.zeroCore c who).core c = { m.core c with
      last := some who, acc := [], set0 := [], set1 := [], active := false, tstat := [], chans := [], tlb := [] } := Module.core_setCore_self _ _ _
  refine ⟨by rw [core], by rw [core], by rw [core], fun off ho => ?_⟩
  have kept := SMap.get_keep 0#8 m.ms.store (fun a => !(decide (c * storeBytes ≤ a) && decide (a < c * storeBytes + storeBytes)))
    (c * storeBytes + off)
  have inside : decide (c * storeBytes + off < c * storeBytes + storeBytes) = true := decide_eq_true (by omega)
  rw [decide_eq_true (Nat.le_add_right _ _), inside] at kept
  exact (Memory.read_one _ _).trans (congrArg BitVec.toNat kept)

theorem Module.takeCore_leaves (m : Module) (c ctx : Nat) :
    (m.takeCore c ctx).threads = m.threads ∧ (m.takeCore c ctx).ctxs = m.ctxs ∧ (m.takeCore c ctx).pilot = m.pilot ∧
    ((m.takeCore c ctx).core c).grids = (m.core c).grids ∧ ((m.takeCore c ctx).core c).clockOn = true ∧
    ((m.takeCore c ctx).core c).last = some (ctx, (m.ctx ctx).gen) ∧
    ((m.core c).last ≠ some (ctx, (m.ctx ctx).gen) → (m.takeCore c ctx).CoreZero c) := by
  unfold Module.takeCore
  by_cases h : (m.core c).last = some (ctx, (m.ctx ctx).gen)
  · simp only [h, if_true]
    exact ⟨rfl, rfl, rfl, by rw [Module.core_setCore_self], by rw [Module.core_setCore_self], by rw [Module.core_setCore_self],
      fun n => absurd rfl n⟩
  · simp only [h, if_false]
    have zero := m.zeroCore_zero c (ctx, (m.ctx ctx).gen)
    have core : (m.zeroCore c (ctx, (m.ctx ctx).gen)).core c = { m.core c with
      last := some (ctx, (m.ctx ctx).gen), acc := [], set0 := [], set1 := [], active := false, tstat := [], chans := [], tlb := [] } :=
      Module.core_setCore_self _ _ _
    refine ⟨rfl, rfl, rfl, ?_, ?_, ?_, fun _ => ?_⟩
    · rw [Module.core_setCore_self, core]
    · rw [Module.core_setCore_self]
    · rw [Module.core_setCore_self, core]
    · obtain ⟨acc, set0, set1, bytes⟩ := zero
      refine ⟨?_, ?_, ?_, bytes⟩ <;> rw [Module.core_setCore_self] <;> assumption

/-! ### Admission (02 R24, R25) -/

theorem coreKeys_nodup (c : Nat) : (coreKeys c).Nodup := List.Nodup.map (fun _ _ h => by omega) List.nodup_range

section
variable {m : Module} {c id : Nat} {rest : List Nat} {g : Grid} (hq : (m.core c).grids = id :: rest) (hg : m.grid id = some g)
  (hp : m.partReady (partOf c) = true) (hw : m.getF Reg.PWR_STATE.state = 0)
  (hroom : g.threads ≤ ((coreKeys c).filter (fun k => !m.busy k)).length)
  (hown : ∀ k ∈ coreKeys c, m.busy k = true → (m.th k).ctx = g.ctx ∧ (m.th k).gen = (m.ctx g.ctx).gen)
include hq hg hp hw hroom hown

theorem gridAdmit_admits : gridAdmit c m =
    (((m.setCore c { m.core c with grids := rest }).takeCore c g.ctx).startOrdinals g c (g.cores.takeWhile (fun x => x != c)).length
      (List.range g.threads) ((coreKeys c).filter (fun k => !m.busy k))).modGrid id
      (fun g => { g with waiting := g.waiting.filter (fun x => x != c) }) := by
  have none : (coreKeys c).any (fun k => m.busy k && !((m.th k).ctx == g.ctx && (m.th k).gen == (m.ctx g.ctx).gen)) = false := by
    rw [List.any_eq_false]
    intro k hk
    by_cases hb : m.busy k = true
    · obtain ⟨hc, hn⟩ := hown k hk hb
      simp [hc, hn]
    · simp [hb]
  have room : decide (((coreKeys c).filter (fun k => !m.busy k)).length < g.threads) = false := decide_eq_false (by omega)
  simp only [gridAdmit, hq, hg, hp, hw, none, room, bne_self_eq_false, Bool.not_true, Bool.or_false, Bool.false_eq_true, if_false]

/-- An admitted grid has its threads on the core, which is zeroed when it ran another context's. -/
theorem gridAdmit_leaves : ((gridAdmit c m).core c).grids = rest ∧ ((gridAdmit c m).core c).clockOn = true ∧
    ((gridAdmit c m).core c).last = some (g.ctx, (m.ctx g.ctx).gen) ∧
    Starts m (gridAdmit c m) g (g.cores.takeWhile (fun x => x != c)).length (List.range g.threads)
      ((coreKeys c).filter (fun k => !m.busy k)) ∧
    ((m.core c).last ≠ some (g.ctx, (m.ctx g.ctx).gen) → (gridAdmit c m).CoreZero c) := by
  rw [gridAdmit_admits hq hg hp hw hroom hown]
  obtain ⟨threads, ctxs, pilot, grids, clock, last, zero⟩ := (m.setCore c { m.core c with grids := rest }).takeCore_leaves c g.ctx
  rw [Module.core_setCore_self] at grids zero
  generalize (m.setCore c { m.core c with grids := rest }).takeCore c g.ctx = x at *
  obtain ⟨starts, cores, ms⟩ := x.startOrdinals_starts g c (g.cores.takeWhile (fun x => x != c)).length (List.range g.threads)
    ((coreKeys c).filter (fun k => !m.busy k)) List.nodup_range ((coreKeys_nodup c).filter _) (by rw [List.length_range]; exact hroom)
  generalize x.startOrdinals g c (g.cores.takeWhile (fun x => x != c)).length (List.range g.threads)
    ((coreKeys c).filter (fun k => !m.busy k)) = y at *
  have core (d : Nat) : (y.modGrid id (fun g => { g with waiting := g.waiting.filter (fun x => x != c) })).core d = x.core d :=
    Module.core_congr cores d
  have bytes : SameBytes x y := SameBytes.of_ms ms
  refine ⟨by rw [core, grids], by rw [core, clock], by rw [core, last]; rfl, Starts.same starts threads ctxs pilot, fun other => ?_⟩
  obtain ⟨acc, set0, set1, store⟩ := zero other
  exact ⟨by rw [core, acc], by rw [core, set0], by rw [core, set1], fun off ho => (bytes.1 _).trans (store off ho)⟩

end

end Sys2Proof.Machine
end

section
/-! PROOFS of the threads family, fifteenth part: O36. -/

namespace Sys2Proof.Machine

/-! ### An idle core's clock (02 R47) -/

theorem exec_gridAdmit (s : State) (c : Fin 2048) : exec (.gridAdmit c) s = .next { s with m := gridAdmit c.val s.m.fresh } := rfl

theorem exec_coreClockStop (s : State) (c : Fin 2048) :
    exec (.coreClockStop c) s = .next { s with m := coreClockStop c.val s.m.fresh } := rfl

theorem coreClockStop_idle {m : Module} {c : Nat} (ht : ∀ k ∈ coreKeys c, (m.th k).runnable = false ∧ (m.th k).outst = [])
    (hq : (m.core c).mq = []) (hr : ∀ r ∈ m.sq.runs, c ∈ r.cores → r.stage < 2 ∨ 5 < r.stage)
    (he : ∀ e ∈ m.sq.entries, c ∈ e.cores → e.phase ≠ 1) : coreClockStop c m = m.setCore c { m.core c with clockOn := false } := by
  have idle : (coreKeys c).all (fun k => !(m.th k).runnable && (m.th k).outst.isEmpty) = true := by
    rw [List.all_eq_true]
    intro k hk
    obtain ⟨stopped, none⟩ := ht k hk
    rw [stopped, none]
    rfl
  have runs : m.sq.runs.any (fun r => decide (2 ≤ r.stage) && decide (r.stage ≤ 5) && r.cores.contains c) = false := by
    rw [List.any_eq_false]
    intro r hm
    simp only [Bool.and_eq_true, decide_eq_true_eq, List.contains_iff_mem]
    rintro ⟨⟨low, high⟩, used⟩
    have := hr r hm used
    omega
  have entries : m.sq.entries.any (fun e => e.phase == 1 && e.cores.contains c) = false := by
    rw [List.any_eq_false]
    intro e hm
    simp only [Bool.and_eq_true, beq_iff_eq, List.contains_iff_mem]
    exact fun ⟨phase, used⟩ => he e hm used phase
  simp only [coreClockStop, idle, runs, entries, hq]
  rfl

theorem coreClockStop_does {s : State} {c : Fin 2048}
    (ht : ∀ k ∈ coreKeys c.val, (s.m.th k).runnable = false ∧ (s.m.th k).outst = []) (hq : (s.m.core c.val).mq = [])
    (hr : ∀ r ∈ s.m.sq.runs, c.val ∈ r.cores → r.stage < 2 ∨ 5 < r.stage)
    (he : ∀ e ∈ s.m.sq.entries, c.val ∈ e.cores → e.phase ≠ 1) :
    Does (.coreClockStop c) s [.cores] (fun m => m.core c.val = { s.m.core c.val with clockOn := false } ∧
      ∀ c', c' ≠ c.val → m.core c' = s.m.core c') := by
  have stops : coreClockStop c.val s.m.fresh = s.m.fresh.setCore c.val { s.m.core c.val with clockOn := false } :=
    coreClockStop_idle ht hq hr he
  refine Completes.of_exec (exec_coreClockStop s c) ?_
  rw [stops]
  refine ⟨⟨Module.core_setCore_self _ _ _, fun d hd => ?_⟩, fun p hp => ?_⟩
  · rw [Module.core_setCore, if_neg hd]
    rfl
  · cases p <;> simp [Part.same, Module.setCore, Module.fresh] at hp ⊢

/-! ### The statement -/

/-- What the clauses about admission say of the threads that start. -/
theorem Starts.threads {m m' : Module} {g : Grid} {rank : Nat} {free : List Nat} (h : Starts m m' g rank (List.range g.threads) free) :
    ∃ f : Nat → Nat, (∀ o, o < g.threads → f o ∈ free) ∧ (∀ o o', o < o' → o' < g.threads → f o ≠ f o') ∧
      (∀ k, (∀ o, o < g.threads → f o ≠ k) → m'.th k = m.th k) ∧
      ∀ o, o < g.threads → m'.th (f o) = g.firstThread rank (m.ctx g.ctx).gen m.pilot o := by
  obtain ⟨f, member, distinct, others, started⟩ := h
  refine ⟨f, fun o ho => member o (List.mem_range.mpr ho), fun o o' lt ho' e => ?_,
    fun k hk => others k fun o ho => hk o (List.mem_range.mp ho), fun o ho => started o (List.mem_range.mpr ho)⟩
  have := distinct o (List.mem_range.mpr (lt.trans ho')) o' (List.mem_range.mpr ho') e
  omega

section
variable {s : State} {th : ThreadId} {y : Module} (hy : Beside [] (s.issuing th) y) (ctx va : Nat)
include hy

/-- A launch reads the descriptor that its thread issues with. -/
theorem State.launch_reads : y.descRead ctx va 4 = (s.issuing th).descRead ctx va 4 := hy.alike.descRead _ _ _

theorem State.launch_looks : Beside [] (s.issuing th) (y.launchLook ctx va) := hy.trans (y.look_beside _ _ _)

theorem State.launch_same : Beside [ThreadId.key th] s.m (y.launchLook ctx va) :=
  (s.issuing_beside th).trans (State.launch_looks hy ctx va).mono

theorem State.launch_full : (y.launchLook ctx va).launchFull ↔ s.m.launchFull := by
  rw [Module.launchFull, (State.launch_same hy ctx va).grids, Module.launchFull]

theorem State.launch_cores (w2 : Nat) : (y.launchLook ctx va).usedCores w2 = s.m.usedCores w2 := (State.launch_same hy ctx va).usedCores w2

end

/-- Settles O36: a launch does what its descriptor and the pending grids decide, from either value of `retry` (a completion address
that no record can be written at answers 0, log entry 30); an admitted grid's ordinals
take free slots one after another, each other than those before; and an idle core's clock stops. -/
theorem gridsLaunchAndStartTheirThreads : Obligations.GridsLaunchAndStartTheirThreads := by
  unfold Obligations.GridsLaunchAndStartTheirThreads
  refine fun s => ⟨fun th w hi hd hf hn => ?_, fun c id rest g hq hg hp hw => ?_, fun c => coreClockStop_does⟩
  · dsimp only
    generalize hread : (s.issuing th).descRead (s.thread th).ctx ((s.thread th).getS (Word.ra w)).toNat 4 = d
    obtain ⟨ws, bad, viol⟩ := d
    dsimp only
    have reads : ∀ y, Beside [] (s.issuing th) y →
        y.descRead (s.thread th).ctx ((s.thread th).getS (Word.ra w)).toNat 4 = (ws, bad, viol) :=
      fun y hy => (State.launch_reads hy _ _).trans hread
    refine ⟨fun ha => ?_, fun ha hb => ?_, fun ha hv h3 => ?_, fun r ha hv hr => ⟨fun ok => ?_, fun ok full none => ?_⟩,
      fun ha hb hv ok full => ?_, fun ha hb hv ok full used => ?_⟩
    · exact State.launch_violates hi hd hf hn fun y hy => ⟨y, hy, Module.launchGrid_misaligned ha⟩
    · exact State.launch_answers hi hd hf fun y hy => ⟨_, State.launch_looks hy _ _, Module.launchGrid_unreadable ha (reads y hy) hb⟩
    · obtain ⟨rfl, rfl⟩ := Prod.mk.inj hv
      exact State.launch_violates hi hd hf hn fun y hy => ⟨_, State.launch_looks hy _ _, Module.launchGrid_lostRecord ha (reads y hy) h3⟩
    · obtain ⟨rfl, rfl⟩ := Prod.mk.inj hv
      have ⟨_, _, align, _⟩ := hr
      have h3 : ws.getD 3 0 % 32 = 0 := by omega
      exact State.launch_rejects hi hd hf hr fun y hy => ⟨_, State.launch_looks hy _ _,
        Module.launchGrid_malformed ha (reads y hy) h3 ((malformed_iff h3).mpr ok)⟩
    · obtain ⟨rfl, rfl⟩ := Prod.mk.inj hv
      have fits := LaunchOk.fits ok
      exact State.launch_ends hi hd hf hr fun y hy => ⟨_, State.launch_looks hy _ _,
        Module.launchGrid_coreless ha (reads y hy) fits.1 fits.2 (fun e => full ((State.launch_full hy _ _).mp e))
          ((State.launch_cores hy _ _ _).trans none)⟩
    · subst hb hv
      have fits := LaunchOk.fits ok
      exact State.launch_answers hi hd hf fun y hy => ⟨_, State.launch_looks hy _ _,
        Module.launchGrid_full ha (reads y hy) fits.1 fits.2 ((State.launch_full hy _ _).mpr full)⟩
    · subst hb hv
      have fits := LaunchOk.fits ok
      exact State.launch_queues hi hd hf ok fun y hy => ⟨_, State.launch_looks hy _ _,
        Module.launchGrid_queued ha (reads y hy) fits.1 fits.2 (fun e => full ((State.launch_full hy _ _).mp e))
          (fun e => used ((State.launch_cores hy _ _ _).symm.trans e))⟩
  · dsimp only
    intro room own
    refine Completes.of_exec (exec_gridAdmit s c) ?_
    obtain ⟨queue, clock, last, starts, zero⟩ := gridAdmit_leaves (m := s.m.fresh) hq hg hp hw room own
    obtain ⟨f, member, distinct, others, started⟩ := starts.threads
    refine ⟨queue, clock, last, ⟨f, member, distinct, others, fun o ho => ?_⟩, zero⟩
    rw [started o ho]
    exact ⟨rfl, rfl, rfl, rfl, rfl, rfl, Grid.firstThread_getS _ _ _ _ _⟩

end Sys2Proof.Machine
end

section
/-! PROOFS of the number formats family (03_number_formats_and_rounding), first part: O18, which multiple of 2^s units each rounding
mode chooses for a magnitude of m units (Table 3-3, R66). -/

namespace Sys2Proof.Machine

/-! ### The two neighbours of a magnitude -/

/-- How far the multiple k · 2^s lies above a magnitude of m units; negative below it. -/
def unitGap (m s k : Nat) : Int := ((k * 2 ^ s : Nat) : Int) - m

theorem unitGap_below (m s : Nat) : unitGap m s (m / 2 ^ s) = -((m % 2 ^ s : Nat) : Int) := by
  have := Nat.div_add_mod' m (2 ^ s)
  unfold unitGap
  omega

theorem unitGap_above (m s : Nat) : unitGap m s (m / 2 ^ s + 1) = ((2 ^ s : Nat) : Int) - ((m % 2 ^ s : Nat) : Int) := by
  have := Nat.div_add_mod' m (2 ^ s)
  rw [unitGap, Nat.succ_mul]
  omega

/-- RTO forces the last bit to 1: an odd multiple stays, an even one becomes the next. -/
theorem or_one_eq (k : Nat) : k ||| 1 = if k % 2 = 1 then k else k + 1 := by
  have half : (k ||| 1) / 2 = k / 2 := by simp [Nat.or_div_two]
  have odd : (k ||| 1) % 2 = 1 := by simp [Nat.or_mod_two_eq_one]
  split <;> omega

/-! ### What each mode chooses -/

section
variable (u : Nat) (neg : Bool) (m s : Nat)

theorem roundMag_units (rm : Rm) : roundMag rm u neg m 0 false s =
    (if roundsUp rm neg (m / 2 ^ s) (m % 2 ^ s) s false u then m / 2 ^ s + 1
      else if rm = .rto && m % 2 ^ s != 0 then m / 2 ^ s ||| 1 else m / 2 ^ s, m % 2 ^ s != 0) := by
  simp [roundMag]

theorem roundMag_inexact (rm : Rm) : (roundMag rm u neg m 0 false s).2 = true ↔ m % 2 ^ s ≠ 0 := by
  simp [roundMag_units]

theorem roundMag_rne :
    (roundMag .rne u neg m 0 false s).1 =
      if 2 ^ s < 2 * (m % 2 ^ s) ∨ (2 * (m % 2 ^ s) = 2 ^ s ∧ m / 2 ^ s % 2 = 1) then m / 2 ^ s + 1 else m / 2 ^ s := by
  simp [roundMag_units, roundsUp]

theorem roundMag_rtz : (roundMag .rtz u neg m 0 false s).1 = m / 2 ^ s := by
  simp [roundMag_units, roundsUp]

theorem roundMag_rdn :
    (roundMag .rdn u neg m 0 false s).1 = if neg ∧ m % 2 ^ s ≠ 0 then m / 2 ^ s + 1 else m / 2 ^ s := by
  simp [roundMag_units, roundsUp]

theorem roundMag_rup :
    (roundMag .rup u neg m 0 false s).1 = if neg = false ∧ m % 2 ^ s ≠ 0 then m / 2 ^ s + 1 else m / 2 ^ s := by
  simp [roundMag_units, roundsUp]

theorem roundMag_rna :
    (roundMag .rna u neg m 0 false s).1 = if 2 ^ s ≤ 2 * (m % 2 ^ s) then m / 2 ^ s + 1 else m / 2 ^ s := by
  simp [roundMag_units, roundsUp]

theorem roundMag_rto :
    (roundMag .rto u neg m 0 false s).1 =
      if m % 2 ^ s ≠ 0 ∧ m / 2 ^ s % 2 = 0 then m / 2 ^ s + 1 else m / 2 ^ s := by
  by_cases exactly : m % 2 ^ s = 0
  · simp [roundMag_units, roundsUp, exactly]
  · simp only [roundMag_units, roundsUp, or_one_eq]
    rcases Nat.mod_two_eq_zero_or_one (m / 2 ^ s) with even | odd <;> simp [*]

theorem roundMag_sr :
    (roundMag .sr u neg m 0 false s).1 = m / 2 ^ s + (if u < m % 2 ^ s * 2 ^ 24 / 2 ^ s then 1 else 0) := by
  simp only [roundMag_units, roundsUp, decide_eq_true_eq]
  split <;> simp

/-- A multiple is its own rounding in every mode. -/
theorem roundMag_multiple (rm : Rm) (h : m % 2 ^ s = 0) : (roundMag rm u neg m 0 false s).1 = m / 2 ^ s := by
  have pos : (2 : Nat) ^ s ≠ 0 := (Nat.two_pow_pos s).ne'
  cases rm with
  | rne => simp [roundMag_rne, h, pos.symm]
  | rtz => exact roundMag_rtz u neg m s
  | rdn => simp [roundMag_rdn, h]
  | rup => simp [roundMag_rup, h]
  | rna => simp [roundMag_rna, h]
  | rto => simp [roundMag_rto, h]
  | sr => simp [roundMag_sr, h]

/-- A mode chooses by a condition between the multiple below and the one above, whose gaps are known. -/
theorem unitGap_ite (p : Prop) [Decidable p] : unitGap m s (if p then m / 2 ^ s + 1 else m / 2 ^ s) =
    if p then ((2 ^ s : Nat) : Int) - ((m % 2 ^ s : Nat) : Int) else -((m % 2 ^ s : Nat) : Int) := by
  split
  · exact unitGap_above m s
  · exact unitGap_below m s


theorem roundMag_rne_nearest :
    let k := (roundMag .rne u neg m 0 false s).1
    2 * (unitGap m s k).natAbs ≤ 2 ^ s ∧ (2 * (unitGap m s k).natAbs = 2 ^ s → k % 2 = 0) := by
  have r := Nat.mod_lt m (Nat.two_pow_pos s)
  dsimp only
  rw [roundMag_rne, unitGap_ite]
  split <;> omega

theorem roundMag_rna_nearest :
    let k := (roundMag .rna u neg m 0 false s).1
    2 * (unitGap m s k).natAbs ≤ 2 ^ s ∧ (2 * (unitGap m s k).natAbs = 2 ^ s → 0 < unitGap m s k) := by
  have r := Nat.mod_lt m (Nat.two_pow_pos s)
  dsimp only
  rw [roundMag_rna, unitGap_ite]
  split <;> omega

theorem roundMag_rto_odd :
    let k := (roundMag .rto u neg m 0 false s).1
    (unitGap m s k).natAbs < 2 ^ s ∧ (m % 2 ^ s ≠ 0 → k % 2 = 1) := by
  have r := Nat.mod_lt m (Nat.two_pow_pos s)
  dsimp only
  rw [roundMag_rto, unitGap_ite]
  split <;> omega

/-- The multiple below is less than one step away. -/
theorem unitGap_below_bounds : unitGap m s (m / 2 ^ s) ≤ 0 ∧ -((2 ^ s : Nat) : Int) < unitGap m s (m / 2 ^ s) := by
  have r := Nat.mod_lt m (Nat.two_pow_pos s)
  rw [unitGap_below]
  omega

/-- An exact magnitude stays and any other goes to the multiple above, less than one step away. -/
theorem unitGap_above_bounds :
    let k := if m % 2 ^ s ≠ 0 then m / 2 ^ s + 1 else m / 2 ^ s
    0 ≤ unitGap m s k ∧ unitGap m s k < ((2 ^ s : Nat) : Int) := by
  have r := Nat.mod_lt m (Nat.two_pow_pos s)
  dsimp only
  rw [unitGap_ite]
  split <;> omega

end

/-- Settles O18, mode by mode: each chooses one of the two neighbours, whose gaps are known. -/
theorem roundingModesChooseTheirNeighbour : Obligations.RoundingModesChooseTheirNeighbour := by
  unfold Obligations.RoundingModesChooseTheirNeighbour
  intro u neg m s k gap
  have below := unitGap_below_bounds m s
  have above := unitGap_above_bounds m s
  refine ⟨roundMag_inexact u neg m s, fun rm h => ?exact, roundMag_rne_nearest u neg m s, ?rtz, ?rdnNeg, ?rdnPos, ?rupPos, ?rupNeg,
    roundMag_rna_nearest u neg m s, roundMag_rto_odd u neg m s, roundMag_sr u neg m s⟩
  case exact =>
    have zero := unitGap_below m s
    rw [h] at zero
    simpa [gap, k, roundMag_multiple u neg m s rm h, unitGap] using zero
  case rtz => simpa [gap, k, roundMag_rtz, unitGap] using below
  all_goals
    intro sign
  case rdnNeg => simpa [gap, k, roundMag_rdn, sign, unitGap] using above
  case rdnPos => simpa [gap, k, roundMag_rdn, sign, unitGap] using below
  case rupPos => simpa [gap, k, roundMag_rup, sign, unitGap] using above
  case rupNeg => simpa [gap, k, roundMag_rup, sign, unitGap] using below

end Sys2Proof.Machine
end

section
/-! PROOFS of the number formats family, second part: O17, what a finite pattern decodes to and how a representable magnitude is rounded
(03 Table 3-1, R54-R58, R62). -/

namespace Sys2Proof.Machine

/-! ### The formats of Table 3-1 -/

/-- What the layouts of Table 3-1 share: sign, exponent and fraction fill the width; the bias is that of the exponent field; E4M3 is the
one format that uses its last exponent for finite values (R58). -/
structure Fmt.Layout (f : Fmt) : Prop where
  bias : 1 ≤ f.bias
  width : f.width = f.ebits + f.fbits + 1
  ieee : f.e4m3 = false → 2 ^ f.ebits = 2 * f.bias + 2
  fp8 : f.e4m3 = true → f.ebits = 4 ∧ f.fbits = 3 ∧ f.bias = 7

theorem layout_of_listed {f : Fmt} (h : f ∈ [fp64, fp32, bf16, fp16, e4m3, e5m2]) : f.Layout := by
  simp only [List.mem_cons, List.not_mem_nil, or_false] at h
  rcases h with rfl | rfl | rfl | rfl | rfl | rfl <;> exact ⟨by decide, rfl, by decide, by decide⟩

/-! ### Patterns by their fields -/

/-- The value of a sign, a biased exponent and a fraction. -/
def Fmt.ofFields (f : Fmt) (neg : Bool) (x fr : Nat) : FVal :=
  if f.e4m3 then
    if x = 15 && fr = 7 then .nan false
    else if x = 0 then .fin neg fr (f.emin - (f.fbits : Int))
    else .fin neg (fr + 2 ^ f.fbits) ((x : Int) - (f.bias : Int) - (f.fbits : Int))
  else if x = 2 ^ f.ebits - 1 then
    if fr = 0 then .inf neg else .nan (decide (fr < 2 ^ (f.fbits - 1)))
  else if x = 0 then .fin neg fr (f.emin - (f.fbits : Int))
  else .fin neg (fr + 2 ^ f.fbits) ((x : Int) - (f.bias : Int) - (f.fbits : Int))

/-- The pattern of a sign, a biased exponent and a fraction. -/
def Fmt.pattern (f : Fmt) (neg : Bool) (x fr : Nat) : Nat := f.signBit neg + x * 2 ^ f.fbits + fr

section
variable {f : Fmt}

theorem Fmt.Layout.signBit_eq (L : f.Layout) (neg : Bool) : f.signBit neg = neg.toNat * 2 ^ f.ebits * 2 ^ f.fbits := by
  cases neg <;> simp [Fmt.signBit, L.width, pow_add]

theorem Fmt.Layout.pattern_eq (L : f.Layout) (neg : Bool) (x fr : Nat) :
    f.pattern neg x fr = (neg.toNat * 2 ^ f.ebits + x) * 2 ^ f.fbits + fr := by
  rw [Fmt.pattern, L.signBit_eq, Nat.add_mul]

theorem Fmt.Layout.exists_pattern (L : f.Layout) {bits : Nat} (h : bits < 2 ^ f.width) :
    ∃ neg x fr, x < 2 ^ f.ebits ∧ fr < 2 ^ f.fbits ∧ bits = f.pattern neg x fr := by
  refine ⟨decide (bits / 2 ^ f.fbits / 2 ^ f.ebits = 1), bits / 2 ^ f.fbits % 2 ^ f.ebits, bits % 2 ^ f.fbits,
    Nat.mod_lt _ (Nat.two_pow_pos _), Nat.mod_lt _ (Nat.two_pow_pos _), ?_⟩
  have top : bits / 2 ^ f.fbits / 2 ^ f.ebits < 2 := by
    rw [Nat.div_div_eq_div_mul, Nat.div_lt_iff_lt_mul (by positivity), ← pow_add, ← pow_succ', add_comm f.fbits, ← L.width]
    exact h
  have sign : (decide (bits / 2 ^ f.fbits / 2 ^ f.ebits = 1)).toNat = bits / 2 ^ f.fbits / 2 ^ f.ebits := by
    generalize bits / 2 ^ f.fbits / 2 ^ f.ebits = t at top
    interval_cases t <;> rfl
  rw [L.pattern_eq, sign, Nat.div_add_mod', Nat.div_add_mod']

/-- Decoding a pattern reads its fields back. -/
theorem Fmt.Layout.decode_pattern (L : f.Layout) (neg : Bool) {x fr : Nat} (hx : x < 2 ^ f.ebits) (hfr : fr < 2 ^ f.fbits) :
    f.decode (f.pattern neg x fr) = f.ofFields neg x fr := by
  have upper : f.pattern neg x fr / 2 ^ f.fbits = neg.toNat * 2 ^ f.ebits + x := by
    rw [L.pattern_eq, mul_comm, Nat.mul_add_div (Nat.two_pow_pos _), Nat.div_eq_of_lt hfr, add_zero]
  have frac : f.pattern neg x fr % 2 ^ f.fbits = fr := by
    rw [L.pattern_eq, Nat.mul_add_mod', Nat.mod_eq_of_lt hfr]
  have low : x * 2 ^ f.fbits + fr < 2 ^ f.ebits * 2 ^ f.fbits := by
    have := Nat.mul_le_mul_right (2 ^ f.fbits) (Nat.succ_le_of_lt hx)
    rw [Nat.succ_mul] at this
    omega
  have half : 2 ^ (f.width - 1) = 2 ^ f.ebits * 2 ^ f.fbits := by rw [L.width, Nat.add_sub_cancel, pow_add]
  have fits : f.pattern neg x fr < 2 ^ f.width := by
    rw [L.width, pow_succ, pow_add, Fmt.pattern, L.signBit_eq]
    cases neg <;> simp <;> omega
  have sign : decide (2 ^ (f.width - 1) ≤ f.pattern neg x fr) = neg := by
    rw [half, Fmt.pattern, L.signBit_eq]
    cases neg <;> simp <;> omega
  have exp : (neg.toNat * 2 ^ f.ebits + x) % 2 ^ f.ebits = x := by rw [Nat.mul_add_mod', Nat.mod_eq_of_lt hx]
  simp only [Fmt.decode, Nat.mod_eq_of_lt fits, sign, upper, frac, exp]
  rfl


/-- The finite values of a format: m · 2^e with a subnormal or a normal significand, no larger than the largest finite value. -/
structure Fmt.InRange (f : Fmt) (m : Nat) (e : Int) : Prop where
  mant : m < 2 ^ (f.fbits + 1)
  exp : f.emin - f.fbits ≤ e
  sub : m < 2 ^ f.fbits → e = f.emin - f.fbits
  top : e + f.fbits ≤ f.emax
  last : e + f.fbits = f.emax → m ≤ f.maxMant

/-- The pattern of a value m · 2^e in the range. -/
def Fmt.encode (f : Fmt) (neg : Bool) (m : Nat) (e : Int) : Nat :=
  if m < 2 ^ f.fbits then f.pattern neg 0 m else f.pattern neg (e + f.fbits + f.bias).toNat (m - 2 ^ f.fbits)

/-- The patterns of infinities and NaNs: those of the last exponent, in E4M3 only the last pattern (R58). -/
def Fmt.special (f : Fmt) (x fr : Nat) : Prop := if f.e4m3 then x = 15 ∧ fr = 7 else x = 2 ^ f.ebits - 1

theorem Fmt.Layout.not_special_zero (L : f.Layout) (fr : Nat) : ¬f.special 0 fr := by
  cases h : f.e4m3 with
  | true => simp [Fmt.special, h]
  | false =>
    have := L.ieee h
    simp only [Fmt.special, h, Bool.false_eq_true, if_false]
    omega

theorem ofFields_special {neg : Bool} {x fr : Nat} (h : f.special x fr) : (f.ofFields neg x fr).isFin = false := by
  cases t : f.e4m3 with
  | true =>
    simp only [Fmt.special, t, if_true] at h
    simp [Fmt.ofFields, FVal.isFin, t, h]
  | false =>
    simp only [Fmt.special, t, Bool.false_eq_true, if_false] at h
    simp only [Fmt.ofFields, t, Bool.false_eq_true, if_false, if_pos h]
    split <;> rfl

theorem ofFields_of_not_special {x fr : Nat} (h : ¬f.special x fr) (neg : Bool) :
    f.ofFields neg x fr =
      if x = 0 then .fin neg fr (f.emin - f.fbits) else .fin neg (fr + 2 ^ f.fbits) (x - f.bias - f.fbits) := by
  unfold Fmt.special at h
  unfold Fmt.ofFields
  split at h <;> simp [*]

/-- An exponent above zero that is not special is that of a value no larger than the largest finite one. -/
theorem Fmt.Layout.not_special_iff (L : f.Layout) {x fr : Nat} (hx : x < 2 ^ f.ebits) (hfr : fr < 2 ^ f.fbits) :
    ¬f.special x fr ↔ (x : Int) - f.bias ≤ f.emax ∧ ((x : Int) - f.bias = f.emax → fr + 2 ^ f.fbits ≤ f.maxMant) := by
  cases h : f.e4m3 with
  | true =>
    obtain ⟨he, hb, hf⟩ := L.fp8 h
    rw [he] at hx
    rw [hb] at hfr
    simp only [Fmt.special, Fmt.emax, Fmt.maxMant, h, hb, hf, if_true]
    omega
  | false =>
    have E := L.ieee h
    simp only [Fmt.special, Fmt.emax, Fmt.maxMant, h, pow_succ', if_false, Bool.false_eq_true]
    omega

theorem Fmt.Layout.emin_le_emax (L : f.Layout) : f.emin < f.emax := by
  have := L.bias
  unfold Fmt.emin Fmt.emax
  split
  · next h =>
    obtain ⟨-, -, hf⟩ := L.fp8 h
    omega
  · omega

/-- The exponent field has room for the largest finite exponent. -/
theorem Fmt.Layout.emax_lt (L : f.Layout) : f.emax + f.bias < ((2 ^ f.ebits : Nat) : Int) := by
  cases h : f.e4m3 with
  | true =>
    obtain ⟨he, -, hf⟩ := L.fp8 h
    simp [Fmt.emax, h, he, hf]
  | false =>
    have := L.ieee h
    simp only [Fmt.emax, h, Bool.false_eq_true, if_false]
    omega

/-- A finite pattern stands for a value in the range and is that value's pattern. -/
theorem Fmt.Layout.ofFields_finite (L : f.Layout) {neg : Bool} {x fr : Nat} (hx : x < 2 ^ f.ebits) (hfr : fr < 2 ^ f.fbits)
    (fin : (f.ofFields neg x fr).isFin = true) :
    ∃ m e, f.ofFields neg x fr = .fin neg m e ∧ f.InRange m e ∧ f.pattern neg x fr = f.encode neg m e := by
  have F : 2 ^ (f.fbits + 1) = 2 * 2 ^ f.fbits := pow_succ' 2 _
  have plain : ¬f.special x fr := fun h => by simp [ofFields_special h] at fin
  have low : f.emin = 1 - f.bias := rfl
  have range := L.emin_le_emax
  obtain ⟨top, last⟩ := (L.not_special_iff hx hfr).mp plain
  rw [ofFields_of_not_special plain]
  by_cases zero : x = 0
  · subst zero
    exact ⟨fr, f.emin - f.fbits, rfl, ⟨by omega, le_rfl, fun _ => rfl, by omega, by omega⟩, by simp [Fmt.encode, hfr]⟩
  · refine ⟨fr + 2 ^ f.fbits, x - f.bias - f.fbits, if_neg zero, ⟨by omega, by omega, by omega, by omega, fun h => last (by omega)⟩, ?_⟩
    simp [Fmt.encode]

/-- A finite pattern decodes to a value in the range and is that value's pattern. -/
theorem Fmt.Layout.decode_finite (L : f.Layout) {bits : Nat} (fin : (f.decode bits).isFin = true) :
    ∃ neg m e, f.decode bits = .fin neg m e ∧ f.InRange m e ∧ bits % 2 ^ f.width = f.encode neg m e := by
  have low : f.decode bits = f.decode (bits % 2 ^ f.width) := by simp only [Fmt.decode, Nat.mod_mod]
  obtain ⟨neg, x, fr, hx, hfr, eq⟩ := L.exists_pattern (Nat.mod_lt bits (Nat.two_pow_pos f.width))
  rw [low, eq, L.decode_pattern neg hx hfr] at fin ⊢
  exact ⟨neg, L.ofFields_finite hx hfr fin⟩

/-- Decoding the pattern of a value in the range gives the value. -/
theorem Fmt.Layout.decode_encode (L : f.Layout) (neg : Bool) {m : Nat} {e : Int} (r : f.InRange m e) :
    f.decode (f.encode neg m e) = .fin neg m e := by
  obtain ⟨mant, exp, sub, top, last⟩ := r
  have F : 2 ^ (f.fbits + 1) = 2 * 2 ^ f.fbits := pow_succ' 2 _
  have low : f.emin = 1 - f.bias := rfl
  have field := L.emax_lt
  unfold Fmt.encode
  split
  · next h => 
    rw [L.decode_pattern neg (Nat.two_pow_pos _) h, ofFields_of_not_special (L.not_special_zero m), sub h, if_pos rfl]
  · next h =>
    have hx : (e + f.fbits + f.bias).toNat < 2 ^ f.ebits := by omega
    have hfr : m - 2 ^ f.fbits < 2 ^ f.fbits := by omega
    have plain : ¬f.special (e + f.fbits + f.bias).toNat (m - 2 ^ f.fbits) :=
      (L.not_special_iff hx hfr).mpr ⟨by omega, fun t => by have := last (by omega); omega⟩
    rw [L.decode_pattern neg hx hfr, ofFields_of_not_special plain, if_neg (by omega)]
    congr <;> omega

/-! ### The rounding of a finite magnitude -/

/-- Only the magnitude in units of the target exponent counts, not its own exponent. -/
theorem roundMag_scaled (rm : Rm) (u : Nat) (neg : Bool) (m : Nat) (e q : Int) :
    roundMag rm u neg m e false q = roundMag rm u neg (m * 2 ^ (e - q).toNat) 0 false ((q - e).toNat : Int) := by
  rw [roundMag_units]
  simp only [roundMag, Bool.or_false]

/-- A magnitude that is a multiple k · 2^q is rounded to it, exactly. -/
theorem roundMag_exact (rm : Rm) (u : Nat) (neg : Bool) {m k : Nat} {e q : Int}
    (h : m * 2 ^ (e - q).toNat = k * 2 ^ (q - e).toNat) : roundMag rm u neg m e false q = (k, false) := by
  have multiple : k * 2 ^ (q - e).toNat % 2 ^ (q - e).toNat = 0 := Nat.mul_mod_left _ _
  rw [roundMag_scaled, h]
  refine Prod.ext ?_ ?_
  · rw [roundMag_multiple _ _ _ _ _ multiple, Nat.mul_div_cancel _ (Nat.two_pow_pos _)]
  · rw [← Bool.not_eq_true, roundMag_inexact]
    exact not_not.mpr multiple

/-- The exponent of the unit to which m · 2^e is rounded: fbits below its leading bit, and no lower than the smallest subnormal value. -/
def Fmt.unitExp (f : Fmt) (m : Nat) (e : Int) : Int := max (Nat.log2 m + e - f.fbits) (f.emin - f.fbits)

/-- The rounded magnitude k · 2^q is larger than the largest finite value (R64). -/
def Fmt.over (f : Fmt) (k : Nat) (q : Int) : Bool :=
  k != 0 && (decide (f.emax < (Nat.log2 k : Int) + q) ||
    (decide ((Nat.log2 k : Int) + q = f.emax) && decide (f.maxMant * 2 ^ Nat.log2 k < k * 2 ^ f.fbits)))

/-- The pattern that rounding writes for k · 2^q; k may be 2^(fbits+1), when rounding carried into the next exponent. -/
def Fmt.written (f : Fmt) (neg : Bool) (k : Nat) (q : Int) : Nat :=
  if k < 2 ^ f.fbits then f.signBit neg + k
  else f.signBit neg + ((Nat.log2 k : Int) + q + (f.bias : Int)).toNat * 2 ^ f.fbits + ((if Nat.log2 k = f.fbits then k else k / 2) - 2 ^ f.fbits)

section
variable (rm : Rm) (u : Nat) (neg : Bool) {m : Nat} (e : Int)

theorem roundFin_zero : f.roundFin rm u neg 0 e false = (f.encode neg 0 (f.emin - f.fbits), fNone) := by
  simp [Fmt.roundFin, Fmt.encode, Fmt.pattern]

/-- Rounding a magnitude above zero: to the overflow value, or to the rounded multiple with flags that only an inexact result sets. -/
theorem roundFin_pos (hm : m ≠ 0) : ∃ tiny,
    f.roundFin rm u neg m e false =
      let r := roundMag rm u neg m e false (f.unitExp m e)
      if f.over r.1 (f.unitExp m e) then (f.overflowBits rm neg, fOF ||| fNX)
      else (f.written neg r.1 (f.unitExp m e), flagIf r.2 fNX ||| flagIf (tiny && r.2) fUF) := by
  simp only [Fmt.roundFin, hm, Bool.not_false, Bool.and_true, decide_false, Bool.false_eq_true, if_false]
  exact ⟨_, rfl⟩

end

/-- A value in the range is not over, and what is written for it is its pattern. -/
theorem Fmt.InRange.over {k : Nat} {q : Int} (r : f.InRange k q) : f.over k q = false := by
  obtain ⟨mant, exp, sub, top, last⟩ := r
  by_cases zero : k = 0
  · simp [Fmt.over, zero]
  have lead : Nat.log2 k ≤ f.fbits := Nat.lt_succ_iff.mp ((Nat.log2_lt zero).mpr mant)
  have within : ¬f.emax < (Nat.log2 k : Int) + q := by omega
  have largest : (Nat.log2 k : Int) + q = f.emax → k * 2 ^ f.fbits ≤ f.maxMant * 2 ^ Nat.log2 k := by
    intro h
    have normal : Nat.log2 k = f.fbits := by omega
    rw [normal]
    exact Nat.mul_le_mul_right _ (last (by omega))
  simpa [Fmt.over, within, zero] using largest

theorem Fmt.written_of_lt (neg : Bool) {k : Nat} (q : Int) (h : k < 2 ^ (f.fbits + 1)) : f.written neg k q = f.encode neg k q := by
  unfold Fmt.written Fmt.encode
  split
  · simp [Fmt.pattern]
  · next normal =>
    have lead : Nat.log2 k = f.fbits := (Nat.log2_eq_iff (by have := Nat.two_pow_pos f.fbits; omega)).mpr ⟨by omega, h⟩
    rw [Fmt.pattern, lead, if_pos rfl, add_comm (f.fbits : Int) q]

/-- The unit of a value in the range is that of its own exponent. -/
theorem Fmt.InRange.unitExp {m : Nat} {e : Int} (r : f.InRange m e) (hm : m ≠ 0) : f.unitExp m e = e := by
  obtain ⟨mant, exp, sub, -, -⟩ := r
  have lead : Nat.log2 m ≤ f.fbits := Nat.lt_succ_iff.mp ((Nat.log2_lt hm).mpr mant)
  unfold Fmt.unitExp
  by_cases h : m < 2 ^ f.fbits
  · have := sub h
    omega
  · have := (Nat.le_log2 hm).mpr (Nat.le_of_not_lt h)
    omega

/-- When the multiple that rounding chooses is exact and in the range, the result is its pattern, with no flag. -/
theorem roundFin_exact {rm : Rm} {u : Nat} {neg : Bool} {m k : Nat} {e : Int} (hm : m ≠ 0)
    (chosen : roundMag rm u neg m e false (f.unitExp m e) = (k, false)) (range : f.InRange k (f.unitExp m e)) :
    f.roundFin rm u neg m e false = (f.encode neg k (f.unitExp m e), fNone) := by
  obtain ⟨tiny, h⟩ := roundFin_pos (f := f) rm u neg e hm
  rw [h, chosen]
  simp [range.over, f.written_of_lt neg _ range.mant, flagIf]

theorem Fmt.InRange.roundFin {m : Nat} {e : Int} (r : f.InRange m e) (rm : Rm) (u : Nat) (neg : Bool) :
    f.roundFin rm u neg m e false = (f.encode neg m e, fNone) := by
  by_cases hm : m = 0
  · subst hm
    rw [roundFin_zero, r.sub (Nat.two_pow_pos _)]
  · have unit := r.unitExp hm
    have chosen : roundMag rm u neg m e false (f.unitExp m e) = (m, false) := roundMag_exact rm u neg (by rw [unit, sub_self])
    rw [roundFin_exact hm chosen (unit.symm ▸ r), unit]

end

/-- Settles O17: a finite pattern is that of a value in the range, which every mode rounds to that pattern. -/
theorem finitePatternsRoundToThemselves : Obligations.FinitePatternsRoundToThemselves := by
  unfold Obligations.FinitePatternsRoundToThemselves
  intro f listed rm u bits fits fin
  obtain ⟨neg, m, e, value, range, own⟩ := (layout_of_listed listed).decode_finite fin
  rw [value, ← Nat.mod_eq_of_lt fits, own]
  exact range.roundFin rm u neg

end Sys2Proof.Machine
end

section
/-! PROOFS of the number formats family, third part: O19, the error term of two_sum (03 R79, R80). -/

namespace Sys2Proof.Machine

/-! ### Values as rational numbers -/

/-- A magnitude with its sign. -/
def signed (neg : Bool) (v : Int) : Int := if neg then -v else v

/-- The rational number that a finite value stands for. -/
def FVal.val : FVal → ℚ
  | .fin neg m e => signed neg m * 2 ^ e
  | _ => 0

theorem FVal.exists_of_isFin {x : FVal} (h : x.isFin = true) : ∃ neg m e, x = .fin neg m e := by
  cases x with
  | fin neg m e => exact ⟨neg, m, e, rfl⟩
  | nan _ => cases h
  | inf _ => cases h

theorem zpow_eq_toNat_mul {e e0 : Int} (h : e0 ≤ e) : (2 : ℚ) ^ e = 2 ^ (e - e0).toNat * 2 ^ e0 := by
  rw [← zpow_natCast, ← zpow_add₀ two_ne_zero, Int.toNat_of_nonneg (by omega), Int.sub_add_cancel]

theorem abs_mul_zpow (a : ℚ) (e : Int) : |a * 2 ^ e| = |a| * 2 ^ e := by
  rw [abs_mul, abs_of_pos (zpow_pos (two_pos (α := ℚ)) e)]

theorem FVal.intAt_eq (neg : Bool) (m : Nat) (e e0 : Int) : FVal.intAt neg m e e0 = signed neg m * 2 ^ (e - e0).toNat := by
  cases neg <;> simp [FVal.intAt, signed]

/-- The integer at a lower exponent stands for the same value. -/
theorem FVal.intAt_val (neg : Bool) (m : Nat) {e e0 : Int} (h : e0 ≤ e) :
    (FVal.intAt neg m e e0 : ℚ) * 2 ^ e0 = (FVal.fin neg m e).val := by
  rw [FVal.intAt_eq, FVal.val, zpow_eq_toNat_mul h]
  push_cast
  ring

theorem signed_natAbs (v : Int) : signed (decide (v < 0)) v.natAbs = v := by
  unfold signed
  split
  · next h =>
    have := of_decide_eq_true h
    omega
  · next h =>
    have := of_decide_eq_false (Bool.not_eq_true _ ▸ h)
    omega

theorem signed_sub_mul (neg : Bool) (a b c : Int) : signed neg a - signed neg b * c = signed neg (a - b * c) := by
  cases neg with
  | false => rfl
  | true =>
    simp only [signed, if_true]
    ring

theorem FVal.val_congr (neg : Bool) {m k : Nat} {e q : Int} (h : (m : ℚ) * 2 ^ e = k * 2 ^ q) :
    (FVal.fin neg m e).val = (FVal.fin neg k q).val := by
  cases neg <;> simp [FVal.val, signed, h]

theorem abs_signed (neg : Bool) (v : Int) : |signed neg v| = |v| := by
  cases neg <;> simp [signed]

/-- The exact sum is finite and its integer at the lower exponent is the sum of the operands'. -/
theorem addFin_eq (rdn n1 : Bool) (m1 : Nat) (e1 : Int) (n2 : Bool) (m2 : Nat) (e2 : Int) :
    ∃ neg m, addFin rdn n1 m1 e1 n2 m2 e2 = .fin neg m (min e1 e2) ∧
      signed neg m = FVal.intAt n1 m1 e1 (min e1 e2) + FVal.intAt n2 m2 e2 (min e1 e2) := by
  unfold addFin
  dsimp only
  split
  · next h => exact ⟨_, _, rfl, by simp [signed, h]⟩
  · exact ⟨_, _, rfl, signed_natAbs _⟩

theorem addF_val (rdn : Bool) {x y : FVal} (hx : x.isFin = true) (hy : y.isFin = true) :
    (addF rdn x y).1.isFin = true ∧ (addF rdn x y).1.val = x.val + y.val ∧ (addF rdn x y).2 = fNone := by
  obtain ⟨n1, m1, e1, rfl⟩ := FVal.exists_of_isFin hx
  obtain ⟨n2, m2, e2, rfl⟩ := FVal.exists_of_isFin hy
  obtain ⟨neg, m, sum, eq⟩ := addFin_eq rdn n1 m1 e1 n2 m2 e2
  rw [addF, sum]
  refine ⟨rfl, ?_, rfl⟩
  rw [FVal.val, eq, Int.cast_add, add_mul, FVal.intAt_val _ _ (min_le_left _ _), FVal.intAt_val _ _ (min_le_right _ _)]

theorem FVal.neg_val {x : FVal} : x.neg.val = -x.val := by
  cases x with
  | fin neg m e => cases neg <;> simp [FVal.neg, FVal.val, signed]
  | nan _ => simp [FVal.neg, FVal.val]
  | inf _ => simp [FVal.neg, FVal.val]

/-- Comparison finds finite values equal exactly when they are the same number; the sign of a zero does not matter. -/
theorem cmpF_eq {x y : FVal} (hx : x.isFin = true) (hy : y.isFin = true) (h : x.val = y.val) : cmpF x y = some .eq := by
  obtain ⟨n1, m1, e1, rfl⟩ := FVal.exists_of_isFin hx
  obtain ⟨n2, m2, e2, rfl⟩ := FVal.exists_of_isFin hy
  rw [← FVal.intAt_val _ _ (min_le_left e1 e2), ← FVal.intAt_val _ _ (min_le_right e1 e2)] at h
  have same := Int.cast_injective (mul_right_cancel₀ (zpow_ne_zero _ two_ne_zero) h)
  simp only [cmpF, same, Std.ReflCmp.compare_self]

/-! ### Numbers that a format holds -/

/-- An integer of fbits + 1 bits, scaled within the exponents of the format. -/
def Fmt.Holds (f : Fmt) (v : ℚ) : Prop :=
  ∃ (n : Int) (g : Int), |n| < 2 ^ (f.fbits + 1) ∧ f.emin - f.fbits ≤ g ∧ g + f.fbits ≤ f.emax ∧ v = n * 2 ^ g

section
variable {f : Fmt}

theorem unitExp_low (f : Fmt) (m : Nat) (e : Int) : f.emin - f.fbits ≤ f.unitExp m e := le_max_right _ _

/-- A magnitude is below 2^(fbits+1) of its own rounding unit. -/
theorem unitExp_upper (f : Fmt) (m : Nat) (e : Int) : (m : ℚ) * 2 ^ e < 2 ^ (f.fbits + 1) * 2 ^ f.unitExp m e := by
  have lead : (m : ℚ) < 2 ^ ((Nat.log2 m : Int) + 1) := by exact_mod_cast Nat.lt_log2_self
  calc (m : ℚ) * 2 ^ e < 2 ^ ((Nat.log2 m : Int) + 1) * 2 ^ e := mul_lt_mul_of_pos_right lead (by positivity)
    _ = 2 ^ ((Nat.log2 m : Int) + 1 + e) := (zpow_add₀ two_ne_zero _ _).symm
    _ ≤ 2 ^ (((f.fbits + 1 : Nat) : Int) + f.unitExp m e) := zpow_le_zpow_right₀ one_le_two (by unfold Fmt.unitExp; omega)
    _ = 2 ^ (f.fbits + 1) * 2 ^ f.unitExp m e := by rw [zpow_add₀ two_ne_zero, zpow_natCast]

/-- Above the unit of the subnormal values, a magnitude fills the significand. -/
theorem unitExp_lower {m : Nat} (hm : m ≠ 0) (e : Int) (h : f.unitExp m e ≠ f.emin - f.fbits) :
    (2 : ℚ) ^ f.fbits * 2 ^ f.unitExp m e ≤ m * 2 ^ e := by
  have lead : (2 : ℚ) ^ (Nat.log2 m : Int) ≤ m := by exact_mod_cast Nat.log2_self_le hm
  calc (2 : ℚ) ^ f.fbits * 2 ^ f.unitExp m e = 2 ^ ((f.fbits : Int) + f.unitExp m e) := by rw [zpow_add₀ two_ne_zero, zpow_natCast]
    _ = 2 ^ ((Nat.log2 m : Int) + e) := by congr 1; unfold Fmt.unitExp at h ⊢; omega
    _ = 2 ^ (Nat.log2 m : Int) * 2 ^ e := zpow_add₀ two_ne_zero _ _
    _ ≤ m * 2 ^ e := mul_le_mul_of_nonneg_right lead (by positivity)

/-- A magnitude and a multiple as integers of one common unit. -/
theorem units_val (m : Nat) (e q : Int) :
    ((m * 2 ^ (e - q).toNat : Nat) : ℚ) * 2 ^ q = m * 2 ^ e * ((2 ^ (q - e).toNat : Nat) : ℚ) := by
  push_cast
  rcases le_total q e with h | h
  · rw [zpow_eq_toNat_mul h, Int.toNat_of_nonpos (by omega : q - e ≤ 0)]
    ring
  · rw [zpow_eq_toNat_mul h, Int.toNat_of_nonpos (by omega : e - q ≤ 0)]
    ring

theorem le_of_scaled {a b : Int} {q : Int} (h : (a : ℚ) * 2 ^ q ≤ b * 2 ^ q) : a ≤ b := by
  exact_mod_cast le_of_mul_le_mul_right h (by positivity)

theorem lt_of_scaled {a b : Int} {q : Int} (h : (a : ℚ) * 2 ^ q < b * 2 ^ q) : a < b := by
  exact_mod_cast lt_of_mul_lt_mul_right h (by positivity)

/-- A magnitude that is a multiple of 2^q is rounded to it in every mode. -/
theorem roundMag_of_val (rm : Rm) (u : Nat) (neg : Bool) {m k : Nat} {e q : Int} (h : (m : ℚ) * 2 ^ e = k * 2 ^ q) :
    roundMag rm u neg m e false q = (k, false) := by
  refine roundMag_exact rm u neg ?_
  have scaled := units_val m e q
  rw [h, mul_right_comm] at scaled
  exact_mod_cast mul_right_cancel₀ (zpow_ne_zero q two_ne_zero) scaled

/-- RNE is within half a unit. -/
theorem roundMag_rne_near (u : Nat) (neg : Bool) (m : Nat) (e q : Int) :
    2 * |((roundMag .rne u neg m e false q).1 : ℚ) * 2 ^ q - m * 2 ^ e| ≤ 2 ^ q := by
  obtain ⟨near, -⟩ := roundMag_rne_nearest u neg (m * 2 ^ (e - q).toNat) (q - e).toNat
  rw [← roundMag_scaled, unitGap] at near
  generalize (roundMag .rne u neg m e false q).1 = k at near ⊢
  have scaled := units_val m e q
  generalize m * 2 ^ (e - q).toNat = m' at near scaled
  generalize hS : 2 ^ (q - e).toNat = S at near scaled
  have pos : (0 : ℚ) < S := by rw [← hS]; positivity
  have units : 2 * |(k : ℚ) * S - m'| ≤ S := by
    have near' : 2 * |((k * S : Nat) : Int) - m'| ≤ S := by
      rw [Int.abs_eq_natAbs]
      exact_mod_cast near
    exact_mod_cast near'
  refine le_of_mul_le_mul_right ?_ pos
  calc 2 * |(k : ℚ) * 2 ^ q - m * 2 ^ e| * S = 2 * |((k : ℚ) * 2 ^ q - m * 2 ^ e) * S| := by rw [abs_mul, abs_of_pos pos, mul_assoc]
    _ = 2 * |((k : ℚ) * S - m') * 2 ^ q| := by rw [sub_mul, ← scaled]; ring_nf
    _ = 2 * |(k : ℚ) * S - m'| * 2 ^ q := by rw [abs_mul_zpow, mul_assoc]
    _ ≤ S * 2 ^ q := mul_le_mul_of_nonneg_right units (by positivity)
    _ = 2 ^ q * S := mul_comm _ _

/-- Multiples that rounding may choose lie in the range unless they are too large. -/
theorem inRange_of_unit (ieee : f.e4m3 = false) {m k : Nat} {e : Int} (mant : k < 2 ^ (f.fbits + 1))
    (normal : f.unitExp m e ≠ f.emin - f.fbits → 2 ^ f.fbits ≤ k) (top : f.unitExp m e + f.fbits ≤ f.emax) :
    f.InRange k (f.unitExp m e) where
  mant := mant
  exp := unitExp_low f m e
  sub h := by_contra fun n => Nat.not_lt.mpr (normal n) h
  top := top
  last _ := by
    simp only [Fmt.maxMant, ieee, Bool.false_eq_true, if_false]
    omega

/-- The rounding unit of k · 2^g is no coarser than 2^g when k fits in the significand. -/
theorem unitExp_le_of_val {m k : Nat} {e g : Int} (hm : m ≠ 0) (low : f.emin - f.fbits ≤ g) (fits : k < 2 ^ (f.fbits + 1))
    (value : (m : ℚ) * 2 ^ e = k * 2 ^ g) : f.unitExp m e ≤ g := by
  by_contra above
  have full := unitExp_lower hm e (f := f) (by omega)
  have fewer : (k : ℚ) < 2 ^ (f.fbits + 1) := by exact_mod_cast fits
  have steps : (2 : ℚ) * 2 ^ g ≤ 2 ^ f.unitExp m e := by
    rw [← zpow_one_add₀ two_ne_zero]
    exact zpow_le_zpow_right₀ one_le_two (by omega)
  have : (m : ℚ) * 2 ^ e < m * 2 ^ e := calc
    (m : ℚ) * 2 ^ e = k * 2 ^ g := value
    _ < 2 ^ (f.fbits + 1) * 2 ^ g := mul_lt_mul_of_pos_right fewer (by positivity)
    _ = 2 ^ f.fbits * (2 * 2 ^ g) := by ring
    _ ≤ 2 ^ f.fbits * 2 ^ f.unitExp m e := mul_le_mul_of_nonneg_left steps (by positivity)
    _ ≤ m * 2 ^ e := full
  exact lt_irrefl _ this

/-- A magnitude that the format holds is rounded exactly in every mode. -/
theorem roundFin_of_holds (L : f.Layout) (ieee : f.e4m3 = false) (rm : Rm) (u : Nat) {neg : Bool} {m : Nat} {e : Int}
    (h : f.Holds (FVal.fin neg m e).val) :
    ∃ k q, f.roundFin rm u neg m e false = (f.encode neg k q, fNone) ∧ f.InRange k q ∧ (FVal.fin neg k q).val = (FVal.fin neg m e).val := by
  by_cases hm : m = 0
  · subst hm
    have range := L.emin_le_emax
    exact ⟨0, _, roundFin_zero rm u neg e, ⟨by positivity, le_rfl, fun _ => rfl, by omega, by omega⟩, by simp [FVal.val, signed]⟩
  obtain ⟨n, g, small, low, top, eq⟩ := h
  have value : (m : ℚ) * 2 ^ e = n.natAbs * 2 ^ g := by
    have size := congrArg abs eq
    rw [FVal.val, abs_mul_zpow, abs_mul_zpow, ← Int.cast_abs, ← Int.cast_abs, abs_signed, Int.abs_eq_natAbs n] at size
    simpa using size
  have unit : f.unitExp m e ≤ g := unitExp_le_of_val hm low (by rw [Int.abs_eq_natAbs] at small; exact_mod_cast small) value
  have multiple : (m : ℚ) * 2 ^ e = ((n.natAbs * 2 ^ (g - f.unitExp m e).toNat : Nat) : ℚ) * 2 ^ f.unitExp m e := by
    rw [value, zpow_eq_toNat_mul unit]
    push_cast
    ring
  generalize n.natAbs * 2 ^ (g - f.unitExp m e).toNat = k at multiple
  refine ⟨k, f.unitExp m e, ?_⟩
  have range : f.InRange k (f.unitExp m e) := by
    refine inRange_of_unit ieee ?_ (fun h => ?_) (by omega)
    · have := unitExp_upper f m e
      rw [multiple] at this
      exact_mod_cast lt_of_mul_lt_mul_right this (by positivity)
    · have := unitExp_lower hm e h
      rw [multiple] at this
      exact_mod_cast le_of_mul_le_mul_right this (by positivity)
  refine ⟨roundFin_exact hm (roundMag_of_val rm u neg multiple) range, range, ?_⟩
  exact FVal.val_congr neg multiple.symm

/-- No multiple of S is nearer than one at half of S or less. -/
theorem nearest_error_le {S d : Int} (near : 2 * |d| ≤ S) (c : Int) : |d| ≤ |d + c * S| := by
  rcases eq_or_ne c 0 with rfl | far
  · rw [zero_mul, add_zero]
  · have step : S ≤ |c * S| := by
      rw [abs_mul]
      exact (le_abs_self S).trans (le_mul_of_one_le_left (abs_nonneg S) (Int.one_le_abs far))
    have tri : |c * S| ≤ |d + c * S| + |d| := by
      simpa using abs_sub (d + c * S) d
    omega

/-- When neither term is a multiple of 2^s and the sum still fills the significand, 2^s is small. -/
theorem step_lt_of_sum_full {p s t : Nat} {A n : Int} (hA : |A| < 2 ^ (p + 1)) (hn : |n| < 2 ^ (p + 1)) (fine : t < s)
    (full : 2 ^ p * 2 ^ s ≤ |A + n * 2 ^ t|) : (2 : Int) ^ s < 2 * 2 ^ (p + 1) := by
  by_contra large
  rw [pow_succ' 2 p] at hA hn large
  have half : 2 * (2 : Int) ^ t ≤ 2 ^ s := by
    rw [← pow_succ']
    exact pow_le_pow_right₀ one_le_two fine
  have tri : |A + n * 2 ^ t| ≤ |A| + |n| * 2 ^ t := by
    refine (abs_add_le _ _).trans_eq ?_
    rw [abs_mul, abs_of_pos (by positivity : (0 : Int) < 2 ^ t)]
  have pos : (0 : Int) < 2 ^ p := by positivity
  have term : |n| * 2 ^ t ≤ (2 * 2 ^ p - 1) * 2 ^ t := mul_le_mul_of_nonneg_right (by omega) (by positivity)
  have bound : (2 * 2 ^ p - 1) * (2 * 2 ^ t) ≤ (2 * 2 ^ p - 1) * (2 : Int) ^ s := mul_le_mul_of_nonneg_left half (by omega)
  linarith

/-- The error of the multiple of 2^s nearest to A + n · 2^t fits in the significand: where n · 2^t is a multiple itself, the nearest one
is no farther than A, and otherwise 2^s is too small to lose more. -/
theorem sum_error_lt {p s t : Nat} {A n X K : Int} (hA : |A| < 2 ^ (p + 1)) (hn : |n| < 2 ^ (p + 1)) (sum : X = A + n * 2 ^ t)
    (full : 2 ^ p * 2 ^ s ≤ |X|) (near : 2 * |X - K * 2 ^ s| ≤ 2 ^ s) : |X - K * 2 ^ s| < 2 ^ (p + 1) := by
  rcases le_or_gt s t with coarse | fine
  · have multiple : A = X - K * 2 ^ s + (K - n * 2 ^ (t - s)) * 2 ^ s := by
      rw [sum, ← Nat.sub_add_cancel coarse, pow_add, Nat.add_sub_cancel]
      ring
    rw [multiple] at hA
    exact (nearest_error_le near _).trans_lt hA
  · have := step_lt_of_sum_full hA hn fine (sum ▸ full)
    omega

/-! ### The rounded sum -/

theorem roundMag_rne_bounds {m : Nat} (hm : m ≠ 0) (u : Nat) (neg : Bool) (e : Int) :
    let k := (roundMag .rne u neg m e false (f.unitExp m e)).1
    k ≤ 2 ^ (f.fbits + 1) ∧ (f.unitExp m e ≠ f.emin - f.fbits → 2 ^ f.fbits ≤ k) := by
  have near := roundMag_rne_near u neg m e (f.unitExp m e)
  have upper := unitExp_upper f m e
  generalize (roundMag .rne u neg m e false (f.unitExp m e)).1 = k at near ⊢
  obtain ⟨below, above⟩ := abs_le.mp ((le_div_iff₀' two_pos).mpr near)
  refine ⟨?_, fun normal => ?_⟩
  · have : (2 * k : Int) < 2 * 2 ^ (f.fbits + 1) + 1 := by
      refine lt_of_scaled (q := f.unitExp m e) ?_
      push_cast
      linarith
    have : (k : Int) ≤ 2 ^ (f.fbits + 1) := by omega
    exact_mod_cast this
  · have lower := unitExp_lower hm e normal
    have : (2 * 2 ^ f.fbits - 1 : Int) ≤ 2 * k := by
      refine le_of_scaled (q := f.unitExp m e) ?_
      push_cast
      linarith
    have : (2 : Int) ^ f.fbits ≤ k := by omega
    exact_mod_cast this

/-- A rounding that carries into the next exponent writes the pattern of that exponent's first value. -/
theorem Fmt.written_carry (f : Fmt) (neg : Bool) (q : Int) : f.written neg (2 ^ (f.fbits + 1)) q = f.encode neg (2 ^ f.fbits) (q + 1) := by
  have large : ¬2 ^ (f.fbits + 1) < 2 ^ f.fbits := Nat.not_lt.mpr (Nat.pow_le_pow_right two_pos (Nat.le_succ _))
  have half : 2 ^ (f.fbits + 1) / 2 = 2 ^ f.fbits := by rw [pow_succ, Nat.mul_div_cancel _ two_pos]
  have field : ((f.fbits + 1 : Nat) : Int) + q + f.bias = q + 1 + f.fbits + f.bias := by omega
  simp only [Fmt.written, Fmt.encode, Nat.log2_two_pow, large, lt_irrefl, if_false, Nat.succ_ne_self, half, field, Fmt.pattern]

/-- RNE overflows to an infinity (Table 3-4). -/
theorem Fmt.Layout.decode_overflow_rne (L : f.Layout) (ieee : f.e4m3 = false) (wide : f.fp8 = false) (neg : Bool) :
    f.decode (f.overflowBits .rne neg) = .inf neg := by
  have last : 2 ^ f.ebits - 1 < 2 ^ f.ebits := Nat.sub_lt (Nat.two_pow_pos _) one_pos
  have pattern : f.overflowBits .rne neg = f.pattern neg (2 ^ f.ebits - 1) 0 := by
    simp [Fmt.overflowBits, Fmt.infBits, Fmt.pattern, ieee, wide]
  rw [pattern, L.decode_pattern neg last (Nat.two_pow_pos _)]
  simp [Fmt.ofFields, ieee]

theorem Fmt.lead_le_of_not_over {k : Nat} {q : Int} (h : f.over k q = false) (hk : k ≠ 0) : (Nat.log2 k : Int) + q ≤ f.emax := by
  by_contra above
  simp [Fmt.over, hk, not_le.mp above] at h

/-- A rounded multiple that is not over and fits in the significand lies in the range. -/
theorem inRange_of_not_over (L : f.Layout) (ieee : f.e4m3 = false) {m k : Nat} {e : Int} (fits : f.over k (f.unitExp m e) = false)
    (mant : k < 2 ^ (f.fbits + 1)) (normal : f.unitExp m e ≠ f.emin - f.fbits → 2 ^ f.fbits ≤ k) : f.InRange k (f.unitExp m e) := by
  refine inRange_of_unit ieee mant normal ?_
  rcases lt_or_ge k (2 ^ f.fbits) with sub | full
  · have := L.emin_le_emax
    have := mt normal (Nat.not_le.mpr sub)
    omega
  · have pos : k ≠ 0 := ((Nat.two_pow_pos f.fbits).trans_le full).ne'
    have := Fmt.lead_le_of_not_over fits pos
    have := (Nat.le_log2 pos).mpr full
    omega

/-- Rounding that carries gives the first value of the next exponent, in the range when it is not over. -/
theorem inRange_of_carry (ieee : f.e4m3 = false) {q : Int} (low : f.emin - f.fbits ≤ q) (fits : f.over (2 ^ (f.fbits + 1)) q = false) :
    f.InRange (2 ^ f.fbits) (q + 1) := by
  have lead := Fmt.lead_le_of_not_over fits (Nat.two_pow_pos _).ne'
  have pos := Nat.two_pow_pos f.fbits
  rw [Nat.log2_two_pow] at lead
  refine ⟨Nat.pow_lt_pow_right one_lt_two (Nat.lt_succ_self _), by omega, fun h => absurd h (lt_irrefl _), by omega, fun _ => ?_⟩
  simp only [Fmt.maxMant, ieee, Bool.false_eq_true, if_false, pow_succ']
  omega

/-- A sum whose RNE rounding is finite is rounded to the nearest multiple of its unit. -/
theorem rne_val_of_finite (L : f.Layout) (ieee : f.e4m3 = false) (wide : f.fp8 = false) {u : Nat} {neg : Bool} {m : Nat} {e : Int}
    (hm : m ≠ 0) (fin : (f.decode (f.roundFin .rne u neg m e false).1).isFin = true) :
    (f.decode (f.roundFin .rne u neg m e false).1).val =
      (FVal.fin neg (roundMag .rne u neg m e false (f.unitExp m e)).1 (f.unitExp m e)).val := by
  obtain ⟨upper, normal⟩ := roundMag_rne_bounds (f := f) hm u neg e
  obtain ⟨tiny, eq⟩ := roundFin_pos (f := f) .rne u neg e hm
  rw [eq] at fin ⊢
  dsimp only at fin ⊢
  generalize roundMag .rne u neg m e false (f.unitExp m e) = r at upper normal fin ⊢
  cases big : f.over r.1 (f.unitExp m e) with
  | true =>
    rw [big, if_pos rfl, L.decode_overflow_rne ieee wide] at fin
    cases fin
  | false =>
    rw [if_neg Bool.false_ne_true]
    dsimp only
    rcases upper.lt_or_eq with mant | carry
    · rw [f.written_of_lt neg _ mant, L.decode_encode neg (inRange_of_not_over L ieee big mant normal)]
    · rw [carry] at big ⊢
      rw [f.written_carry, L.decode_encode neg (inRange_of_carry ieee (unitExp_low f m e) big)]
      refine FVal.val_congr neg ?_
      rw [zpow_add_one₀ two_ne_zero]
      push_cast
      ring

/-- The error of the rounded sum of A · 2^e and n · 2^t · 2^e is a number of the format. -/
theorem rne_error_holds (L : f.Layout) (ieee : f.e4m3 = false) (wide : f.fp8 = false) {u : Nat} {neg : Bool} {m t : Nat} {e A n : Int}
    (hA : |A| < 2 ^ (f.fbits + 1)) (hn : |n| < 2 ^ (f.fbits + 1)) (sum : signed neg m = A + n * 2 ^ t)
    (low : f.emin - f.fbits ≤ e) (top : e + f.fbits ≤ f.emax)
    (fin : (f.decode (f.roundFin .rne u neg m e false).1).isFin = true) :
    f.Holds ((FVal.fin neg m e).val - (f.decode (f.roundFin .rne u neg m e false).1).val) := by
  have zero : f.Holds 0 := ⟨0, e, by positivity, low, top, by simp⟩
  by_cases hm : m = 0
  · subst hm
    have valZero : (FVal.fin neg 0 e).val = 0 := by simp [FVal.val, signed]
    obtain ⟨k, q, rounded, range, same⟩ := roundFin_of_holds L ieee .rne u (valZero.symm ▸ zero)
    rwa [rounded, L.decode_encode neg range, same, sub_self]
  rw [rne_val_of_finite L ieee wide hm fin]
  have near := roundMag_rne_near u neg m e (f.unitExp m e)
  rcases le_or_gt (f.unitExp m e) e with fine | rounds
  · have multiple : (m : ℚ) * 2 ^ e = ((m * 2 ^ (e - f.unitExp m e).toNat : Nat) : ℚ) * 2 ^ f.unitExp m e := by
      rw [zpow_eq_toNat_mul fine]
      push_cast
      ring
    rwa [roundMag_of_val .rne u neg multiple, FVal.val_congr neg multiple, sub_self]
  · have full := unitExp_lower hm e (f := f) (by omega)
    generalize (roundMag .rne u neg m e false (f.unitExp m e)).1 = k at near ⊢
    rw [zpow_eq_toNat_mul rounds.le] at near full
    rw [FVal.val, FVal.val, zpow_eq_toNat_mul rounds.le]
    generalize (f.unitExp m e - e).toNat = s at near full ⊢
    refine ⟨signed neg m - signed neg k * 2 ^ s, e, sum_error_lt hA hn sum ?_ ?_, low, top, by push_cast; ring⟩
    · rw [abs_signed, Nat.abs_cast]
      refine le_of_scaled (q := e) ?_
      push_cast
      rwa [mul_assoc]
    · rw [signed_sub_mul, abs_signed]
      refine le_of_scaled (q := e) ?_
      push_cast
      rwa [← abs_sub_comm, mul_assoc, ← abs_mul_zpow, sub_mul, mul_assoc]

/-- A number that the format holds is rounded to an equal value, with no flag. -/
theorem rndC_of_holds (L : f.Layout) (ieee : f.e4m3 = false) {x : FVal} (fin : x.isFin = true) (h : f.Holds x.val) :
    (rndC f x).1.isFin = true ∧ (rndC f x).1.val = x.val ∧ (rndC f x).2 = fNone := by
  obtain ⟨neg, m, e, rfl⟩ := FVal.exists_of_isFin fin
  obtain ⟨k, q, rounded, range, same⟩ := roundFin_of_holds L ieee .rne 0 h
  simp [rndC, Fmt.round, rounded, L.decode_encode neg range, same, FVal.isFin]

/-- The error of the rounded sum of two values in the range. -/
theorem sum_error_holds (L : f.Layout) (ieee : f.e4m3 = false) (wide : f.fp8 = false) {n1 n2 : Bool} {m1 m2 : Nat} {e1 e2 : Int}
    (r1 : f.InRange m1 e1) (r2 : f.InRange m2 e2) (fin : (rndC f (addFin false n1 m1 e1 n2 m2 e2)).1.isFin = true) :
    f.Holds ((addFin false n1 m1 e1 n2 m2 e2).val - (rndC f (addFin false n1 m1 e1 n2 m2 e2)).1.val) := by
  obtain ⟨neg, m, sum, eq⟩ := addFin_eq false n1 m1 e1 n2 m2 e2
  have small (n : Bool) {m : Nat} {e : Int} (r : f.InRange m e) : |signed n m| < 2 ^ (f.fbits + 1) := by
    rw [abs_signed, Nat.abs_cast]
    exact_mod_cast r.mant
  rw [sum] at fin ⊢
  rw [FVal.intAt_eq, FVal.intAt_eq] at eq
  rcases le_total e1 e2 with h | h
  · rw [min_eq_left h] at eq fin ⊢
    rw [sub_self, Int.toNat_zero, pow_zero, mul_one] at eq
    exact rne_error_holds L ieee wide (small n1 r1) (small n2 r2) eq r1.exp r1.top fin
  · rw [min_eq_right h] at eq fin ⊢
    rw [sub_self, Int.toNat_zero, pow_zero, mul_one, add_comm] at eq
    exact rne_error_holds L ieee wide (small n2 r2) (small n1 r1) eq r2.exp r2.top fin

/-! ### The two components of two_sum (R79-R81) -/

theorem twoSum_s (f : Fmt) (a b : FVal) : (twoSum f a b).1.s = (rndC f (addF false a b).1).1 := by
  unfold twoSum pairOf
  dsimp only
  split <;> rfl

theorem twoSum_of_finite {a b : FVal} (h : (twoSum f a b).1.s.isFin = true) :
    (twoSum f a b).1.e = (rndC f (addF false (addF false a b).1 (twoSum f a b).1.s.neg).1).1 ∧
      (twoSum f a b).2 = (addF false a b).2 ||| errFlags (rndC f (addF false (addF false a b).1 (twoSum f a b).1.s.neg).1).2 := by
  rw [twoSum_s] at h ⊢
  simp [twoSum, pairOf, h]

theorem FVal.neg_isFin {x : FVal} (h : x.isFin = true) : x.neg.isFin = true := by
  obtain ⟨neg, m, e, rfl⟩ := FVal.exists_of_isFin h
  rfl

/-- The error of the rounded sum of two decoded values is a number of the format. -/
theorem twoSum_error_holds (L : f.Layout) (ieee : f.e4m3 = false) (wide : f.fp8 = false) {x y : Nat}
    (hx : (f.decode x).isFin = true) (hy : (f.decode y).isFin = true) (fin : (twoSum f (f.decode x) (f.decode y)).1.s.isFin = true) :
    f.Holds ((addF false (f.decode x) (f.decode y)).1.val - (twoSum f (f.decode x) (f.decode y)).1.s.val) := by
  obtain ⟨n1, m1, e1, eq1, r1, -⟩ := L.decode_finite hx
  obtain ⟨n2, m2, e2, eq2, r2, -⟩ := L.decode_finite hy
  rw [twoSum_s, eq1, eq2] at fin ⊢
  exact sum_error_holds L ieee wide r1 r2 fin

end

/-- Settles O19: the rounded sum is a nearest one, so its error is a number of the format and is rounded to itself. -/
theorem twoSumErrorTermIsExact : Obligations.TwoSumErrorTermIsExact := by
  unfold Obligations.TwoSumErrorTermIsExact
  intro f component x y a b r ha hb hs
  obtain ⟨L, ieee, wide⟩ : f.Layout ∧ f.e4m3 = false ∧ f.fp8 = false := by
    rcases component with rfl | rfl <;> exact ⟨layout_of_listed (by simp), rfl, rfl⟩
  obtain ⟨sumFin, sumVal, sumFlags⟩ := addF_val false ha hb
  obtain ⟨errFin, errVal, -⟩ := addF_val false sumFin (FVal.neg_isFin hs)
  have error : f.Holds (addF false (addF false a b).1 r.1.s.neg).1.val := by
    rw [errVal, FVal.neg_val, ← sub_eq_add_neg]
    exact twoSum_error_holds L ieee wide ha hb hs
  obtain ⟨eFin, eVal, eFlags⟩ := rndC_of_holds L ieee errFin error
  obtain ⟨eEq, flags⟩ := twoSum_of_finite hs
  rw [← eEq] at eFin eVal
  obtain ⟨totalFin, totalVal, -⟩ := addF_val false hs eFin
  refine ⟨?_, cmpF_eq totalFin sumFin ?_⟩
  · rw [flags, sumFlags, eFlags]
    rfl
  · rw [totalVal, eVal, errVal, FVal.neg_val]
    ring

end Sys2Proof.Machine
end

section
/-! PROOFS of the encoding family (04_agquin_encoding_and_scalar_core), first part: O4, every command is an operation on the module behind
the check of its word. -/

namespace Sys2Proof.Machine

/-- The outcome of a command behind the check `ok`: a next state with the same queue, or the refusal of an ill-formed command. -/
def State.Gated (s : State) (ok : Bool) (x : Host.Outcome State Fault Refusal) : Prop :=
  (ok = true → ∃ t, x = .next t ∧ t.pending = s.pending) ∧ (ok = false → x = .refused .illFormed)

theorem State.run_gated (s : State) (ok : Bool) (f : Module → Module) : s.Gated ok (s.run ok f) :=
  ⟨fun h => ⟨_, s.run_ok ok f h, rfl⟩, s.run_bad ok f⟩

theorem State.inst_gated (s : State) (r : Row) (th : ThreadId) (w : Word) (body : Module → Nat → Module) :
    s.Gated (wordIs r w) (s.inst r th w body) := s.run_gated _ _

/-- What an illegal word does to a thread that runs (04 R88, R101). -/
def illegalBody (th : ThreadId) (w : Word) (m : Module) : Module :=
  if (m.th (ThreadId.key th)).run != .running || (keyKind (ThreadId.key th) == 0 && m.getF Reg.PWR_STATE.state != 0) then m
  else (m.settle (ThreadId.key th)).trapWord (ThreadId.key th) causeIllegal w

theorem exec_illegalInstruction (th : ThreadId) (w : Word) (s : State) :
    exec (.illegalInstruction th w) s = s.run (wordIllegal w) (illegalBody th w) := rfl

/-- An instruction checks that its word is of its own row, ILLEGAL_INSTRUCTION that it is of none, and every other command runs at once. -/
theorem exec_gated (i : Instr) (s : State) : s.Gated i.wf (exec i s) := by
  cases i
  case integerOp | divRem | liL | liH | fpArith | fdivFsqrt | fminFmax | fsgnj | fclass | faddP | fmulP | fmaP | padd | pround | convert |
      intCompare | fpCompare | branch | jal | jalr | nop | halt | yield | pause | trap | tret | srd | swr | sset | sclr | vintOp | vfixedOp |
      vfloatOp | vpairOp | vcvt | vcompare | maskOp | vbcast | vext | vins | vmerge | vperm | vslideup | vslidedn | vreduce | vld | vst |
      vlds | vsts | vgather | vscatter | msLd | msSwap | mma | mstCfg | mstSeek | maccZero | maccLd | maccDrain | maccStat | mwait |
      qCholTile | qTrsm | qSchur | qHhPanel | qHhApply | ld | st | gld | gst | amo | red | redv | redvi | xFence | xXfer | xAbort | xLaunch |
      xWait | xSqsub | xSqadj | xColl =>
    exact s.inst_gated _ _ _ _
  case illegalInstruction th w =>
    rw [exec_illegalInstruction]
    exact s.run_gated _ _
  all_goals exact ⟨fun _ => ⟨_, rfl, rfl⟩, nofun⟩

/-- Settles O4: the meaning of every command stands behind the check of `Instr.wf`. -/
theorem refusedExactlyWhenIllFormed : Obligations.RefusedExactlyWhenIllFormed := exec_gated

end Sys2Proof.Machine
end

section
/-! PROOFS of the encoding family (04_agquin_encoding_and_scalar_core), second part: the major opcodes that the decoder gives to each row, read off the rows of Tables 4-2 to 5-6. -/

namespace Sys2Proof

/-- The major opcodes of a row (04 Tables 4-2 to 4-7; 05 Tables 5-2 to 5-6). -/
def Row.majors : Row → List Nat
  | .integerOp | .divRem => [0x01, 0x02]
  | .liL | .liH => [0x03]
  | .fpArith | .fdivFsqrt | .fminFmax | .fsgnj | .fclass | .faddP | .fmulP | .fmaP | .padd | .pround => [0x04, 0x05]
  | .convert => [0x06]
  | .intCompare | .fpCompare => [0x07]
  | .branch => [0x08]
  | .jal | .jalr => [0x09]
  | .nop | .halt | .yield | .pause | .trap | .tret => [0x0A]
  | .srd | .swr | .sset | .sclr => [0x0B]
  | .vintOp => [0x10]
  | .vfixedOp => [0x11]
  | .vfloatOp => [0x12]
  | .vpairOp => [0x13]
  | .vcvt => [0x14]
  | .vcompare => [0x15]
  | .maskOp => [0x16]
  | .vbcast | .vext | .vins | .vmerge | .vperm | .vslideup | .vslidedn | .vreduce => [0x17]
  | .vld | .vst | .vlds | .vsts | .vgather | .vscatter => [0x18]
  | .msLd | .msSwap | .mma | .mstCfg | .mstSeek | .maccZero | .maccLd | .maccDrain | .maccStat | .mwait => [0x20, 0x21, 0x22, 0x23, 0x24]
  | .qCholTile | .qTrsm | .qSchur | .qHhPanel | .qHhApply => [0x28, 0x29, 0x2A, 0x2B]
  | _ => [0x30, 0x31, 0x32, 0x33, 0x34, 0x36, 0x37, 0x38, 0x39, 0x3A, 0x3B, 0x3C, 0x3D, 0x3E]

/-- Every row that a classifier can answer has these major opcodes. -/
def RowsOf (ms : List Nat) (x : Option Row) : Prop := ∀ r, x = some r → r.majors = ms

@[simp] theorem rowsOf_none (ms : List Nat) : RowsOf ms none ↔ True := ⟨fun _ => trivial, fun _ => nofun⟩

@[simp] theorem rowsOf_rowIf (ms : List Nat) (ok : Bool) (r : Row) : RowsOf ms (rowIf ok r) ↔ (ok = true → r.majors = ms) := by
  simp only [RowsOf, Machine.rowIf_eq_some]
  exact ⟨fun h ok => h r ⟨ok, rfl⟩, fun h r' ⟨ok, e⟩ => e ▸ h ok⟩

@[simp] theorem rowsOf_ite (ms : List Nat) (c : Prop) [Decidable c] (a b : Option Row) :
    RowsOf ms (if c then a else b) ↔ (c → RowsOf ms a) ∧ (¬c → RowsOf ms b) := by
  split <;> simp [*]

section
variable (w : Word)

theorem classifyIntReg_rows : RowsOf [0x01, 0x02] (classifyIntReg w) := by simp [classifyIntReg, Row.majors]

theorem classifyIntImm_rows : RowsOf [0x01, 0x02] (classifyIntImm w) := by simp [classifyIntImm, Row.majors]

theorem classifyLi_rows : RowsOf [0x03] (classifyLi w) := by simp [classifyLi, Row.majors]

theorem classifyCmp_rows : RowsOf [0x07] (classifyCmp w) := by simp [classifyCmp, Row.majors]

theorem classifyJump_rows : RowsOf [0x09] (classifyJump w) := by simp [classifyJump, Row.majors]

theorem classifyConv_rows : RowsOf [0x06] (classifyConv w) := by simp [classifyConv, Row.majors]

theorem classifyVint_rows : RowsOf [0x10] (classifyVint w) := by simp [classifyVint, Row.majors]

theorem classifyVfixed_rows : RowsOf [0x11] (classifyVfixed w) := by simp [classifyVfixed, Row.majors]

theorem classifyVfloat_rows : RowsOf [0x12] (classifyVfloat w) := by simp [classifyVfloat, Row.majors]

theorem classifyVpair_rows : RowsOf [0x13] (classifyVpair w) := by simp [classifyVpair, Row.majors]

theorem classifyVcvt_rows : RowsOf [0x14] (classifyVcvt w) := by simp [classifyVcvt, Row.majors]

theorem classifyVcmp_rows : RowsOf [0x15] (classifyVcmp w) := by simp [classifyVcmp, Row.majors]

theorem classifyMask_rows : RowsOf [0x16] (classifyMask w) := by simp [classifyMask, Row.majors]

theorem classifyFp_rows (dbl : Bool) : RowsOf [0x04, 0x05] (classifyFp dbl w) := by
  unfold classifyFp
  dsimp only
  split <;> simp [Row.majors]

theorem classifyCtl_rows : RowsOf [0x0A] (classifyCtl w) := by
  unfold classifyCtl
  dsimp only
  split <;> simp [Row.majors]

theorem classifySr_rows : RowsOf [0x0B] (classifySr w) := by
  unfold classifySr
  dsimp only
  split <;> simp [Row.majors]

theorem classifyVmove_rows : RowsOf [0x17] (classifyVmove w) := by
  unfold classifyVmove
  dsimp only
  split <;> simp [Row.majors]

theorem classifyVmem_rows : RowsOf [0x18] (classifyVmem w) := by
  unfold classifyVmem
  dsimp only
  split <;> simp [Row.majors]

theorem classifyM_rows : RowsOf [0x20, 0x21, 0x22, 0x23, 0x24] (classifyM w) := by
  unfold classifyM
  dsimp only
  split
  case h_4 => split <;> simp [Row.majors]
  all_goals simp [Row.majors]

theorem classifyQ_rows : RowsOf [0x28, 0x29, 0x2A, 0x2B] (classifyQ w) := by
  unfold classifyQ
  dsimp only
  split <;> simp [Row.majors]

theorem classifyX_rows : RowsOf [0x30, 0x31, 0x32, 0x33, 0x34, 0x36, 0x37, 0x38, 0x39, 0x3A, 0x3B, 0x3C, 0x3D, 0x3E] (classifyX w) := by
  unfold classifyX
  dsimp only
  split <;> simp [Row.majors]

/-- A word of a row has one of the row's major opcodes. -/
theorem classify_major {r : Row} (h : classify w = some r) : w.major ∈ r.majors := by
  have found : ∀ {ms x}, RowsOf ms x → x = some r → w.major ∈ ms → w.major ∈ r.majors := fun rows hx hm => by rwa [rows r hx]
  unfold classify at h
  split at h
  case h_1 e => exact found (classifyIntReg_rows w) h (by simp [e])
  case h_2 e => exact found (classifyIntImm_rows w) h (by simp [e])
  case h_3 e => exact found (classifyLi_rows w) h (by simp [e])
  case h_4 e => exact found (classifyFp_rows w _) h (by simp [e])
  case h_5 e => exact found (classifyFp_rows w _) h (by simp [e])
  case h_6 e => exact found (classifyConv_rows w) h (by simp [e])
  case h_7 e => exact found (classifyCmp_rows w) h (by simp [e])
  case h_8 e => exact found ((rowsOf_rowIf [0x08] _ _).mpr fun _ => rfl) h (by simp [e])
  case h_9 e => exact found (classifyJump_rows w) h (by simp [e])
  case h_10 e => exact found (classifyCtl_rows w) h (by simp [e])
  case h_11 e => exact found (classifySr_rows w) h (by simp [e])
  case h_12 e => exact found (classifyVint_rows w) h (by simp [e])
  case h_13 e => exact found (classifyVfixed_rows w) h (by simp [e])
  case h_14 e => exact found (classifyVfloat_rows w) h (by simp [e])
  case h_15 e => exact found (classifyVpair_rows w) h (by simp [e])
  case h_16 e => exact found (classifyVcvt_rows w) h (by simp [e])
  case h_17 e => exact found (classifyVcmp_rows w) h (by simp [e])
  case h_18 e => exact found (classifyMask_rows w) h (by simp [e])
  case h_19 e => exact found (classifyVmove_rows w) h (by simp [e])
  case h_20 e => exact found (classifyVmem_rows w) h (by simp [e])
  case h_21 e | h_22 e | h_23 e | h_24 e | h_25 e => exact found (classifyM_rows w) h (by simp [e])
  case h_26 e | h_27 e | h_28 e | h_29 e => exact found (classifyQ_rows w) h (by simp [e])
  case h_30 e | h_31 e | h_32 e | h_33 e | h_34 e | h_35 e | h_36 e | h_37 e | h_38 e | h_39 e | h_40 e | h_41 e | h_42 e | h_43 e => exact found (classifyX_rows w) h (by simp [e])
  case h_44 => cases h
end
end Sys2Proof
end

section
/-! PROOFS of the encoding family (04_agquin_encoding_and_scalar_core), third part: O7, O8 and O9, the integer instructions, the immediates and the compares. -/

namespace Sys2Proof.Machine

/-! ### The row of an instruction that issues -/

theorem State.issues_row {s : State} {r : Row} {th : ThreadId} {w : Word} (h : s.issues r th w = true) : classify w = some r := by
  simpa [wordIs] using (Bool.and_eq_true_iff.mp h).1

theorem classify_immediate {w : Word} (h : Word.major w = 2) : classify w = classifyIntImm w := by simp [classify, h]

/-- sel has no immediate form (04 Table 4-4). -/
theorem sel_major {w : Word} (h : classify w = some .integerOp) (hn : Word.minor w = 0x17) : Word.major w = 1 := by
  have majors : Word.major w = 1 ∨ Word.major w = 2 := by simpa [Row.majors] using classify_major w h
  refine majors.resolve_right fun imm => ?_
  rw [classify_immediate imm] at h
  simp [classifyIntImm, hn, rowIf] at h

/-! ### Counting bits -/

theorem clz64_spec (a : Word) : clz64 a.toNat ≤ 64 ∧ (∀ i, 64 - clz64 a.toNat ≤ i → a.getLsbD i = false) ∧
    (clz64 a.toNat < 64 → a.getLsbD (63 - clz64 a.toNat) = true) := by
  unfold clz64
  split
  · next h =>
    refine ⟨le_rfl, fun i _ => ?_, fun h => absurd h (lt_irrefl _)⟩
    rw [BitVec.getLsbD, h, Nat.zero_testBit]
  · next h =>
    have top : Nat.log2 a.toNat ≤ 63 := Nat.le_of_lt_succ ((Nat.log2_lt h).mpr a.isLt)
    refine ⟨by omega, fun i hi => ?_, fun _ => ?_⟩
    · exact Nat.testBit_lt_two_pow (Nat.lt_of_lt_of_le (Nat.lt_log2_self) (Nat.pow_le_pow_right (by decide) (by omega)))
    · rw [Nat.sub_sub_self top]
      exact Nat.testBit_log2 h

theorem ctz64_spec (a : Word) : ctz64 a.toNat ≤ 64 ∧ (∀ i, i < ctz64 a.toNat → a.getLsbD i = false) ∧
    (ctz64 a.toNat < 64 → a.getLsbD (ctz64 a.toNat) = true) := by
  unfold ctz64
  cases h : (List.range 64).find? (fun i => Nat.testBit a.toNat i) with
  | none =>
    refine ⟨le_rfl, fun i hi => ?_, fun h => absurd h (lt_irrefl _)⟩
    simpa [BitVec.getLsbD] using List.find?_eq_none.mp h i (List.mem_range.mpr hi)
  | some j =>
    obtain ⟨found, inside, before⟩ := List.find?_range_eq_some.mp h
    exact ⟨(List.mem_range.mp inside).le, fun i hi => by simpa [BitVec.getLsbD] using before i hi, fun _ => found⟩

/-! ### The integer minors (04 Table 4-4) -/

section
variable (a b c : Word) (k : Nat)

theorem intResult_shiftLeft (i : Nat) (hi : i < 64) : (intResult 0x05 a b c k).getLsbD i =
    (decide (b.toNat % 64 ≤ i) && a.getLsbD (i - b.toNat % 64)) := by
  rw [show intResult 0x05 a b c k = a <<< (b.toNat % 64) from rfl, BitVec.getLsbD_shiftLeft]
  simp only [hi, decide_true, Bool.true_and, ← Nat.not_lt, decide_not]

theorem intResult_shiftRight (i : Nat) : (intResult 0x06 a b c k).getLsbD i = a.getLsbD (b.toNat % 64 + i) := BitVec.getLsbD_ushiftRight ..

theorem intResult_arithmeticRight : (intResult 0x07 a b c k).toInt = a.toInt / 2 ^ (b.toNat % 64) := by
  rw [show intResult 0x07 a b c k = a.sshiftRight (b.toNat % 64) from rfl, BitVec.toInt_sshiftRight, Int.shiftRight_eq_div_pow]
  norm_cast

theorem toInt_bounds (x : Word) : -2 ^ 63 ≤ x.toInt ∧ x.toInt < 2 ^ 63 := ⟨BitVec.le_toInt x, BitVec.toInt_lt⟩

theorem intResult_highSigned : (intResult 0x09 a b c k).toInt = a.toInt * b.toInt / 2 ^ 64 := by
  obtain ⟨la, ha⟩ := toInt_bounds a
  obtain ⟨lb, hb⟩ := toInt_bounds b
  have low : -2 ^ 126 ≤ a.toInt * b.toInt := by nlinarith
  have high : a.toInt * b.toInt ≤ 2 ^ 126 := by nlinarith
  rw [show intResult 0x09 a b c k = BitVec.ofInt 64 (a.toInt * b.toInt / (2 ^ 64 : Nat)) from rfl, BitVec.toInt_ofInt]
  exact Int.bmod_eq_of_le (by omega) (by omega)

theorem intResult_highUnsigned : (intResult 0x0A a b c k).toNat = a.toNat * b.toNat / 2 ^ 64 := by
  refine Nat.mod_eq_of_lt (Nat.div_lt_of_lt_mul ?_)
  exact Nat.mul_lt_mul'' a.isLt b.isLt

theorem intResult_count : (intResult 0x15 a b c k).toNat = ((List.range 64).filter (fun i => a.getLsbD i)).length :=
  have small : ((List.range 64).filter (fun i => a.getLsbD i)).length ≤ 64 := (List.length_filter_le _ _).trans_eq (List.length_range)
  Nat.mod_eq_of_lt (small.trans_lt (by decide))

theorem intResult_leading : (intResult 0x13 a b c k).toNat = clz64 a.toNat :=
  Nat.mod_eq_of_lt ((clz64_spec a).1.trans_lt (by decide))

theorem intResult_trailing : (intResult 0x14 a b c k).toNat = ctz64 a.toNat :=
  Nat.mod_eq_of_lt ((ctz64_spec a).1.trans_lt (by decide))

theorem intResult_field (hk : k ≤ 64) (i : Nat) : (intResult 0x16 a b c k).getLsbD i =
    (decide (i < k) && a.getLsbD (b.toNat % 64 + i)) := by
  rw [show intResult 0x16 a b c k = BitVec.ofNat 64 (a.toNat / 2 ^ (b.toNat % 64) % 2 ^ k) from rfl, BitVec.getLsbD_ofNat,
    Nat.testBit_mod_two_pow, Nat.testBit_div_two_pow, Nat.add_comm i, BitVec.getLsbD]
  by_cases h : i < k
  · simp [h, show i < 64 by omega]
  · simp [h]

theorem intResult_min : (intResult 0x0F a b c k).toInt = min a.toInt b.toInt ∧ (intResult 0x11 a b c k).toNat = min a.toNat b.toNat := by
  constructor
  · rw [show intResult 0x0F a b c k = if a.toInt ≤ b.toInt then a else b from rfl, apply_ite BitVec.toInt, min_def]
  · rw [show intResult 0x11 a b c k = if a.toNat ≤ b.toNat then a else b from rfl, apply_ite BitVec.toNat, min_def]

theorem intResult_max : (intResult 0x10 a b c k).toInt = max a.toInt b.toInt ∧ (intResult 0x12 a b c k).toNat = max a.toNat b.toNat := by
  constructor
  · rw [show intResult 0x10 a b c k = if b.toInt ≤ a.toInt then a else b from rfl, apply_ite BitVec.toInt, max_comm, max_def]
  · rw [show intResult 0x12 a b c k = if b.toNat ≤ a.toNat then a else b from rfl, apply_ite BitVec.toNat, max_comm, max_def]

theorem intResult_select : intResult 0x17 a b c k = if c ≠ 0 then a else b := by
  rw [show intResult 0x17 a b c k = if c != 0 then a else b from rfl]
  simp

end

theorem bextWidth_le (t : Thread) (w : Word) : bextWidth t w ≤ 64 := by
  unfold bextWidth Word.slice
  split <;> omega

/-- The immediate bext takes its shift from mod[5:0]. -/
theorem intB_bext {t : Thread} {w : Word} (hm : Word.major w = 2) (hn : Word.minor w = 0x16) : (intB t w).toNat % 64 = Word.slice w 5 0 := by
  have small : Word.slice w 5 0 < 64 := Nat.mod_lt _ (by decide)
  rw [intB, if_neg (by omega), if_pos hn, BitVec.toNat_ofNat]
  omega

/-- Settles O7, minor by minor: the value that the body writes is that of the row of Table 4-4. -/
theorem integerInstructionsWriteTheTableResult : Obligations.IntegerInstructionsWriteTheTableResult := by
  unfold Obligations.IntegerInstructionsWriteTheTableResult
  intro s th w hi t a b n
  let c : Word := if Word.major w = 1 then t.getS (Word.rc w) else 0
  have field := intResult_field a b c (bextWidth t w) (bextWidth_le t w)
  refine ⟨intResult n a b c (bextWidth t w), State.retires s .integerOp th w (integerOp w) _ _ false rfl hi rfl, ?_⟩
  refine ⟨fun h => by rw [h]; rfl, fun h => by rw [h]; rfl, fun h => by rw [h]; rfl, fun h => by rw [h]; rfl, fun h => by rw [h]; rfl,
    fun h => by rw [h]; exact intResult_shiftLeft _ _ _ _, fun h => by rw [h]; exact intResult_shiftRight _ _ _ _,
    fun h => by rw [h]; exact intResult_arithmeticRight _ _ _ _, fun h => by rw [h]; exact BitVec.toNat_mul _ _,
    fun h => by rw [h]; exact intResult_highSigned _ _ _ _, fun h => by rw [h]; exact intResult_highUnsigned _ _ _ _,
    fun h => by rw [h]; exact (intResult_min _ _ _ _).1, fun h => by rw [h]; exact (intResult_max _ _ _ _).1,
    fun h => by rw [h]; exact (intResult_min _ _ _ _).2, fun h => by rw [h]; exact (intResult_max _ _ _ _).2,
    fun h => by rw [h, intResult_leading]; exact clz64_spec a, fun h => by rw [h, intResult_trailing]; exact ctz64_spec a,
    fun h => by rw [h]; exact intResult_count _ _ _ _, fun h hm => ?_, fun h hm => ?_, fun h => ?_⟩
  · rw [h]
    have width : bextWidth t w = (t.getS (Word.rc w)).toNat % 64 + 1 := if_pos hm
    exact fun i => by rw [field, width]
  · rw [h]
    have width : bextWidth t w = Word.slice w 11 6 + 1 := if_neg (by omega)
    have shift : b.toNat % 64 = Word.slice w 5 0 := intB_bext hm h
    exact fun i => by rw [field, width, shift]
  · have reg : c = t.getS (Word.rc w) := if_pos (sel_major (State.issues_row hi) h)
    rw [h, intResult_select, reg]

/-! ### Division (04 R93) -/

theorem divResult_zero (n : Nat) (a : Word) : (n = 0x0B ∨ n = 0x0C → divResult n a 0 = BitVec.allOnes 64) ∧
    (n = 0x0D ∨ n = 0x0E → divResult n a 0 = a) := by
  constructor
  · rintro (rfl | rfl) <;> rfl
  · rintro (rfl | rfl) <;> rfl

section
variable {a b : Word} (hb : b ≠ 0)
include hb

theorem divResult_div : divResult 0x0B a b = a.sdiv b := by
  rw [show divResult 0x0B a b = BitVec.ofInt 64 (a.toInt.tdiv b.toInt) from if_neg hb]
  exact BitVec.eq_of_toInt_eq (by rw [BitVec.toInt_ofInt, BitVec.toInt_sdiv])

theorem divResult_rem : divResult 0x0D a b = a.srem b := by
  rw [show divResult 0x0D a b = BitVec.ofInt 64 (a.toInt.tmod b.toInt) from if_neg hb, ← BitVec.toInt_srem, BitVec.ofInt_toInt]

theorem divResult_divu : (divResult 0x0C a b).toNat = a.toNat / b.toNat := by
  rw [show divResult 0x0C a b = BitVec.ofNat 64 (a.toNat / b.toNat) from if_neg hb]
  exact Nat.mod_eq_of_lt ((Nat.div_le_self _ _).trans_lt a.isLt)

theorem divResult_remu : (divResult 0x0E a b).toNat = a.toNat % b.toNat := by
  rw [show divResult 0x0E a b = BitVec.ofNat 64 (a.toNat % b.toNat) from if_neg hb]
  exact Nat.mod_eq_of_lt ((Nat.mod_le _ _).trans_lt a.isLt)

end

/-- Settles O8: the quotient and the remainder are those of bit vectors, which differ from the integers' in the overflow case only. -/
theorem divisionByZeroAndOverflowHaveResults : Obligations.DivisionByZeroAndOverflowHaveResults := by
  unfold Obligations.DivisionByZeroAndOverflowHaveResults
  intro s th w hi t a b n
  refine ⟨divResult n a b, State.retires s .divRem th w (divRem w) _ _ false rfl hi rfl, fun h => ?_, fun ha hb => ?_, fun hb h => ?_,
    fun hb h => ?_, fun hb safe => ⟨fun h => ?_, fun h => ?_⟩⟩
  · rw [h]
    exact divResult_zero n a
  · have a_eq : a = BitVec.intMin 64 := BitVec.eq_of_toInt_eq (ha.trans (by decide))
    have b_eq : b = -1 := BitVec.eq_of_toInt_eq (hb.trans (by decide))
    rw [a_eq, b_eq]
    exact ⟨fun h => by rw [h]; decide, fun h => by rw [h]; decide⟩
  · rw [h, divResult_divu hb]
  · rw [h, divResult_remu hb]
  · rw [h, divResult_div hb]
    refine BitVec.toInt_sdiv_of_ne_or_ne a b (not_and_or.mp fun ⟨ha, hb⟩ => safe ⟨?_, ?_⟩)
    · rw [ha]; decide
    · rw [hb]; decide
  · rw [h, divResult_rem hb, BitVec.toInt_srem]

/-! ### Immediates and compares (04 Tables 4-3, 4-6a) -/

theorem slice_testBit (w : Word) (hi lo i : Nat) : (Word.slice w hi lo).testBit i = (decide (i < hi + 1 - lo) && w.getLsbD (lo + i)) := by
  rw [Word.slice, Nat.testBit_mod_two_pow, Nat.testBit_div_two_pow, Nat.add_comm i, BitVec.getLsbD]

/-- A two's complement value of the low bits is the sign extension of them. -/
theorem ofInt_signedOf (n v : Nat) (hn : 0 < n) : BitVec.ofInt 64 (signedOf n v) = (BitVec.ofNat n v).signExtend 64 := by
  have half : 2 * 2 ^ (n - 1) = 2 ^ n := by rw [← Nat.pow_succ']; congr 1; omega
  rw [BitVec.signExtend, BitVec.toInt_eq_toNat_cond, BitVec.toNat_ofNat, signedOf]
  by_cases h : v % 2 ^ n < 2 ^ (n - 1)
  · rw [if_pos h, if_pos (by omega)]
  · rw [if_neg h, if_neg (by omega)]

theorem imm40_eq (w : Word) : imm40 w = (BitVec.ofNat 40 (Word.slice w 39 0)).signExtend 64 := ofInt_signedOf 40 _ (by decide)

theorem imm40_bits (w : Word) (i : Nat) (hi : i < 64) : (imm40 w).getLsbD i = if i < 40 then w.getLsbD i else w.getLsbD 39 := by
  have bit : ∀ j < 40, (BitVec.ofNat 40 (Word.slice w 39 0)).getLsbD j = w.getLsbD j := fun j hj => by
    rw [BitVec.getLsbD_ofNat, slice_testBit]
    simp [hj]
  rw [imm40_eq, BitVec.getLsbD_signExtend, BitVec.msb_eq_getLsbD_last]
  by_cases h : i < 40
  · simp only [hi, h, decide_true, Bool.true_and, if_true, bit]
  · simp only [hi, h, decide_true, Bool.true_and, if_false, bit 39 (by decide), Nat.reduceSub]

theorem liHValue_bits (old w : Word) (i : Nat) (hi : i < 64) :
    (liHValue old w).getLsbD i = if i < 40 then old.getLsbD i else w.getLsbD (i - 40) := by
  rw [liHValue, BitVec.getLsbD_ofNat, Nat.mul_comm]
  by_cases h : i < 40
  · rw [Nat.testBit_two_pow_mul_add _ (Nat.mod_lt _ (by decide)), if_pos h, if_pos h, Nat.testBit_mod_two_pow]
    simp [hi, h, BitVec.getLsbD]
  · rw [Nat.testBit_two_pow_mul_add _ (Nat.mod_lt _ (by decide)), if_neg h, if_neg h, slice_testBit]
    simp [hi, show i - 40 < 24 by omega]

/-- The six conditions of integer compares and of branches, by minor. -/
theorem intCond_iff (n : Nat) (a b : Word) :
    (n = 0 → (intCond n a b = true ↔ a = b)) ∧ (n = 1 → (intCond n a b = true ↔ a ≠ b)) ∧
    (n = 2 → (intCond n a b = true ↔ a.toInt < b.toInt)) ∧ (n = 3 → (intCond n a b = true ↔ b.toInt ≤ a.toInt)) ∧
    (n = 4 → (intCond n a b = true ↔ a.toNat < b.toNat)) ∧ (n = 5 → (intCond n a b = true ↔ b.toNat ≤ a.toNat)) := by
  refine ⟨?_, ?_, ?_, ?_, ?_, ?_⟩ <;> (rintro rfl; simp [intCond])

/-- Settles O9, bit by bit for the immediates and condition by condition for the compares. -/
theorem immediatesAndComparesWriteTheirValue : Obligations.ImmediatesAndComparesWriteTheirValue := by
  unfold Obligations.ImmediatesAndComparesWriteTheirValue
  intro s th w t old a b n
  refine ⟨fun hi => ⟨imm40 w, State.retires s .liL th w (liL w) _ _ false rfl hi rfl, fun i h => ?_, fun i h h64 => ?_⟩,
    fun hi => ⟨liHValue old w, State.retires s .liH th w (liH w) _ _ false rfl hi rfl, fun i h => ?_, fun i h h64 => ?_⟩,
    fun hi => ⟨intCond n a b, State.retires s .intCompare th w (intCompare w) _ _ false rfl hi rfl, intCond_iff n a b⟩⟩
  · rw [imm40_bits w i (by omega), if_pos h]
  · rw [imm40_bits w i h64, if_neg (by omega)]
  · rw [liHValue_bits old w i (by omega), if_pos h]
  · rw [liHValue_bits old w i h64, if_neg (by omega)]

end Sys2Proof.Machine
end

section
/-! PROOFS of the encoding family (04_agquin_encoding_and_scalar_core), fourth part: O10 and O11, the scalar floating and pair instructions. -/

namespace Sys2Proof.Machine

/-! ### Results and flags of the scalar unit -/

theorem Thread.orFlags_none (t : Thread) : t.orFlags fNone = t := by
  rw [Thread.orFlags, show t.flags ||| fNone = t.flags from BitVec.or_zero]

/-- An instruction whose body writes a floating result and its flags (04 R91). -/
theorem State.retires_float {s : State} {r : Row} {th : ThreadId} {w : Word} {body : Module → Nat → Module} {i : Instr} {x : Nat × Flags}
    (he : exec i s = s.inst r th w body) (h : s.issues r th w = true)
    (hb : body (s.issuing th) (ThreadId.key th) = (s.issuing th).retireF (ThreadId.key th) (Word.rd w) x) :
    Retires i s th (((s.thread th).orFlags x.2).setS (Word.rd w) (BitVec.ofNat 64 x.1)) := s.retires r th w body i _ false he h hb

/-- A result that raises no flag. -/
theorem State.retires_flagless {s : State} {r : Row} {th : ThreadId} {w : Word} {body : Module → Nat → Module} {i : Instr} {x : Nat}
    (he : exec i s = s.inst r th w body) (h : s.issues r th w = true)
    (hb : body (s.issuing th) (ThreadId.key th) = (s.issuing th).retireF (ThreadId.key th) (Word.rd w) (x, fNone)) :
    Retires i s th ((s.thread th).setS (Word.rd w) (BitVec.ofNat 64 x)) := by
  have done := State.retires_float he h hb
  rwa [Thread.orFlags_none] at done

/-- A 32-bit integer result is sign-extended (04 R94). -/
theorem intBits_int32 (x : Nat) : intBits 64 (intOf true 32 x) = ((BitVec.ofNat 32 x).signExtend 64).toNat := by
  rw [intOf_toInt 32 x (by decide), intBits, BitVec.signExtend, BitVec.toNat_ofInt]

/-- Settles O10: each body writes the result and the flags of the number rules on its operand patterns. -/
theorem floatingInstructionsWriteResultAndFlags : Obligations.FloatingInstructionsWriteResultAndFlags := by
  unfold Obligations.FloatingInstructionsWriteResultAndFlags
  intro s th w t u f a b c n rm put
  refine ⟨fun hi => State.retires_float rfl hi rfl, fun hi => ⟨fun h => ?_, fun h => ?_⟩, fun hi => State.retires_float rfl hi rfl,
    fun hi => State.retires_flagless rfl hi rfl, fun hi => State.retires_flagless rfl hi rfl, fun hi => ?_,
    fun hi => State.retires_float rfl hi rfl, fun hi => ?_⟩
  · have six : Word.minor w = 6 := h
    exact State.retires_float rfl hi (by rw [fdivFsqrt, if_pos six]; rfl)
  · have seven : Word.minor w ≠ 6 := fun six => absurd (six.symm.trans h) (by decide)
    exact State.retires_float rfl hi (by rw [fdivFsqrt, if_neg seven]; rfl)
  · exact State.retires_float rfl hi rfl
  · intro dst iw r
    refine State.retires_float rfl hi ?_
    simp only [convertBody, Bool.and_eq_true, decide_eq_true_eq, intBits_int32]
    rfl

/-! ### Pairs -/

/-- An instruction whose body writes a pair and its flags (04 R92). -/
theorem State.retires_pair {s : State} {r : Row} {th : ThreadId} {w : Word} {body : Module → Nat → Module} {i : Instr} {p : Pair} {fl : Flags}
    (he : exec i s = s.inst r th w body) (h : s.issues r th w = true)
    (hb : body (s.issuing th) (ThreadId.key th) = (s.issuing th).retireP (ThreadId.key th) w p fl) :
    Retires i s th
      (if Word.major w = 4 then ((s.thread th).orFlags fl).setPair64 (Word.rd w) (p.bits (scalarFmt w)).1 (p.bits (scalarFmt w)).2
       else ((s.thread th).orFlags fl).setPair32 (Word.rd w) (p.bits (scalarFmt w)).1 (p.bits (scalarFmt w)).2) :=
  s.retires r th w body i _ false he h hb

/-- Settles O11: the two components lie where R92 says. -/
theorem pairInstructionsWriteBothComponents : Obligations.PairInstructionsWriteBothComponents := by
  unfold Obligations.PairInstructionsWriteBothComponents
  intro s th w t f x y d put
  exact ⟨fun hi => State.retires_pair rfl hi rfl, fun hi => State.retires_pair rfl hi rfl, fun hi => State.retires_pair rfl hi rfl,
    fun hi => State.retires_pair rfl hi rfl⟩

end Sys2Proof.Machine
end

section
/-! PROOFS of the encoding family (04_agquin_encoding_and_scalar_core), fifth part: O12, O13 and O14, jumps, traps and the return from a trap. -/

namespace Sys2Proof.Machine

/-! ### A thread that stops at an unhandled trap (04 R103) -/

theorem Module.stopNaming_eq (m : Module) (k : Nat) (ip instr : Word) (cause addr vidx device : Nat) :
    m.stopNaming k ip instr cause addr vidx device =
      (m.stoppedTh k ip).threadRecord k (mkRecord addr cause (m.th k).ctx (keyCore k) (keyThread k) vidx instr.toNat device) := rfl

theorem Module.stopNaming_th (m : Module) (k : Nat) (ip instr : Word) (cause addr vidx device j : Nat) :
    (m.stopNaming k ip instr cause addr vidx device).th j = if j = k then { m.th k with run := .stopped, ip := ip } else m.th j := by
  rw [Module.stopNaming_eq, (Module.threadRecord_apart _ k _).1.th, (m.stoppedTh_beside k ip).th j List.not_mem_nil, Module.th_setTh]

/-- The record of a thread that stops, which is no thread of an update core, goes to its context. -/
theorem Module.stopNaming_recorded (m : Module) (k : Nat) (ip instr : Word) (cause addr vidx device : Nat) (hk : keyKind k ≠ 1)
    (hn : (m.th k).ctx < 64) (hl : m.ctxLive (m.th k).ctx = true) :
    Recorded m (m.stopNaming k ip instr cause addr vidx device) (m.th k).ctx
      (mkRecord addr cause (m.th k).ctx (keyCore k) (keyThread k) vidx instr.toNat device) := by
  have before : Beside [k] m (m.stoppedTh k ip) := (Beside.setTh m k _).trans (m.stoppedTh_beside k ip).mono
  have ctx : ((m.stoppedTh k ip).th k).ctx = (m.th k).ctx := by
    rw [(m.stoppedTh_beside k ip).th k List.not_mem_nil, Module.th_setTh_self]
  rw [Module.stopNaming_eq, Module.threadRecord, if_neg hk, ctx]
  exact Recorded.beside hn before (Module.faultRecord_recorded _ _ _ hn ((before.ctxLive hn).trans hl)) (Beside.refl [] _)

theorem Module.issuedOn_beside (m : Module) (k : Nat) (wide : Bool) : Beside [] m (m.issuedOn k wide) :=
  Beside.setCore m _ _ (by cases wide <;> rfl)

/-- The address that the thread returns to, or stops at: SOFTWARE goes on at the next instruction (04 R101, R103). -/
def Thread.trapIp (t : Thread) (cause : Nat) : Word := if cause = causeSoftware then t.ip + 8 else t.ip

/-- A thread whose trap is not handled: it stops, no other thread changes, and its live context receives the record (04 R103). -/
def Unhandled (s : State) (th : ThreadId) (cause v elem : Nat) (m : Module) : Prop :=
  let t := s.thread th
  let k := ThreadId.key th
  m.th k = { t with run := .stopped, ip := t.trapIp cause } ∧ (∀ j, j ≠ k → m.th j = s.m.th j) ∧
    (keyKind k ≠ 1 → t.ctx < 64 → s.m.ctxLive t.ctx = true →
      Recorded s.m m t.ctx (mkRecord (v % 2 ^ 48) (0x10 + cause) t.ctx (keyCore k) (keyThread k) elem t.ip.toNat 0))

theorem State.trapWith_stops (s : State) (th : ThreadId) (cause : Nat) (tval : Word) (wide : Bool) (v : Nat)
    (h : (s.thread th).inTrap = true ∨ (s.thread th).tvec = 0) :
    Unhandled s th cause tval.toNat v ((s.issuing th).trapWith (ThreadId.key th) cause tval wide v) := by
  rw [Module.trapWith_unhandled _ _ _ _ _ _ h]
  have issued := (s.issuing th).issuedOn_beside (ThreadId.key th) wide
  have before : Beside [ThreadId.key th] s.m _ := (s.issuing_beside th).trans issued.mono
  have thread : ((s.issuing th).issuedOn (ThreadId.key th) wide).th (ThreadId.key th) = s.thread th := rfl
  generalize (s.issuing th).issuedOn (ThreadId.key th) wide = m at before thread
  refine ⟨?_, fun j hj => ?_, fun hk hn hl => ?_⟩
  · rw [Module.stopNaming_th, if_pos rfl, thread]; rfl
  · rw [Module.stopNaming_th, if_neg hj, before.th j (by simpa using hj)]
  · have record := m.stopNaming_recorded (ThreadId.key th) ((s.thread th).trapIp cause) (s.thread th).ip (0x10 + cause)
      (tval.toNat % 2 ^ 48) v 0 hk (by rw [thread]; exact hn) ((before.ctxLive (by rw [thread]; exact hn)).trans (by rw [thread]; exact hl))
    rw [thread] at record
    exact Recorded.beside hn before record (Beside.refl [] _)

/-- A thread that a handled trap has entered its handler with (04 R101). -/
def Thread.entered (t : Thread) (cause : Nat) (tval : Word) : Thread :=
  { t with tepc := (t.trapIp cause).setWidth 48, tcause := BitVec.ofNat 8 cause, tval := tval, inTrap := true, ip := t.tvec }

theorem State.trapWith_enters (s : State) (th : ThreadId) (cause : Nat) (tval : Word) (wide : Bool) (v : Nat)
    (h : (s.thread th).inTrap = false) (ht : (s.thread th).tvec ≠ 0) :
    let m := (s.issuing th).trapWith (ThreadId.key th) cause tval wide v
    m.th (ThreadId.key th) = (s.thread th).entered cause tval ∧ SameBut s.m m (ThreadId.key th) := by
  dsimp only
  rw [Module.trapWith_handled _ _ _ _ _ _ ⟨h, ht⟩]
  exact ⟨Module.th_setTh_self _ _ _,
    (s.issuing_same th).trans ((Module.issuedOn_same _ _ _).trans (SameBut.setTh _ _ _))⟩

/-- The effect of an instruction is a trap of its thread. -/
def Traps (i : Instr) (s : State) (th : ThreadId) (cause : Nat) (tval : Word) (wide : Bool) (v : Nat) : Prop :=
  exec i s = .next { s with m := (s.issuing th).trapWith (ThreadId.key th) cause tval wide v }

section
variable {s : State} {th : ThreadId} {i : Instr} {cause v : Nat} {tval : Word} {wide : Bool}

theorem State.traps_enters (he : Traps i s th cause tval wide v)
    (h : (s.thread th).inTrap = false) (ht : (s.thread th).tvec ≠ 0) : Leaves i s th ((s.thread th).entered cause tval) :=
  Completes.of_exec he (s.trapWith_enters th cause tval wide v h ht)

theorem State.traps_stops (he : Traps i s th cause tval wide v)
    (h : (s.thread th).inTrap = true ∨ (s.thread th).tvec = 0) : Completes i s (Unhandled s th cause tval.toNat v) :=
  Completes.of_exec he (s.trapWith_stops th cause tval wide v h)

end

/-- An unhandled trap of another cause than SOFTWARE stops the thread before its instruction. -/
theorem Stops.of_unhandled {s : State} {th : ThreadId} {i : Instr} {cause v elem : Nat} (h : Completes i s (Unhandled s th cause v elem))
    (hc : cause ≠ causeSoftware) : Stops i s th (s.thread th) (0x10 + cause) (v % 2 ^ 48) elem 0 := by
  unfold Stops
  refine h.mono fun m hm => ?_
  rw [Unhandled, Thread.trapIp, if_neg hc] at hm
  exact hm

/-! ### A jump -/

/-- A thread that continues at `ip`, its instruction retired. -/
def State.goTo (s : State) (t : Thread) (ip : Word) : Thread := { t with ip := ip, retiredAt := s.m.pilot }

theorem Module.jump_same (m : Module) (k : Nat) (ip : Word) : SameBut m (m.jump k ip) k :=
  (m.retire_same k false).trans (SameBut.setTh _ _ _)

theorem Module.jump_th (m : Module) (k : Nat) (ip : Word) : (m.jump k ip).th k = { m.th k with ip := ip, retiredAt := m.pilot } := by
  rw [Module.jump, Module.th_setTh_self, Module.retire_th]

theorem State.jumps {s : State} {r : Row} {th : ThreadId} {w : Word} {body : Module → Nat → Module} {i : Instr} {t : Thread} {ip : Word}
    (he : exec i s = s.inst r th w body) (h : s.issues r th w = true)
    (hb : body (s.issuing th) (ThreadId.key th) = ((s.issuing th).setTh (ThreadId.key th) t).jump (ThreadId.key th) ip) :
    Leaves i s th (s.goTo t ip) := by
  refine State.leaves s r th w body i _ he h ?_ ?_
  · rw [hb]
    exact (SameBut.setTh _ _ _).trans (Module.jump_same _ _ _)
  · rw [hb, Module.jump_th, Module.th_setTh_self]
    exact congrArg (fun x => ({ t with ip := ip, retiredAt := x } : Thread)) (s.issuing_pilot th)

/-- The module that writes a thread as it stands is the module. -/
theorem State.jumps_plain {s : State} {r : Row} {th : ThreadId} {w : Word} {body : Module → Nat → Module} {i : Instr} {ip : Word}
    (he : exec i s = s.inst r th w body) (h : s.issues r th w = true)
    (hb : body (s.issuing th) (ThreadId.key th) = (s.issuing th).jump (ThreadId.key th) ip) : Leaves i s th (s.goTo (s.thread th) ip) := by
  refine State.leaves s r th w body i _ he h (hb ▸ Module.jump_same _ _ _) ?_
  rw [hb, Module.jump_th, s.issuing_pilot]
  rfl

/-! ### A thread whose IP is not canonical (02 R32) -/

theorem Module.walkHeld_noncanonical (m : Module) (k va : Nat) (h : 2 ^ 48 ≤ va) : m.walkHeld k va = false := by
  rw [Module.walkHeld, decide_eq_false (by simp only [windowBase]; omega), Bool.false_and, Bool.false_and]

theorem fetchFault_noncanonical (m : Module) (k : Nat) (hr : (m.th k).run = .running) (hp : m.getF Reg.PWR_STATE.state = 0)
    (h : 2 ^ 48 ≤ (m.th k).ip.toNat) : fetchFault k m = m.faultStop k cNonCanonical (m.th k).ip.toNat 0 := by
  have runs : ((m.th k).run != .running || (keyKind k == 0 && m.getF Reg.PWR_STATE.state != 0) || m.walkHeld k (m.th k).ip.toNat) = false := by
    rw [hr, hp, m.walkHeld_noncanonical k _ h]
    simp
  rw [fetchFault, if_neg (by rw [runs]; decide), show m.thXlat k (m.th k).ip.toNat .fetch = (m, .fault cNonCanonical) from if_pos h]

theorem State.fetch_stops (s : State) (th : ThreadId) (hr : (s.m.th (ThreadId.key th)).run = .running)
    (hp : s.m.getF Reg.PWR_STATE.state = 0) (h : 2 ^ 48 ≤ (s.m.th (ThreadId.key th)).ip.toNat) :
    Stops (.fetchFault th) s th (s.m.th (ThreadId.key th)) cNonCanonical (s.m.th (ThreadId.key th)).ip.toNat 0 0 := by
  have he : exec (.fetchFault th) s = .next { s with m := fetchFault (ThreadId.key th) s.m.fresh } := rfl
  rw [fetchFault_noncanonical s.m.fresh (ThreadId.key th) hr hp h] at he
  unfold Stops
  refine Completes.of_exec he ⟨?_, fun j hj => ?_, fun hk hn hl => ?_⟩
  · rw [Module.faultStop, Module.stopAt_th, if_pos rfl]; rfl
  · rw [Module.faultStop, Module.stopAt_th, if_neg hj]; rfl
  · exact Recorded.beside hn (Beside.fresh [] s.m)
      (s.m.fresh.stopAt_recorded (ThreadId.key th) (s.m.th (ThreadId.key th)).ip cNonCanonical _ 0 0 hk hn hl) (Beside.refl [] _)

/-! ### O12 -/

theorem State.jalr_misaligned {s : State} {th : ThreadId} {w : Word} (hi : s.issues .jalr th w = true)
    (ha : ((s.thread th).getS (Word.ra w) + imm28 w).toNat % 8 ≠ 0) :
    Traps (.jalr th w) s th causeAlign ((s.thread th).getS (Word.ra w) + imm28 w) false 0 := by
  unfold Traps
  refine (State.inst_issues s .jalr th w (jalrBody w) hi).trans ?_
  rw [jalrBody, if_pos (by simpa [State.thread] using ha)]
  rfl

/-- Settles O12: a branch and a jump go on at their target, and a jalr target that is misaligned traps. -/
theorem branchesAndJumpsTakeTheirTarget : Obligations.BranchesAndJumpsTakeTheirTarget := by
  unfold Obligations.BranchesAndJumpsTakeTheirTarget
  intro s th w
  dsimp only
  refine ⟨fun hi => ?_, fun hi => State.jumps rfl hi rfl, fun hi ha => State.jumps rfl hi ?_, fun hi ha hr ht => ?_, fun hi ha h => ?_,
    s.fetch_stops th⟩
  · exact ⟨intCond (Word.minor w) ((s.thread th).getS (Word.ra w)) ((s.thread th).getS (Word.rb w)),
      State.jumps_plain rfl hi rfl, intCond_iff _ _ _⟩
  · exact if_neg (by simpa [State.thread] using ha)
  · exact State.traps_enters (State.jalr_misaligned hi ha) hr ht
  · have stopped := Stops.of_unhandled (State.traps_stops (State.jalr_misaligned hi ha) h) (by decide)
    exact stopped

/-! ### O14 -/

/-- The words of tret are of a scalar class. -/
theorem tret_scalar {w : Word} (h : classify w = some .tret) : majorWide (Word.major w) = false ∧ majorV (Word.major w) = false := by
  have major : Word.major w = 0x0A := by simpa [Row.majors] using classify_major w h
  rw [major]
  exact ⟨rfl, rfl⟩

theorem State.tret_outside {s : State} {th : ThreadId} {w : Word} (hi : s.issues .tret th w = true) (h : (s.thread th).inTrap = false) :
    Traps (.tret th w) s th causeIllegal w false 0 := by
  have outside : (!((s.issuing th).th (ThreadId.key th)).inTrap) = true := by simpa [State.thread] using h
  obtain ⟨narrow, scalar⟩ := tret_scalar (State.issues_row hi)
  unfold Traps
  refine (State.inst_issues s .tret th w (tretBody w) hi).trans ?_
  rw [tretBody, if_pos outside, Module.trapWord, narrow, scalar]
  rfl

theorem State.tret_misaligned {s : State} {th : ThreadId} {w : Word} (hi : s.issues .tret th w = true) (h : (s.thread th).inTrap = true)
    (ha : (s.thread th).tepc.toNat % 8 ≠ 0) :
    Traps (.tret th w) s th causeAlign ((s.thread th).tepc.setWidth 64) false 0 := by
  unfold Traps
  refine (State.inst_issues s .tret th w (tretBody w) hi).trans ?_
  rw [tretBody, if_neg (by simpa [State.thread] using h), if_pos (by simpa [State.thread] using ha)]
  rfl

theorem State.tret_returns {s : State} {th : ThreadId} {w : Word} (hi : s.issues .tret th w = true) (h : (s.thread th).inTrap = true)
    (ha : (s.thread th).tepc.toNat % 8 = 0) :
    Leaves (.tret th w) s th { s.goTo (s.thread th) ((s.thread th).tepc.setWidth 64) with inTrap := false } := by
  have returned : tretBody w (s.issuing th) (ThreadId.key th) =
      ((s.issuing th).jump (ThreadId.key th) ((s.thread th).tepc.setWidth 64)).setTh (ThreadId.key th)
        { ((s.issuing th).jump (ThreadId.key th) ((s.thread th).tepc.setWidth 64)).th (ThreadId.key th) with inTrap := false } := by
    rw [tretBody, if_neg (by simpa [State.thread] using h), if_neg (by simpa [State.thread] using ha)]
    rfl
  refine State.leaves s .tret th w (tretBody w) _ _ rfl hi ?_ ?_
  · rw [returned]
    exact (Module.jump_same _ _ _).trans (SameBut.setTh _ _ _)
  · rw [returned, Module.th_setTh_self, Module.jump_th, s.issuing_pilot]
    rfl

/-- Settles O14: tret in a trap returns or is misaligned, and outside a trap it is illegal. -/
theorem tretReturnsFromTheTrap : Obligations.TretReturnsFromTheTrap := by
  unfold Obligations.TretReturnsFromTheTrap
  intro s th w hi
  refine ⟨State.tret_returns hi, fun h ht => State.traps_enters (State.tret_outside hi h) h ht, fun h ht => ?_, fun h ha => ?_⟩
  · have stopped := Stops.of_unhandled (State.traps_stops (State.tret_outside hi h) (.inr ht)) (by decide)
    exact stopped
  · have stopped := Stops.of_unhandled (State.traps_stops (State.tret_misaligned hi h ha) (.inl h)) (by decide)
    have address : ((s.thread th).tepc.setWidth 64).toNat % 2 ^ 48 = (s.thread th).tepc.toNat := by
      rw [BitVec.toNat_setWidth]
      omega
    rwa [address] at stopped

/-! ### O13 -/

/-- The thread runs, and its core is in W0. -/
def State.runs (s : State) (k : Nat) : Prop := (s.m.th k).run = .running ∧ (keyKind k = 0 → s.m.getF Reg.PWR_STATE.state = 0)

/-- The element that a record names for a word that traps: VIDX for a V-class word (02 Table 2-4). -/
def Thread.trapElem (t : Thread) (w : Word) : Nat := if majorV (Word.major w) then t.vidx.toNat else 0

theorem State.runs_open {s : State} {k : Nat} (h : s.runs k) :
    ((s.m.th k).run != .running || (keyKind k == 0 && s.m.getF Reg.PWR_STATE.state != 0)) = false := by
  obtain ⟨running, awake⟩ := h
  rw [running]
  by_cases hk : keyKind k = 0
  · simp [awake hk]
  · simp [hk]

theorem State.trap_traps {s : State} {th : ThreadId} {w : Word} (hi : s.issues .trap th w = true) :
    Traps (.trap th w) s th causeSoftware (BitVec.ofNat 64 (Word.mod28 w)) false 0 :=
  State.inst_issues s .trap th w (fun m k => m.trap k causeSoftware (BitVec.ofNat 64 (Word.mod28 w))) hi

theorem State.illegal_traps {s : State} {th : ThreadId} {w : Word} (hw : wordIllegal w = true) (hr : s.runs (ThreadId.key th)) :
    Traps (.illegalInstruction th w) s th causeIllegal w (majorWide (Word.major w)) ((s.thread th).trapElem w) := by
  rw [Traps, exec_illegalInstruction, State.run_ok _ _ _ hw]
  have runs := State.runs_open hr
  have body : illegalBody th w s.m.fresh = (s.issuing th).trapWord (ThreadId.key th) causeIllegal w :=
    if_neg (by rw [show s.m.fresh.th = s.m.th from rfl]; exact ne_true_of_eq_false runs)
  exact congrArg (fun m => Host.Outcome.next { s with m := m }) body

/-- An instruction of a class that the processor does not implement traps CLASS (04 R89). -/
theorem State.class_traps {s : State} {th : ThreadId} {w : Word} {r : Row} {body : Module → Nat → Module} {i : Instr}
    (he : exec i s = s.inst r th w body) (hw : wordIs r w = true) (hr : s.runs (ThreadId.key th)) (hb : (s.thread th).blockedBy w = false)
    (hc : classOk (keyKind (ThreadId.key th)) (Word.major w) = false) :
    Traps i s th causeClass w (majorWide (Word.major w)) ((s.thread th).trapElem w) := by
  rw [Traps, he, State.inst, State.run_ok _ _ _ hw]
  have runs := State.runs_open hr
  have issue : s.m.fresh.issue th w body = (s.issuing th).trapWord (ThreadId.key th) causeClass w := by
    rw [Module.issue]
    dsimp only
    rw [if_neg (by rw [show s.m.fresh.th = s.m.th from rfl]; exact ne_true_of_eq_false runs),
      if_neg (by rw [show (s.m.fresh.settle (ThreadId.key th)).th (ThreadId.key th) = s.thread th from rfl, hb]; decide),
      if_pos (by rw [hc]; rfl)]
    rfl
  exact congrArg (fun m => Host.Outcome.next { s with m := m }) issue

/-- Only the compute core and the update core have the V class (01 Table 1-6). -/
theorem vint_classOk {kind : Nat} {w : Word} (hw : wordIs .vintOp w = true) (hk : 2 ≤ kind) : classOk kind (Word.major w) = false := by
  have row : classify w = some .vintOp := by simpa [wordIs] using hw
  have major : Word.major w = 0x10 := by simpa [Row.majors] using classify_major w row
  rw [major]
  match kind, hk with
  | 2, _ | 3, _ | 4, _ => rfl
  | _ + 5, _ => rfl

theorem State.vint_traps {s : State} {th : ThreadId} {w : Word} (hw : wordIs .vintOp w = true) (hr : s.runs (ThreadId.key th))
    (hb : (s.thread th).blockedBy w = false) (hk : 2 ≤ keyKind (ThreadId.key th)) :
    Traps (.vintOp th w) s th causeClass w (majorWide (Word.major w)) ((s.thread th).trapElem w) :=
  State.class_traps rfl hw hr hb (vint_classOk hw hk)

/-- Settles O13: each of the three traps enters the handler or stops the thread with its record. -/
theorem trapsEnterTheHandlerOrStopTheThread : Obligations.TrapsEnterTheHandlerOrStopTheThread := by
  unfold Obligations.TrapsEnterTheHandlerOrStopTheThread
  intro s th w
  refine ⟨fun h ht => ⟨fun hi => State.traps_enters (State.trap_traps hi) h ht,
    fun hw hr => State.traps_enters (State.illegal_traps hw hr) h ht,
    fun hw hr hb hk => State.traps_enters (State.vint_traps hw hr hb hk) h ht⟩, fun h hk hn hl => ?_⟩
  have recorded : ∀ {i cause v elem}, Completes i s (Unhandled s th cause v elem) → Completes i s (fun m =>
      m.th (ThreadId.key th) = { s.thread th with run := .stopped, ip := (s.thread th).trapIp cause } ∧
      (∀ j, j ≠ ThreadId.key th → m.th j = s.m.th j) ∧
      Recorded s.m m (s.thread th).ctx (mkRecord (v % 2 ^ 48) (0x10 + cause) (s.thread th).ctx (keyCore (ThreadId.key th))
        (keyThread (ThreadId.key th)) elem (s.thread th).ip.toNat 0)) :=
    fun done => done.mono fun m ⟨stopped, others, record⟩ => ⟨stopped, others, record hk hn hl⟩
  refine ⟨fun hi => ?_, fun hw hr => recorded (State.traps_stops (State.illegal_traps hw hr) h),
    fun hw hr hb hk => recorded (State.traps_stops (State.vint_traps hw hr hb hk) h)⟩
  have software := recorded (State.traps_stops (State.trap_traps hi) h)
  have value : (BitVec.ofNat 64 (Word.mod28 w)).toNat = Word.mod28 w := by
    rw [BitVec.toNat_ofNat, Nat.mod_eq_of_lt]
    exact lt_of_lt_of_le (Nat.mod_lt _ (by decide)) (by decide : 2 ^ 28 ≤ 2 ^ 64)
  rwa [value] at software

end Sys2Proof.Machine
end

section
/-! PROOFS of the encoding family (04_agquin_encoding_and_scalar_core), sixth part: O15, the status registers. -/

namespace Sys2Proof.Machine

/-! ### The status registers (04 Table 4-8) -/

/-- TVEC keeps bits 47 to 3 (04 Table 4-8). -/
theorem tvec_mask (v : Word) : BitVec.ofNat 64 (v.toNat % 2 ^ 48 / 8 * 8) = v &&& 0x0000FFFFFFFFFFF8 := by
  apply BitVec.eq_of_toNat_eq
  have small : v.toNat % 2 ^ 48 / 8 * 8 < 2 ^ 64 := by omega
  rw [BitVec.toNat_ofNat, Nat.mod_eq_of_lt small, BitVec.toNat_and, show BitVec.toNat (0x0000FFFFFFFFFFF8 : Word) = (2 ^ 45 - 1) * 2 ^ 3 from rfl,
    show (8 : Nat) = 2 ^ 3 from rfl]
  apply Nat.eq_of_testBit_eq
  intro i
  simp only [Nat.testBit_and, Nat.testBit_mul_two_pow, Nat.testBit_div_two_pow, Nat.testBit_mod_two_pow, Nat.testBit_two_pow_sub_one]
  by_cases low : 3 ≤ i
  · rw [Nat.sub_add_cancel low, decide_eq_decide.mpr (show i - 3 < 45 ↔ i < 48 by omega)]
    ac_rfl
  · simp [low]

theorem fsr_mode (v : Word) : BitVec.ofNat 3 (v.toNat / 256 % 8) = v.extractLsb' 8 3 := by
  apply BitVec.eq_of_toNat_eq
  rw [BitVec.extractLsb'_toNat, BitVec.toNat_ofNat, Nat.shiftRight_eq_div_pow, Nat.mod_mod_of_dvd _ (by decide)]

theorem fsr_reserved (v : Word) : v.toNat / 256 % 8 = 7 ↔ v.extractLsb' 8 3 = 7 := by
  rw [← fsr_mode, BitVec.toNat_eq, BitVec.toNat_ofNat, Nat.mod_mod]
  rfl

theorem low_bit (v : Word) : (v.toNat % 2 == 1) = v.getLsbD 0 := by
  rw [BitVec.getLsbD, Nat.testBit_zero]
  rfl

/-- A status register as the thread reads it, number by number. -/
theorem Module.readSr_eq (m : Module) (k num : Nat) : m.readSr k num =
    (let t := m.th k
     if num = 0x000 then BitVec.ofNat 64 (t.frm.toNat * 256 + t.flags.toNat) else if num = 0x001 then t.srctr
      else if num = 0x002 then t.vidx.setWidth 64 else if num = 0x008 then t.tvec else if num = 0x009 then t.tepc.setWidth 64
      else if num = 0x00A then t.tcause.setWidth 64 else if num = 0x00B then t.tval
      else if num = 0x00C then (if t.inTrap then 1 else 0)
      else if num = 0x010 then BitVec.ofNat 64 (keyKind k * 2 ^ 20 + t.ctx % 64 * 2 ^ 14 + keyCore k * 8 + keyThread k)
      else if num = 0x011 then BitVec.ofNat 64 m.pilot else 0) := by
  unfold Module.readSr
  split
  case h_11 => simp_all only [if_false, imp_false]
  all_goals rfl

/-- The thread after a write to a status register, number by number. -/
theorem Thread.writeSr_eq (t : Thread) (num : Nat) (v : Word) : t.writeSr num v =
    (if num = 0x000 then { t with flags := v.setWidth 7, frm := if v.extractLsb' 8 3 = 7 then t.frm else v.extractLsb' 8 3 }
      else if num = 0x001 then { t with srctr := v } else if num = 0x002 then { t with vidx := v.setWidth 8 }
      else if num = 0x008 then { t with tvec := v &&& 0x0000FFFFFFFFFFF8 } else if num = 0x009 then { t with tepc := v.setWidth 48 }
      else if num = 0x00A then { t with tcause := v.setWidth 8 } else if num = 0x00B then { t with tval := v }
      else if num = 0x00C then { t with inTrap := v.getLsbD 0 } else t) := by
  simp only [Thread.writeSr, tvec_mask, fsr_reserved, fsr_mode, low_bit, BitVec.ofNat_toNat]
  split
  case h_9 => simp_all only [if_false, imp_false]
  all_goals rfl

/-! ### O15 -/

theorem Module.afterVec_settled {m : Module} {k : Nat} (h : m.vecPending k = false) (body : Module → Module) : m.afterVec k body = body m :=
  if_neg (by rw [h]; decide)

theorem Module.afterVec_pending {m : Module} {k : Nat} (h : m.vecPending k = true) (body : Module → Module) : m.afterVec k body = m :=
  if_pos h

section
variable {s : State} {th : ThreadId} {w : Word} {r : Row} {i : Instr} {body : Module → Nat → Module}

/-- While a vector access is open, a status register instruction only delivers what has been performed (04 R99). -/
theorem State.waits_for_vector (he : exec i s = s.inst r th w (fun m k => m.afterVec k (fun m => body m k))) (hw : wordIs r w = true)
    (hc : s.canIssue th w = true) (h : (s.issuing th).vecPending (ThreadId.key th) = true) : Completes i s (fun m => m = s.issuing th) :=
  Completes.of_exec (he.trans (State.inst_issues s r th w _ (by rw [State.issues, hw, hc]; rfl))) (Module.afterVec_pending h _)

theorem State.retires_settled {t : Thread} (he : exec i s = s.inst r th w (fun m k => m.afterVec k (fun m => body m k)))
    (h : (s.issuing th).vecPending (ThreadId.key th) = false) (hi : s.issues r th w = true)
    (hb : body (s.issuing th) (ThreadId.key th) = ((s.issuing th).setTh (ThreadId.key th) t).retire (ThreadId.key th) false) :
    Retires i s th t := s.retires r th w _ i t false he hi ((Module.afterVec_settled h _).trans hb)

end

/-- What sset and sclr leave of the thread that runs them. -/
theorem State.modifies {s : State} {th : ThreadId} {w : Word} {r : Row} {i : Instr} (f : Word → Word → Word)
    (he : exec i s = s.inst r th w (srModify w f)) (h : (s.issuing th).vecPending (ThreadId.key th) = false) (hi : s.issues r th w = true) :
    Retires i s th (((s.thread th).writeSr (srNum w) (f ((s.issuing th).readSr (ThreadId.key th) (srNum w)) ((s.thread th).getS (Word.ra w)))).setS
      (Word.rd w) ((s.issuing th).readSr (ThreadId.key th) (srNum w))) :=
  State.retires_settled he h hi rfl

/-- Settles O15, register by register. -/
theorem statusRegisterInstructions : Obligations.StatusRegisterInstructions := by
  unfold Obligations.StatusRegisterInstructions
  intro s th w
  have read := (s.issuing th).readSr_eq (ThreadId.key th) (srNum w)
  rw [s.issuing_pilot] at read
  refine ⟨fun i hi hw hc h => ?_, fun h hi => ?_, fun h hi => ?_, fun h hi => ?_, fun h hi => ?_⟩
  · simp only [List.mem_cons, List.not_mem_nil, or_false] at hi
    rcases hi with rfl | rfl | rfl | rfl <;> exact State.waits_for_vector rfl hw hc h
  · exact State.retires_settled rfl h hi (congrArg _ read)
  · have done : Retires (.swr th w) s th ((s.thread th).writeSr (srNum w) ((s.thread th).getS (Word.ra w))) :=
      State.retires_settled rfl h hi rfl
    rw [Thread.writeSr_eq] at done
    exact done
  · have done := State.modifies (i := .sset th w) (fun old a => old ||| a) rfl h hi
    rw [read, Thread.writeSr_eq] at done
    exact done
  · have done := State.modifies (i := .sclr th w) (fun old a => old &&& ~~~a) rfl h hi
    rw [read, Thread.writeSr_eq] at done
    exact done

end Sys2Proof.Machine
end

section
/-! PROOFS of the encoding family (04_agquin_encoding_and_scalar_core), seventh part: O16, thread control and the end of a thread. -/

namespace Sys2Proof.Machine

/-! ### What leaves every thread and every grid as it is -/

/-- Every thread and the list of grids are the same in two modules. -/
structure SameThreads (m m' : Module) : Prop where
  th : ∀ j, m'.th j = m.th j
  grids : m'.grids = m.grids

theorem SameThreads.refl (m : Module) : SameThreads m m := ⟨fun _ => rfl, rfl⟩

theorem SameThreads.trans {a b c : Module} (h : SameThreads a b) (g : SameThreads b c) : SameThreads a c :=
  ⟨fun j => (g.th j).trans (h.th j), g.grids.trans h.grids⟩

theorem SameThreads.ite {m a b : Module} (c : Prop) [Decidable c] (ha : SameThreads m a) (hb : SameThreads m b) :
    SameThreads m (if c then a else b) := by
  split
  · exact ha
  · exact hb

theorem SameThreads.each {α : Type} (l : List α) (f : Module → α → Module) (h : ∀ m a, SameThreads m (f m a)) (m : Module) :
    SameThreads m (m.each l f) :=
  Module.each_keeps (fun x => SameThreads m x) l f (fun x a _ hx => hx.trans (h x a)) m (SameThreads.refl m)

theorem Elsewhere.sameThreads {m m' : Module} (h : Elsewhere [] m m') : SameThreads m m' := ⟨fun j => h.th j List.not_mem_nil, h.grids⟩

theorem Beside.sameThreads {m m' : Module} (h : Beside [] m m') : SameThreads m m' := h.toElsewhere.sameThreads

theorem Module.violate_sameThreads (m : Module) (n unit addr : Nat) : SameThreads m (m.violate n unit addr) := ⟨fun _ => rfl, rfl⟩

theorem Module.again_sameThreads (m : Module) : SameThreads m m.again := ⟨fun _ => rfl, rfl⟩

theorem Module.setMs_sameThreads (m : Module) (x : MemSys) : SameThreads m (m.setMs x) := ⟨fun _ => rfl, rfl⟩

theorem Module.setHmp_sameThreads (m : Module) (x : Hmp) : SameThreads m (m.setHmp x) := ⟨fun _ => rfl, rfl⟩

theorem Module.putPieces_elsewhere (m : Module) (w : Who) (l : List (Place × Nat × Nat)) : Elsewhere [] m (m.putPieces w l) := by
  rw [Module.putPieces_eq]
  generalize coverOf (l.map (fun x => (x.1, x.2.1))) = c
  have steps : ∀ r : Module × List Nat, Elsewhere [] r.1 (l.foldl (putStep w c) r).1 := by
    induction l with
    | nil => exact fun r => Elsewhere.refl [] _
    | cons x l ih =>
      intro r
      rw [List.foldl_cons]
      exact Elsewhere.trans (b := (putStep w c r x).1) (Module.putPiece_stored _ _ _ _ _ _ _).2 (ih _)
  exact steps (m, [])

theorem Module.engPut_sameThreads (m : Module) (w : Who) (l : List (Nat × Nat × Nat)) : SameThreads m (m.engPut w l) := by
  unfold Module.engPut
  have walked := (m.lookWalks_beside w (l.map (fun q => q.1))).sameThreads
  refine SameThreads.trans ?_ (SameThreads.each _ _ (fun x _ => x.violate_sameThreads _ _ _) _)
  split
  · exact walked.trans (Module.again_sameThreads _)
  · exact walked.trans (Module.putPieces_elsewhere _ _ _).sameThreads

theorem Module.setF_sameThreads (m : Module) (f : Fld) (v : Nat) : SameThreads m (m.setF f v) := ⟨fun _ => rfl, rfl⟩

theorem Module.putRecord_sameThreads (m : Module) (n : Nat) (r : FaultRec) : SameThreads m (m.putRecord n r) := by
  rw [Module.putRecord_eq]
  have wrote := (Elsewhere.writeRecord m (m.recordAt n) r).trans
    (Module.touch_beside (m.writeRecord (m.recordAt n) r) { ctx := n, master := 6, lc := false } (.host (m.recordAt n)) 32 true).toElsewhere
  exact (wrote.sameThreads.trans (Module.setF_sameThreads _ _ _)).trans (Module.raise_quiet _ _).beside.sameThreads

theorem Module.faultRecord_sameThreads (m : Module) (n : Nat) (r : FaultRec) : SameThreads m (m.faultRecord n r) := by
  unfold Module.faultRecord
  exact SameThreads.ite _ (.refl m) (.ite _ ⟨fun _ => rfl, rfl⟩ (m.putRecord_sameThreads n r))

theorem Module.completeAs_sameThreads (m : Module) (tag ctx va status kind count parts : Nat) :
    SameThreads m (m.completeAs tag ctx va status kind count parts) := by
  unfold Module.completeAs
  refine SameThreads.ite _ (.refl m) ?_
  split
  · exact Module.setMs_sameThreads _ _
  · have asked : SameThreads m (if va < windowBase then
        m.askPieces (engWho ctx (recordMaster kind) false) ((m.walkPlaces ctx va).map (fun p => (p, 8))) else m) :=
      SameThreads.ite _ (Module.askPieces_beside m _ _).sameThreads (.refl m)
    dsimp only
    split
    · exact asked.trans (Module.faultRecord_sameThreads _ _ _)
    · exact asked.trans (Module.violate_sameThreads _ _ _ _)
    · exact asked.trans ((Module.putPieces_elsewhere _ _ _).sameThreads.trans (Module.progress_beside _ _).sameThreads)

theorem Module.leaseSettle_sameThreads (m : Module) (g : Nat) : SameThreads m (m.leaseSettle g) := by
  unfold Module.leaseSettle
  exact SameThreads.ite _ ((m.setF_sameThreads _ _).trans (Module.raise_quiet _ _).beside.sameThreads) (.refl m)

theorem Module.streamOut_sameThreads (m : Module) (ctx va n : Nat) (vs : List Nat) : SameThreads m (m.streamOut ctx va n vs) :=
  Module.engPut_sameThreads _ _ _

theorem Module.writeBack_sameThreads (m : Module) (u : Upd) (r : ChunkRun) : SameThreads m (m.writeBack u r) := by
  unfold Module.writeBack
  refine SameThreads.trans (SameThreads.ite _ (SameThreads.trans ?_ (Module.setHmp_sameThreads _ _)) ?_) (Module.setHmp_sameThreads _ _)
  all_goals exact ((m.streamOut_sameThreads _ _ _ _).trans
    (SameThreads.each _ _ (fun x _ => x.streamOut_sameThreads _ _ _ _) _)).trans (Module.streamOut_sameThreads _ _ _ _ _)

theorem Module.chunkDone_sameThreads (m : Module) (u c : Nat) : SameThreads m (m.chunkDone u c) := by
  unfold Module.chunkDone
  split
  · exact .refl m
  · refine SameThreads.trans ?_ (Module.setHmp_sameThreads _ _)
    split
    · exact .ite _ (m.writeBack_sameThreads _ _) (.refl m)
    · exact .refl m

/-! ### nop, yield and pause -/

/-- An instruction that only retires. -/
theorem State.retires_plain {s : State} {r : Row} {th : ThreadId} {w : Word} {body : Module → Nat → Module} {i : Instr}
    (he : exec i s = s.inst r th w body) (h : s.issues r th w = true)
    (hb : body (s.issuing th) (ThreadId.key th) = (s.issuing th).retire (ThreadId.key th) false) : Retires i s th (s.thread th) := by
  refine State.leaves s r th w body i _ he h (hb ▸ Module.retire_same _ _ _) ?_
  rw [hb, Module.retire_th, s.issuing_pilot]
  rfl

theorem State.issuing_ctxs (s : State) (th : ThreadId) : (s.issuing th).ctxs = s.m.ctxs := by
  unfold State.issuing Module.settle
  dsimp only
  split <;> rfl

/-- Advancing is no progress of the context (04 R104, 16 R399). -/
theorem Module.advance_ctxs (m : Module) (k : Nat) (wide : Bool) : (m.advance k wide).ctxs = m.ctxs :=
  (Module.countPart_quiet _ k (if wide then 3 else 2) 1 (keyCore_lt k)).only .ctxs (by decide)

theorem yieldBody_same (m : Module) (k : Nat) : SameBut m (yieldBody m k) k :=
  (m.advance_same k false).trans (SameBut.clock _ k _ rfl)

theorem yieldBody_th (m : Module) (k : Nat) : (yieldBody m k).th k = { m.th k with ip := (m.th k).ip + 8, retiredAt := m.pilot } :=
  m.advance_th k false

theorem State.yields {s : State} {th : ThreadId} {w : Word} (h : s.issues .yield th w = true) :
    Retires (.yield th w) s th (s.thread th) ∧ Completes (.yield th w) s (fun m => m.ctxs = s.m.ctxs) := by
  refine ⟨State.leaves s .yield th w (fun m k => yieldBody m k) _ _ rfl h (yieldBody_same _ _) ?_,
    Completes.of_exec (State.inst_issues s .yield th w (fun m k => yieldBody m k) h) ?_⟩
  · rw [yieldBody_th, s.issuing_pilot]
    rfl
  · exact ((s.issuing th).advance_ctxs _ false).trans (s.issuing_ctxs th)

theorem pauseBody_same (m : Module) (k : Nat) : SameBut m (pauseBody m k) k := (m.advance_same k false).trans (SameBut.setTh _ _ _)

theorem pauseBody_th (m : Module) (k : Nat) :
    (pauseBody m k).th k = { m.th k with ip := (m.th k).ip + 8, retiredAt := m.pilot, run := .paused } := by
  rw [pauseBody, Module.th_setTh_self, Module.advance_th]

theorem State.pauses {s : State} {th : ThreadId} {w : Word} (h : s.issues .pause th w = true) :
    Leaves (.pause th w) s th { s.thread th with ip := (s.thread th).ip + 8, retiredAt := s.m.pilot, run := .paused } ∧
      Completes (.pause th w) s (fun m => m.ctxs = s.m.ctxs) := by
  refine ⟨State.leaves s .pause th w (fun m k => pauseBody m k) _ _ rfl h (pauseBody_same _ _) ?_,
    Completes.of_exec (State.inst_issues s .pause th w (fun m k => pauseBody m k) h) ?_⟩
  · rw [pauseBody_th, s.issuing_pilot]
    rfl
  · exact ((s.issuing th).advance_ctxs _ false).trans (s.issuing_ctxs th)

theorem Only.setTh (m : Module) (k : Nat) (t : Thread) : Only [.threads] m (m.setTh k t) := by
  intro p hp
  cases p with
  | threads => exact absurd List.mem_cons_self hp
  | grids => exact ⟨rfl, rfl⟩
  | transfers => exact ⟨rfl, rfl⟩
  | _ => exact rfl

theorem Only.fresh (ps : List Part) (m : Module) : Only ps m m.fresh := by
  intro p _
  cases p with
  | grids => exact ⟨rfl, rfl⟩
  | transfers => exact ⟨rfl, rfl⟩
  | _ => exact rfl

theorem State.pause_ends {s : State} {th : ThreadId} (h : (s.m.th (ThreadId.key th)).run = .paused) :
    Does (.pauseEnd th) s [.threads] (fun m => m.th (ThreadId.key th) = { s.m.th (ThreadId.key th) with run := .running } ∧
      ∀ j, j ≠ ThreadId.key th → m.th j = s.m.th j) := by
  have runs : exec (.pauseEnd th) s =
      .next { s with m := s.m.fresh.setTh (ThreadId.key th) { s.m.th (ThreadId.key th) with run := .running } } :=
    congrArg (fun m => (Host.Outcome.next { s with m := m } : Host.Outcome State Fault Refusal)) (if_pos h)
  refine Completes.of_exec runs ⟨⟨Module.th_setTh_self _ _ _, fun j hj => ?_⟩, (Only.fresh _ _).trans (Only.setTh _ _ _)⟩
  rw [Module.th_setTh, if_neg hj]
  rfl

/-! ### The end of a thread -/

/-- The slot `k` is free, and every other thread is as it was. -/
def Freed (m m' : Module) (k : Nat) : Prop := m'.th k = Thread.empty ∧ ∀ j, j ≠ k → m'.th j = m.th j

theorem Freed.then_same {a b c : Module} {k : Nat} (h : Freed a b k) (g : ∀ j, c.th j = b.th j) : Freed a c k :=
  ⟨(g k).trans h.1, fun j hj => (g j).trans (h.2 j hj)⟩

theorem Module.freeSlot_freed (m : Module) (k : Nat) : Freed m (m.freeSlot k) k :=
  ⟨Module.th_setTh_self _ _ _, fun j hj => by rw [Module.freeSlot, Module.th_setTh, if_neg hj]⟩

theorem Module.rests_sameThreads (m : Module) (k : Nat) : SameThreads m (m.rests k) :=
  SameThreads.ite _ (Quiet.pwr _ _).beside.sameThreads (.refl m)

/-- The grid of a list, once every entry of its id has been changed. -/
theorem Module.grid_modGrid {m : Module} {id : Nat} {g : Grid} (h : m.grid id = some g) (f : Grid → Grid) (hf : ∀ g, (f g).id = g.id) :
    (m.modGrid id f).grid id = some (f g) := by
  have same : ∀ x : Grid, ((if x.id = id then f x else x).id == id) = (x.id == id) := fun x => by
    split
    · rw [hf]
    · rfl
  have named : g.id = id := by simpa using List.find?_some h
  rw [Module.grid, Module.modGrid, List.find?_map]
  rw [Module.grid] at h
  rw [show ((fun g : Grid => g.id == id) ∘ fun g => if g.id = id then f g else g) = fun g => g.id == id from funext same, h]
  simp [named]

theorem Module.gridCheck_th (m : Module) (id j : Nat) : (m.gridCheck id).th j = m.th j := by
  unfold Module.gridCheck
  split
  · rfl
  · split
    · exact (Module.completeAs_sameThreads _ _ _ _ _ _ _ _).th j
    · rfl

/-- A grid with threads left stays. -/
theorem Module.gridCheck_live {m : Module} {id : Nat} {g : Grid} (h : m.grid id = some g) (hl : g.live ≠ 0) : m.gridCheck id = m := by
  simp only [Module.gridCheck, h, if_neg hl]

/-- A grid with no thread left is gone (02 R27). -/
theorem Module.gridCheck_over {m : Module} {id : Nat} {g : Grid} (h : m.grid id = some g) (hl : g.live = 0) : (m.gridCheck id).grid id = none := by
  simp only [Module.gridCheck, h, if_pos hl, Module.complete]
  rw [Module.grid, (Module.completeAs_sameThreads _ _ _ _ _ _ _ _).grids]
  simp

/-- The grid `id` of which a thread has ended: one live thread less, or gone with its last one. -/
def GridCounts (m m' : Module) (id : Nat) : Prop :=
  ∀ g, m.grid id = some g → (1 < g.live → m'.grid id = some { g with live := g.live - 1 }) ∧ (g.live = 1 → m'.grid id = none)

/-- One thread of the grid has ended. -/
def Grid.less (g : Grid) : Grid := { g with live := g.live - 1 }

theorem Module.gridLess_counts (m : Module) (id : Nat) : GridCounts m ((m.modGrid id Grid.less).gridCheck id) id := by
  intro g hg
  have now := Module.grid_modGrid hg Grid.less (fun _ => rfl)
  refine ⟨fun hl => ?_, fun hl => Module.gridCheck_over now (by rw [Grid.less, hl])⟩
  rw [Module.gridCheck_live now (Nat.sub_ne_zero_of_lt hl), now]
  rfl

/-- What the work of an ended thread counts of it: its grid, or its chunk. -/
def Module.workEnds (m : Module) (w : Work) : Module :=
  match w with
  | .grid id => (m.modGrid id Grid.less).gridCheck id
  | .chunk u c => m.chunkDone u c
  | _ => m

theorem Module.workEnds_th (m : Module) (w : Work) (j : Nat) : (m.workEnds w).th j = m.th j := by
  unfold Module.workEnds
  split
  · exact Module.gridCheck_th _ _ _
  · exact (m.chunkDone_sameThreads _ _).th j
  · rfl

/-- The module in which the slot of a thread is free and its work has counted its end. -/
def Module.slotEnds (m : Module) (k : Nat) : Module := ((m.freeSlot k).rests k).workEnds (m.th k).work

theorem Module.endThread_eq (m : Module) (k : Nat) :
    m.endThread k = if keyKind k = 0 then (m.slotEnds k).leaseSettle (keyCore k / 16) else m.slotEnds k := rfl

theorem Module.endThread_same (m : Module) (k : Nat) : SameThreads (m.slotEnds k) (m.endThread k) := by
  rw [Module.endThread_eq]
  exact SameThreads.ite _ (Module.leaseSettle_sameThreads _ _) (.refl _)

theorem Module.endThread_freed (m : Module) (k : Nat) : Freed m (m.endThread k) k :=
  (((m.freeSlot_freed k).then_same (Module.rests_sameThreads _ k).th).then_same (Module.workEnds_th _ _)).then_same (m.endThread_same k).th

theorem Module.endThread_grid (m : Module) (k : Nat) {id : Nat} (h : (m.th k).work = .grid id) : GridCounts m (m.endThread k) id := by
  have same : ((m.freeSlot k).rests k).grid id = m.grid id := by
    rw [Module.grid, (Module.rests_sameThreads _ k).grids]
    rfl
  have ended : (m.endThread k).grid id = ((((m.freeSlot k).rests k).modGrid id Grid.less).gridCheck id).grid id := by
    rw [Module.grid, (m.endThread_same k).grids, Module.slotEnds, h]
    rfl
  intro g hg
  rw [ended]
  exact Module.gridLess_counts _ id g (same.trans hg)

/-! ### halt -/

/-- What halt does once nothing earlier is open. -/
def haltBody (k : Nat) (m : Module) : Module := (m.retire k false).endThread k

/-- An update core's write-back may wait for a held channel. -/
def Module.halt (m : Module) (k : Nat) : Module := if keyKind k = 1 then m.whenOpen (haltBody k) else haltBody k m

theorem exec_halt {s : State} {th : ThreadId} {w : Word} (hi : s.issues .halt th w = true)
    (hd : (s.issuing th).drained (ThreadId.key th) = true) (hf : (s.thread th).deferred = []) :
    exec (.halt th w) s = .next { s with m := (s.issuing th).halt (ThreadId.key th) } := by
  refine (State.inst_issues s .halt th w _ hi).trans ?_
  have hf : ((s.issuing th).th (ThreadId.key th)).deferred = [] := hf
  simp only [Module.afterDrain, hd, hf]
  rfl

/-- The thread's slot is free, no other thread differs, and its grid counts it. -/
def Halted (s : State) (th : ThreadId) (m : Module) : Prop :=
  m.th (ThreadId.key th) = Thread.empty ∧ (∀ j, j ≠ ThreadId.key th → m.th j = s.m.th j) ∧
    ∀ id g, (s.thread th).work = .grid id → s.m.grid id = some g →
      (1 < g.live → m.grid id = some { g with live := g.live - 1 }) ∧ (g.live = 1 → m.grid id = none)

/-- halt ends its thread, from either value of `retry`. -/
theorem State.halts (s : State) (th : ThreadId) (b : Bool) :
    Halted s th (haltBody (ThreadId.key th) { s.issuing th with retry := b }) := by
  have issuing : SameBut s.m { s.issuing th with retry := b } (ThreadId.key th) :=
    (s.issuing_same th).trans { SameBut.refl _ _ with pilot := rfl }
  have thread : ({ s.issuing th with retry := b } : Module).th (ThreadId.key th) = s.thread th := rfl
  generalize ({ s.issuing th with retry := b } : Module) = m at issuing thread
  have before := issuing.trans (m.retire_same (ThreadId.key th) false)
  have work : ((m.retire (ThreadId.key th) false).th (ThreadId.key th)).work = (s.thread th).work := by rw [Module.retire_th, thread]
  obtain ⟨free, others⟩ := (m.retire (ThreadId.key th) false).endThread_freed (ThreadId.key th)
  refine ⟨free, fun j hj => (others j hj).trans (before.threads j hj), fun id g hw hg => ?_⟩
  refine (m.retire (ThreadId.key th) false).endThread_grid (ThreadId.key th) (work.trans hw) g ?_
  rw [Module.grid, before.grids]
  exact hg

/-- Settles O16. -/
theorem threadControlInstructions : Obligations.ThreadControlInstructions := by
  unfold Obligations.ThreadControlInstructions
  intro s th w
  refine ⟨fun hi => State.retires_plain rfl hi rfl, State.yields, State.pauses, State.pause_ends, fun hi hd hf => ?_⟩
  refine Completes.of_exec (exec_halt hi hd hf) ?_
  unfold Module.halt
  split
  · next hk =>
    have holds : (s.issuing th).noHolds = s.m.noHolds := (s.issuing_beside th).noHolds
    rw [← holds]
    exact (Module.whenOpen_cases _ _ (Halted s th) (s.halts th)).imp_left fun again => ⟨hk, again⟩
  · exact .inr (s.halts th (s.issuing th).retry)

end Sys2Proof.Machine
end

section
/-! PROOFS of the encoding family (04_agquin_encoding_and_scalar_core), eighth part: the elements of a vector register, and the rule of an element-wise instruction. -/

namespace Sys2Proof.Machine

/-! ### The elements of a vector register (05 R107) -/

theorem vWidth_cases (ty : Nat) : vWidth ty = 8 ∨ vWidth ty = 16 ∨ vWidth ty = 32 ∨ vWidth ty = 64 := by
  unfold vWidth
  split <;> simp

theorem vWidth_pos (ty : Nat) : 0 < vWidth ty := by rcases vWidth_cases ty with h | h | h | h <;> omega

/-- The elements of a type fill a register. -/
theorem vWidth_count (ty : Nat) : vWidth ty * (2048 / vWidth ty) = 2048 := by rcases vWidth_cases ty with h | h | h | h <;> rw [h]

theorem testBit_velem (x : VReg) (w j b : Nat) : (velem x w j).testBit b = (decide (b < w) && x.toNat.testBit (w * j + b)) := by
  rw [velem, Nat.testBit_mod_two_pow, Nat.testBit_div_two_pow, Nat.add_comm b]

/-- A number in which the `w` bits above `p` have been replaced. -/
theorem testBit_replaced (x w p v b : Nat) :
    (x - x / 2 ^ p % 2 ^ w * 2 ^ p + v % 2 ^ w * 2 ^ p).testBit b =
      if p ≤ b ∧ b < p + w then v.testBit (b - p) else x.testBit b := by
  have split : x = 2 ^ p * (2 ^ w * (x / 2 ^ p / 2 ^ w) + x / 2 ^ p % 2 ^ w) + x % 2 ^ p := by
    rw [Nat.div_add_mod, Nat.div_add_mod]
  have low : x % 2 ^ p < 2 ^ p := Nat.mod_lt _ (Nat.two_pow_pos _)
  have old : x / 2 ^ p % 2 ^ w < 2 ^ w := Nat.mod_lt _ (Nat.two_pow_pos _)
  have new : v % 2 ^ w < 2 ^ w := Nat.mod_lt _ (Nat.two_pow_pos _)
  have joined : x - x / 2 ^ p % 2 ^ w * 2 ^ p + v % 2 ^ w * 2 ^ p = 2 ^ p * (2 ^ w * (x / 2 ^ p / 2 ^ w) + v % 2 ^ w) + x % 2 ^ p := by
    nth_rewrite 1 [split]
    rw [Nat.mul_add, Nat.mul_add, Nat.mul_comm (x / 2 ^ p % 2 ^ w), Nat.mul_comm (v % 2 ^ w)]
    omega
  rw [joined, Nat.testBit_two_pow_mul_add _ low, Nat.testBit_two_pow_mul_add _ new]
  simp only [Nat.testBit_div_two_pow, Nat.testBit_mod_two_pow]
  by_cases below : b < p
  · simp [below, Nat.not_le.mpr below]
  · by_cases inside : b - p < w
    · rw [if_neg below, if_pos inside, if_pos (by omega), decide_eq_true inside, Bool.true_and]
    · rw [if_neg below, if_neg inside, if_neg (by omega), show b - p - w + w + p = b by omega]

theorem replaced_lt {x w p v N : Nat} (hx : x < 2 ^ N) (h : p + w ≤ N) : x - x / 2 ^ p % 2 ^ w * 2 ^ p + v % 2 ^ w * 2 ^ p < 2 ^ N := by
  refine Nat.lt_pow_two_of_testBit _ fun b hb => ?_
  rw [testBit_replaced, if_neg (by omega)]
  exact Nat.testBit_lt_two_pow (lt_of_lt_of_le hx (Nat.pow_le_pow_right (by decide) hb))

/-- An element that lies in the register reads what has been put there; another element is as before. -/
theorem velem_vput (x : VReg) {w i : Nat} (v j : Nat) (h : w * (i + 1) ≤ 2048) :
    velem (vput x w i v) w j = if j = i then v % 2 ^ w else velem x w j := by
  have inside : w * i + w ≤ 2048 := by rwa [← Nat.mul_succ]
  have stored : (vput x w i v).toNat = x.toNat - x.toNat / 2 ^ (w * i) % 2 ^ w * 2 ^ (w * i) + v % 2 ^ w * 2 ^ (w * i) := by
    rw [vput, velem, BitVec.toNat_ofNat, Nat.mod_eq_of_lt (replaced_lt (N := 2048) x.isLt inside)]
  apply Nat.eq_of_testBit_eq
  intro b
  rw [testBit_velem, stored, testBit_replaced]
  by_cases hb : b < w
  · rcases Nat.lt_trichotomy j i with h | rfl | h
    · have apart : w * j + w ≤ w * i := by rw [← Nat.mul_succ]; exact Nat.mul_le_mul_left w h
      rw [if_neg (by omega), if_neg (by omega), testBit_velem]
    · rw [if_pos ⟨by omega, by omega⟩, if_pos rfl, Nat.testBit_mod_two_pow, Nat.add_sub_cancel_left]
    · have apart : w * i + w ≤ w * j := by rw [← Nat.mul_succ]; exact Nat.mul_le_mul_left w h
      rw [if_neg (by omega), if_neg (by omega), testBit_velem]
  · rw [decide_eq_false hb, Bool.false_and]
    split
    · rw [Nat.testBit_mod_two_pow, decide_eq_false hb, Bool.false_and]
    · rw [testBit_velem, decide_eq_false hb, Bool.false_and]

theorem velem_lt (x : VReg) (w j : Nat) : velem x w j < 2 ^ w := Nat.mod_lt _ (Nat.two_pow_pos _)

/-! ### Element after element -/

/-- A pass over indices, each step of which changes only what is seen at its own index. -/
theorem foldl_pointwise {α β : Type} (see : α → Nat → β) (step : α → Nat → α) (val : Nat → β → β) (n : Nat)
    (hs : ∀ x i j, i < n → see (step x i) j = if j = i then val i (see x j) else see x j) (x : α) (j : Nat) :
    see ((List.range n).foldl step x) j = if j < n then val j (see x j) else see x j := by
  induction n with
  | zero => rfl
  | succ n ih =>
    rw [List.range_succ, List.foldl_append, List.foldl_cons, List.foldl_nil, hs _ n j n.lt_succ_self, ih fun x i j hi => hs x i j (by omega)]
    rcases Nat.lt_trichotomy j n with h | rfl | h
    · rw [if_neg (by omega), if_pos h, if_pos (by omega)]
    · rw [if_pos rfl, if_neg (by omega), if_pos (by omega)]
    · rw [if_neg (by omega), if_neg (by omega), if_neg (by omega)]

/-- An element that is not performed becomes zero under z = 1 at or above VIDX, and else keeps its value (05 R111). -/
theorem Thread.elementAfter_eq (t : Thread) (w : Word) (d dw j v : Nat) :
    t.elementAfter w d dw j v = if t.performs w j then v % 2 ^ dw
      else if decide (t.vidx.toNat ≤ j) && Word.slice w 4 4 == 1 then 0 else velem (t.getV d) dw j := by
  unfold Thread.elementAfter Thread.performs
  by_cases below : j < t.vidx.toNat
  · simp [below, Nat.not_le.mpr below]
  · by_cases active : t.active w j = true
    · simp [below, Nat.not_lt.mp below, active]
    · simp [below, Nat.not_lt.mp below, active]

/-- Element `j` of a destination after a vector instruction. -/
theorem velem_mergeV (t : Thread) (w : Word) (d : Nat) {dw n : Nat} (h : dw * n ≤ 2048) (f : Nat → Nat) {j : Nat} (hj : j < n) :
    velem (t.mergeV w d dw n f) dw j = t.elementAfter w d dw j (f j) := by
  rw [Thread.mergeV, foldl_pointwise (fun x j => velem x dw j) _ (fun i old => if t.performs w i then f i % 2 ^ dw
    else if decide (t.vidx.toNat ≤ i) && Word.slice w 4 4 == 1 && !t.active w i then 0 else old) n, if_pos hj, Thread.elementAfter_eq]
  · by_cases performs : t.performs w j = true
    · rw [if_pos performs, if_pos performs]
    · rw [if_neg performs, if_neg performs]
      congr 1
      simp only [Thread.performs, Bool.and_eq_true, decide_eq_true_eq, not_and, Bool.not_eq_true] at performs
      simp +contextual [performs]
  · intro x i j hi
    have fits : dw * (i + 1) ≤ 2048 := le_trans (Nat.mul_le_mul_left dw hi) h
    split_ifs <;> simp_all [velem_vput]

/-- The flags of the performed elements (05 R113). -/
theorem Thread.vflags_of (t : Thread) (w : Word) (n : Nat) (f : Nat → Flags) : t.FlagsOf w n f (t.vflags w n f) := by
  intro b
  rw [Thread.vflags]
  induction n with
  | zero => simp
  | succ n ih =>
    rw [List.range_succ, List.foldl_append, List.foldl_cons, List.foldl_nil]
    simp only [Nat.lt_succ_iff_lt_or_eq, or_and_right, exists_or, exists_eq_left, ← ih]
    by_cases h : t.performs w n = true
    · rw [if_pos h, BitVec.getLsbD_or, Bool.or_eq_true]
      simp [h]
    · simp [h]

/-! ### A vector instruction that completes -/

theorem Module.retireV_same (m : Module) (k : Nat) (t : Thread) : SameBut m (m.retireV k t) k := (Module.setTh_retire _ _ _ _).1

theorem Module.retireV_th (m : Module) (k : Nat) (t : Thread) :
    (m.retireV k t).th k = { t with vidx := 0, ip := t.ip + 8, retiredAt := m.pilot } := (Module.setTh_retire _ _ _ _).2

section
variable {s : State} {r : Row} {th : ThreadId} {w : Word} {body : Module → Nat → Module} {i : Instr}

/-- A vector instruction leaves VIDX zero. -/
theorem State.retiresV {t : Thread} (he : exec i s = s.inst r th w body) (hi : s.issues r th w = true)
    (hb : body (s.issuing th) (ThreadId.key th) = (s.issuing th).retireV (ThreadId.key th) t) : Retires i s th { t with vidx := 0 } :=
  s.retires r th w body i _ true he hi hb

/-- An element-wise instruction with a plain destination. -/
theorem State.vector_result {dw n : Nat} (hn : dw * n ≤ 2048) (g f : Nat → Nat × Flags) (he : exec i s = s.inst r th w body)
    (hi : s.issues r th w = true) (hb : body (s.issuing th) (ThreadId.key th) = (s.issuing th).vecOp (ThreadId.key th) w dw n g)
    (hg : ∀ j, (g j).1 % 2 ^ dw = (f j).1 % 2 ^ dw ∧ (g j).2 = (f j).2) : VectorResult i s th w dw n f := by
  have flags : (fun j => (g j).2) = fun j => (f j).2 := funext fun j => (hg j).2
  refine ⟨(s.thread th).mergeV w (Word.rd w) dw n (fun i => (g i).1), (s.thread th).vflags w n (fun j => (g j).2),
    State.retiresV he hi hb, fun j hj => ?_, flags ▸ Thread.vflags_of _ _ _ _⟩
  rw [velem_mergeV _ _ _ hn _ hj, Thread.elementAfter, Thread.elementAfter, (hg j).1]

end

end Sys2Proof.Machine
end

section
/-! PROOFS of the encoding family (04_agquin_encoding_and_scalar_core), ninth part: O24, refuted by a register file that is not in canonical form. -/

namespace Sys2Proof.Machine

/-! ### O24: a vector register file that lists a zero

VINS below VIDX writes no register, so it leaves a list of registers that is not in canonical form as it is; no write of a register gives
that list. -/

/-- A running thread whose register file lists a zero for v3, with VIDX above every element. -/
def zeroListed : Thread := { Thread.empty with run := .running, vidx := 255, v := [(3, 0)] }

def zeroThread : ThreadId := { kind := .compute, core := 0, thread := 0 }

/-- The reset state with that thread in a slot. -/
def zeroState : State := { State.reset with m := State.reset.m.setTh (ThreadId.key zeroThread) zeroListed }

/-- VINS of s1 into v3 of 64-bit elements, at the element that s2 names (05 Table 5-5). -/
def vinsWord : Word := BitVec.ofNat 64 (23 * 2 ^ 58 + 2 * 2 ^ 52 + 3 * 2 ^ 46 + 1 * 2 ^ 40 + 2 * 2 ^ 34 + 0x300)

theorem zeroState_issues : zeroState.issues .vins zeroThread vinsWord = true := by decide +kernel

theorem zeroState_thread : zeroState.thread zeroThread = zeroListed := by decide +kernel

/-- No write of v3 gives the list with a zero. -/
theorem set_lists_no_zero (x : VReg) : SMap.set 0 zeroListed.v 3 x ≠ zeroListed.v := by
  intro h
  by_cases hx : x = 0
  · rw [SMap.set, if_pos hx] at h
    exact List.cons_ne_nil _ _ h.symm
  · have listed : SMap.set 0 zeroListed.v 3 x = [(3, x)] := by rw [SMap.set, if_neg hx]; rfl
    rw [listed] at h
    exact hx (congrArg Prod.snd (List.cons.inj h).1)

/-- VINS below VIDX leaves the registers as they are. -/
theorem vinsBody_below {m : Module} {k : Nat} {w : Word}
    (h : ((m.th k).getS (Word.rb w)).toNat % vCount (vtype w) < (m.th k).vidx.toNat) : vinsBody w m k = m.retireV k (m.th k) := by
  rw [vinsBody]
  exact congrArg (m.retireV k) (if_neg (Nat.not_le.mpr h))

/-- What VINS below VIDX would have to be as a write of its register. -/
theorem State.vins_below {s : State} {th : ThreadId} {w : Word} {x : VReg} (hi : s.issues .vins th w = true)
    (hv : ((s.thread th).getS (Word.rb w)).toNat % vCount (vtype w) < (s.thread th).vidx.toNat)
    (h : Retires (.vins th w) s th { ((s.thread th).setV (Word.rd w) x) with vidx := 0 }) :
    SMap.set 0 (s.thread th).v (Word.rd w) x = (s.thread th).v := by
  obtain ⟨t, next, -, thread, -⟩ := h
  have runs : exec (.vins th w) s = .next { s with m := vinsBody w (s.issuing th) (ThreadId.key th) } :=
    State.inst_issues s .vins th w (vinsBody w) hi
  obtain rfl := Host.Outcome.next.inj (runs.symm.trans next)
  have kept : vinsBody w (s.issuing th) (ThreadId.key th) = (s.issuing th).retireV (ThreadId.key th) (s.thread th) := vinsBody_below hv
  rw [kept, Module.retireV_th] at thread
  exact (congrArg Thread.v thread).symm

theorem zeroState_below : ((zeroState.thread zeroThread).getS (Word.rb vinsWord)).toNat % vCount (vtype vinsWord) <
    (zeroState.thread zeroThread).vidx.toNat := by decide +kernel

theorem vinsWord_rd : Word.rd vinsWord = 3 := by decide +kernel

/-- Refutes O24: in a state whose vector register file lists a zero for v3, which is not its canonical form, VINS below VIDX into v3 keeps
the list, and no `setV` of v3 gives it. -/
theorem not_vectorMovesAndPermutes : ¬ Obligations.VectorMovesAndPermutes := by
  unfold Obligations.VectorMovesAndPermutes
  intro h
  obtain ⟨-, -, -, -, -, vins, -⟩ := h zeroState zeroThread vinsWord
  obtain ⟨x, retires, -⟩ := vins zeroState_issues
  have kept := State.vins_below zeroState_issues zeroState_below retires
  rw [vinsWord_rd, zeroState_thread] at kept
  exact set_lists_no_zero x kept

end Sys2Proof.Machine
end

section
/-! PROOFS of the encoding family (04_agquin_encoding_and_scalar_core), tenth part: O20, the integer and fixed-point elements. -/

namespace Sys2Proof.Machine

/-! ### Integer patterns -/

theorem intBits_natCast (w n : Nat) : intBits w (n : Int) = n % 2 ^ w := by
  rw [intBits, ← Int.natCast_mod, Int.toNat_natCast]

theorem intBits_intOf (signed : Bool) (w b : Nat) : intBits w (intOf signed w b) = b % 2 ^ w := by
  have pattern : ((b % 2 ^ w : Nat) : Int) % ((2 ^ w : Nat) : Int) = ((b % 2 ^ w : Nat) : Int) := by
    rw [← Int.natCast_mod, Nat.mod_mod]
  rw [intBits, intOf]
  split
  · rw [Int.sub_emod_right, pattern, Int.toNat_natCast]
  · rw [pattern, Int.toNat_natCast]

/-- Subtraction wraps (05 R111). -/
theorem intBits_sub (w a b : Nat) (h : b ≤ 2 ^ w) : intBits w ((a : Int) - b) = (a + 2 ^ w - b) % 2 ^ w := by
  rw [← intBits_natCast, Nat.cast_sub (by omega), Nat.cast_add, intBits, intBits,
    show ((a : Int) + (2 ^ w : Nat) - b) = (a - b) + (2 ^ w : Nat) by omega, Int.add_emod_right]

/-- Each minor's element is the wrapped result of its row of Table 5-2. -/
theorem vintElem_eq {n : Nat} (signed : Bool) {ew a b : Nat} (ha : a < 2 ^ ew) (hb : b < 2 ^ ew) :
    vintElem n signed ew a b =
      if n = 0 then (a + b) % 2 ^ ew else if n = 1 then (a + 2 ^ ew - b) % 2 ^ ew
       else if n = 2 then a &&& b else if n = 3 then a ||| b else if n = 4 then a ^^^ b
       else if n = 5 then a * 2 ^ (b % ew) % 2 ^ ew else if n = 6 then a / 2 ^ (b % ew)
       else if n = 7 then (intOf true ew a / 2 ^ (b % ew) % 2 ^ ew).toNat
       else if n = 8 then a * b % 2 ^ ew else if n = 9 then (intOf signed ew a * intOf signed ew b / 2 ^ ew % 2 ^ ew).toNat
       else if n = 10 then (if intOf signed ew a ≤ intOf signed ew b then a else b)
       else (if intOf signed ew b ≤ intOf signed ew a then a else b) := by
  have low : ∀ x : Nat, x < 2 ^ ew → intBits ew (x : Int) = x := fun x hx => by rw [intBits_natCast, Nat.mod_eq_of_lt hx]
  have side : ∀ c : Prop, [Decidable c] → intBits ew (if c then intOf signed ew a else intOf signed ew b) = if c then a else b := by
    intro c _
    split
    · rw [intBits_intOf, Nat.mod_eq_of_lt ha]
    · rw [intBits_intOf, Nat.mod_eq_of_lt hb]
  unfold vintElem
  split
  · exact (intBits_natCast ew (a + b)).symm ▸ rfl
  · exact intBits_sub ew a b hb.le
  · exact low _ (Nat.and_lt_two_pow _ hb)
  · exact low _ (Nat.or_lt_two_pow ha hb)
  · exact low _ (Nat.xor_lt_two_pow ha hb)
  · exact intBits_natCast _ _
  · exact low _ (lt_of_le_of_lt (Nat.div_le_self _ _) ha)
  · simp [intBits]
  · exact intBits_natCast _ _
  · simp [intBits]
  · exact side _
  · next n0 n1 n2 n3 n4 n5 n6 n7 n8 n9 n10 =>
    simp only [if_neg n0, if_neg n1, if_neg n2, if_neg n3, if_neg n4, if_neg n5, if_neg n6, if_neg n7, if_neg n8, if_neg n9, if_neg n10]
    exact side _

/-! ### Fixed point (05 R116) -/

theorem clampInt_eq {lo hi : Int} (h : lo ≤ hi) (k : Int) : clampInt lo hi k = max lo (min hi k) := by
  rw [clampInt]
  split_ifs <;> omega

theorem intLo_eq (signed : Bool) (w : Nat) : intLo signed w = if signed = true then -2 ^ (w - 1) else 0 := by
  rw [intLo]; push_cast; rfl

theorem intHi_eq (signed : Bool) (w : Nat) : intHi signed w = if signed = true then 2 ^ (w - 1) - 1 else 2 ^ w - 1 := by
  rw [intHi]; push_cast; rfl

theorem intLo_le_intHi (signed : Bool) (w : Nat) : intLo signed w ≤ intHi signed w := by
  have p := Nat.two_pow_pos (w - 1)
  have q := Nat.two_pow_pos w
  rw [intLo, intHi]
  split_ifs <;> omega

/-- `q_result` of 05 R116: the rounded value, clamped, with its flags. -/
theorem qResult_eq (rm : Rm) (u : Nat) (signed : Bool) (w f : Nat) (neg : Bool) (m : Nat) (e : Int) :
    qResult rm u signed w f neg m e =
      (let r := roundInt rm u neg m (e + f)
       let k := max (intLo signed w) (min (intHi signed w) r.1)
       (k, (if k ≠ r.1 then fSAT ||| fNX else 0) ||| (if r.2 then fNX else 0))) := by
  unfold qResult
  dsimp only
  rw [clampInt_eq (intLo_le_intHi _ _)]
  simp only [flagIf, bne_iff_ne]
  rfl

/-- The exact value of each minor of Table 5-4. -/
theorem vqExact_eq (n f : Nat) (a b d : Int) (s : Nat) : vqExact n f a b d s =
    (if n = 0 then (a + b, -f) else if n = 1 then (a - b, -f)
      else if n = 2 then (a * b, -(2 * f)) else if n = 3 then (d * 2 ^ f + a * b, -(2 * f))
      else if n = 4 then (d * 2 ^ f - a * b, -(2 * f)) else if n = 5 then (a, -(f + s))
      else if n = 6 then (a + b, -(f + 1)) else if n = 7 then (a.natAbs, -f) else (-a, -f) : Int × Int) := by
  unfold vqExact
  push_cast
  split
  case h_9 => simp_all only [if_false, imp_false]
  all_goals rfl

/-! ### O20 -/

/-- Settles O20: both operations are element-wise, with the elements of Table 5-2 and of `q_result`. -/
theorem vectorIntegerAndFixedPointElements : Obligations.VectorIntegerAndFixedPointElements := by
  unfold Obligations.VectorIntegerAndFixedPointElements
  intro s th w
  have fits : vWidth (vtype w) * (2048 / vWidth (vtype w)) ≤ 2048 := (vWidth_count _).le
  refine ⟨fun hi => State.vector_result fits _ _ rfl hi rfl fun j => ⟨?_, rfl⟩,
    fun hi => State.vector_result fits _ _ rfl hi rfl fun j => ?_⟩
  · exact congrArg (· % 2 ^ vWidth (vtype w)) (vintElem_eq _ (velem_lt _ _ _) (velem_lt _ _ _))
  · dsimp only
    rw [vfixedElem, vqExact_eq]
    dsimp only
    rw [qResult_eq, intLo_eq, intHi_eq]
    simp only [vSigned, intBits, decide_eq_true_eq, Nat.cast_pow, Nat.cast_ofNat]
    exact ⟨rfl, rfl⟩

end Sys2Proof.Machine
end

section
/-! PROOFS of the encoding family (04_agquin_encoding_and_scalar_core), eleventh part: O21, the floating elements and the pairs. -/

namespace Sys2Proof.Machine

/-! ### O21 -/

theorem classify_vfloat {w : Word} (h : classify w = some .vfloatOp) : Word.minor w ≤ 10 := by
  have major : Word.major w = 0x12 := by simpa [Row.majors] using classify_major w h
  simp only [classify, major, classifyVfloat, rowIf_eq_some, Bool.and_eq_true, decide_eq_true_eq] at h
  exact h.1.1.1.1.1.1

/-- Each minor's element is the scalar operation on its elements (05 R114). -/
theorem vfloatElem_eq (f : Fmt) {n : Nat} (hn : n ≤ 10) (t : Thread) (code u a b c : Nat) :
    vfloatElem f n (t.rmOf code (decide (n < 6))) u a b c =
      if n = 6 then fDiv f (t.rmOf code false) a b else if n = 7 then fSqrt f (t.rmOf code false) a
      else if n = 8 ∨ n = 9 then fMinMax f (n == 9) a b else if n = 10 then (fSgnj f a b, 0)
      else fArith f (arithOpOf n) (t.rmOf code true) u a b c := by
  interval_cases n <;> rfl

theorem Thread.pairElem_eq (f : Fmt) (n : Nat) (t : Thread) (w : Word) (ew j : Nat) (hn : n < 4) :
    vpairElem f n t w ew j =
      if n = 0 then ((twoSum f (f.decode (t.va w ew j)) (f.decode (t.vb w ew j))).1, (twoSum f (f.decode (t.va w ew j)) (f.decode (t.vb w ew j))).2, true)
      else if n = 1 then twoProd f (f.decode (t.va w ew j)) (f.decode (t.vb w ew j))
      else if n = 2 then fmaPair f (f.decode (t.va w ew j)) (f.decode (t.vb w ew j)) (f.decode (t.vc w ew j))
      else ((pairAdd f (t.vpair f (Word.ra w) ew j) (t.vpair f (Word.rb w) ew j)).1,
        (pairAdd f (t.vpair f (Word.ra w) ew j) (t.vpair f (Word.rb w) ew j)).2, true) := by
  interval_cases n <;> rfl

/-- One bit of a mask that a step sets or clears. -/
theorem getLsbD_setBit (x : MReg) {i : Nat} (hi : i < 256) (b : Bool) (j : Nat) :
    (if b then x ||| BitVec.ofNat 256 (2 ^ i) else x &&& ~~~(BitVec.ofNat 256 (2 ^ i))).getLsbD j = if j = i then b else x.getLsbD j := by
  have bit : (BitVec.ofNat 256 (2 ^ i)).getLsbD j = (decide (j < 256) && decide (i = j)) := by
    rw [BitVec.getLsbD_ofNat, Nat.testBit_two_pow]
  generalize BitVec.ofNat 256 (2 ^ i) = y at bit
  by_cases h : j = i
  · subst h
    cases b <;> simp only [if_true, if_false, Bool.false_eq_true, BitVec.getLsbD_or, BitVec.getLsbD_and, BitVec.getLsbD_not, bit] <;> simp [hi]
  · have clear : y.getLsbD j = false := by simp [bit, Ne.symm h]
    cases b
    · by_cases hj : j < 256
      · rw [if_neg Bool.false_ne_true, if_neg h, BitVec.getLsbD_and, BitVec.getLsbD_not, clear, decide_eq_true hj]
        simp
      · rw [if_neg h, BitVec.getLsbD_of_ge _ j (by omega), BitVec.getLsbD_of_ge _ j (by omega)]
    · rw [if_pos rfl, if_neg h, BitVec.getLsbD_or, clear, Bool.or_false]

/-- The bits that performed elements give a mask (05 R115). -/
theorem Thread.getLsbD_mergeM (t : Thread) (w : Word) (x : MReg) {n : Nat} (hn : n ≤ 256) (f : Nat → Bool) (j : Nat) :
    (t.mergeM w x n f).getLsbD j = if j < n ∧ t.performs w j = true then f j else x.getLsbD j := by
  rw [Thread.mergeM, foldl_pointwise (fun x j => BitVec.getLsbD x j) _ (fun i old => if t.performs w i then f i else old)]
  · by_cases h : j < n <;> simp [h]
  · intro x i j hi
    split
    · rw [getLsbD_setBit x (by omega)]
    · simp

/-- What a pair instruction leaves of its thread: the destination pair, the mask of exact errors under xe, and its flags. -/
theorem State.vpair_retires {s : State} {th : ThreadId} {w : Word} (hi : s.issues .vpairOp th w = true) (hn : Word.minor w < 4)
    {r : Nat → Pair × Flags × Bool}
    (hr : ∀ j, vpairElem (vFmt (vtype w)) (Word.minor w) (s.thread th) w (vWidth (vtype w)) j = r j) :
    let t := s.thread th
    let ew := vWidth (vtype w)
    let f := vFmt (vtype w)
    let u := (t.setV (Word.rd w) (t.mergeV w (Word.rd w) ew (2048 / ew) (fun j => ((r j).1.bits f).1))).setV (Word.rd w + 1)
      (t.mergeV w (Word.rd w + 1) ew (2048 / ew) (fun j => ((r j).1.bits f).2))
    Retires (.vpairOp th w) s th
      { (if (decide (Word.minor w = 1 ∨ Word.minor w = 2) && Word.slice w 15 15 == 1) then
          u.setM (Word.slice w 14 12) (t.mergeM w (t.getM (Word.slice w 14 12)) (2048 / ew) (fun j => (r j).2.2)) else u) with
        flags := t.flags ||| t.vflags w (2048 / ew) (fun j => (r j).2.1), vidx := 0 } := by
  obtain rfl := funext hr
  have wide : vpairOp w (s.issuing th) (ThreadId.key th) = _ := if_neg hn.ne
  rw [Bool.decide_or]
  refine s.retires .vpairOp th w (vpairOp w) _ _ true rfl hi (wide.trans ?_)
  dsimp only
  generalize ((decide (Word.minor w = 1) || decide (Word.minor w = 2)) && Word.slice w 15 15 == 1) = withError
  cases withError <;> rfl

/-- Settles O21. -/
theorem vectorFloatingElementsAndPairs : Obligations.VectorFloatingElementsAndPairs := by
  unfold Obligations.VectorFloatingElementsAndPairs
  intro s th w
  have fits : vWidth (vtype w) * (2048 / vWidth (vtype w)) ≤ 2048 := (vWidth_count _).le
  have count : 2048 / vWidth (vtype w) ≤ 256 := by rcases vWidth_cases (vtype w) with h | h | h | h <;> rw [h] <;> decide
  refine ⟨fun hi => State.vector_result fits _ _ rfl hi rfl fun j => ?_, fun hi hn => State.vector_result fits _ _ rfl hi ?_ fun j => ⟨rfl, rfl⟩,
    fun hi hn => ?_⟩
  · rw [vfloatElem_eq _ (classify_vfloat (State.issues_row hi))]
    exact ⟨rfl, rfl⟩
  · exact if_pos hn
  · exact ⟨_, _, _, _, State.vpair_retires hi hn fun j => Thread.pairElem_eq _ _ _ _ _ j hn,
      fun j hj => ⟨velem_mergeV _ _ _ fits _ hj, velem_mergeV _ _ _ fits _ hj⟩,
      fun j => Thread.getLsbD_mergeM _ _ _ count _ j, Thread.vflags_of _ _ _ _⟩

end Sys2Proof.Machine
end

section
/-! PROOFS of the encoding family (04_agquin_encoding_and_scalar_core), twelfth part: O25, the fixed tree of a reduction. -/

namespace Sys2Proof.Machine

/-! ### The fixed tree (05 R119) -/

theorem treeLevel_nil {α : Type} (op : α → α → α × Flags) : treeLevel op [] = ([], fNone) := rfl

theorem treeLevel_one {α : Type} (op : α → α → α × Flags) (x : α) : treeLevel op [x] = ([x], fNone) := rfl

theorem treeLevel_pair {α : Type} (op : α → α → α × Flags) (x y : α) (t : List α) :
    treeLevel op (x :: y :: t) = ((op x y).1 :: (treeLevel op t).1, (op x y).2 ||| (treeLevel op t).2) := rfl

theorem treeLevel_length {α : Type} (op : α → α → α × Flags) : ∀ l : List α, (treeLevel op l).1.length = (l.length + 1) / 2
  | [] => by simp [treeLevel_nil]
  | [x] => by simp [treeLevel_one]
  | x :: y :: t => by
    rw [treeLevel_pair]
    simp only [List.length_cons, treeLevel_length op t]
    omega

/-- A tree of `k` levels over 2^k elements has one root. -/
theorem treeFold_root {α : Type} (op : α → α → α × Flags) : ∀ (k : Nat) (l : List α), l.length = 2 ^ k → ∃ v, (treeFold op k l).1 = [v] := by
  intro k
  induction k with
  | zero => exact fun l hl => List.length_eq_one_iff.mp hl
  | succ k ih =>
    intro l hl
    exact ih _ (by rw [treeLevel_length, hl, Nat.pow_succ]; omega)

/-- An operation that adds modulo M and raises no flag. -/
def AddsMod (op : Nat → Nat → Nat × Flags) (M : Nat) : Prop := ∀ a b, op a b = ((a + b) % M, fNone)

theorem treeLevel_sum {op : Nat → Nat → Nat × Flags} {M : Nat} (h : AddsMod op M) : ∀ l : List Nat,
    (treeLevel op l).1.sum % M = l.sum % M ∧ (treeLevel op l).2 = fNone
  | [] => ⟨rfl, rfl⟩
  | [_] => ⟨rfl, rfl⟩
  | x :: y :: t => by
    obtain ⟨sum, flags⟩ := treeLevel_sum h t
    rw [treeLevel_pair, h x y, flags]
    simp only [List.sum_cons]
    exact ⟨by rw [Nat.mod_add_mod, ← Nat.add_assoc, Nat.add_mod _ (List.sum _), sum, ← Nat.add_mod], BitVec.or_zero⟩

theorem treeFold_sum {op : Nat → Nat → Nat × Flags} {M : Nat} (h : AddsMod op M) : ∀ (k : Nat) (l : List Nat),
    (treeFold op k l).1.sum % M = l.sum % M ∧ (treeFold op k l).2 = fNone := by
  intro k
  induction k with
  | zero => exact fun l => ⟨rfl, rfl⟩
  | succ k ih =>
    intro l
    obtain ⟨level, clear⟩ := treeLevel_sum h l
    obtain ⟨rest, clears⟩ := ih (treeLevel op l).1
    exact ⟨rest.trans level, by rw [treeFold]; simp only [clear, clears]; exact BitVec.or_zero⟩

/-- A level over an even number of elements has only results of the operation. -/
theorem treeLevel_lt {op : Nat → Nat → Nat × Flags} {M : Nat} (hM : 0 < M) (h : AddsMod op M) : ∀ l : List Nat, l.length % 2 = 0 →
    ∀ v ∈ (treeLevel op l).1, v < M
  | [], _ => fun v hv => absurd hv List.not_mem_nil
  | [_], hl => absurd hl Nat.one_ne_zero
  | x :: y :: t, hl => by
    have rest := treeLevel_lt hM h t (by simp only [List.length_cons] at hl; omega)
    rw [treeLevel_pair, h x y]
    exact List.forall_mem_cons.mpr ⟨Nat.mod_lt _ hM, rest⟩

/-- The root of a tree of two elements or more is a result of the operation. -/
theorem treeFold_root_lt {op : Nat → Nat → Nat × Flags} {M : Nat} (hM : 0 < M) (h : AddsMod op M) : ∀ (k : Nat) (l : List Nat),
    l.length = 2 ^ (k + 1) → ∀ v ∈ (treeFold op (k + 1) l).1, v < M := by
  intro k
  induction k with
  | zero => exact fun l hl => treeLevel_lt hM h l (by rw [hl]; rfl)
  | succ k ih => exact fun l hl => ih _ (by rw [treeLevel_length, hl, Nat.pow_succ]; omega)

/-! ### O25 -/

theorem log2_count (ty : Nat) : 2048 / vWidth ty = 2 ^ Nat.log2 (2048 / vWidth ty) := by
  rcases vWidth_cases ty with h | h | h | h <;> rw [h] <;> decide +kernel

theorem redOp_adds {ty : Nat} (h : vIsInt ty = true) (rm : Rm) : AddsMod (redOp 8 ty rm) (2 ^ vWidth ty) := by
  intro a b
  rw [redOp, if_pos h]
  exact congrArg (·, fNone) (intBits_natCast _ (a + b))

theorem sum_map_performed (l : List Nat) (p : Nat → Bool) (f : Nat → Nat) :
    (l.map (fun j => if p j then f j else 0)).sum = ((l.filter p).map f).sum := by
  induction l with
  | nil => rfl
  | cons a l ih => by_cases h : p a = true <;> simp [h, ih]

/-- The flags of a fold are ORed into FSR beside its root (05 R119). -/
theorem vreduce_root {α : Type} (op : α → α → α × Flags) (ty : Nat) (g : Nat → α) : ∃ v fl,
    ([v], fl) = treeFold op (Nat.log2 (2048 / vWidth ty)) ((List.range (2048 / vWidth ty)).map g) := by
  obtain ⟨v, hv⟩ := treeFold_root op (Nat.log2 (2048 / vWidth ty)) ((List.range (2048 / vWidth ty)).map g)
    (by rw [List.length_map, List.length_range, ← log2_count])
  exact ⟨v, _, Prod.ext hv.symm rfl⟩

/-- The integer sum: the root is the sum of its elements modulo 2 to the width, and no flag is raised. -/
theorem intSum_root {ty v : Nat} {fl : Flags} {rm : Rm} (h : vIsInt ty = true) (g : Nat → Nat)
    (fold : ([v], fl) = treeFold (redOp 8 ty rm) (Nat.log2 (2048 / vWidth ty)) ((List.range (2048 / vWidth ty)).map g)) :
    v = ((List.range (2048 / vWidth ty)).map g).sum % 2 ^ vWidth ty ∧ fl = 0 := by
  have levels : 1 ≤ Nat.log2 (2048 / vWidth ty) := by rcases vWidth_cases ty with h | h | h | h <;> rw [h] <;> decide +kernel
  obtain ⟨k, hk⟩ : ∃ k, Nat.log2 (2048 / vWidth ty) = k + 1 := Nat.exists_eq_add_of_le' levels
  have count : ((List.range (2048 / vWidth ty)).map g).length = 2 ^ (k + 1) := by rw [List.length_map, List.length_range, ← hk, ← log2_count]
  have small := treeFold_root_lt (Nat.two_pow_pos _) (redOp_adds h rm) k _ count
  obtain ⟨sum, flags⟩ := treeFold_sum (redOp_adds h rm) (k + 1) ((List.range (2048 / vWidth ty)).map g)
  rw [hk] at fold
  rw [← fold] at small sum flags
  have root : v % 2 ^ vWidth ty = _ := sum
  rw [Nat.mod_eq_of_lt (small v List.mem_cons_self)] at root
  exact ⟨root, flags⟩

/-- The element of a plain reduction: an element that is not performed stands for the identity (05 R119). -/
def Thread.redElem (t : Thread) (w : Word) (j : Nat) : Nat :=
  if t.performs w j then velem (t.getV (Word.ra w)) (vWidth (vtype w)) j else redIdentity (Word.minor w) (vtype w)

/-- The element of the pair sum. -/
def Thread.redPair (t : Thread) (w : Word) (j : Nat) : Pair :=
  if t.performs w j then t.vpair (vFmt (vtype w)) (Word.ra w) (vWidth (vtype w)) j else { s := .fin true 0 0, e := .zero }

section
variable {s : State} {th : ThreadId} {w : Word} (hi : s.issues .vreduce th w = true)
include hi

theorem State.reduces {v : Nat} {fl : Flags} (hm : Word.minor w ≠ 11)
    (fold : ([v], fl) = treeFold (redOp (Word.minor w) (vtype w) ((s.thread th).rmOf (Word.rm w) false))
      (Nat.log2 (2048 / vWidth (vtype w))) ((List.range (2048 / vWidth (vtype w))).map ((s.thread th).redElem w))) :
    Retires (.vreduce th w) s th
      { ((s.thread th).setV (Word.rd w) (BitVec.ofNat 2048 v)) with flags := (s.thread th).flags ||| fl, vidx := 0 } := by
  have plain : vreduceBody w (s.issuing th) (ThreadId.key th) = _ := if_neg hm
  exact State.retiresV rfl hi (plain.trans (congrArg (fun r : List Nat × Flags => (s.issuing th).retireV (ThreadId.key th)
    (((s.thread th).setV (Word.rd w) (BitVec.ofNat 2048 (r.1.headD (redIdentity (Word.minor w) (vtype w))))).orFlags r.2)) fold.symm))

theorem State.reduces_pairs {p : Pair} {fl : Flags} (hm : Word.minor w = 11)
    (fold : ([p], fl) = treeFold (pairAdd (vFmt (vtype w))) (Nat.log2 (2048 / vWidth (vtype w)))
      ((List.range (2048 / vWidth (vtype w))).map ((s.thread th).redPair w))) :
    Retires (.vreduce th w) s th
      { (((s.thread th).setV (Word.rd w) (BitVec.ofNat 2048 (p.bits (vFmt (vtype w))).1)).setV (Word.rd w + 1)
          (BitVec.ofNat 2048 (p.bits (vFmt (vtype w))).2)) with flags := (s.thread th).flags ||| fl, vidx := 0 } := by
  have pairs : vreduceBody w (s.issuing th) (ThreadId.key th) = _ := if_pos hm
  exact State.retiresV rfl hi (pairs.trans (congrArg (fun r : List Pair × Flags => (s.issuing th).retireV (ThreadId.key th)
    ((((s.thread th).setV (Word.rd w) (BitVec.ofNat 2048 ((r.1.headD { s := .fin true 0 0, e := .zero }).bits (vFmt (vtype w))).1)).setV
      (Word.rd w + 1) (BitVec.ofNat 2048 ((r.1.headD { s := .fin true 0 0, e := .zero }).bits (vFmt (vtype w))).2)).orFlags r.2)) fold.symm))

end

/-- Settles O25: the tree has one root, which the instruction writes; the integer operation adds modulo 2 to the width at every node. -/
theorem vectorReductionsFoldTheFixedTree : Obligations.VectorReductionsFoldTheFixedTree := by
  unfold Obligations.VectorReductionsFoldTheFixedTree
  intro s th w hi
  refine ⟨fun hm => ?_, fun hm => ?_⟩
  · obtain ⟨v, fl, fold⟩ := vreduce_root (redOp (Word.minor w) (vtype w) ((s.thread th).rmOf (Word.rm w) false)) (vtype w)
      ((s.thread th).redElem w)
    refine ⟨v, fl, fold, State.reduces hi hm fold, fun hty h8 => ?_⟩
    have zero : (s.thread th).redElem w =
        fun j => if (s.thread th).performs w j then velem ((s.thread th).getV (Word.ra w)) (vWidth (vtype w)) j else 0 := by
      funext j
      rw [Thread.redElem, h8, redIdentity, if_pos hty]
    rw [h8] at fold
    obtain ⟨root, clear⟩ := intSum_root hty _ fold
    exact ⟨root.trans (by rw [zero, sum_map_performed]), clear⟩
  · obtain ⟨p, fl, fold⟩ := vreduce_root (pairAdd (vFmt (vtype w))) (vtype w) ((s.thread th).redPair w)
    exact ⟨p, fl, fold, State.reduces_pairs hi hm fold⟩

end Sys2Proof.Machine
end

section
/-! PROOFS of the encoding family (04_agquin_encoding_and_scalar_core), thirteenth part: O31, refuted by the record that a fault writes in host memory. -/

namespace Sys2Proof.Machine

/-! ### O31: the record of a fault is written in host memory

The statement lets no byte differ but those of the elements below the fault. Where the ring of the thread's context has room, the record
that the stop makes (02 R50) is written there, and the ring lies in host memory. -/

def recThread : ThreadId := { kind := .compute, core := 0, thread := 0 }

def recRunner : Thread := { Thread.empty with run := .running }

/-- The reset state with one running thread, the host link up, and the fault ring of context 0 at host address 4096. -/
def recState : State :=
  { State.reset with
    m := ((State.reset.m.setF (Reg.HIF_FRING.base 0) 1).setF Reg.HIF_LINK.state 1).setTh (ThreadId.key recThread) recRunner }

/-- VST of 64-bit elements of v3 at s1, which is zero: an address that no page maps (05 R120). -/
def vstWord : Word := BitVec.ofNat 64 (24 * 2 ^ 58 + 1 * 2 ^ 52 + 3 * 2 ^ 46 + 1 * 2 ^ 40 + 0x700)

/-- The byte of host memory that gets the cause in the record's second word (02 Table 2-4). -/
def causeByte : Nat × Nat := (2, 4096 + 15)

/-- The byte of a cell after a command that answers a next state. -/
def byteAfter (i : Instr) (s : State) (c : Nat × Nat) : Nat :=
  match exec i s with
  | .next t => t.m.byteAt c
  | _ => 0

theorem byteAfter_next {i : Instr} {s t : State} (h : exec i s = .next t) (c : Nat × Nat) : byteAfter i s c = t.m.byteAt c := by
  rw [byteAfter, h]

theorem recState_issues : recState.issues .vst recThread vstWord = true := by decide +kernel

theorem recState_clear : recState.m.byteAt causeByte = 0 := by decide +kernel

theorem recState_records : byteAfter (.vst recThread vstWord) recState causeByte = 1 := by decide +kernel

theorem recState_aligned : ((recState.thread recThread).getS (Word.ra vstWord) +
    (BitVec.ofNat 16 (Word.slice vstWord 27 12)).signExtend 64).toNat % (vWidth (vtype vstWord) / 8) = 0 := by decide +kernel

theorem recState_mayAccess : recState.mayAccess recThread 0 := ⟨by decide +kernel, fun h => absurd h (by decide)⟩

theorem recState_performs : (recState.thread recThread).performs vstWord 0 = true := by decide +kernel

theorem recState_faults : recState.xlat recThread ((recState.thread recThread).getS (Word.ra vstWord) +
    (BitVec.ofNat 16 (Word.slice vstWord 27 12)).signExtend 64 + BitVec.ofNat 64 (0 * (vWidth (vtype vstWord) / 8))).toNat .store =
    .fault cNotMapped := by decide +kernel

theorem recState_root : ((recState.issuing recThread).ctx ((recState.issuing recThread).th (ThreadId.key recThread)).ctx).root = 0 := by
  decide +kernel

/-- A context without a page table reads no entry, so no walk of it waits (02 R34). -/
theorem Module.walkHeld_unmapped {m : Module} {k : Nat} (h : (m.ctx (m.th k).ctx).root = 0) (va : Nat) : m.walkHeld k va = false := by
  rw [Module.walkHeld, Module.walkPlaces, if_pos h]
  exact Bool.and_false _

/-- Refutes O31: VST of an address that no page maps stops with a record, whose cause is written in host memory, in a byte that no element
of the store covers. -/
theorem not_vectorStoresWriteTheirElements : ¬ Obligations.VectorStoresWriteTheirElements := by
  unfold Obligations.VectorStoresWriteTheirElements
  intro h
  obtain ⟨vst, -⟩ := h recState recThread vstWord
  obtain ⟨-, made⟩ := vst recState_issues recState_aligned
  obtain ⟨-, faults, -⟩ := made recState_mayAccess
  obtain ⟨t, next, -, -, -, -, ⟨-, stored⟩, -⟩ := faults (fun _ => .host 0) 0 cNotMapped (by decide +kernel) recState_performs
    (fun j hj => absurd hj (Nat.not_lt_zero j)) recState_faults (fun j _ _ => Module.walkHeld_unmapped recState_root _)
  have kept : t.m.byteAt causeByte = recState.m.byteAt causeByte := (stored causeByte).1 fun j hj => Nat.not_lt_zero j hj.1
  rw [← byteAfter_next next, recState_records, recState_clear] at kept
  exact one_ne_zero kept

end Sys2Proof.Machine
end

section
/-! PROOFS of the encoding family (04_agquin_encoding_and_scalar_core), fourteenth part: the translations that the accesses of one instruction see. -/

namespace Sys2Proof.Machine

/-! ### What requests leave of the cores -/

theorem Module.count_cores (m : Module) (g : Nat × Nat × Nat) (code n : Nat) (e : Ev) (hg : g.1 + g.2.1 < 4000) :
    (m.count g code n e).cores = m.cores := (m.count_quiet g code n e hg).cores

theorem Module.countPart_cores (m : Module) (k code n : Nat) : (m.countPart k code n).cores = m.cores :=
  (m.countPart_quiet k code n (keyCore_lt k)).cores

theorem Module.countReq_cores (m : Module) (k : Nat) (p : Place) (lead : Bool) : (m.countReq k p lead).cores = m.cores := by
  have counted : (if lead = true then m.countPart k 9 1 else m).cores = m.cores := by
    split
    · exact m.countPart_cores k 9 1
    · rfl
  cases p with
  | store c off => rfl
  | hstore c off => rfl
  | _ => exact counted

theorem Module.far_cores (m : Module) (w : Who) (n : Nat) (write : Bool) : (m.far w n write).cores = m.cores := by
  unfold Module.far
  split
  · exact m.count_cores pmcHmp _ _ _ (by decide)
  · rfl

theorem Module.cacheTouch_cores (m : Module) (w : Who) (pc off : Nat) (write whole : Bool) :
    (m.cacheTouch w pc off write whole).cores = m.cores := by
  have counted : ∀ {x : Module} (code n : Nat) (e : Ev), x.cores = m.cores → (x.count pmcMem code n e).cores = m.cores :=
    fun code n e hx => (Module.count_cores _ pmcMem code n e (by decide)).trans hx
  unfold Module.cacheTouch
  refine Module.each_keeps (fun x => x.cores = m.cores) _ _ (fun x _ _ hx => counted _ _ _ hx) _ ?_
  split
  · exact counted _ _ _ rfl
  · exact counted _ _ _ (counted _ _ _ rfl)

theorem Module.askPiece_cores (m : Module) (w : Who) (p : Place) (n : Nat) (write lead whole : Bool) :
    (m.askPiece w p n write lead whole).cores = m.cores := by
  cases p with
  | hbm pc off =>
    refine (Module.far_cores _ w n write).trans ?_
    split
    · exact m.cacheTouch_cores w pc off write whole
    · rfl
  | host a =>
    refine (Module.far_cores _ w n write).trans ?_
    split
    · exact m.count_cores pmcHost _ _ _ (by decide)
    · rfl
  | ctier a =>
    have tier := m.count_cores pmcHmp 5 n { Ev.none with ctx := some w.ctx, master := w.origin } (by decide)
    refine (apply_ite Module.cores _ _ _).trans ?_
    split
    · exact tier
    · exact (Module.count_cores _ pmcHmp _ _ _ (by decide)).trans tier
  | store c off => rfl
  | hstore c off => rfl

theorem Module.askPieces_cores (m : Module) (w : Who) (l : List (Place × Nat)) : (m.askPieces w l).cores = m.cores :=
  List.foldlRecOn (motive := fun r : Module × List Nat => r.1.cores = m.cores) l _ rfl
    (fun _ hr _ _ => (Module.askPiece_cores _ _ _ _ _ _ _).trans hr)

/-! ### The translations that the accesses of one instruction see (02 R38) -/

/-- The walk of an address depends on its 2 MiB page (02 R34). -/
theorem Module.walk_page (m : Module) (ctx : Nat) {va vb : Nat} (h : va / 2 ^ 21 = vb / 2 ^ 21) : m.walk ctx va = m.walk ctx vb := by
  have big : va / 2 ^ 30 = vb / 2 ^ 30 := by omega
  simp only [Module.walk, h, big]

/-- What the thread's core holds for an address, or the walk of it. -/
def Module.lookup (m : Module) (k va : Nat) : Walk :=
  (SMap.get none (m.core (k / 8)).tlb (va / 2 ^ 21)).getD (m.walk (m.th k).ctx va)

theorem Module.lookup_page (m : Module) (k : Nat) {va vb : Nat} (h : va / 2 ^ 21 = vb / 2 ^ 21) : m.lookup k va = m.lookup k vb := by
  rw [Module.lookup, Module.lookup, h, m.walk_page _ h]

/-- What the core keeps of a walk: all but a walk that met an uncorrectable sector (02 R551). -/
def Walk.kept (x : Walk) : Option Walk :=
  match x with
  | .fault 6 => none
  | x => some x

/-- What translation answers from a walk. -/
def Walk.answer (x : Walk) (m : Module) (va : Nat) (acc : Access) : Xlat :=
  match x with
  | .fault c => .fault c
  | .page pte big => m.pagePlace pte big va acc

/-- A walk that gives a place is kept. -/
theorem Walk.kept_of_ok {x : Walk} {m : Module} {va : Nat} {acc : Access} {p : Place} {lc : Bool} (h : x.answer m va acc = .ok p lc) :
    x.kept = some x := by
  cases x with
  | fault c => exact Xlat.noConfusion h
  | page pte big => rfl

/-- Outside the core-local window, a translation is what the core looks up. -/
theorem Module.thXlat_looks {m : Module} {k va : Nat} (h : ¬ 2 ^ 48 ≤ va) (hw : ¬ windowBase ≤ va) (acc : Access) :
    m.thXlat k va acc = (m.translated k va (m.lookup k va).kept, (m.lookup k va).answer m va acc) := by
  rw [Module.thXlat, if_neg h, if_neg hw, Module.lookup]
  dsimp only
  generalize (SMap.get none (m.core (k / 8)).tlb (va / 2 ^ 21)).getD (m.walk (m.th k).ctx va) = x
  cases x <;> rfl

/-- An address that is not canonical, or lies in the core-local window, is answered without the module (02 R32, R33). -/
theorem Module.thXlat_fixed {k va : Nat} (h : 2 ^ 48 ≤ va ∨ windowBase ≤ va) (acc : Access) :
    ∃ x, ∀ m : Module, m.thXlat k va acc = (m, x) := by
  by_cases hv : 2 ^ 48 ≤ va
  · exact ⟨.fault cNonCanonical, fun m => if_pos hv⟩
  · have hw := h.resolve_left hv
    refine ⟨if va - windowBase < storeBytes && keyKind k == 0 then .ok (.store (keyCore k) (va - windowBase)) false
      else if va - windowBase < storeBytes && keyKind k == 1 then .ok (.hstore (keyCore k) (va - windowBase)) false else .viol, fun m => ?_⟩
    rw [Module.thXlat, if_neg hv, if_pos hw]
    dsimp only
    split_ifs <;> rfl

/-- In the second module a thread's translations answer as in the first. -/
structure Xlates (k : Nat) (m m' : Module) : Prop extends Beside [] m m' where
  lookup : ∀ va, m'.lookup k va = m.lookup k va

theorem Xlates.refl (k : Nat) (m : Module) : Xlates k m m := ⟨Beside.refl [] m, fun _ => rfl⟩

theorem Xlates.trans {k : Nat} {a b c : Module} (h : Xlates k a b) (g : Xlates k b c) : Xlates k a c :=
  ⟨h.toBeside.trans g.toBeside, fun va => (g.lookup va).trans (h.lookup va)⟩

theorem Xlates.answer {k : Nat} {m m' : Module} (h : Xlates k m m') (va : Nat) (acc : Access) :
    (m'.thXlat k va acc).2 = (m.thXlat k va acc).2 := by
  by_cases fixed : 2 ^ 48 ≤ va ∨ windowBase ≤ va
  · obtain ⟨x, hx⟩ := Module.thXlat_fixed (k := k) fixed acc
    rw [hx, hx]
  · rw [not_or] at fixed
    rw [Module.thXlat_looks fixed.1 fixed.2, Module.thXlat_looks fixed.1 fixed.2, h.lookup]
    cases m.lookup k va with
    | fault c => rfl
    | page pte big => simp only [Walk.answer, Module.pagePlace, h.toBeside.alike.carveL]

/-- What is beside and leaves the cores leaves the translations. -/
theorem Xlates.of_cores {k : Nat} {m m' : Module} (h : Beside [] m m') (hc : m'.cores = m.cores) : Xlates k m m' :=
  ⟨h, fun va => by rw [Module.lookup, Module.lookup, Module.core_congr hc, h.th k List.not_mem_nil, h.alike.walk]⟩

/-- A walk whose answer is kept is what the core looks up from then on. -/
theorem Xlates.kept {m : Module} {k va : Nat} {kept : Option Walk} (hk : kept = some (m.lookup k va)) : Xlates k m (m.translated k va kept) := by
  have beside := m.translated_beside k va kept
  refine ⟨beside, fun vb => ?_⟩
  have held : (m.translated k va kept).core (k / 8) =
      { m.core (k / 8) with tlb := SMap.set none (m.core (k / 8)).tlb (va / 2 ^ 21) kept } := by
    rw [Module.translated, Module.core_setCore, if_pos rfl]
  rw [Module.lookup, held]
  by_cases page : vb / 2 ^ 21 = va / 2 ^ 21
  · rw [page, SMap.get_set_self, hk, Option.getD_some]
    exact m.lookup_page k page.symm
  · rw [SMap.get_set_ne _ _ _ _ _ page, beside.th k List.not_mem_nil, beside.alike.walk]
    rfl

theorem fst_of_eq {α β : Type} {p : α × β} {a : α} {b : β} (h : p = (a, b)) : p.1 = a := by rw [h]

theorem snd_of_eq {α β : Type} {p : α × β} {a : α} {b : β} (h : p = (a, b)) : p.2 = b := by rw [h]

/-- Translating an address that has a place changes no later translation. -/
theorem Module.thXlat_xlates {m : Module} {k va : Nat} {acc : Access} {p : Place} {lc : Bool} (h : (m.thXlat k va acc).2 = .ok p lc) :
    Xlates k m (m.thXlat k va acc).1 := by
  by_cases fixed : 2 ^ 48 ≤ va ∨ windowBase ≤ va
  · obtain ⟨x, hx⟩ := Module.thXlat_fixed (k := k) fixed acc
    have same : (m.thXlat k va acc).1 = m := fst_of_eq (hx m)
    rw [same]
    exact Xlates.refl k m
  · rw [not_or] at fixed
    have looks := Module.thXlat_looks (m := m) (k := k) fixed.1 fixed.2 acc
    have place : (m.lookup k va).answer m va acc = .ok p lc := (snd_of_eq looks).symm.trans h
    have made : (m.thXlat k va acc).1 = m.translated k va (m.lookup k va).kept := fst_of_eq looks
    rw [made]
    exact Xlates.kept (Walk.kept_of_ok place)

end Sys2Proof.Machine
end

section
/-! PROOFS of the encoding family (04_agquin_encoding_and_scalar_core), fifteenth part: the elements that a vector load performs. -/

namespace Sys2Proof.Machine

/-! ### The elements that a vector load has performed -/

/-- An address that the thread may read now: it translates to a place that is open and good (12 R291, R293). -/
structure Module.Readable (m : Module) (k va n : Nat) (p : Place) : Prop where
  place : ∃ lc, (m.thXlat k va .load).2 = .ok p lc
  isOpen : ∀ pc off, p = .hbm pc off → m.held pc = false
  good : m.badPlace p n = false

/-- None of the elements performed so far waits, stores or stops, and translations answer as before the access. -/
structure Acc1.Passed (a : Acc1) (m : Module) (k : Nat) : Prop where
  puts : a.puts = []
  left : a.left = 0
  stop : a.stop = none
  seen : Xlates k m a.m

theorem Acc1.start_passed (m : Module) (k : Nat) : (Acc1.start m).Passed m k := ⟨rfl, rfl, rfl, Xlates.refl k m⟩

/-- A place whose channel is not held is not waited for. -/
theorem Module.mustWait_open {m : Module} {p : Place} (h : ∀ pc off, p = .hbm pc off → m.held pc = false) : m.mustWait p = false := by
  cases p with
  | hbm pc off => rw [Module.mustWait, h pc off rfl, Bool.false_and]
  | _ => rfl

/-- The value that a vector element captures. -/
def vecGot (reg ew i v : Nat) (p : Place) (va : Nat) : Got := { gotOf true reg i ew v (some p) with va := va }

/-- A readable element is performed. -/
theorem Acc1.Passed.load_passed {a : Acc1} {m : Module} {k va n : Nat} {p : Place} (h : a.Passed m k) (hr : m.Readable k va n p)
    (i reg ew : Nat) :
    (a.load k va n i true reg i ew false).Passed m k ∧
      (a.load k va n i true reg i ew false).got = a.got ++ [vecGot reg ew i (m.readPlace p n) p va] := by
  obtain ⟨lc, place⟩ := hr.place
  have found : (a.m.thXlat k va .load).2 = .ok p lc := (h.seen.answer va .load).trans place
  have seen := h.seen.trans (Module.thXlat_xlates found)
  unfold Acc1.load
  generalize a.m.thXlat k va .load = r at found seen
  obtain ⟨m1, x⟩ := r
  obtain rfl : x = .ok p lc := found
  have alike := seen.toBeside.alike
  have waits : m1.mustWait p = false := Module.mustWait_open fun pc off hp => (alike.held pc).trans (hr.isOpen pc off hp)
  have bad : m1.badPlace p n = false := (alike.badPlace p n).trans hr.good
  have value : m1.readPlace p n = m.readPlace p n := alike.readPlace p n
  simp only [waits, bad, value, Bool.false_eq_true, if_false]
  refine ⟨⟨h.puts, h.left, h.stop, ?_⟩, rfl⟩
  have asked := (m1.countReq_beside k p (p.request a.asked).1).trans (Module.askPiece_beside _ (m1.who k (m1.readClass k va lc)) p n false
    (p.request a.asked).1 false)
  exact seen.trans (Xlates.of_cores asked ((Module.askPiece_cores _ _ _ _ _ _ _).trans (Module.countReq_cores _ _ _ _)))

/-- An element at which translation faults stops the access (02 R50). -/
theorem Acc1.Passed.load_faults {a : Acc1} {m : Module} {k va c : Nat} (h : a.Passed m k) (hf : (m.thXlat k va .load).2 = .fault c)
    (n i reg ew : Nat) : a.load k va n i true reg i ew false = { a with m := (a.m.thXlat k va .load).1, stop := some (i, c, va) } := by
  have found : (a.m.thXlat k va .load).2 = .fault c := (h.seen.answer va .load).trans hf
  unfold Acc1.load
  generalize a.m.thXlat k va .load = r at found
  obtain ⟨m1, x⟩ := r
  obtain rfl : x = .fault c := found
  rfl

/-- What element `i` delivers: its value, zero where it is inactive under z = 1, or nothing (05 R111). -/
def Thread.elemGots (t : Thread) (w : Word) (ew : Nat) (v : Nat → Nat) (p : Nat → Place) (f : Nat → Nat) (i : Nat) : List Got :=
  if t.performs w i then [vecGot (Word.rd w) ew i (v i) (p i) (f i)]
  else if decide (t.vidx.toNat ≤ i) && Word.slice w 4 4 == 1 then [gotOf true (Word.rd w) i ew 0 none]
  else []

section
variable {m : Module} {k : Nat} {w : Word} {ew : Nat} {f : Nat → Nat} {p : Nat → Place}

/-- Readable elements are performed one after another. -/
theorem vecLoad_passes (rest : List Nat) : ∀ (l : List Nat) {a : Acc1}, a.Passed m k →
    (∀ i ∈ l, (m.th k).performs w i = true → m.Readable k (f i) (ew / 8) (p i)) →
    ∃ b : Acc1, vecLoad w k ew f (l ++ rest) a = vecLoad w k ew f rest b ∧ b.Passed m k ∧
      b.got = a.got ++ l.flatMap ((m.th k).elemGots w ew (fun i => m.readPlace (p i) (ew / 8)) p f) := by
  intro l
  induction l with
  | nil => exact fun h _ => ⟨_, rfl, h, (List.append_nil _).symm⟩
  | cons i l ih =>
    intro a h hl
    have same : a.m.th k = m.th k := h.seen.th k List.not_mem_nil
    have later : ∀ j ∈ l, (m.th k).performs w j = true → m.Readable k (f j) (ew / 8) (p j) := fun j hj => hl j (List.mem_cons_of_mem _ hj)
    simp only [List.cons_append, vecLoad, same, List.flatMap_cons, Thread.elemGots]
    split
    · next performs =>
      obtain ⟨passed, got⟩ := h.load_passed (hl i List.mem_cons_self performs) i (Word.rd w) ew
      simp only [passed.stop]
      obtain ⟨b, hb, passes, gots⟩ := ih passed later
      exact ⟨b, hb, passes, by rw [gots, got, List.append_assoc]⟩
    · split
      · have zeroed : ({ a with got := a.got ++ [gotOf true (Word.rd w) i ew 0 none] } : Acc1).Passed m k :=
          ⟨h.puts, h.left, h.stop, h.seen⟩
        obtain ⟨b, hb, passes, gots⟩ := ih zeroed later
        exact ⟨b, hb, passes, by rw [gots, List.append_assoc]⟩
      · obtain ⟨b, hb, passes, gots⟩ := ih h later
        exact ⟨b, hb, passes, gots⟩

/-- A fault at a performed element ends the access there. -/
theorem vecLoad_stops {a : Acc1} {e c : Nat} {l : List Nat} (h : a.Passed m k) (he : (m.th k).performs w e = true)
    (hf : (m.thXlat k (f e) .load).2 = .fault c) :
    vecLoad w k ew f (e :: l) a = { a with m := (a.m.thXlat k (f e) .load).1, stop := some (e, c, f e) } := by
  have same : a.m.th k = m.th k := h.seen.th k List.not_mem_nil
  rw [vecLoad, same, if_pos he, h.load_faults hf]

end

/-- An access without elements to store has nothing to flush. -/
theorem Acc1.flush_none {a : Acc1} (h : a.puts = []) (k : Nat) : a.flush k = a := by
  unfold Acc1.flush
  rw [h]
  exact congrArg (fun l => ({ a with puts := l } : Acc1)) h.symm

end Sys2Proof.Machine
end

section
/-! PROOFS of the encoding family (04_agquin_encoding_and_scalar_core), sixteenth part: what a delivered access leaves in the registers. -/

namespace Sys2Proof.Machine

/-! ### What reaches the registers (15 R371) -/

/-- The thread once its accesses that are ready have been delivered. -/
def Thread.settled (t : Thread) : Thread :=
  (t.outst.filter Outst.ready).foldl Thread.deliver { t with outst := t.outst.filter (fun o => !o.ready) }

theorem filter_not_ready {l : List Outst} (h : l.filter Outst.ready = []) : l.filter (fun o => !o.ready) = l := by
  rw [List.filter_eq_nil_iff] at h
  exact List.filter_eq_self.mpr fun o ho => by simpa using h o ho

theorem Module.settle_th (m : Module) (k : Nat) : (m.settle k).th k = (m.th k).settled := by
  unfold Module.settle Thread.settled
  dsimp only
  split
  · next h =>
    have none_ : (m.th k).outst.filter Outst.ready = [] := List.isEmpty_iff.mp h
    rw [none_, filter_not_ready none_]
    rfl
  · exact Module.th_setTh_self _ _ _

/-- Two threads that differ in their registers and accesses alone. -/
def RegsBut (t t' : Thread) : Prop := ∃ s v os, t' = { t with s := s, v := v, outst := os }

theorem RegsBut.refl (t : Thread) : RegsBut t t := ⟨t.s, t.v, t.outst, rfl⟩

theorem RegsBut.trans {a b c : Thread} (h : RegsBut a b) (g : RegsBut b c) : RegsBut a c := by
  obtain ⟨_, _, _, rfl⟩ := h
  obtain ⟨_, _, _, rfl⟩ := g
  exact ⟨_, _, _, rfl⟩

theorem Thread.put_regs (t : Thread) (g : Got) : RegsBut t (t.put g) := by
  unfold Thread.put Thread.setSN Thread.setS
  split
  · exact ⟨_, _, _, rfl⟩
  · split
    · exact RegsBut.refl t
    · exact ⟨_, _, _, rfl⟩

theorem Thread.settled_regs (t : Thread) : RegsBut t t.settled := by
  have puts : ∀ (l : List Got) (x : Thread), RegsBut t x → RegsBut t (l.foldl Thread.put x) := fun l x hx =>
    List.foldlRecOn l _ hx fun y hy g _ => hy.trans (y.put_regs g)
  exact List.foldlRecOn _ _ ⟨_, _, _, rfl⟩ fun y hy o _ => puts o.got y hy

theorem Thread.settled_none {t : Thread} (h : t.outst.filter Outst.ready = []) : t.settled = t := by
  unfold Thread.settled
  rw [h, filter_not_ready h]
  rfl

/-- The access that was made last is delivered last. -/
theorem Thread.settled_last {t : Thread} {l : List Outst} {o : Outst} (h : t.outst = l ++ [o]) (ho : o.ready = true) :
    t.settled = o.got.foldl Thread.put
      ((l.filter Outst.ready).foldl Thread.deliver { t with outst := t.outst.filter (fun o => !o.ready) }) := by
  have last : t.outst.filter Outst.ready = l.filter Outst.ready ++ [o] := by rw [h, List.filter_append]; simp [ho]
  rw [Thread.settled, last, List.foldl_append]
  rfl

/-! ### The elements of a delivered vector load -/

theorem Thread.getV_setV (t : Thread) (r : Nat) (x : VReg) : (t.setV r x).getV r = x := SMap.get_set_self _ _ _ _

theorem Thread.elemGots_viol (t : Thread) (w : Word) (ew : Nat) (v : Nat → Nat) (p : Nat → Place) (f : Nat → Nat) (n : Nat) :
    ∀ g ∈ (List.range n).flatMap (t.elemGots w ew v p f), g.viol = false := by
  intro g hg
  obtain ⟨i, -, hi⟩ := List.mem_flatMap.mp hg
  unfold Thread.elemGots at hi
  split at hi
  · rw [List.mem_singleton.mp hi]; rfl
  · split at hi
    · rw [List.mem_singleton.mp hi]; rfl
    · exact absurd hi List.not_mem_nil

/-- What element `j` of the destination becomes when the elements of a load are delivered. -/
theorem velem_delivered (t x : Thread) (w : Word) {ew n : Nat} (fits : ew * n ≤ 2048) (v : Nat → Nat) (p : Nat → Place) (f : Nat → Nat)
    {j : Nat} (hj : j < n) :
    velem ((((List.range n).flatMap (t.elemGots w ew v p f)).foldl Thread.put x).getV (Word.rd w)) ew j =
      if t.performs w j then v j % 2 ^ ew
      else if decide (t.vidx.toNat ≤ j) && Word.slice w 4 4 == 1 then 0 else velem (x.getV (Word.rd w)) ew j := by
  have put : ∀ (y : Thread) (g : Got), g.vec = true → g.reg = Word.rd w → g.width = ew →
      (y.put g).getV (Word.rd w) = vput (y.getV (Word.rd w)) ew g.idx g.val := by
    intro y g hv hr hw
    rw [Thread.put, if_pos hv, hr, hw, Thread.getV_setV]
  rw [List.foldl_flatMap, foldl_pointwise (fun y j => velem (Thread.getV y (Word.rd w)) ew j) _ (fun i old =>
    if t.performs w i then v i % 2 ^ ew else if decide (t.vidx.toNat ≤ i) && Word.slice w 4 4 == 1 then 0 else old) n, if_pos hj]
  intro y i j hi
  have inside : ew * (i + 1) ≤ 2048 := le_trans (Nat.mul_le_mul_left ew hi) fits
  unfold Thread.elemGots
  split
  · rw [List.foldl_cons, List.foldl_nil, put y _ rfl rfl rfl]
    exact velem_vput _ (v i) j inside
  · split
    · rw [List.foldl_cons, List.foldl_nil, put y _ rfl rfl rfl]
      exact (velem_vput _ 0 j inside).trans (by rw [Nat.zero_mod])
    · rw [List.foldl_nil, ite_self]

end Sys2Proof.Machine
end

section
/-! PROOFS of the encoding family (04_agquin_encoding_and_scalar_core), seventeenth part: a vector load that has been recorded, returned and counted. -/

namespace Sys2Proof.Machine

/-! ### Recording and returning an access -/

/-- The thread that has recorded the performed elements of a vector load: nothing is kept when none delivers anything. -/
def Thread.recordedLoad (t : Thread) (got : List Got) (d va : Nat) : Thread :=
  if got = [] then t else t.opens (t.access got 0 true false [] [d] va 0 none true)

theorem Module.recordLoad_eq (m : Module) (k : Nat) (got : List Got) (d va : Nat) :
    m.recordAccess k got 0 true false [] [d] va 0 none true =
      if got = [] then m else m.setTh k ((m.th k).recordedLoad got d va) := by
  split
  · next h => rw [h]; exact Module.recordAccess_nothing _ _ _ _ _ _ _ _ _ _
  · next h => rw [Module.recordAccess_opens m k (.inl h), Thread.recordedLoad, if_neg h]

theorem Module.recordLoad_th (m : Module) (k : Nat) (got : List Got) (d va : Nat) :
    (m.recordAccess k got 0 true false [] [d] va 0 none true).th k = (m.th k).recordedLoad got d va := by
  rw [Module.recordLoad_eq]
  split
  · next h => rw [Thread.recordedLoad, if_pos h]
  · exact Module.th_setTh_self _ _ _

theorem Module.recordLoad_beside (m : Module) (k : Nat) (got : List Got) (d va : Nat) :
    Beside [k] m (m.recordAccess k got 0 true false [] [d] va 0 none true) := by
  rw [Module.recordLoad_eq]
  exact Beside.ite _ (Beside.refl _ m) (Beside.setTh m k _)

/-- An access whose violations have been counted. -/
def Outst.counted (o : Outst) : Outst := if o.left = 0 then { o with got := o.got.map (fun g => { g with viol := false }) } else o

theorem Outst.counted_of_none {o : Outst} (h : ∀ g ∈ o.got, g.viol = false) : o.counted = o := by
  have same : o.got.map (fun g => { g with viol := false }) = o.got := by
    conv_rhs => rw [← List.map_id o.got]
    exact List.map_congr_left fun g hg => by rw [← h g hg]; rfl
  unfold Outst.counted
  rw [same]
  exact ite_self _

/-- What is left of a thread when its performed accesses return: every one of them is delivered, its violations counted before. -/
theorem Module.returned_th (m : Module) (k : Nat) :
    (m.returned k).th k = Thread.settled { m.th k with outst := (m.th k).outst.map Outst.counted } := by
  unfold Module.returned
  dsimp only
  split
  · next h =>
    have clear : (m.th k).outst.map Outst.counted = (m.th k).outst := by
      conv_rhs => rw [← List.map_id (m.th k).outst]
      refine List.map_congr_left fun o ho => ?_
      by_cases hl : o.left = 0
      · refine Outst.counted_of_none fun g hg => ?_
        have late := List.isEmpty_iff.mp h
        by_contra hv
        exact List.ne_nil_of_mem (List.mem_flatMap.mpr ⟨o, List.mem_filter.mpr ⟨ho, by simpa using hl⟩,
          List.mem_filter.mpr ⟨hg, by simpa using hv⟩⟩) late
      · exact if_neg hl
    rw [Module.settle_th, clear]
  · rw [Module.settle_th, Module.th_setTh_self]
    have same : ∀ (l : List Got) (x : Module), (x.each l (fun m g => m.thViol k g.va 1)).th k = x.th k := fun l x =>
      Module.each_keeps (fun y => y.th k = x.th k) l _ (fun y g _ hy => (Module.th_congr (y.thViol_threads _ _ _) k).trans hy) x rfl
    rw [same]
    rfl

theorem Module.returned_open (m : Module) (k : Nat) : ((m.returned k).th k).outst.filter Outst.ready = [] := by
  unfold Module.returned
  dsimp only
  split
  · exact m.settle_open k
  · exact Module.settle_open _ k

/-! ### The fault ring beside violations (02 R50, 22 R528) -/

/-- The context is as live, its ring as full, and the same records wait. -/
structure SameRing (n : Nat) (m m' : Module) : Prop where
  live : m'.ctxLive n = m.ctxLive n
  full : m'.ringFull n = m.ringFull n
  waits : (m'.ctx n).waitRecs = (m.ctx n).waitRecs

theorem SameRing.refl (n : Nat) (m : Module) : SameRing n m m := ⟨rfl, rfl, rfl⟩

theorem SameRing.trans {n : Nat} {a b c : Module} (h : SameRing n a b) (g : SameRing n b c) : SameRing n a c :=
  ⟨g.live.trans h.live, g.full.trans h.full, g.waits.trans h.waits⟩

theorem Elsewhere.sameRing {ks : List Nat} {m m' : Module} (h : Elsewhere ks m m') {n : Nat} (hn : n < 64) : SameRing n m m' :=
  ⟨h.ctxLive hn, Module.ringFull_elsewhere h hn, h.waitRecs n⟩

theorem Module.violateN_getF (m : Module) (ctx unit addr n : Nat) {f : Fld} (h : f.key % 0x40000 ≠ 0x28 * 64)
    (hu : f.key % 0x40000 ≠ 0x30 * 64 + 56) (ha : f.key % 0x40000 ≠ 0x30 * 64) : (m.violateN ctx unit addr n).getF f = m.getF f := by
  unfold Module.violateN
  split
  · rfl
  · rw [Module.getF_setF_ne, Module.getF_setF_ne, Module.addF, Module.getF_setF_ne] <;>
      simp only [ne_eq, Fld.key, Reg.HIF_VIOL.count, Reg.HIF_VLOG.unit, Reg.HIF_VLOG.address] at * <;> omega

theorem Module.violateN_sameRing (m : Module) (ctx unit addr k n : Nat) : SameRing n m (m.violateN ctx unit addr k) := by
  have same : ∀ f : Fld, f.key % 0x40000 < 0x28 * 64 → (m.violateN ctx unit addr k).getF f = m.getF f := fun f hf =>
    m.violateN_getF ctx unit addr k (by omega) (by omega) (by omega)
  have state : (m.violateN ctx unit addr k).ctxState n = m.ctxState n := 
    same (Reg.HIF_CTXSTAT.state n) (by simp only [Fld.key, Reg.HIF_CTXSTAT.state]; omega)
  refine ⟨by rw [Module.ctxLive, Module.ctxLive, state], ?_, ?_⟩
  · rw [Module.ringFull, Module.ringFull, same (Reg.HIF_FRING.base n), same (Reg.HIF_FPTR.head n), same (Reg.HIF_FPTR.tail n),
      same (Reg.HIF_FRING.size n)] <;>
      simp only [Fld.key, Reg.HIF_FRING.base, Reg.HIF_FPTR.head, Reg.HIF_FPTR.tail, Reg.HIF_FRING.size] <;> omega
  · unfold Module.violateN
    split <;> rfl

theorem Module.thViol_sameRing (m : Module) (k addr a : Nat) {n : Nat} (hn : n < 64) : SameRing n m (m.thViol k addr a) := by
  unfold Module.thViol
  split
  · exact SameRing.refl n m
  · exact (m.violateN_sameRing _ _ _ _ n).trans ((Module.countPart_beside _ k 0x0B a).toElsewhere.sameRing hn)

theorem Module.setTh_settle_sameRing (m : Module) (k : Nat) (t : Thread) {n : Nat} (hn : n < 64) : SameRing n m ((m.setTh k t).settle k) :=
  ((Beside.setTh m k t).trans ((m.setTh k t).settle_beside k)).toElsewhere.sameRing hn

theorem Module.returned_sameRing (m : Module) (k : Nat) {n : Nat} (hn : n < 64) : SameRing n m (m.returned k) := by
  unfold Module.returned
  dsimp only
  split
  · exact (m.settle_beside k).toElsewhere.sameRing hn
  · refine SameRing.trans ?_ (Module.setTh_settle_sameRing _ k _ hn)
    exact Module.each_keeps (fun y => SameRing n m y) _ _ (fun y g _ hy => hy.trans (y.thViol_sameRing k g.va 1 hn)) m (SameRing.refl n m)

/-! ### The end of a vector load -/

/-- The violations and the extra cycles of an access are counted, and its thread stops at an element. -/
theorem Module.faultStopV_th (m : Module) (k c va e : Nat) :
    (m.faultStopV k c va e).th k = { m.th k with vidx := BitVec.ofNat 8 e, run := .stopped } := by
  rw [Module.faultStopV, Module.stopAt_th, if_pos rfl, Module.th_setTh_self]

theorem Module.countVector_beside (m : Module) (k : Nat) (l : List Nat) : Beside [] m (m.countVector k l) := Module.countPart_beside _ _ _ _

theorem Module.retireV_beside (m : Module) (k : Nat) (t : Thread) : Beside [k] m (m.retireV k t) := m.setTh_retire_beside k _ true

section
variable {a : Acc1} {m m0 : Module} {k d va : Nat} {els : List Nat} {addr : Nat → Nat}

/-- The module in which a performed vector load has been recorded. -/
def Acc1.recordedLoad (a : Acc1) (k d va : Nat) : Module := a.m.recordAccess k a.got 0 true false [] [d] va 0 none true

theorem Acc1.Passed.finishV (h : a.Passed m k) : a.finishV m0 k true [d] va els addr =
    ((a.recordedLoad k d va).countVector k (els.map addr)).retireV k
      (((a.recordedLoad k d va).countVector k (els.map addr)).th k) := by
  rw [Acc1.finishV, Acc1.flush_none h.puts, h.stop, h.left]
  rfl

theorem Acc1.finishV_stop {e c at_ : Nat} (hp : a.puts = []) (hl : a.left = 0) (hs : a.stop = some (e, c, at_)) :
    a.finishV m0 k true [d] va els addr =
      (((a.recordedLoad k d va).returned k).countVector k ((els.filter (fun i => decide (i < e))).map addr)).faultStopV k c at_ e := by
  rw [Acc1.finishV, Acc1.flush_none hp, hs, hl]
  exact if_neg (by decide)

end

end Sys2Proof.Machine
end

section
/-! PROOFS of the encoding family (04_agquin_encoding_and_scalar_core), eighteenth part: the vector loads as instructions. -/

namespace Sys2Proof.Machine

/-! ### The instruction -/

theorem vBase_eq (t : Thread) (w : Word) : vBase t w = t.getS (Word.ra w) + (BitVec.ofNat 16 (Word.slice w 27 12)).signExtend 64 :=
  congrArg (t.getS (Word.ra w) + ·) (ofInt_signedOf 16 _ (by decide))

/-- The elements that the instruction performs. -/
def Thread.mine (t : Thread) (w : Word) : List Nat := (List.range (2048 / vWidth (vtype w))).filter (fun j => t.performs w j)

/-- The places of the performed elements below `e` can be read. -/
def State.GoodBelow (s : State) (th : ThreadId) (w : Word) (ad : Nat → Word) (p : Nat → Place) (e : Nat) : Prop :=
  ∀ j, j < e → (s.thread th).performs w j = true →
    s.openPlace th (ad j).toNat .load (p j) ∧ s.m.badPlace (p j) (vWidth (vtype w) / 8) = false

theorem State.readable {s : State} {th : ThreadId} {va n : Nat} {p : Place} (h : s.openPlace th va .load p) (hb : s.m.badPlace p n = false) :
    (s.issuing th).Readable (ThreadId.key th) va n p where
  place := h.1
  isOpen pc off hp := ((s.issuing_beside th).alike.held pc).trans (h.2.2 pc off hp)
  good := ((s.issuing_beside th).badPlace p n).trans hb

/-- The access of a vector load. -/
def State.vecAcc (s : State) (th : ThreadId) (w : Word) (ad : Nat → Word) : Acc1 :=
  vecLoad w (ThreadId.key th) (vWidth (vtype w)) (fun j => (ad j).toNat) (List.range (2048 / vWidth (vtype w))) (Acc1.start (s.issuing th))

/-- The module that a vector load leaves. -/
def State.vecLoaded (s : State) (th : ThreadId) (w : Word) (ad : Nat → Word) : Module :=
  (s.vecAcc th w ad).finishV (s.issuing th) (ThreadId.key th) true [Word.rd w] (vBase (s.thread th) w).toNat ((s.thread th).mine w)
    (fun j => (ad j).toNat)

/-- An acquire, or a walk of a performed element, holds the access back (15 R373; 12 R293). -/
def State.heldBack (s : State) (th : ThreadId) (w : Word) (ad : Nat → Word) : Bool :=
  (s.issuing th).acqPending (ThreadId.key th) || ((s.thread th).mine w).any (fun j => (s.issuing th).walkHeld (ThreadId.key th) (ad j).toNat)

section
variable {s : State} {th : ThreadId} {w : Word} {i : Instr} {r : Row} {stride : Thread → Word} {addr : Thread → Word → Nat → Nat}
  {ad : Nat → Word} (he : exec i s = s.inst r th w (vmemBody w true stride addr)) (hi : s.issues r th w = true)
  (hf : ∀ j, addr (s.thread th) (vBase (s.thread th) w) j = (ad j).toNat)
  (hs : (stride (s.thread th)).toNat % (vWidth (vtype w) / 8) = 0) (hb : (vBase (s.thread th) w).toNat % (vWidth (vtype w) / 8) = 0)
include he hi hf hs hb

/-- An aligned vector load is made, unless an acquire or a walk of a performed element holds it back. -/
theorem State.vload_exec : exec i s = .next { s with m := if s.heldBack th w ad then s.issuing th else s.vecLoaded th w ad } := by
  have aligned : ((vBase (s.thread th) w).toNat % (vWidth (vtype w) / 8) != 0 ||
      (stride (s.thread th)).toNat % (vWidth (vtype w) / 8) != 0) = false := by simp [hs, hb]
  have places : addr ((s.issuing th).th (ThreadId.key th)) (vBase ((s.issuing th).th (ThreadId.key th)) w) = fun j => (ad j).toNat := funext hf
  have body : vmemBody w true stride addr (s.issuing th) (ThreadId.key th) =
      if s.heldBack th w ad then s.issuing th else s.vecLoaded th w ad := by
    refine (if_neg (by simpa [State.thread] using aligned)).trans ?_
    rw [places]
    rfl
  rw [he, State.inst_issues s r th w _ hi, body]

theorem State.vload_waits {j : Nat} (hj : j < 2048 / vWidth (vtype w)) (hp : (s.thread th).performs w j = true) :
    WaitsAtWalk i s th (ad j).toNat := by
  intro held
  have mine : j ∈ (s.thread th).mine w := List.mem_filter.mpr ⟨List.mem_range.mpr hj, hp⟩
  have back : s.heldBack th w ad = true := by
    rw [State.heldBack, List.any_eq_true.mpr ⟨j, mine, held⟩, Bool.or_true]
  exact Completes.of_exec (State.vload_exec he hi hf hs hb) (if_pos back)

end

end Sys2Proof.Machine
end

section
/-! PROOFS of the encoding family (04_agquin_encoding_and_scalar_core), nineteenth part: a vector load whose elements are read, and one that faults. -/

namespace Sys2Proof.Machine

/-! ### What a recorded vector load delivers -/

/-- A recorded load adds one performed access to its thread, or none when nothing is to be delivered. -/
theorem Thread.recordedLoad_eq (t : Thread) (got : List Got) (d va : Nat) : ∃ (o : Outst) (c : Nat), o.got = got ∧ o.left = 0 ∧
    t.recordedLoad got d va = { t with outst := t.outst ++ if o.got = [] then [] else [o], issued := c } := by
  refine ⟨{ t.access got 0 true false [] [d] va 0 none true with id := t.issued }, if got = [] then t.issued else t.issued + 1, rfl, rfl, ?_⟩
  by_cases none_ : got = []
  · simp only [Thread.recordedLoad, Thread.access, none_, if_true, List.append_nil]
  · simp only [Thread.recordedLoad, Thread.access, Thread.opens, none_, if_false]

/-- A performed access that was made last is delivered after the others that are ready. -/
theorem Thread.settled_recorded {x : Thread} {os : List Outst} {o : Outst} (hx : x.outst = os ++ if o.got = [] then [] else [o])
    (ho : o.ready = true) : ∃ y : Thread, x.settled = o.got.foldl Thread.put y ∧ (os.filter Outst.ready = [] → y.v = x.v) := by
  by_cases none_ : o.got = []
  · rw [if_pos none_, List.append_nil] at hx
    exact ⟨x.settled, by rw [none_]; rfl, fun h => by rw [Thread.settled_none (hx ▸ h)]⟩
  · rw [if_neg none_] at hx
    exact ⟨_, Thread.settled_last hx ho, fun h => by rw [h]; rfl⟩

/-- What the elements of the destination are once such a load has been delivered. -/
theorem Thread.load_delivered {t x : Thread} {w : Word} {ew n : Nat} {v : Nat → Nat} {p : Nat → Place} {f : Nat → Nat} {os : List Outst}
    {o : Outst} (hx : x.outst = os ++ if o.got = [] then [] else [o]) (hl : o.left = 0)
    (hg : o.got = (List.range n).flatMap (t.elemGots w ew v p f)) (fits : ew * n ≤ 2048) :
    ∃ y : Thread, (os.filter Outst.ready = [] → y.v = x.v) ∧ ∀ j, j < n → velem (x.settled.getV (Word.rd w)) ew j =
      if t.performs w j then v j % 2 ^ ew
      else if decide (t.vidx.toNat ≤ j) && Word.slice w 4 4 == 1 then 0 else velem (y.getV (Word.rd w)) ew j := by
  have ready : o.ready = true := by
    have clear : o.got.any (fun g => g.viol) = false := by
      rw [List.any_eq_false, hg]
      intro g hm
      rw [Thread.elemGots_viol t w ew v p f n g hm]
      decide
    rw [Outst.ready, hl, clear]
    rfl
  obtain ⟨y, settled, same⟩ := Thread.settled_recorded hx ready
  exact ⟨y, same, fun j hj => by rw [settled, hg, velem_delivered t y w fits v p f hj]⟩

/-! ### The access of a vector load -/

section
variable {s : State} {th : ThreadId} {w : Word} {ad : Nat → Word} {p : Nat → Place} {e : Nat}

theorem State.thread_open (s : State) (th : ThreadId) : (s.thread th).outst.filter Outst.ready = [] := Module.settle_open _ _

/-- What the elements below `e` deliver. -/
def State.loadGots (s : State) (th : ThreadId) (w : Word) (ad : Nat → Word) (p : Nat → Place) (e : Nat) : List Got :=
  (List.range e).flatMap ((s.thread th).elemGots w (vWidth (vtype w)) (fun i => s.m.readPlace (p i) (vWidth (vtype w) / 8)) p
    (fun j => (ad j).toNat))

theorem State.vecLoad_passes (hg : s.GoodBelow th w ad p e) (rest : List Nat) : ∃ b : Acc1,
    vecLoad w (ThreadId.key th) (vWidth (vtype w)) (fun j => (ad j).toNat) (List.range e ++ rest) (Acc1.start (s.issuing th)) =
      vecLoad w (ThreadId.key th) (vWidth (vtype w)) (fun j => (ad j).toNat) rest b ∧
    b.Passed (s.issuing th) (ThreadId.key th) ∧ b.got = s.loadGots th w ad p e := by
  have readable : ∀ i ∈ List.range e, (s.thread th).performs w i = true →
      (s.issuing th).Readable (ThreadId.key th) (ad i).toNat (vWidth (vtype w) / 8) (p i) := by
    intro i hi performs
    obtain ⟨place, good⟩ := hg i (List.mem_range.mp hi) performs
    exact State.readable place good
  obtain ⟨b, same, passed, got⟩ := Machine.vecLoad_passes rest (List.range e) (Acc1.start_passed (s.issuing th) (ThreadId.key th)) readable
  refine ⟨b, same, passed, ?_⟩
  rw [got, State.loadGots]
  simp only [(s.issuing_beside th).readPlace]
  rfl

/-- No acquire and no walk of a performed element holds the load back. -/
theorem State.heldBack_open (hm : s.mayAccess th 0)
    (ho : ∀ j, j < 2048 / vWidth (vtype w) → (s.thread th).performs w j = true → s.walkOpen th (ad j).toNat) :
    s.heldBack th w ad = false := by
  have walks : ((s.thread th).mine w).any (fun j => (s.issuing th).walkHeld (ThreadId.key th) (ad j).toNat) = false := by
    rw [List.any_eq_false]
    intro j hj
    obtain ⟨inside, performs⟩ := List.mem_filter.mp hj
    have isOpen := ho j (List.mem_range.mp inside) performs
    rw [State.walkOpen] at isOpen
    rw [isOpen]
    decide
  rw [State.heldBack, hm.1, walks]
  rfl

/-! ### A load whose elements can all be read -/

/-- The load has moved on, each of its elements is what R111 gives it, and nothing else differs. -/
def State.LoadMoves (s : State) (th : ThreadId) (w : Word) (p : Nat → Place) (m : Module) : Prop :=
  let k := ThreadId.key th
  let ew := vWidth (vtype w)
  VectorMoved s th m ∧ SameBytes s.m m ∧ Alone s.m m th ∧ ∀ j, j < 2048 / ew →
    velem (((m.settle k).th k).getV (Word.rd w)) ew j = (s.thread th).elementAfter w (Word.rd w) ew j (s.m.readPlace (p j) (ew / 8))

theorem State.vecLoaded_good (hg : s.GoodBelow th w ad p (2048 / vWidth (vtype w))) : s.LoadMoves th w p (s.vecLoaded th w ad) := by
  obtain ⟨b, acc, passed, got⟩ := State.vecLoad_passes hg []
  rw [List.append_nil] at acc
  have made : s.vecAcc th w ad = b := acc
  rw [State.vecLoaded, made, passed.finishV]
  generalize (vBase (s.thread th) w).toNat = va
  have recorded : Beside [ThreadId.key th] s.m (b.recordedLoad (ThreadId.key th) (Word.rd w) va) :=
    ((s.issuing_beside th).trans passed.seen.toBeside.mono).trans (Module.recordLoad_beside _ _ _ _ _)
  have counted := Module.countVector_beside (b.recordedLoad (ThreadId.key th) (Word.rd w) va) (ThreadId.key th)
    (((s.thread th).mine w).map fun j => (ad j).toNat)
  have thread : (b.recordedLoad (ThreadId.key th) (Word.rd w) va).th (ThreadId.key th) =
      (s.thread th).recordedLoad (s.loadGots th w ad p (2048 / vWidth (vtype w))) (Word.rd w) va := by
    rw [Acc1.recordedLoad, Module.recordLoad_th, passed.seen.th _ List.not_mem_nil, got]
    rfl
  obtain ⟨o, c, gots, left, opened⟩ := (s.thread th).recordedLoad_eq (s.loadGots th w ad p (2048 / vWidth (vtype w))) (Word.rd w) va
  rw [opened, ← counted.th _ List.not_mem_nil] at thread
  have before := recorded.trans counted.mono
  generalize (b.recordedLoad (ThreadId.key th) (Word.rd w) va).countVector _ _ = x at thread before
  have all := before.trans (x.retireV_beside (ThreadId.key th) (x.th (ThreadId.key th)))
  have moved : (x.retireV (ThreadId.key th) (x.th (ThreadId.key th))).th (ThreadId.key th) =
      { s.thread th with ip := (s.thread th).ip + 8, retiredAt := s.m.pilot, vidx := 0,
                         outst := (s.thread th).outst ++ (if o.got = [] then [] else [o]), issued := c } := by
    rw [Module.retireV_th, thread, before.pilot]
  refine ⟨⟨_, _, moved⟩, all.sameBytes, all.alone (fun _ h => h), fun j hj => ?_⟩
  obtain ⟨y, same, elements⟩ := Thread.load_delivered (congrArg Thread.outst moved) left gots (vWidth_count (vtype w)).le
  have kept : y.v = (s.thread th).v := (same (s.thread_open th)).trans (by rw [moved])
  have reg : y.getV (Word.rd w) = (s.thread th).getV (Word.rd w) := by rw [Thread.getV, Thread.getV, kept]
  rw [Module.settle_th, elements j hj, Thread.elementAfter_eq, reg]

/-! ### A load that faults at an element -/

/-- The bytes of an element fit its width. -/
theorem Module.readPlace_fits (m : Module) (q : Place) (ty : Nat) :
    m.readPlace q (vWidth ty / 8) % 2 ^ vWidth ty = m.readPlace q (vWidth ty / 8) := by
  have small := m.readPlace_lt q (vWidth ty / 8)
  refine Nat.mod_eq_of_lt ?_
  rcases vWidth_cases ty with h | h | h | h <;> rw [h] at small ⊢ <;> exact small

/-- A module in which the elements below `e` of the load have been delivered: its thread has not moved, no access of it is ready, and the
fault rings are as before. -/
structure State.LoadedBelow (s : State) (th : ThreadId) (w : Word) (p : Nat → Place) (e : Nat) (x : Module) : Prop where
  ip : (x.th (ThreadId.key th)).ip = (s.thread th).ip
  ctx : (x.th (ThreadId.key th)).ctx = (s.thread th).ctx
  isOpen : (x.th (ThreadId.key th)).outst.filter Outst.ready = []
  ring : ∀ n, n < 64 → SameRing n s.m x
  elements : ∀ j, j < e → (s.thread th).performs w j = true →
    velem ((x.th (ThreadId.key th)).getV (Word.rd w)) (vWidth (vtype w)) j = s.m.readPlace (p j) (vWidth (vtype w) / 8)

/-- The elements below `e`, recorded and returned in a module that is beside the one in which the load issued. -/
theorem State.returned_below {y : Module} (hy : Beside [] (s.issuing th) y) (hn : e ≤ 2048 / vWidth (vtype w)) (va : Nat) (l : List Nat) :
    s.LoadedBelow th w p e (((y.recordAccess (ThreadId.key th) (s.loadGots th w ad p e) 0 true false [] [Word.rd w] va 0 none true).returned
      (ThreadId.key th)).countVector (ThreadId.key th) l) := by
  have recorded := Module.recordLoad_th y (ThreadId.key th) (s.loadGots th w ad p e) (Word.rd w) va
  have beside : Beside [ThreadId.key th] s.m _ := ((s.issuing_beside th).trans hy.mono).trans
    (y.recordLoad_beside (ThreadId.key th) (s.loadGots th w ad p e) (Word.rd w) va)
  obtain ⟨o, c, gots, left, opened⟩ := (s.thread th).recordedLoad_eq (s.loadGots th w ad p e) (Word.rd w) va
  have same : y.th (ThreadId.key th) = s.thread th := hy.th _ List.not_mem_nil
  rw [same, opened] at recorded
  generalize y.recordAccess _ _ _ _ _ _ _ _ _ _ _ = z at recorded beside
  have counted := (z.returned (ThreadId.key th)).countVector_beside (ThreadId.key th) l
  have thread := (counted.th (ThreadId.key th) List.not_mem_nil).trans (z.returned_th (ThreadId.key th))
  have clear : ((if o.got = [] then [] else [o]) : List Outst).map Outst.counted = if o.got = [] then [] else [o] := by
    split
    · rfl
    · rw [List.map_singleton, Outst.counted_of_none (by rw [gots]; exact Thread.elemGots_viol _ _ _ _ _ _ _)]
  rw [recorded, List.map_append, clear] at thread
  obtain ⟨regs, v, os, left_⟩ := Thread.settled_regs
    { s.thread th with outst := (s.thread th).outst.map Outst.counted ++ (if o.got = [] then [] else [o]), issued := c }
  have fits : vWidth (vtype w) * e ≤ 2048 := (Nat.mul_le_mul_left _ hn).trans (vWidth_count (vtype w)).le
  refine ⟨by rw [thread, left_], by rw [thread, left_], ?_, fun n hn => ?_, fun j hj hp => ?_⟩
  · rw [counted.th _ List.not_mem_nil]
    exact z.returned_open (ThreadId.key th)
  · exact ((beside.toElsewhere.sameRing hn).trans (z.returned_sameRing (ThreadId.key th) hn)).trans (counted.toElsewhere.sameRing hn)
  · obtain ⟨_, -, elements⟩ := Thread.load_delivered (t := s.thread th) (x := { s.thread th with
      outst := (s.thread th).outst.map Outst.counted ++ (if o.got = [] then [] else [o]), issued := c }) rfl left gots fits
    rw [thread, elements j hj, if_pos hp, Module.readPlace_fits]

/-- The elements in ascending order: those below `e`, then `e`, then the others. -/
theorem range_at {e n : Nat} (h : e < n) : ∃ rest, List.range n = List.range e ++ e :: rest := by
  obtain ⟨r, rfl⟩ := Nat.exists_eq_add_of_lt h
  refine ⟨(List.range r).map (fun i => e + (i + 1)), ?_⟩
  rw [Nat.add_assoc, List.range_add, List.range_succ_eq_map, List.map_cons, List.map_map]
  rfl

/-- A load stops at the first performed element that faults. -/
theorem State.vecLoaded_stops {c : Nat} (hg : s.GoodBelow th w ad p e) (hn : e < 2048 / vWidth (vtype w))
    (he : (s.thread th).performs w e = true) (hf : s.xlat th (ad e).toNat .load = .fault c) :
    ∃ x : Module, s.LoadedBelow th w p e x ∧ s.vecLoaded th w ad = x.faultStopV (ThreadId.key th) c (ad e).toNat e := by
  obtain ⟨rest, range⟩ := range_at hn
  obtain ⟨b, same, passed, got⟩ := State.vecLoad_passes hg (e :: rest)
  have acc : s.vecAcc th w ad = { b with m := (b.m.thXlat (ThreadId.key th) (ad e).toNat .load).1, stop := some (e, c, (ad e).toNat) } := by
    rw [State.vecAcc, range]
    exact same.trans (vecLoad_stops passed he hf)
  have beside := passed.seen.toBeside.trans (b.m.thXlat_beside (ThreadId.key th) (ad e).toNat .load)
  have puts : (s.vecAcc th w ad).puts = [] := by rw [acc]; exact passed.puts
  have left : (s.vecAcc th w ad).left = 0 := by rw [acc]; exact passed.left
  have stop : (s.vecAcc th w ad).stop = some (e, c, (ad e).toNat) := by rw [acc]
  rw [State.vecLoaded, Acc1.finishV_stop puts left stop, Acc1.recordedLoad, acc, got]
  exact ⟨_, State.returned_below beside hn.le _ _, rfl⟩

/-- The load has stopped at element `e`: the elements below are delivered, and a record is kept while the ring is full (02 R50, R51). -/
def State.LoadFaults (s : State) (th : ThreadId) (w : Word) (p : Nat → Place) (e c va : Nat) (m : Module) : Prop :=
  let t := s.thread th
  let k := ThreadId.key th
  (m.th k).run = .stopped ∧ (m.th k).ip = t.ip ∧ (m.th k).vidx = BitVec.ofNat 8 e ∧
    (∀ j, j < e → t.performs w j = true →
      velem (((m.settle k).th k).getV (Word.rd w)) (vWidth (vtype w)) j = s.m.readPlace (p j) (vWidth (vtype w) / 8)) ∧
    (keyKind k ≠ 1 → t.ctx < 64 → s.m.ctxLive t.ctx = true → s.m.ringFull t.ctx = true →
      (m.ctx t.ctx).waitRecs = (s.m.ctx t.ctx).waitRecs ++ [mkRecord va c t.ctx (keyCore k) (keyThread k) e t.ip.toNat 0])

theorem State.LoadedBelow.faults {x : Module} (h : s.LoadedBelow th w p e x) (c va : Nat) :
    s.LoadFaults th w p e c va (x.faultStopV (ThreadId.key th) c va e) := by
  have thread := x.faultStopV_th (ThreadId.key th) c va e
  refine ⟨by rw [thread], by rw [thread]; exact h.ip, by rw [thread], fun j hj hp => ?_, fun hk hn hl hr => ?_⟩
  · have isOpen : ((x.faultStopV (ThreadId.key th) c va e).th (ThreadId.key th)).outst.filter Outst.ready = [] := by
      rw [thread]
      exact h.isOpen
    rw [Module.settle_th, Thread.settled_none isOpen, thread]
    exact h.elements j hj hp
  · have beside := Beside.setTh x (ThreadId.key th) { x.th (ThreadId.key th) with vidx := BitVec.ofNat 8 e }
    have ring := (h.ring _ hn).trans (beside.toElsewhere.sameRing hn)
    have ctx : ((x.setTh (ThreadId.key th) { x.th (ThreadId.key th) with vidx := BitVec.ofNat 8 e }).th (ThreadId.key th)).ctx =
        (s.thread th).ctx := by
      rw [Module.th_setTh_self]
      exact h.ctx
    have recorded := Module.stopAt_recorded _ (ThreadId.key th) (x.th (ThreadId.key th)).ip c va e 0 hk (by rw [ctx]; exact hn)
      (by rw [ctx]; exact ring.live.trans hl)
    rw [ctx] at recorded
    have waits := (recorded.1 (ring.full.trans hr)).1
    rw [ring.waits] at waits
    rw [← h.ip]
    exact waits

end

end Sys2Proof.Machine
end

section
/-! PROOFS of the encoding family (04_agquin_encoding_and_scalar_core), twentieth part: O30, the vector loads. -/

namespace Sys2Proof.Machine

/-! ### O30 -/

section
variable {s : State} {th : ThreadId} {w : Word} {i : Instr} {r : Row} {stride : Thread → Word} {addr : Thread → Word → Nat → Nat}
  {ad : Nat → Word} (he : exec i s = s.inst r th w (vmemBody w true stride addr)) (hi : s.issues r th w = true)
  (hf : ∀ j, addr (s.thread th) (vBase (s.thread th) w) j = (ad j).toNat)
  (hs : (stride (s.thread th)).toNat % (vWidth (vtype w) / 8) = 0) (hb : (vBase (s.thread th) w).toNat % (vWidth (vtype w) / 8) = 0)
include he hi hf hs hb

/-- A vector load that nothing holds back is made. -/
theorem State.vload_made {q : Module → Prop} (hm : s.mayAccess th 0)
    (ho : ∀ j, j < 2048 / vWidth (vtype w) → (s.thread th).performs w j = true → s.walkOpen th (ad j).toNat)
    (hq : q (s.vecLoaded th w ad)) : Completes i s q := by
  refine Completes.of_exec (State.vload_exec he hi hf hs hb) ?_
  rw [State.heldBack_open hm ho]
  exact hq

/-- The vector loads, by the addresses of their elements. -/
theorem State.vloads :
    (∀ j, j < 2048 / vWidth (vtype w) → (s.thread th).performs w j = true → WaitsAtWalk i s th (ad j).toNat) ∧ (s.mayAccess th 0 →
      (∀ p : Nat → Place, s.GoodBelow th w ad p (2048 / vWidth (vtype w)) → Completes i s (s.LoadMoves th w p)) ∧
      (∀ (p : Nat → Place) (e c : Nat), e < 2048 / vWidth (vtype w) → (s.thread th).performs w e = true → s.GoodBelow th w ad p e →
          s.xlat th (ad e).toNat .load = .fault c →
          (∀ j, j < 2048 / vWidth (vtype w) → (s.thread th).performs w j = true → s.walkOpen th (ad j).toNat) →
        Completes i s (s.LoadFaults th w p e c (ad e).toNat))) := by
  refine ⟨fun j hj hp => State.vload_waits he hi hf hs hb hj hp, fun hm => ⟨fun p hg => ?_, fun p e c hn hp hg fault ho => ?_⟩⟩
  · exact State.vload_made he hi hf hs hb hm (fun j hj hp => (hg j hj hp).1.2.1) (State.vecLoaded_good hg)
  · obtain ⟨x, below, stops⟩ := State.vecLoaded_stops hg hn hp fault
    refine State.vload_made he hi hf hs hb hm ho ?_
    rw [stops]
    exact below.faults c (ad e).toNat

end

/-- Settles O30: the elements below the first that faults are read and recorded as one access, which the thread's registers receive. -/
theorem vectorLoadsFillTheirElements : Obligations.VectorLoadsFillTheirElements := by
  unfold Obligations.VectorLoadsFillTheirElements
  intro s th w
  dsimp only
  have base := vBase_eq (s.thread th) w
  refine ⟨fun hi hb => ?_, fun hi hs hb => ?_, fun hi hb => ?_⟩ <;> rw [← base] at hb
  · exact State.vloads (r := .vld) (stride := noStride) rfl hi (fun j => by rw [← base]; rfl) (Nat.zero_mod _) hb
  · exact State.vloads (r := .vlds) (stride := regStride w) rfl hi (fun j => by rw [← base]; rfl) hs hb
  · exact State.vloads (r := .vgather) (stride := noStride) rfl hi (fun j => by rw [← base]; rfl) (Nat.zero_mod _) hb

end Sys2Proof.Machine
end

section
/-! PROOFS of the vector family (05_vector_instructions), first part: O22, the conversions. -/

namespace Sys2Proof.Machine

/-! ### A register of which the low bits are kept -/

theorem getLsbD_ofNat_mod {W : Nat} (x : BitVec W) (n i : Nat) :
    (BitVec.ofNat W (x.toNat % 2 ^ n)).getLsbD i = (decide (i < n) && x.getLsbD i) := by
  rw [BitVec.getLsbD_ofNat, Nat.testBit_mod_two_pow, BitVec.testBit_toNat, Bool.and_left_comm]
  by_cases inside : i < W
  · rw [decide_eq_true inside, Bool.true_and]
  · rw [BitVec.getLsbD_of_ge x i (Nat.not_lt.mp inside), Bool.and_false]

theorem getLsbD_vtrim (x : VReg) (dw n i : Nat) : (vtrim x dw n).getLsbD i = (decide (i < dw * n) && x.getLsbD i) :=
  getLsbD_ofNat_mod x (dw * n) i

/-- The elements that are counted keep their values. -/
theorem velem_vtrim (x : VReg) (dw : Nat) {n j : Nat} (hj : j < n) : velem (vtrim x dw n) dw j = velem x dw j := by
  apply Nat.eq_of_testBit_eq
  intro b
  rw [testBit_velem, testBit_velem, BitVec.testBit_toNat, BitVec.testBit_toNat, getLsbD_vtrim]
  by_cases hb : b < dw
  · have inside : dw * j + b < dw * n := calc
      dw * j + b < dw * (j + 1) := by rw [Nat.mul_succ]; omega
      _ ≤ dw * n := Nat.mul_le_mul_left dw hj
    rw [decide_eq_true inside, Bool.true_and]
  · rw [decide_eq_false hb, Bool.false_and, Bool.false_and]

/-! ### O22 -/

/-- The elements of a conversion fit the destination (05 R117). -/
theorem vcvt_fits (sw : Nat) (dst : Nat) : vWidth dst * (2048 / max sw (vWidth dst)) ≤ 2048 := calc
  vWidth dst * (2048 / max sw (vWidth dst)) ≤ vWidth dst * (2048 / vWidth dst) :=
    Nat.mul_le_mul_left _ (Nat.div_le_div_left (le_max_right _ _) (vWidth_pos dst))
  _ = 2048 := vWidth_count dst

/-- A destination register of a conversion, trimmed when the form narrows (05 R118). -/
theorem Thread.converted (t : Thread) (w : Word) (d sw : Nat) {dw n : Nat} (fits : dw * n ≤ 2048) (f : Nat → Nat) :
    let x := if dw < sw then vtrim (t.mergeV w d dw n f) dw n else t.mergeV w d dw n f
    (∀ j, j < n → velem x dw j = t.elementAfter w d dw j (f j)) ∧ (dw < sw → ∀ i, dw * n ≤ i → x.getLsbD i = false) := by
  intro x
  by_cases narrows : dw < sw
  · have trimmed : x = vtrim (t.mergeV w d dw n f) dw n := if_pos narrows
    refine ⟨fun j hj => ?_, fun _ i hi => ?_⟩
    · rw [trimmed, velem_vtrim _ _ hj, velem_mergeV _ _ _ fits _ hj]
    · rw [trimmed, getLsbD_vtrim, decide_eq_false (Nat.not_lt.mpr hi), Bool.false_and]
  · have whole : x = t.mergeV w d dw n f := if_neg narrows
    exact ⟨fun j hj => by rw [whole, velem_mergeV _ _ _ fits _ hj], fun h => absurd h narrows⟩

/-- Settles O22: either destination is written as `Thread.converted` says, from the elements and flags of its row. -/
theorem vectorConversions : Obligations.VectorConversions := by
  unfold Obligations.VectorConversions
  intro s th w hi t kind src dst sw dw n a e rm after
  have fits : dw * n ≤ 2048 := vcvt_fits sw dst
  refine ⟨fun plain => ?_, fun pair => ?_⟩
  · have body : vcvtBody w (s.issuing th) (ThreadId.key th) = _ := if_neg (Bool.eq_false_iff.mp plain)
    exact ⟨_, _, State.retiresV rfl hi body, t.converted w (Word.rd w) sw fits _, t.vflags_of w n _⟩
  · have body : vcvtBody w (s.issuing th) (ThreadId.key th) = _ := if_pos pair
    exact ⟨_, _, _, State.retiresV rfl hi body, t.converted w (Word.rd w) sw fits _, t.converted w (Word.rd w + 1) sw fits _,
      t.vflags_of w n _⟩

end Sys2Proof.Machine
end

section
/-! PROOFS of the vector family (05_vector_instructions), second part: O23, the mask operations and the compares. -/

namespace Sys2Proof.Machine

/-! ### Mask operations (05 R112) -/

/-- The mask that a mask operation of minor below 6 writes. -/
def maskResult (minor : Nat) (a b : MReg) (x : Word) : MReg :=
  if minor = 0 then a &&& b else if minor = 1 then a ||| b else if minor = 2 then a ^^^ b
  else if minor = 3 then a &&& ~~~b else if minor = 4 then ~~~a else BitVec.ofNat 256 (2 ^ min 256 x.toNat - 1)

theorem maskOp_mask {w : Word} (hn : Word.minor w < 6) (m : Module) (k : Nat) :
    maskOp w m k = m.retireV k ((m.th k).setM (Word.rd w)
      (maskResult (Word.minor w) ((m.th k).getM (Word.ra w)) ((m.th k).getM (Word.rb w)) ((m.th k).getS (Word.ra w)))) := by
  rw [maskOp]
  generalize Word.minor w = n at hn
  interval_cases n <;> rfl

theorem maskOp_count {w : Word} (hn : Word.minor w = 6) (m : Module) (k : Nat) :
    maskOp w m k = m.retireV k ((m.th k).setSN (Word.rd w) (popc (vCount (vtype w)) ((m.th k).getM (Word.ra w)).toNat)) := by
  rw [maskOp, hn]
  rfl

theorem maskOp_first {w : Word} (hn : Word.minor w = 7) (m : Module) (k : Nat) :
    maskOp w m k = m.retireV k ((m.th k).setSN (Word.rd w) (mfirst ((m.th k).getM (Word.ra w)) (vCount (vtype w)))) := by
  rw [maskOp, hn]
  rfl

/-- The bits below a count. -/
theorem getLsbD_below (x : Nat) {i : Nat} (hi : i < 256) : (BitVec.ofNat 256 (2 ^ min 256 x - 1)).getLsbD i = decide (i < x) := by
  rw [BitVec.getLsbD_ofNat, Nat.testBit_two_pow_sub_one, decide_eq_true hi, Bool.true_and, decide_eq_decide]
  omega

/-- Each bit of the mask that is written, minor by minor. -/
theorem maskResult_bits (m : Nat) (hm : m < 6) (a b : MReg) (x : Word) :
    (m = 0 → ∀ i < 256, (maskResult m a b x).getLsbD i = (a.getLsbD i && b.getLsbD i)) ∧
    (m = 1 → ∀ i < 256, (maskResult m a b x).getLsbD i = (a.getLsbD i || b.getLsbD i)) ∧
    (m = 2 → ∀ i < 256, (maskResult m a b x).getLsbD i = (a.getLsbD i ^^ b.getLsbD i)) ∧
    (m = 3 → ∀ i < 256, (maskResult m a b x).getLsbD i = (a.getLsbD i && !b.getLsbD i)) ∧
    (m = 4 → ∀ i < 256, (maskResult m a b x).getLsbD i = !a.getLsbD i) ∧
    (m = 5 → ∀ i < 256, (maskResult m a b x).getLsbD i = decide (i < x.toNat)) := by
  have inverted : ∀ (y : MReg), ∀ i < 256, (~~~y).getLsbD i = !y.getLsbD i := fun y i hi => by
    rw [BitVec.getLsbD_not, decide_eq_true hi, Bool.true_and]
  refine ⟨?_, ?_, ?_, ?_, ?_, ?_⟩ <;> rintro rfl i hi
  · exact BitVec.getLsbD_and
  · exact BitVec.getLsbD_or
  · exact BitVec.getLsbD_xor
  · exact BitVec.getLsbD_and.trans (by rw [inverted b i hi])
  · exact inverted a i hi
  · exact getLsbD_below x.toNat hi

/-- mfirst is the lowest set bit below `n`, or `n` (05 R112). -/
theorem mfirst_lowest (x : MReg) (n : Nat) :
    mfirst x n ≤ n ∧ (∀ i < mfirst x n, x.getLsbD i = false) ∧ (mfirst x n < n → x.getLsbD (mfirst x n) = true) := by
  rw [mfirst]
  cases found : (List.range n).find? (fun i => x.getLsbD i) with
  | none =>
    rw [List.find?_range_eq_none] at found
    exact ⟨le_rfl, fun i hi => by simpa using found i hi, fun h => absurd h (lt_irrefl n)⟩
  | some v =>
    obtain ⟨set, inside, lowest⟩ := List.find?_range_eq_some.mp found
    exact ⟨(List.mem_range.mp inside).le, fun i hi => by simpa using lowest i hi, fun _ => set⟩

/-! ### Compares -/

theorem vCount_le (ty : Nat) : vCount ty ≤ 256 := by
  rw [vCount]
  rcases vWidth_cases ty with h | h | h | h <;> rw [h] <;> decide

theorem classify_vcompare {w : Word} (h : classify w = some .vcompare) : Word.minor w ≤ 3 ∨ 8 ≤ Word.minor w ∧ Word.minor w ≤ 10 := by
  have major : Word.major w = 0x15 := by simpa [Row.majors] using classify_major w h
  simp only [classify, major, classifyVcmp, rowIf_eq_some, Bool.and_eq_true, Bool.or_eq_true, decide_eq_true_eq] at h
  obtain ⟨⟨⟨⟨⟨⟨type, -⟩, -⟩, -⟩, -⟩, -⟩, -⟩ := h
  exact type.imp And.left And.left

/-- Each minor's comparison is that of its row of Table 5-2. -/
theorem vcmpElem_eq {n : Nat} (hn : n ≤ 3 ∨ 8 ≤ n ∧ n ≤ 10) (ty ew a b : Nat) :
    vcmpElem n ty ew a b =
      if n = 0 then (a == b, 0) else if n = 1 then (a != b, 0)
      else if n = 2 then (decide (intOf (vSigned ty) ew a < intOf (vSigned ty) ew b), 0)
      else if n = 3 then (decide (intOf (vSigned ty) ew b ≤ intOf (vSigned ty) ew a), 0)
      else fCompare (vFmt ty) (if n = 8 then .eq else if n = 9 then .lt else .le) a b := by
  rcases hn with integer | ⟨low, high⟩ <;> interval_cases n <;> rfl

/-- A mask of which the inactive elements at or above VIDX are cleared under z = 1 (05 R111). -/
def Thread.zeroedM (t : Thread) (w : Word) (n : Nat) : MReg :=
  (List.range n).foldl (fun (x : MReg) i =>
    if decide (t.vidx.toNat ≤ i) && !t.active w i && Word.slice w 4 4 == 1 then x &&& ~~~(BitVec.ofNat 256 (2 ^ i)) else x)
    (t.getM (Word.rd w))

theorem Thread.getLsbD_zeroedM (t : Thread) (w : Word) {n j : Nat} (hn : n ≤ 256) (hj : j < n) :
    (t.zeroedM w n).getLsbD j =
      if decide (t.vidx.toNat ≤ j) && !t.active w j && Word.slice w 4 4 == 1 then false else (t.getM (Word.rd w)).getLsbD j := by
  rw [Thread.zeroedM, foldl_pointwise (fun x j => BitVec.getLsbD x j) _
    (fun i old => if decide (t.vidx.toNat ≤ i) && !t.active w i && Word.slice w 4 4 == 1 then false else old), if_pos hj]
  intro x i j hi
  split
  · exact getLsbD_setBit x (by omega) false j
  · rw [ite_self]

/-- The mask that a compare writes, from the outcomes of its elements. -/
def Thread.comparedM (t : Thread) (w : Word) (n : Nat) (f : Nat → Bool) : MReg :=
  BitVec.ofNat 256 ((t.mergeM w (t.zeroedM w n) n f).toNat % 2 ^ n)

theorem Thread.getLsbD_comparedM_of_ge (t : Thread) (w : Word) {n j : Nat} (f : Nat → Bool) (hj : n ≤ j) :
    (t.comparedM w n f).getLsbD j = false := by
  rw [Thread.comparedM, getLsbD_ofNat_mod, decide_eq_false (Nat.not_lt.mpr hj), Bool.false_and]

/-- A bit that a compare has an element for (05 R111). -/
theorem Thread.getLsbD_comparedM (t : Thread) (w : Word) {n j : Nat} (hn : n ≤ 256) (f : Nat → Bool) (hj : j < n) :
    (t.comparedM w n f).getLsbD j =
      if j < t.vidx.toNat then (t.getM (Word.rd w)).getLsbD j else if t.active w j then f j
      else if Word.slice w 4 4 = 1 then false else (t.getM (Word.rd w)).getLsbD j := by
  rw [Thread.comparedM, getLsbD_ofNat_mod, decide_eq_true hj, Bool.true_and, Thread.getLsbD_mergeM _ _ _ hn,
    Thread.getLsbD_zeroedM _ _ hn hj, Thread.performs]
  by_cases below : j < t.vidx.toNat
  · simp [below, Nat.not_le.mpr below]
  · by_cases active : t.active w j = true
    · simp [below, Nat.not_lt.mp below, active, hj]
    · simp [below, Nat.not_lt.mp below, active]

/-- What a compare leaves of its thread. -/
theorem vcompareBody_eq (w : Word) (m : Module) (k : Nat) {r : Nat → Bool × Flags}
    (hr : ∀ j, vcmpElem (Word.minor w) (vtype w) (vWidth (vtype w)) ((m.th k).va w (vWidth (vtype w)) j)
      ((m.th k).vb w (vWidth (vtype w)) j) = r j) :
    vcompareBody w m k = m.retireV k (((m.th k).setM (Word.rd w) ((m.th k).comparedM w (vCount (vtype w)) (fun j => (r j).1))).orFlags
      ((m.th k).vflags w (vCount (vtype w)) (fun j => (r j).2))) := by
  obtain rfl := funext hr
  rfl

/-! ### O23 -/

/-- Settles O23: a mask operation by its minor, and a compare by the bits that have an element and those above. -/
theorem maskOperationsAndCompares : Obligations.MaskOperationsAndCompares := by
  unfold Obligations.MaskOperationsAndCompares
  intro s th w t a b m ty ew n d fin
  refine ⟨fun hi => ⟨fun hm => ?_, fun hm => ?_, fun hm => ?_⟩, fun hi => ?_⟩
  · exact ⟨_, State.retiresV rfl hi (maskOp_mask hm _ _), maskResult_bits m hm a b _⟩
  · exact State.retiresV rfl hi (maskOp_count hm _ _)
  · exact ⟨_, State.retiresV rfl hi (maskOp_first hm _ _), mfirst_lowest a n⟩
  · intro x y sg r
    have elements := vcompareBody_eq w (s.issuing th) (ThreadId.key th) (r := r) fun j =>
      vcmpElem_eq (classify_vcompare (State.issues_row hi)) ty ew (x j) (y j)
    exact ⟨_, _, State.retiresV rfl hi elements, fun j hj => t.getLsbD_comparedM w (vCount_le ty) _ hj,
      fun j hj => t.getLsbD_comparedM_of_ge w _ hj, t.vflags_of w n _⟩

end Sys2Proof.Machine
end

section
/-! PROOFS of the matrix family (06_matrix_unit), first part: what the updates of a core's tiles, sets, channels and queue write, and what they leave. -/

namespace Sys2Proof.Machine

/-! ### A fold whose steps write what is seen -/

/-- What no step changes, the fold does not. -/
theorem foldl_kept {σ δ β : Type} {I : σ → Prop} {see : σ → β} {step : σ → δ → σ} : ∀ {l : List δ} {x : σ}, I x →
    (∀ x, ∀ d ∈ l, I x → I (step x d)) → (∀ x, ∀ d ∈ l, I x → see (step x d) = see x) → see (l.foldl step x) = see x
  | [], _, _, _, _ => rfl
  | d :: _, x, hx, hi, hs =>
    (foldl_kept (I := I) (hi x d List.mem_cons_self hx) (fun y e he => hi y e (List.mem_cons_of_mem _ he))
      (fun y e he => hs y e (List.mem_cons_of_mem _ he))).trans (hs x d List.mem_cons_self hx)

/-- What some step writes, and every other step leaves, is seen after the fold. -/
theorem foldl_written {σ δ β : Type} {I : σ → Prop} {see : σ → β} {step : σ → δ → σ} (hit : δ → Prop) {v : β} : ∀ {l : List δ} {x : σ}, I x →
    (∀ x, ∀ d ∈ l, I x → I (step x d)) → (∀ x, ∀ d ∈ l, I x → hit d → see (step x d) = v) →
    (∀ x, ∀ d ∈ l, I x → ¬ hit d → see (step x d) = see x) → (∃ d ∈ l, hit d) → see (l.foldl step x) = v
  | [], _, _, _, _, _, h => by obtain ⟨_, hd, -⟩ := h; cases hd
  | d :: l, x, hx, hi, hw, hk, h => by
    have next := hi x d List.mem_cons_self hx
    have hi' : ∀ y, ∀ e ∈ l, I y → I (step y e) := fun y e he => hi y e (List.mem_cons_of_mem _ he)
    have hw' : ∀ y, ∀ e ∈ l, I y → hit e → see (step y e) = v := fun y e he => hw y e (List.mem_cons_of_mem _ he)
    have hk' : ∀ y, ∀ e ∈ l, I y → ¬ hit e → see (step y e) = see y := fun y e he => hk y e (List.mem_cons_of_mem _ he)
    by_cases later : ∃ e ∈ l, hit e
    · exact foldl_written (I := I) (l := l) (x := step x d) hit next hi' hw' hk' later
    · obtain ⟨e, he, hit_e⟩ := h
      obtain rfl : e = d := (List.mem_cons.mp he).resolve_right fun he => later ⟨e, he, hit_e⟩
      rw [List.foldl_cons, foldl_kept (I := I) next hi' fun y f hf hy => hk' y f hf hy fun hitf => later ⟨f, hf, hitf⟩]
      exact hw x e List.mem_cons_self hx hit_e

/-- A fold that writes a state and gathers beside it. -/
theorem foldl_fst {σ τ δ : Type} {step : σ × τ → δ → σ × τ} {f : σ → δ → σ} (h : ∀ r d, (step r d).1 = f r.1 d) :
    ∀ (l : List δ) (r : σ × τ), (l.foldl step r).1 = l.foldl f r.1
  | [], _ => rfl
  | d :: l, r => by rw [List.foldl_cons, List.foldl_cons, foldl_fst h l, h]

/-- A fold that appends one value after another. -/
theorem foldl_appends {τ δ ε : Type} {step : List ε × τ → δ → List ε × τ} {f : δ → ε} (h : ∀ r d, (step r d).1 = r.1 ++ [f d]) (l : List δ)
    (r : List ε × τ) : (l.foldl step r).1 = r.1 ++ l.map f := by
  rw [foldl_fst (f := fun a d => a ++ [f d]) h, List.foldl_append_eq_append]
  exact congrArg (r.1 ++ ·) (List.flatMap_pure_eq_map f l)

/-! ### Tiles (06 R138, R139) -/

/-- The word of an element's bits that tile `x` of those from `t` on holds. -/
def tileWord (t x v : Nat) : Nat := v / 2 ^ (32 * (x - t)) % 2 ^ 32

theorem Core.accWord_setAcc (c : Core) (key x r col : Nat) (v : BitVec 32) :
    Core.accWord { c with acc := SMap.set 0 c.acc key v } x r col = if x * 1024 + r * 32 + col = key then v.toNat else c.accWord x r col := by
  unfold Core.accWord
  rw [SMap.get_set]
  split <;> rfl

/-- An element's write changes the words of its own tiles at its own place. -/
theorem Core.accWord_tilePut (c : Core) (t n v : Nat) {r col r' col' : Nat} (hc : col < 32) (hr : r < 32) (hc' : col' < 32) (hr' : r' < 32) (x : Nat) :
    (c.tilePut t n r col v).accWord x r' col' =
      if r' = r ∧ col' = col ∧ t ≤ x ∧ x < t + n then tileWord t x v else c.accWord x r' col' := by
  unfold Core.tilePut
  induction n with
  | zero => rw [if_neg (by omega)]; rfl
  | succ n ih =>
    rw [List.range_succ, List.foldl_append, List.foldl_cons, List.foldl_nil, Core.accWord_setAcc, ih, BitVec.toNat_ofNat]
    by_cases here : x * 1024 + r' * 32 + col' = (t + n) * 1024 + r * 32 + col
    · obtain ⟨rfl, rfl, rfl⟩ : x = t + n ∧ r' = r ∧ col' = col := by omega
      rw [if_pos here, if_pos (by omega), tileWord, Nat.add_sub_cancel_left]
    · rw [if_neg here]
      congr 1
      simp only [eq_iff_iff]
      omega

/-- The bits of an element are those of its words. -/
theorem tileBits_words {f : Nat → Nat} {n v : Nat} (h : ∀ i, i < n → f i = v / 2 ^ (32 * i) % 2 ^ 32) :
    (List.range n).foldl (fun b i => b + f i * 2 ^ (32 * i)) 0 = v % 2 ^ (32 * n) := by
  induction n with
  | zero => simp [Nat.mod_one]
  | succ n ih =>
    rw [List.range_succ, List.foldl_append, List.foldl_cons, List.foldl_nil, ih fun i hi => h i (by omega), h n n.lt_succ_self, Nat.mul_succ,
      Nat.pow_add, Nat.mod_mul, Nat.mul_comm (2 ^ (32 * n))]

theorem Core.tileBits_of_words {c : Core} {t n r col v : Nat} (h : ∀ x, t ≤ x → x < t + n → c.accWord x r col = tileWord t x v) :
    c.tileBits t n r col = v % 2 ^ (32 * n) :=
  tileBits_words fun i hi => by rw [h (t + i) (by omega) (by omega), tileWord, Nat.add_sub_cancel_left]

theorem Core.tileBits_zero {c : Core} {t n r col : Nat} (h : ∀ x, t ≤ x → x < t + n → c.accWord x r col = 0) : c.tileBits t n r col = 0 :=
  (Core.tileBits_of_words fun x lo hi => by rw [h x lo hi, tileWord, Nat.zero_div, Nat.zero_mod]).trans (Nat.zero_mod _)

/-- Two cores with the same accumulators have the same tiles. -/
theorem Core.tileBits_congr {c c' : Core} (h : c'.acc = c.acc) (t n r col : Nat) : c'.tileBits t n r col = c.tileBits t n r col := by
  unfold Core.tileBits Core.accWord
  rw [h]

theorem Core.accWord_congr {c c' : Core} (h : c'.acc = c.acc) (x r col : Nat) : c'.accWord x r col = c.accWord x r col := by
  unfold Core.accWord
  rw [h]

/-- Nothing differs between two cores but the accumulators. -/
def Core.AccBut (c c' : Core) : Prop := ∃ acc, c' = { c with acc := acc }

theorem Core.AccBut.trans {a b c : Core} (h : a.AccBut b) (g : b.AccBut c) : a.AccBut c := by
  obtain ⟨_, rfl⟩ := h
  obtain ⟨acc, rfl⟩ := g
  exact ⟨acc, rfl⟩

theorem Core.tilePut_accBut (c : Core) (t n r col v : Nat) : c.AccBut (c.tilePut t n r col v) :=
  List.foldlRecOn (motive := c.AccBut) _ _ ⟨c.acc, rfl⟩ fun _ hx _ _ => hx.trans ⟨_, rfl⟩

section
variable {δ : Type} {l : List δ} {row column value : δ → Nat} (c : Core) (t n : Nat)

theorem Core.foldl_tilePut_accBut : c.AccBut (l.foldl (fun c d => c.tilePut t n (row d) (column d) (value d)) c) :=
  List.foldlRecOn (motive := c.AccBut) _ _ ⟨c.acc, rfl⟩ fun _ hx _ _ => hx.trans (Core.tilePut_accBut _ _ _ _ _ _)

variable (hl : ∀ d ∈ l, row d < 32 ∧ column d < 32) {r col : Nat} (hr : r < 32) (hc : col < 32)
include hl hr hc

/-- Words outside the elements that are written stay. -/
theorem Core.accWord_foldl_kept {x : Nat} (h : (∀ d ∈ l, ¬ (row d = r ∧ column d = col)) ∨ x < t ∨ t + n ≤ x) :
    (l.foldl (fun c d => c.tilePut t n (row d) (column d) (value d)) c).accWord x r col = c.accWord x r col := by
  refine foldl_kept (I := fun _ => True) (see := fun c : Core => c.accWord x r col) trivial (fun _ _ _ _ => trivial) fun y d hd _ => ?_
  obtain ⟨hrow, hcol⟩ := hl d hd
  rw [Core.accWord_tilePut y t n (value d) hcol hrow hc hr, if_neg]
  rintro ⟨er, ec, lo, hi⟩
  exact h.elim (fun h => h d hd ⟨er.symm, ec.symm⟩) (fun h => by omega)

/-- An element that is written holds the value given for its place. -/
theorem Core.tileBits_foldl_written {v : Nat} (hv : ∀ d ∈ l, row d = r → column d = col → value d = v)
    (h : ∃ d ∈ l, row d = r ∧ column d = col) :
    (l.foldl (fun c d => c.tilePut t n (row d) (column d) (value d)) c).tileBits t n r col = v % 2 ^ (32 * n) := by
  refine Core.tileBits_of_words fun x lo hi => ?_
  refine foldl_written (I := fun _ => True) (see := fun c : Core => c.accWord x r col) (fun d => row d = r ∧ column d = col) trivial
    (fun _ _ _ _ => trivial) (fun y d hd _ hit => ?_) (fun y d hd _ miss => ?_) h
  · obtain ⟨hrow, hcol⟩ := hl d hd
    obtain ⟨er, ec⟩ := hit
    rw [Core.accWord_tilePut y t n (value d) hcol hrow hc hr, if_pos ⟨er.symm, ec.symm, lo, hi⟩, hv d hd er ec]
  · obtain ⟨hrow, hcol⟩ := hl d hd
    rw [Core.accWord_tilePut y t n (value d) hcol hrow hc hr, if_neg fun e => miss ⟨e.1.symm, e.2.1.symm⟩]

end

theorem mem_tilePos {p : Nat × Nat} : p ∈ tilePos ↔ p.1 < 32 ∧ p.2 < 32 := by
  obtain ⟨r, col⟩ := p
  simp [tilePos]

/-- Tiles that are zeroed read zero, and the others stay. -/
theorem Core.accWord_tileZero (c : Core) (t n : Nat) {r col : Nat} (hr : r < 32) (hc : col < 32) (x : Nat) :
    (c.tileZero t n).accWord x r col = if t ≤ x ∧ x < t + n then 0 else c.accWord x r col := by
  have tile : (x * 1024 + r * 32 + col) / 1024 = x := by omega
  have keep := SMap.get_keep (0 : BitVec 32) c.acc (fun k => !(decide (t ≤ k / 1024) && decide (k / 1024 < t + n))) (x * 1024 + r * 32 + col)
  rw [tile] at keep
  refine (congrArg BitVec.toNat keep).trans ?_
  by_cases inside : t ≤ x ∧ x < t + n
  · simp [inside]
  · rw [if_neg inside, if_pos (by simp only [Bool.not_eq_true', Bool.and_eq_false_iff, decide_eq_false_iff_not]; omega)]
    rfl

/-! ### Status, channels and sets (06 R134, R139, R145) -/

theorem Core.stat_setStat (c : Core) (t : Nat) (v : Word) : (c.setStat t v).stat t = v := SMap.get_set_self _ _ _ _

theorem Core.acc_orStat (c : Core) (t : Nat) (f : Flags) : (c.orStat t f).acc = c.acc := rfl

theorem Core.chan_setChan (c : Core) (i x : Nat) (y : Chan) : (c.setChan i y).chan x = if x = i then y else c.chan x := SMap.get_set _ _ _ _ _

theorem Core.chan_congr {c c' : Core} (h : c'.chans = c.chans) (i : Nat) : c'.chan i = c.chan i := by
  unfold Core.chan
  rw [h]

/-- The set that loads fill. -/
def Core.loaded (c : Core) : SMap Byte := if c.active then c.set0 else c.set1

/-- The core with another set that loads fill. -/
def Core.fill (c : Core) (x : SMap Byte) : Core := if c.active then { c with set0 := x } else { c with set1 := x }

/-- The bytes of a set after elements have been written one after another. -/
def fillSet {δ : Type} (bytes : Nat) (row kap value : δ → Nat) (l : List δ) (x : SMap Byte) : SMap Byte :=
  l.foldl (fun x d => Memory.write x (row d * 256 + kap d * bytes) bytes (value d)) x

theorem Core.setPut_fill (c : Core) (bytes r kap v : Nat) :
    c.setPut bytes r kap v = c.fill (Memory.write c.loaded (r * 256 + kap * bytes) bytes v) := by
  unfold Core.setPut Core.fill Core.loaded
  split <;> rfl

theorem Core.fill_active (c : Core) (x : SMap Byte) : (c.fill x).active = c.active := by
  unfold Core.fill
  split <;> rfl

theorem Core.loaded_fill (c : Core) (x : SMap Byte) : (c.fill x).loaded = x := by
  rw [Core.loaded, Core.fill_active]
  unfold Core.fill
  split <;> rfl

theorem Core.fill_fill (c : Core) (x y : SMap Byte) : (c.fill x).fill y = c.fill y := by
  rw [Core.fill, Core.fill_active]
  unfold Core.fill
  split <;> rfl

theorem Core.fill_loaded (c : Core) : c.fill c.loaded = c := by
  unfold Core.fill Core.loaded
  split <;> rfl

theorem Core.foldl_setPut {δ : Type} (bytes : Nat) (row kap value : δ → Nat) : ∀ (l : List δ) (c : Core),
    l.foldl (fun c d => c.setPut bytes (row d) (kap d) (value d)) c = c.fill (fillSet bytes row kap value l c.loaded)
  | [], c => c.fill_loaded.symm
  | d :: l, c => by
    rw [List.foldl_cons, Core.foldl_setPut bytes row kap value l, Core.setPut_fill, Core.fill_fill, Core.loaded_fill]
    rfl

/-- An element that has been written is read back, when elements of rows of 256 bytes do not overlap. -/
theorem read_fillSet {δ : Type} {bytes : Nat} {row kap value : δ → Nat} {l : List δ} {x : SMap Byte} {r i v : Nat}
    (hl : ∀ d ∈ l, kap d * bytes + bytes ≤ 256) (hi : i * bytes + bytes ≤ 256) (hv : ∀ d ∈ l, row d = r → kap d = i → value d = v)
    (h : ∃ d ∈ l, row d = r ∧ kap d = i) : Memory.read (fillSet bytes row kap value l x) (r * 256 + i * bytes) bytes = v % 256 ^ bytes := by
  refine foldl_written (I := fun _ => True) (see := fun x => Memory.read x (r * 256 + i * bytes) bytes) (fun d => row d = r ∧ kap d = i)
    trivial (fun _ _ _ _ => trivial) (fun y d hd _ hit => ?_) (fun y d hd _ miss => ?_) h
  · obtain ⟨rfl, rfl⟩ := hit
    rw [Memory.read_write, hv d hd rfl rfl]
  · have fits := hl d hd
    refine Memory.read_write_out bytes bytes _ _ _ _ ?_
    rcases Nat.lt_trichotomy (row d) r with below | same | above
    · omega
    · rcases Nat.lt_trichotomy (kap d) i with before | here | after
      · have := Nat.mul_le_mul_right bytes (Nat.succ_le_of_lt before)
        rw [Nat.succ_mul] at this
        omega
      · exact absurd ⟨same, here⟩ miss
      · have := Nat.mul_le_mul_right bytes (Nat.succ_le_of_lt after)
        rw [Nat.succ_mul] at this
        omega
    · omega

end Sys2Proof.Machine
end

section
/-! PROOFS of the matrix family (06_matrix_unit), second part: when the queue performs an operation, and how an operation enters it (06 R150-R152). -/

namespace Sys2Proof.Machine

/-! ### The queue (06 R150, R151) -/

/-- The queue has nothing to perform in an entry that runs on the lane path, is the position of an mwait, is done or is blocked. -/
def MOp.settled (o : MOp) : Prop := o.lane = true ∨ o.isMwait = true ∨ o.done = true ∨ o.blocked = true

/-- The entries that are performed when the queue is looked at. -/
def Core.startable (c : Core) : List MOp := c.mq.filter (fun o => !o.lane && !o.isMwait && !o.done && !o.blocked && c.canStart o)

theorem Module.runQueue_eq (m : Module) (core fuel : Nat) :
    m.runQueue core (fuel + 1) = match (m.core core).startable.findSome? (fun o => m.mPerform core o) with
      | some m1 => m1.runQueue core fuel
      | none => m := rfl

theorem Core.startable_nil {c : Core} (h : ∀ x ∈ c.mq, x.settled ∨ c.canStart x = false) : c.startable = [] := by
  refine List.filter_eq_nil_iff.mpr fun x hx => ?_
  rcases h x hx with (lane | wait | done | blocked) | cannot
  · simp [lane]
  · simp [wait]
  · simp [done]
  · simp [blocked]
  · simp [cannot]

theorem Module.runQueue_nothing {m : Module} {core : Nat} (h : ∀ x ∈ (m.core core).mq, x.settled ∨ (m.core core).canStart x = false) (fuel : Nat) :
    m.runQueue core fuel = m := by
  cases fuel with
  | zero => rfl
  | succ fuel => rw [Module.runQueue_eq, Core.startable_nil h]; rfl

/-- A queue none of whose entries can be performed stays. -/
theorem Module.settleQueue_nothing {m : Module} {core : Nat} (h : ∀ x ∈ (m.core core).mq, x.settled ∨ (m.core core).canStart x = false) :
    m.settleQueue core = m := Module.runQueue_nothing h 32

theorem Module.settleQueue_settled {m : Module} {core : Nat} (h : ∀ x ∈ (m.core core).mq, x.settled) : m.settleQueue core = m :=
  Module.settleQueue_nothing fun x hx => .inl (h x hx)

/-- The only entry of a queue has nothing to wait for. -/
theorem Core.canStart_only {c : Core} {o : MOp} (h : c.mq = [o]) : c.canStart o = true := by
  simp [Core.canStart, Core.before, h]

/-- The only entry of a queue is performed at once, when it does not wait for a channel. -/
theorem Module.settleQueue_performs {m m1 : Module} {core : Nat} {o : MOp} (hq : (m.core core).mq = [o]) (ho : ¬ o.settled)
    (hp : m.mPerform core o = some m1) (h1 : ∀ x ∈ (m1.core core).mq, x.settled) : m.settleQueue core = m1 := by
  have start : (m.core core).startable = [o] := by
    have can := Core.canStart_only hq
    simp only [MOp.settled, not_or, Bool.not_eq_true] at ho
    obtain ⟨lane, wait, done, blocked⟩ := ho
    rw [Core.startable, hq]
    simp [can, lane, wait, done, blocked]
  show m.runQueue core (31 + 1) = m1
  rw [Module.runQueue_eq, start, List.findSome?_cons, hp]
  exact Module.runQueue_nothing (fun x hx => .inl (h1 x hx)) 31

theorem Module.core_modOp (m : Module) (core id : Nat) (f : MOp → MOp) :
    (m.modOp core id f).core core = { m.core core with mq := (m.core core).mq.map (fun o => if o.id = id then f o else o) } :=
  m.core_setCore_self core _

theorem Module.modOp_beside (m : Module) (core id : Nat) (f : MOp → MOp) : Beside [] m (m.modOp core id f) := Beside.setCore m core _ rfl

/-- The queue entry of an operation that has been performed. -/
def MOp.performed (o : MOp) (f : Flags) : MOp := { o with done := true, flags := o.flags ||| f }

theorem Module.core_mDone (m : Module) {core : Nat} {o : MOp} (h : (m.core core).mq = [o]) (f : Flags) :
    (m.mDone core o f).core core = { m.core core with mq := [o.performed f] } := by
  rw [Module.mDone, Module.core_modOp, h]
  simp [MOp.performed]

/-! ### What an operation finds of its thread -/

theorem MOp.key_entry (k id : Nat) (t : Thread) (w : Word) (dst : Option Nat) : (t.mEntry id (keyThread k) w dst).key (k / 8) = k := by
  simp only [MOp.key, Thread.mEntry, keyThread]
  omega

theorem Module.settle_cores (m : Module) (k : Nat) : (m.settle k).cores = m.cores := by
  unfold Module.settle
  dsimp only
  split <;> rfl

theorem State.issuing_core (s : State) (th : ThreadId) (c : Nat) : (s.issuing th).core c = s.m.core c :=
  Module.core_congr (Module.settle_cores s.m.fresh _) c

/-- What the core looks up is what translation answers by. -/
theorem Module.thXlat_congr {m m' : Module} {k va : Nat} (hl : m'.lookup k va = m.lookup k va) (hc : m'.carveL = m.carveL) (acc : Access) :
    (m'.thXlat k va acc).2 = (m.thXlat k va acc).2 := by
  by_cases fixed : 2 ^ 48 ≤ va ∨ windowBase ≤ va
  · obtain ⟨x, hx⟩ := Module.thXlat_fixed (k := k) fixed acc
    rw [hx, hx]
  · rw [not_or] at fixed
    rw [Module.thXlat_looks fixed.1 fixed.2, Module.thXlat_looks fixed.1 fixed.2, hl]
    cases m.lookup k va with
    | fault c => rfl
    | page pte big => simp only [Walk.answer, Module.pagePlace, hc]

/-! ### An operation enters the queue (06 R150, R152) -/

/-- A thread that goes on past an operation that has entered the queue, waiting for its scalar destination, if it has one. -/
def Thread.entering (t : Thread) (dst : Nat) : Thread :=
  { (if dst = 0 then t else t.opens (t.access [] 1 true false [dst] [] 0 0 none false)) with ip := t.ip + 8 }

/-- The outstanding entry of an operation's scalar destination. -/
def Thread.mDst (t : Thread) (dst : Nat) : Option Nat := if dst = 0 then none else some t.issued

/-- The core with one more entry in its queue. -/
def Core.entering (c : Core) (o : MOp) (k : Nat) : Core := { c with mq := c.mq ++ [o], nextOp := c.nextOp + 1, lastWide := keyThread k }

/-- The module in which an operation has entered the queue and its thread has gone on. -/
def Module.entered (m : Module) (k : Nat) (w : Word) (dst : Nat) : Module :=
  let c := m.core (k / 8)
  let m1 := if dst = 0 then m else m.addOutst k ((m.th k).access [] 1 true false [dst] [] 0 0 none false)
  (m1.setCore (k / 8) { c with mq := c.mq ++ [(m.th k).mEntry c.nextOp (keyThread k) w ((m.th k).mDst dst)], nextOp := c.nextOp + 1 }).goOn k true

/-- What keeps an operation from entering: a full queue, or an acquire before its accesses (15 R373). -/
def Module.mStays (m : Module) (k : Nat) (w : Word) : Prop := 16 ≤ (m.core (k / 8)).mq.length ∨ mAccesses w = true ∧ m.acqPending k = true

theorem Module.mIssue_stays {m : Module} {k : Nat} {w : Word} (h : m.mStays k w) (dst : Nat) : m.mIssue k w dst = m := by
  rw [Module.mIssue]
  exact if_pos (by simpa [Module.mStays] using h)

theorem Module.mIssue_enters {m : Module} {k : Nat} {w : Word} (h : ¬ m.mStays k w) (dst : Nat) :
    m.mIssue k w dst = (m.entered k w dst).settleQueue (k / 8) := by
  rw [Module.mIssue]
  exact if_neg (by simpa [Module.mStays] using h)

section
variable (m : Module) (k : Nat) (w : Word) (dst : Nat)

theorem Module.th_entered : (m.entered k w dst).th k = (m.th k).entering dst := by
  unfold Module.entered Thread.entering
  by_cases none_ : dst = 0
  · simp [none_, Module.goOn]
  · simp only [none_, if_false, Module.goOn, Module.issuedOn_th, Module.th_setTh_self, Module.th_setCore, Module.addOutst]
    rfl

theorem Module.core_entered : (m.entered k w dst).core (k / 8) =
    (m.core (k / 8)).entering ((m.th k).mEntry (m.core (k / 8)).nextOp (keyThread k) w ((m.th k).mDst dst)) k := by
  unfold Module.entered Module.goOn Module.issuedOn
  simp only [if_true, Module.core_setCore_self, Module.core_setTh]
  rfl

theorem Module.goOn_beside (wide : Bool) : Beside [k] m (m.goOn k wide) :=
  (Beside.setTh m k _).trans (Beside.setCore _ (k / 8) _ (by cases wide <;> rfl)).mono

theorem Module.entered_beside : Beside [k] m (m.entered k w dst) := by
  unfold Module.entered
  have opened : Beside [k] m (if dst = 0 then m else m.addOutst k ((m.th k).access [] 1 true false [dst] [] 0 0 none false)) :=
    Beside.ite _ (Beside.refl [k] m) (Beside.setTh m k _)
  refine (opened.trans (Beside.mono ?_)).trans (Module.goOn_beside _ k true)
  exact Beside.setCore _ (k / 8) _ (opened.coreGrids (k / 8)).symm

theorem Module.entered_ms : (m.entered k w dst).ms = m.ms := by
  unfold Module.entered
  by_cases none_ : dst = 0
  · simp only [none_, if_true]; rfl
  · simp only [none_, if_false]; rfl

theorem Thread.entering_ctx (t : Thread) : (t.entering dst).ctx = t.ctx := by
  unfold Thread.entering
  split <;> rfl

theorem Module.entered_lookup (va : Nat) : (m.entered k w dst).lookup k va = m.lookup k va := by
  rw [Module.lookup, Module.core_entered, Module.th_entered, Thread.entering_ctx, (m.entered_beside k w dst).alike.walk]
  rfl

/-- Translations answer as before the operation entered. -/
theorem Module.entered_answer (va : Nat) (acc : Access) : ((m.entered k w dst).thXlat k va acc).2 = (m.thXlat k va acc).2 :=
  Module.thXlat_congr (m.entered_lookup k w dst va) (m.entered_beside k w dst).alike.carveL acc

theorem Module.entered_walkHeld (va : Nat) : (m.entered k w dst).walkHeld k va = m.walkHeld k va := by
  have alike := (m.entered_beside k w dst).alike
  rw [Module.walkHeld, Module.core_entered, Module.th_entered, Thread.entering_ctx, alike.walkPlaces,
    funext (alike.mustWait (m.entered_ms k w dst))]
  rfl

end

end Sys2Proof.Machine
end

section
/-! PROOFS of the matrix family (06_matrix_unit), third part: the translations of an operation's elements, and what their accesses read and write (06 R153-R155). -/

namespace Sys2Proof.Machine

/-! ### An address of the same 64-byte line (02 R35; 12 R275) -/

theorem Place.spread_plus {pa i : Nat} (h : pa % 64 + i < 64) : Place.spread (pa + i) = (Place.spread pa).plus i := by
  have granule : (pa + i) / 256 = pa / 256 := by omega
  have inside : (pa + i) % 256 = pa % 256 + i := by omega
  simp only [Place.spread, spreadMap, granule, inside, Place.plus, Nat.add_assoc]

theorem localMap_plus (s n : Nat) {pa i : Nat} (h : pa % 64 + i < 64) :
    localMap s (pa + i) n = ((localMap s pa n).1, (localMap s pa n).2 + i) := by
  have granule : (pa + i) / 256 = pa / 256 := by omega
  have inside : (pa + i) % 256 = pa % 256 + i := by omega
  simp only [localMap, granule, inside, Nat.add_assoc]

/-- Does a leaf entry permit an access (02 R37)? -/
def ptePermits (pte : Word) (acc : Access) : Bool :=
  match acc with
  | .load => pte.toNat / 2 ^ 61 % 2 == 1
  | .store => pte.toNat / 2 ^ 60 % 2 == 1
  | .fetch => pte.toNat / 2 ^ 59 % 2 == 1
  | .atomic => pte.toNat / 2 ^ 61 % 2 == 1 && pte.toNat / 2 ^ 60 % 2 == 1

/-- What a physical address under a leaf entry answers (02 R35; 12 R275). -/
def Module.pteTarget (m : Module) (pte : Word) (pa : Nat) : Xlat :=
  if pte.toNat / 2 ^ 57 % 4 = 0 then
    if pte.toNat / 2 ^ 56 % 2 = 0 then .ok (.spread pa) (pte.toNat / 2 ^ 52 % 2 == 1)
    else .ok (.hbm (localMap (spreadShare m.carveL) pa (pte.toNat / 2 ^ 53 % 8)).1 (localMap (spreadShare m.carveL) pa (pte.toNat / 2 ^ 53 % 8)).2)
      (pte.toNat / 2 ^ 52 % 2 == 1)
  else if pte.toNat / 2 ^ 57 % 4 = 1 then .ok (.ctier pa) false
  else .ok (.host pa) false

theorem Module.pagePlace_eq (m : Module) (pte : Word) (big : Bool) (va : Nat) (acc : Access) :
    m.pagePlace pte big va acc = if ptePermits pte acc then
      m.pteTarget pte (pte.toNat % 2 ^ 48 / 2 ^ 21 * 2 ^ 21 + if big then va % 2 ^ 30 else va % 2 ^ 21) else .viol := by
  have target : ∀ (n : Nat) (x y z : Xlat), (match n with | 0 => x | 1 => y | _ => z) = if n = 0 then x else if n = 1 then y else z := by
    intro n x y z
    match n with
    | 0 | 1 | _ + 2 => rfl
  have permitted : ∀ (b : Bool) (x : Xlat), (if !b then Xlat.viol else x) = if b then x else .viol := fun b x => by cases b <;> rfl
  cases acc <;> exact (permitted _ _).trans (congrArg (fun x => ite _ x Xlat.viol) (target _ _ _ _))

theorem Module.pteTarget_plus {m : Module} {pte : Word} {pa i : Nat} {p : Place} {lc : Bool} (hi : pa % 64 + i < 64)
    (h : m.pteTarget pte pa = .ok p lc) : m.pteTarget pte (pa + i) = .ok (p.plus i) lc := by
  unfold Module.pteTarget at h ⊢
  rw [Place.spread_plus hi, localMap_plus _ _ hi]
  split_ifs at h ⊢ <;> obtain ⟨rfl, rfl⟩ := Xlat.ok.inj h <;> rfl

theorem Module.pagePlace_plus {m : Module} {pte : Word} {big : Bool} {va i : Nat} {acc : Access} {p : Place} {lc : Bool}
    (hi : va % 64 + i < 64) (h : m.pagePlace pte big va acc = .ok p lc) : m.pagePlace pte big (va + i) acc = .ok (p.plus i) lc := by
  have off : (if big then (va + i) % 2 ^ 30 else (va + i) % 2 ^ 21) = (if big then va % 2 ^ 30 else va % 2 ^ 21) + i := by
    split <;> omega
  have line : ∀ x, (x / 2 ^ 21 * 2 ^ 21 + (if big then va % 2 ^ 30 else va % 2 ^ 21)) % 64 + i < 64 := by
    intro x
    split <;> omega
  rw [Module.pagePlace_eq] at h ⊢
  split at h
  · next permitted =>
    rw [if_pos permitted, off, ← Nat.add_assoc]
    exact Module.pteTarget_plus (line _) h
  · exact Xlat.noConfusion h

/-- What the core-local window answers at an offset (02 R33). -/
def windowTarget (k off : Nat) : Xlat :=
  if off < storeBytes && keyKind k == 0 then .ok (.store (keyCore k) off) false
  else if off < storeBytes && keyKind k == 1 then .ok (.hstore (keyCore k) off) false
  else .viol

theorem Module.thXlat_inWindow (m : Module) (k : Nat) {va : Nat} (acc : Access) (h : ¬ 2 ^ 48 ≤ va) (hw : windowBase ≤ va) :
    m.thXlat k va acc = (m, windowTarget k (va - windowBase)) := by
  rw [Module.thXlat, if_neg h, if_pos hw, windowTarget]
  generalize va - windowBase = off
  dsimp only
  split_ifs <;> rfl

theorem windowTarget_plus {k off i : Nat} {p : Place} {lc : Bool} (hi : off % 64 + i < 64) (h : windowTarget k off = .ok p lc) :
    windowTarget k (off + i) = .ok (p.plus i) lc := by
  have fits : off < storeBytes ↔ off + i < storeBytes := by
    simp only [storeBytes]
    omega
  simp only [windowTarget, ← fits]
  unfold windowTarget at h
  split at h
  · next compute =>
    obtain ⟨rfl, rfl⟩ := Xlat.ok.inj h
    exact if_pos compute
  · next other =>
    rw [if_neg other]
    split at h
    · next hamper =>
      obtain ⟨rfl, rfl⟩ := Xlat.ok.inj h
      exact if_pos hamper
    · exact Xlat.noConfusion h

/-- What follows an address in its line lies behind its place. -/
theorem Module.thXlat_plus {m : Module} {k va i : Nat} {acc : Access} {p : Place} {lc : Bool} (hi : va % 64 + i < 64)
    (h : (m.thXlat k va acc).2 = .ok p lc) : (m.thXlat k (va + i) acc).2 = .ok (p.plus i) lc := by
  by_cases canonical : 2 ^ 48 ≤ va
  · rw [Module.thXlat, if_pos canonical] at h
    exact Xlat.noConfusion h
  have canonical' : ¬ 2 ^ 48 ≤ va + i := by omega
  have base : windowBase % 64 = 0 := by decide
  by_cases window : windowBase ≤ va
  · have off : va + i - windowBase = va - windowBase + i := by omega
    rw [Module.thXlat_inWindow m k acc canonical window] at h
    rw [Module.thXlat_inWindow m k acc canonical' (by omega), off]
    have inside : (va - windowBase) % 64 + i < 64 := by omega
    generalize va - windowBase = x at *
    exact windowTarget_plus inside h
  · rw [Module.thXlat_looks canonical window] at h
    rw [Module.thXlat_looks canonical' (by omega), m.lookup_page k (show (va + i) / 2 ^ 21 = va / 2 ^ 21 by omega)]
    dsimp only at h ⊢
    cases hx : m.lookup k va with
    | fault c => rw [hx] at h; exact Xlat.noConfusion h
    | page pte big => rw [hx] at h; exact Module.pagePlace_plus hi h

/-! ### What the translations of an operation leave -/

/-- In the second module a thread's translations answer as in the first, and the cores differ in no more than the translations that they
hold. -/
structure Looks (k : Nat) (m m' : Module) : Prop extends Xlates k m m' where
  core : ∀ c, { m'.core c with tlb := [] } = { m.core c with tlb := [] }

theorem Looks.refl (k : Nat) (m : Module) : Looks k m m := ⟨Xlates.refl k m, fun _ => rfl⟩

theorem Looks.trans {k : Nat} {a b c : Module} (h : Looks k a b) (g : Looks k b c) : Looks k a c :=
  ⟨h.toXlates.trans g.toXlates, fun n => (g.core n).trans (h.core n)⟩

theorem Looks.of_cores {k : Nat} {m m' : Module} (h : Beside [] m m') (hc : m'.cores = m.cores) : Looks k m m' :=
  ⟨Xlates.of_cores h hc, fun n => by rw [Module.core_congr hc]⟩

theorem Module.translated_core (m : Module) (k va : Nat) (kept : Option Walk) (c : Nat) :
    { (m.translated k va kept).core c with tlb := [] } = { m.core c with tlb := [] } := by
  rw [Module.translated, Module.core_setCore]
  split
  · next here => rw [here]
  · split
    · rfl
    · rw [Module.core_congr (Module.askPieces_cores _ _ _)]

/-- Translating an address that has a place leaves the cores but for the translation. -/
theorem Module.thXlat_looksAt {m : Module} {k va : Nat} {acc : Access} {p : Place} {lc : Bool} (h : (m.thXlat k va acc).2 = .ok p lc) :
    Looks k m (m.thXlat k va acc).1 := by
  refine ⟨Module.thXlat_xlates h, fun c => ?_⟩
  by_cases fixed : 2 ^ 48 ≤ va ∨ windowBase ≤ va
  · obtain ⟨x, hx⟩ := Module.thXlat_fixed (k := k) fixed acc
    rw [hx]
  · rw [not_or] at fixed
    rw [Module.thXlat_looks fixed.1 fixed.2]
    exact m.translated_core k va _ c

section
variable {k : Nat} {m m' : Module} (h : Looks k m m')
include h

theorem Looks.mq (c : Nat) : (m'.core c).mq = (m.core c).mq :=
  have e := congrArg (fun x : Core => x.mq) (h.core c)
  e

end

/-! ### Addresses that an operation may access -/

/-- The thread's address translates to a place whose channel is not held (12 R293). -/
structure Module.Opens (m : Module) (k va : Nat) (acc : Access) (p : Place) : Prop where
  place : ∃ lc, (m.thXlat k va acc).2 = .ok p lc
  isOpen : ∀ pc off, p = .hbm pc off → m.held pc = false

theorem Looks.opens {k : Nat} {m m' : Module} (h : Looks k m m') {va : Nat} {acc : Access} {p : Place} (ho : m.Opens k va acc p) :
    m'.Opens k va acc p :=
  ⟨ho.place.imp fun _ hx => (h.answer va acc).trans hx, fun pc off hp => (h.toBeside.alike.held pc).trans (ho.isOpen pc off hp)⟩

/-- The `n` bytes of an element lie in one line, and its address opens. -/
structure InLine (va n : Nat) : Prop where
  pos : 1 ≤ n
  fits : va % 64 + n ≤ 64

/-- An aligned element lies in one line. -/
theorem InLine.of_aligned {va n : Nat} (hn : n ∣ 64) (ha : va % n = 0) : InLine va n := by
  obtain ⟨q, hq⟩ := hn
  have pos : 1 ≤ n := Nat.one_le_iff_ne_zero.mpr fun h => by subst h; omega
  refine ⟨pos, ?_⟩
  have mod : va % 64 % n = 0 := by rw [hq, Nat.mod_mul_right_mod, ha]
  obtain ⟨j, hj⟩ := Nat.dvd_of_mod_eq_zero mod
  have lt : n * j < n * q := by rw [← hj, ← hq]; exact Nat.mod_lt _ (by decide)
  have step : n * (j + 1) ≤ n * q := Nat.mul_le_mul_left n (Nat.lt_of_mul_lt_mul_left lt)
  rw [hj]
  rw [Nat.mul_succ] at step
  omega

theorem mem_pieces {a n : Nat} (hn : 1 ≤ n) {q : Nat × Nat} (h : q ∈ pieces a n) : a ≤ q.1 ∧ q.1 < a + n ∧ 0 < q.2 := by
  obtain ⟨i, hi, rfl⟩ := List.mem_map.mp h
  have := List.mem_range.mp hi
  dsimp only
  omega

section
variable {m : Module} {k va n : Nat} {acc : Access} {p : Place}

/-- The checks of an operation pass addresses that open (06 R154). -/
theorem Module.mCheck_opens : ∀ (l : List Nat) {m : Module}, (∀ a ∈ l, (∃ p, m.Opens k a acc p) ∧ InLine a n) →
    ∃ m', m.mCheck k n acc l = (m', none) ∧ Looks k m m'
  | [], m, _ => ⟨m, rfl, Looks.refl k m⟩
  | a :: l, m, h => by
    obtain ⟨⟨p, ⟨lc, place⟩, -⟩, line⟩ := h a List.mem_cons_self
    have first := Module.thXlat_looksAt place
    have last := Module.thXlat_plus (i := n - 1) (by have := line.fits; have := line.pos; omega) ((first.answer a acc).trans place)
    rw [← Nat.add_sub_assoc line.pos] at last
    have second := first.trans (Module.thXlat_looksAt last)
    obtain ⟨m', done, rest⟩ := Module.mCheck_opens l (m := ((m.thXlat k a acc).1.thXlat k (a + n - 1) acc).1) fun b hb => by
      obtain ⟨⟨q, opens⟩, inLine⟩ := h b (List.mem_cons_of_mem _ hb)
      exact ⟨⟨q, second.opens opens⟩, inLine⟩
    refine ⟨m', ?_, second.trans rest⟩
    rw [Module.mCheck]
    generalize m.thXlat k a acc = r at *
    obtain ⟨m1, x⟩ := r
    obtain rfl : x = .ok p lc := place
    dsimp only at *
    generalize m1.thXlat k (a + n - 1) acc = r at *
    obtain ⟨m2, y⟩ := r
    obtain rfl : y = _ := last
    exact done

/-- The pieces of an element whose address opens lie one behind another. -/
theorem Module.mPieces_opens {lc : Bool} (h : (m.thXlat k va acc).2 = .ok p lc) (hl : InLine va n) :
    m.mPieces k acc va n = some ((pieces va n).map fun q => (p.plus (q.1 - va), lc, q.2)) := by
  have each : ∀ l : List (Nat × Nat), (∀ q ∈ l, va ≤ q.1 ∧ q.1 < va + n) → l.foldr (fun q (r : Option (List (Place × Bool × Nat))) =>
      match (m.thXlat k q.1 acc).2, r with
      | .ok p lc, some l => some ((p, lc, q.2) :: l)
      | _, _ => none) (some []) = some (l.map fun q => (p.plus (q.1 - va), lc, q.2)) := by
    intro l
    induction l with
    | nil => exact fun _ => rfl
    | cons q l ih =>
      intro hq
      obtain ⟨lo, hi⟩ := hq q List.mem_cons_self
      have fits := hl.fits
      have found := Module.thXlat_plus (i := q.1 - va) (by omega) h
      rw [Nat.add_sub_cancel' lo] at found
      rw [List.foldr_cons, ih fun x hx => hq x (List.mem_cons_of_mem _ hx), found]
      rfl
  exact each _ fun q hq => ⟨(mem_pieces hl.pos hq).1, (mem_pieces hl.pos hq).2.1⟩

theorem Module.mHeld_opens {l : List Nat} (h : ∀ a ∈ l, (∃ p, m.Opens k a acc p) ∧ InLine a n) : m.mHeld k acc n l = false := by
  refine List.any_eq_false.mpr fun a ha => ?_
  obtain ⟨⟨p, ⟨lc, place⟩, isOpen⟩, line⟩ := h a ha
  rw [Module.mPieces_opens place line, Option.getD_some, Bool.not_eq_true]
  refine List.any_eq_false.mpr fun x hx => ?_
  obtain ⟨q, -, rfl⟩ := List.mem_map.mp hx
  rw [Bool.not_eq_true]
  refine Module.mustWait_open fun pc off hp => ?_
  cases p with
  | hbm pc' off' => obtain ⟨rfl, -⟩ := Place.hbm.inj hp; exact isOpen _ _ rfl
  | _ => exact Place.noConfusion hp

theorem Module.mDenied_opens {l : List Nat} (h : ∀ a ∈ l, (∃ p, m.Opens k a acc p) ∧ InLine a n) : m.mDenied k acc n l = [] := by
  refine List.filter_eq_nil_iff.mpr fun a ha => ?_
  obtain ⟨⟨p, ⟨lc, place⟩, -⟩, line⟩ := h a ha
  rw [Module.mPieces_opens place line]
  simp

end

theorem Module.mTouch_looks (m : Module) (k n : Nat) (l : List Nat) : Looks k m (m.mTouch k n l) :=
  List.foldlRecOn (motive := fun r : Module × List Nat => Looks k m r.1) _ _ (Looks.refl k m)
    (fun _ hr _ _ => hr.trans (Looks.of_cores (Module.askPiece_beside _ _ _ _ _ _ _) (Module.askPiece_cores _ _ _ _ _ _ _)))

/-- An operation whose addresses all open is performed at once, in a module in which its core holds their translations. -/
theorem Module.mStart_opens {m : Module} {core : Nat} {o : MOp} {reads writes : List Nat} {rn wn : Nat}
    (hw : ∀ a ∈ reads ++ writes, m.walkHeld (o.key core) a = false)
    (hr : ∀ a ∈ reads, (∃ p, m.Opens (o.key core) a .load p) ∧ InLine a rn)
    (hs : ∀ a ∈ writes, (∃ p, m.Opens (o.key core) a .store p) ∧ InLine a wn) :
    ∃ m', Looks (o.key core) m m' ∧ ∀ body, m.mStart core o reads rn writes wn body = some (body m') := by
  obtain ⟨m1, checked, looks1⟩ := Module.mCheck_opens reads hr
  have later : ∀ {x : Module}, Looks (o.key core) m x → ∀ {l : List Nat} {acc : Access} {n : Nat},
      (∀ a ∈ l, (∃ p, m.Opens (o.key core) a acc p) ∧ InLine a n) → ∀ a ∈ l, (∃ p, x.Opens (o.key core) a acc p) ∧ InLine a n :=
    fun hx l acc n hl a ha => ⟨(hl a ha).1.imp fun p hp => hx.opens hp, (hl a ha).2⟩
  obtain ⟨m2, checked', looks2⟩ := Module.mCheck_opens writes (later looks1 hs)
  have looks := looks1.trans looks2
  refine ⟨_, looks.trans (Module.mTouch_looks m2 _ rn reads), fun body => ?_⟩
  have walks : m.mWalksHeld (o.key core) (reads ++ writes) = false := List.any_eq_false.mpr fun a ha => by rw [hw a ha]; decide
  unfold Module.mStart
  simp only [walks, checked, checked', Module.mHeld_opens (later looks hr), Module.mHeld_opens (later looks hs),
    Module.mDenied_opens (later looks hr), Module.mDenied_opens (later looks hs), Bool.false_eq_true, if_false, Bool.or_self, List.append_nil,
    List.length_nil]
  rfl

/-! ### What an element reads -/

theorem Module.readPlace_zero (m : Module) (p : Place) : m.readPlace p 0 = 0 := by
  have := m.readPlace_lt p 0
  omega

/-- A read is a read of its first bytes and one of the rest. -/
theorem Module.readPlace_append (m : Module) (p : Place) (i j : Nat) :
    m.readPlace p (i + j) = m.readPlace p i + 256 ^ i * m.readPlace (p.plus i) j := by
  have low := m.readPlace_lt p i
  have high := m.readPlace_lt (p.plus i) j
  refine eq_of_bytes (i + j) (m.readPlace_lt p _) ?_ fun b hb => ?_
  · rw [Nat.pow_add]
    calc m.readPlace p i + 256 ^ i * m.readPlace (p.plus i) j < 256 ^ i + 256 ^ i * m.readPlace (p.plus i) j := by omega
      _ = 256 ^ i * (m.readPlace (p.plus i) j + 1) := by ring
      _ ≤ 256 ^ i * 256 ^ j := Nat.mul_le_mul_left _ high
  · rw [m.readPlace_byte p hb, ← Nat.mod_eq_of_lt low]
    by_cases first : b < i
    · rw [byte_append_low _ _ first, m.readPlace_byte p first]
    · obtain ⟨d, rfl⟩ : ∃ d, b = i + d := ⟨b - i, by omega⟩
      rw [byte_append_high, m.readPlace_byte _ (by omega), p.plus_cell, Nat.add_assoc]

/-- Part of a range without a bad sector has none. -/
theorem Module.badPlace_part {m : Module} {p : Place} {i j n : Nat} (hj : 0 < j) (hn : i + j ≤ n) (h : m.badPlace p n = false) :
    m.badPlace (p.plus i) j = false := by
  have sectors : ∀ (marks : SMap Bool) (x : Nat), (List.range ((x % 32 + n + 31) / 32)).any (fun s => SMap.get false marks (x / 32 + s)) = false →
      (List.range (((x + i) % 32 + j + 31) / 32)).any (fun s => SMap.get false marks ((x + i) / 32 + s)) = false := by
    intro marks x hx
    refine List.any_eq_false.mpr fun s hs => ?_
    have inside := List.mem_range.mp hs
    have mark := List.any_eq_false.mp hx ((x + i) / 32 + s - x / 32) (List.mem_range.mpr (by omega))
    rwa [Nat.add_sub_cancel' (by omega)] at mark
  cases p with
  | hbm pc off =>
    simp only [Module.badPlace, Place.plus, Bool.or_eq_false_iff] at h ⊢
    have key : hbmKey pc (off + i) = hbmKey pc off + i := (Nat.add_assoc _ _ _).symm
    rw [key]
    exact ⟨h.1, sectors _ _ h.2⟩
  | ctier a => exact sectors _ _ h
  | host a => exact h
  | store c off => rfl
  | hstore c off => rfl

/-- An element whose address opens, without a bad sector, reads what stands at its place. -/
theorem Module.mRead_opens {m : Module} {k va n : Nat} {p : Place} {lc : Bool} (h : (m.thXlat k va .load).2 = .ok p lc) (hl : InLine va n)
    (hb : m.badPlace p n = false) : m.mRead k va n = (m.readPlace p n, false) := by
  have each : ∀ (l : List (Nat × Nat)) (b : Nat), Chained b l (va + n) → va ≤ b → (∀ q ∈ l, 0 < q.2) →
      (l.map fun q => (p.plus (q.1 - va), lc, q.2)).foldr (fun x (r : Nat × Bool) =>
        (m.readPlace x.1 x.2.2 + 2 ^ (8 * x.2.2) * r.1, r.2 || m.badPlace x.1 x.2.2)) (0, false) =
      (m.readPlace (p.plus (b - va)) (va + n - b), false) := by
    intro l
    induction l with
    | nil =>
      intro b hc _ _
      obtain rfl : b = va + n := hc
      rw [Nat.sub_self, Module.readPlace_zero]
      rfl
    | cons q l ih =>
      intro b hc lo pos
      obtain ⟨rfl, hc⟩ := hc
      have le := hc.le
      have pos' := pos q List.mem_cons_self
      have size : va + n - q.1 = q.2 + (va + n - (q.1 + q.2)) := by omega
      have behind : p.plus (q.1 + q.2 - va) = (p.plus (q.1 - va)).plus q.2 := by rw [Place.plus_plus]; congr 1; omega
      have good := Module.badPlace_part pos' (show q.1 - va + q.2 ≤ n by omega) hb
      rw [List.map_cons, List.foldr_cons, ih _ hc (by omega) fun x hx => pos x (List.mem_cons_of_mem _ hx), size, Module.readPlace_append, behind,
        good, Nat.pow_mul]
      rfl
  have read := each (pieces va n) va (chained_pieces va n hl.pos) (Nat.le_refl va) fun q hq => (mem_pieces hl.pos hq).2.2
  rw [Nat.sub_self, Place.plus_zero, Nat.add_sub_cancel_left] at read
  rw [Module.mRead, Module.mPieces_opens h hl, Option.getD_some]
  exact read

end Sys2Proof.Machine
end

section
/-! PROOFS of the matrix family (06_matrix_unit), fourth part: what an operation stores (06 R141, R155). -/

namespace Sys2Proof.Machine

/-! ### What writing a piece leaves of the cores -/

theorem Module.writePlace_cores (m : Module) (p : Place) (n v : Nat) : (m.writePlace p n v).cores = m.cores := by
  cases p with
  | host a => simp only [Module.writePlace]; split <;> rfl
  | _ => rfl

theorem Module.clearMark_cores (m : Module) (p : Place) : (m.clearMark p).cores = m.cores := by cases p <;> rfl

theorem Module.putPiece_cores (m : Module) (w : Who) (p : Place) (n v : Nat) (lead whole : Bool) : (m.putPiece w p n v lead whole).cores = m.cores := by
  have put := (Module.writePlace_cores (m.askPiece w p n true lead whole) p n v).trans (m.askPiece_cores w p n true lead whole)
  unfold Module.putPiece
  cases whole with
  | true => exact (Module.clearMark_cores _ p).trans put
  | false => exact put

/-! ### The pieces of an element -/

/-- The writes of an element's pieces at its place. -/
def putChain (p : Place) (a v : Nat) (l : List (Nat × Nat)) : List (Place × Nat × Nat) :=
  l.map fun q => (p.plus (q.1 - a), q.2, v / 256 ^ (q.1 - a))

/-- An element whose address opens is written piece by piece at its place. -/
theorem Module.mPuts_opens {m : Module} {k va n v : Nat} {p : Place} {lc : Bool} (h : (m.thXlat k va .store).2 = .ok p lc) (hl : InLine va n) :
    m.mPuts k va n v = putChain p va v (pieces va n) := by
  have each : ∀ (l : List (Nat × Nat)) (b : Nat) (r : List (Place × Nat × Nat)), Chained b l (va + n) → va ≤ b →
      ((l.map fun q => (p.plus (q.1 - va), lc, q.2)).foldl (fun (r : List (Place × Nat × Nat) × Nat) x =>
        (r.1 ++ [(x.1, x.2.2, r.2)], r.2 / 2 ^ (8 * x.2.2))) (r, v / 256 ^ (b - va))).1 = r ++ putChain p va v l := by
    intro l
    induction l with
    | nil => exact fun b r _ _ => (List.append_nil r).symm
    | cons q l ih =>
      intro b r hc lo
      obtain ⟨rfl, hc⟩ := hc
      have next : v / 256 ^ (q.1 - va) / 2 ^ (8 * q.2) = v / 256 ^ (q.1 + q.2 - va) := by
        rw [Nat.div_div_eq_div_mul, Nat.pow_mul, ← Nat.pow_add]
        congr 2
        omega
      rw [List.map_cons, List.foldl_cons, next, ih _ _ hc (by omega), List.append_assoc]
      rfl
  have puts := each (pieces va n) va [] (chained_pieces va n hl.pos) (Nat.le_refl va)
  rw [Nat.sub_self, Nat.pow_zero, Nat.div_one, List.nil_append] at puts
  rw [Module.mPuts, Module.mPieces_opens h hl, Option.getD_some]
  exact puts

/-- The pieces of an element store it. -/
theorem foldl_putStep_chain (w : Who) (c : SMap Nat) (p : Place) (a v e : Nat) : ∀ (l : List (Nat × Nat)) (b : Nat) (r : Module × List Nat),
    Chained b l e → a ≤ b →
    StoresAt r.1 ((putChain p a v l).foldl (putStep w c) r).1 (p.plus (b - a)) (e - b) (v / 256 ^ (b - a)) ∧
      Elsewhere [] r.1 ((putChain p a v l).foldl (putStep w c) r).1 ∧ ((putChain p a v l).foldl (putStep w c) r).1.cores = r.1.cores := by
  intro l
  induction l with
  | nil =>
    intro b r hc _
    obtain rfl : b = e := hc
    rw [Nat.sub_self]
    exact ⟨StoresAt.nothing _ _ _, Elsewhere.refl [] _, rfl⟩
  | cons q l ih =>
    intro b r hc lo
    obtain ⟨rfl, hc⟩ := hc
    have le := hc.le
    let here := p.plus (q.1 - a)
    obtain ⟨stored, beside⟩ := Module.putPiece_stored r.1 w here q.2 (v / 256 ^ (q.1 - a)) (here.request r.2).1 (coversAll c here)
    obtain ⟨stores, rest, cores⟩ := ih (q.1 + q.2) (putStep w c r (here, q.2, v / 256 ^ (q.1 - a))) hc (by omega)
    have behind : p.plus (q.1 + q.2 - a) = here.plus q.2 := by rw [Place.plus_plus]; congr 1; omega
    have high : v / 256 ^ (q.1 + q.2 - a) = v / 256 ^ (q.1 - a) / 256 ^ q.2 := by
      rw [Nat.div_div_eq_div_mul, ← Nat.pow_add]
      congr 2
      omega
    rw [behind, high] at stores
    have both := stored.append stores beside.linkUp
    rw [Nat.mod_add_div, show q.2 + (e - (q.1 + q.2)) = e - q.1 by omega] at both
    exact ⟨both, beside.trans rest, cores.trans (Module.putPiece_cores _ _ _ _ _ _ _)⟩

/-! ### The elements of an operation -/

theorem Place.host_of_cell {p : Place} (h : p.cell.1 = 2) : ∃ a, p = .host a := by
  cases p with
  | host a => exact ⟨a, rfl⟩
  | _ => cases h

section
variable {δ : Type} {m : Module} {k n : Nat} {l : List δ} {addr val : δ → Nat} {place : δ → Place}
  (hp : ∀ d ∈ l, (∃ lc, (m.thXlat k (addr d) .store).2 = .ok (place d) lc) ∧ InLine (addr d) n)
include hp

/-- The writes of the elements of an operation, one after another. -/
theorem Module.mWrite_opens : ∃ (w : Who) (c : SMap Nat), m.mWrite k (l.map fun d => (addr d, n, val d)) =
    (l.foldl (fun r d => (putChain (place d) (addr d) (val d) (pieces (addr d) n)).foldl (putStep w c) r) (m, [])).1 := by
  have puts : (l.map fun d => (addr d, n, val d)).flatMap (fun x => m.mPuts k x.1 x.2.1 x.2.2) =
      l.flatMap fun d => putChain (place d) (addr d) (val d) (pieces (addr d) n) := by
    rw [List.flatMap_map]
    refine List.flatMap_congr fun d hd => ?_
    obtain ⟨⟨lc, found⟩, line⟩ := hp d hd
    exact Module.mPuts_opens found line
  refine ⟨m.who k false, coverOf ((l.flatMap fun d => putChain (place d) (addr d) (val d) (pieces (addr d) n)).map fun x => (x.1, x.2.1)), ?_⟩
  rw [Module.mWrite, puts, Module.putPieces_eq, List.foldl_flatMap]

theorem Module.mWrite_elsewhere : Elsewhere [] m (m.mWrite k (l.map fun d => (addr d, n, val d))) ∧
    (m.mWrite k (l.map fun d => (addr d, n, val d))).cores = m.cores ∧
    (m.mWrite k (l.map fun d => (addr d, n, val d))).ms.flash = m.ms.flash := by
  obtain ⟨w, c, made⟩ := Module.mWrite_opens (val := val) hp
  rw [made]
  refine List.foldlRecOn (motive := fun r : Module × List Nat => Elsewhere [] m r.1 ∧ r.1.cores = m.cores ∧ r.1.ms.flash = m.ms.flash)
    l _ ⟨Elsewhere.refl [] m, rfl, rfl⟩ fun r hr d hd => ?_
  obtain ⟨elsewhere, cores, flash⟩ := hr
  obtain ⟨stored, rest, same⟩ := foldl_putStep_chain w c (place d) (addr d) (val d) _ _ (addr d) r
    (chained_pieces _ n (hp d hd).2.pos) (Nat.le_refl _)
  exact ⟨elsewhere.trans rest, same.trans cores, stored.2.trans flash⟩

/-- Writing one element after others changes its bytes alone. -/
theorem Module.mWrite_step {w : Who} {c : SMap Nat} {d : δ} (hd : d ∈ l) (r : Module × List Nat) :
    StoresAt r.1 ((putChain (place d) (addr d) (val d) (pieces (addr d) n)).foldl (putStep w c) r).1 (place d) n (val d) ∧
      Elsewhere [] r.1 ((putChain (place d) (addr d) (val d) (pieces (addr d) n)).foldl (putStep w c) r).1 := by
  have h := foldl_putStep_chain w c (place d) (addr d) (val d) _ _ (addr d) r (chained_pieces _ n (hp d hd).2.pos) (Nat.le_refl _)
  rw [Nat.sub_self, Place.plus_zero, Nat.add_sub_cancel_left, Nat.pow_zero, Nat.div_one] at h
  exact ⟨h.1, h.2.1⟩

/-- A byte that no element covers stays. -/
theorem Module.mWrite_outside {x : Nat × Nat} (h : ∀ d ∈ l, ¬ (place d).covers n x) :
    (m.mWrite k (l.map fun d => (addr d, n, val d))).byteAt x = m.byteAt x := by
  obtain ⟨w, c, made⟩ := Module.mWrite_opens (val := val) hp
  rw [made]
  refine foldl_kept (I := fun _ => True) (see := fun r : Module × List Nat => r.1.byteAt x) trivial (fun _ _ _ _ => trivial) fun r d hd _ => ?_
  exact (Module.mWrite_step hp hd r).1.outside x (h d hd)

/-- A byte that one element alone covers is a byte of its value. -/
theorem Module.mWrite_inside {x : Nat × Nat} {d : δ} (hd : d ∈ l) (hx : (place d).covers n x) (hu : ∀ a, place d = .host a → m.linkUp = true)
    (alone : ∀ e ∈ l, (place e).covers n x → e = d) :
    (m.mWrite k (l.map fun d => (addr d, n, val d))).byteAt x = val d / 256 ^ (x.2 - (place d).cell.2) % 256 := by
  obtain ⟨w, c, made⟩ := Module.mWrite_opens (val := val) hp
  rw [made]
  refine foldl_written (I := fun r : Module × List Nat => Elsewhere [] m r.1) (see := fun r : Module × List Nat => r.1.byteAt x)
    (fun e => (place e).covers n x) (Elsewhere.refl [] m) (fun r e he hr => hr.trans (Module.mWrite_step hp he r).2) (fun r e he hr hit => ?_)
    (fun r e he _ miss => (Module.mWrite_step hp he r).1.outside x miss) ⟨d, hd, hx⟩
  obtain rfl := alone e he hit
  obtain ⟨same, lo, hi⟩ := hx
  have up : x.1 = 2 → r.1.linkUp = true := fun hc => by
    obtain ⟨a, ha⟩ := Place.host_of_cell (same.symm.trans hc)
    rw [hr.linkUp]
    exact hu a ha
  exact ((Module.mWrite_step hp he r).1.1 x).trans (if_pos ⟨same, lo, hi, up⟩)

end

end Sys2Proof.Machine
end

section
/-! PROOFS of the matrix family (06_matrix_unit), fifth part: an instruction that enters the queue, and one that is performed there at once. -/

namespace Sys2Proof.Machine

/-! ### The instructions that enter the queue -/

/-- The matrix instructions with their rows and their scalar destinations. -/
def matrixOps (th : ThreadId) (w : Word) : List (Instr × Row × Nat) :=
  [(.msLd th w, .msLd, 0), (.msSwap th w, .msSwap, 0), (.mma th w, .mma, 0), (.mstCfg th w, .mstCfg, 0),
    (.mstSeek th w, .mstSeek, 0), (.maccZero th w, .maccZero, 0), (.maccLd th w, .maccLd, 0), (.maccDrain th w, .maccDrain, 0),
    (.maccStat th w, .maccStat, Word.rd w), (.qCholTile th w, .qCholTile, Word.slice w 5 0), (.qTrsm th w, .qTrsm, 0),
    (.qSchur th w, .qSchur, 0), (.qHhPanel th w, .qHhPanel, Word.slice w 5 0), (.qHhApply th w, .qHhApply, 0)]

/-- The descriptor of an mst.cfg lies at a multiple of 64. -/
def State.cfgAligned (s : State) (th : ThreadId) (w : Word) (r : Row) : Prop := r = .mstCfg → ((s.thread th).getS (Word.ra w)).toNat % 64 = 0

/-- What an mst.cfg does when it issues. -/
def cfgBody (w : Word) (m : Module) (k : Nat) : Module :=
  let a := (m.th k).getS (Word.ra w)
  if a.toNat % 64 != 0 && decide ((m.core (k / 8)).mq.length < 16) then m.trapWith k causeAlign a true 0 else m.mIssue k w 0

theorem State.mstCfg_runs {s : State} {th : ThreadId} {w : Word} (hi : s.issues .mstCfg th w = true) :
    exec (.mstCfg th w) s = .next { s with m := cfgBody w (s.issuing th) (ThreadId.key th) } :=
  State.inst_issues s .mstCfg th w (cfgBody w) hi

/-- A matrix instruction that issues goes to the queue. -/
theorem State.matrix_issues {s : State} {th : ThreadId} {w : Word} {i : Instr} {r : Row} {dst : Nat} (h : (i, r, dst) ∈ matrixOps th w)
    (hi : s.issues r th w = true) (ha : s.cfgAligned th w r) :
    exec i s = .next { s with m := (s.issuing th).mIssue (ThreadId.key th) w dst } := by
  have plain : ∀ {i r dst}, exec i s = s.inst r th w (fun m k => m.mIssue k w dst) → s.issues r th w = true →
      exec i s = .next { s with m := (s.issuing th).mIssue (ThreadId.key th) w dst } :=
    fun he hi => he.trans (State.inst_issues s _ th w _ hi)
  simp only [matrixOps, List.mem_cons, Prod.mk.injEq, List.not_mem_nil, or_false] at h
  rcases h with ⟨rfl, rfl, rfl⟩ | ⟨rfl, rfl, rfl⟩ | ⟨rfl, rfl, rfl⟩ | ⟨rfl, rfl, rfl⟩ | h
  case inr.inr.inr.inl =>
    have aligned : (((s.issuing th).th (ThreadId.key th)).getS (Word.ra w)).toNat % 64 = 0 := ha rfl
    rw [State.mstCfg_runs hi, cfgBody, if_neg (by simp [aligned])]
  case inr.inr.inr.inr =>
    rcases h with ⟨rfl, rfl, rfl⟩ | ⟨rfl, rfl, rfl⟩ | ⟨rfl, rfl, rfl⟩ | ⟨rfl, rfl, rfl⟩ | ⟨rfl, rfl, rfl⟩ | ⟨rfl, rfl, rfl⟩ |
      ⟨rfl, rfl, rfl⟩ | ⟨rfl, rfl, rfl⟩ | ⟨rfl, rfl, rfl⟩ | ⟨rfl, rfl, rfl⟩ <;> exact plain rfl hi
  all_goals exact plain rfl hi

/-! ### The entry of an instruction -/

/-- The queue entry of an instruction of a thread. -/
def State.mEntry (s : State) (th : ThreadId) (w : Word) (dst : Nat) : MOp :=
  (s.thread th).mEntry (s.m.core (ThreadId.key th / 8)).nextOp (keyThread (ThreadId.key th)) w ((s.thread th).mDst dst)

/-- What keeps an instruction of a thread from entering. -/
def State.mStays (s : State) (th : ThreadId) (w : Word) : Prop :=
  16 ≤ (s.m.core (ThreadId.key th / 8)).mq.length ∨ mAccesses w = true ∧ (s.issuing th).acqPending (ThreadId.key th) = true

/-- The module in which an instruction of a thread has entered the queue. -/
def State.mEntered (s : State) (th : ThreadId) (w : Word) (dst : Nat) : Module := (s.issuing th).entered (ThreadId.key th) w dst

/-- A thread has gone on past an instruction that has entered the queue, which is not counted as retired. -/
def State.goneOn (s : State) (th : ThreadId) (m : Module) : Prop :=
  (m.th (ThreadId.key th)).ip = (s.thread th).ip + 8 ∧ (m.th (ThreadId.key th)).run = .running ∧
  (m.th (ThreadId.key th)).retiredAt = (s.thread th).retiredAt ∧ (m.th (ThreadId.key th)).s = (s.thread th).s ∧
  (m.th (ThreadId.key th)).v = (s.thread th).v ∧ (m.th (ThreadId.key th)).m = (s.thread th).m

section
variable {s : State} {th : ThreadId} {w : Word}

theorem State.mStays_issuing : (s.issuing th).mStays (ThreadId.key th) w ↔ s.mStays th w := by
  rw [Module.mStays, State.issuing_core, State.mStays]

theorem State.mEntry_key (dst : Nat) : (s.mEntry th w dst).key (ThreadId.key th / 8) = ThreadId.key th := MOp.key_entry _ _ _ _ _

theorem State.mEntered_core (dst : Nat) : (s.mEntered th w dst).core (ThreadId.key th / 8) =
    (s.m.core (ThreadId.key th / 8)).entering (s.mEntry th w dst) (ThreadId.key th) := by
  rw [State.mEntered, Module.core_entered, State.issuing_core]
  rfl

theorem State.mEntered_th (dst : Nat) : (s.mEntered th w dst).th (ThreadId.key th) = (s.thread th).entering dst := Module.th_entered _ _ _ _

theorem State.mEntered_beside (dst : Nat) : Beside [ThreadId.key th] s.m (s.mEntered th w dst) :=
  (s.issuing_beside th).trans (Module.entered_beside _ _ _ _)

/-- A thread that issues runs. -/
theorem State.issues_running {r : Row} (hi : s.issues r th w = true) : (s.thread th).run = .running := by
  have settled : s.thread th = (s.m.th (ThreadId.key th)).settled := Module.settle_th s.m.fresh _
  obtain ⟨_, _, _, same⟩ := (s.m.th (ThreadId.key th)).settled_regs
  rw [settled, same]
  simp only [State.issues, State.canIssue, Bool.and_eq_true, beq_iff_eq] at hi
  obtain ⟨-, ⟨⟨running, -⟩, -⟩, -⟩ := hi
  exact running

theorem State.entering_goneOn {r : Row} (hi : s.issues r th w = true) {dst : Nat} {os : List Outst} {m : Module}
    (ht : m.th (ThreadId.key th) = { (s.thread th).entering dst with outst := os }) : s.goneOn th m := by
  have running := State.issues_running hi
  rw [State.goneOn, ht]
  by_cases none_ : dst = 0
  · simp only [Thread.entering, if_pos none_, running, and_self]
  · simp only [Thread.entering, if_neg none_, Thread.opens, running, and_self]

/-- An instruction that may not enter changes nothing (04 R104). -/
theorem State.matrix_stays {i : Instr} {dst : Nat} (he : exec i s = .next { s with m := (s.issuing th).mIssue (ThreadId.key th) w dst })
    (h : s.mStays th w) : Leaves i s th (s.thread th) := by
  rw [Module.mIssue_stays (State.mStays_issuing.mpr h)] at he
  exact ⟨_, he, rfl, rfl, State.issuing_same s th⟩

theorem State.matrix_enters {i : Instr} {dst : Nat} (he : exec i s = .next { s with m := (s.issuing th).mIssue (ThreadId.key th) w dst })
    (h : ¬ s.mStays th w) : exec i s = .next { s with m := (s.mEntered th w dst).settleQueue (ThreadId.key th / 8) } := by
  rw [he, Module.mIssue_enters (mt State.mStays_issuing.mp h)]
  rfl

/-- May the new entry of a queue start? Whether it has a scalar destination makes no difference. -/
theorem Core.canStart_entering (c : Core) (k id thread : Nat) (t : Thread) (d : Option Nat) :
    (c.entering (t.mEntry id thread w d) k).canStart (t.mEntry id thread w d) =
      Core.canStart { c with mq := c.mq ++ [t.mEntry id thread w none] } (t.mEntry id thread w none) := by
  have alike : ∀ o, startAfter (t.mEntry id thread w d) o = startAfter (t.mEntry id thread w none) o := fun _ => rfl
  have ends : ∀ (l : List MOp) (d : Option Nat), (l ++ [t.mEntry id thread w d]).takeWhile (fun o => o.id != id) = l.takeWhile (fun o => o.id != id) := by
    intro l d
    induction l with
    | nil => simp [Thread.mEntry]
    | cons x l ih => simp only [List.cons_append, List.takeWhile_cons, ih]
  simp only [Core.canStart, Core.before]
  exact (congrArg (List.all · _) (ends c.mq d)).trans ((List.all_congr rfl alike).trans (congrArg (List.all · _) (ends c.mq none)).symm)

end

/-! ### An instruction that waits in the queue -/

/-- The tiles, sets and channels of a core are those of another. -/
def Core.sameUnit (c c' : Core) : Prop :=
  c'.acc = c.acc ∧ c'.tstat = c.tstat ∧ c'.set0 = c.set0 ∧ c'.set1 = c.set1 ∧ c'.active = c.active ∧ c'.chans = c.chans

/-- What an instruction that waits in the queue leaves. -/
def State.Queued (s : State) (th : ThreadId) (w : Word) (dst : Nat) (m : Module) : Prop :=
  s.goneOn th m ∧ (m.core (ThreadId.key th / 8)).mq = (s.m.core (ThreadId.key th / 8)).mq ++ [s.mEntry th w dst] ∧
  (s.m.core (ThreadId.key th / 8)).sameUnit (m.core (ThreadId.key th / 8)) ∧ SameBytes s.m m ∧ Alone s.m m th ∧
  (dst = 0 → (m.th (ThreadId.key th)).outst = (s.thread th).outst) ∧
  (dst ≠ 0 → ∃ x : Outst, (m.th (ThreadId.key th)).outst = (s.thread th).outst ++ [x] ∧ x.id = (s.thread th).issued ∧ x.dstS = [dst] ∧ x.left = 1)

theorem State.mEntered_queued {s : State} {th : ThreadId} {w : Word} {r : Row} (hi : s.issues r th w = true) (dst : Nat) :
    s.Queued th w dst (s.mEntered th w dst) := by
  have beside := s.mEntered_beside (th := th) (w := w) dst
  have thread := s.mEntered_th (th := th) (w := w) dst
  refine ⟨State.entering_goneOn hi (os := ((s.thread th).entering dst).outst) thread, ?_, ?_, beside.sameBytes, beside.alone fun _ h => h,
    fun h => ?_, fun h => ?_⟩
  · rw [State.mEntered_core]; rfl
  · rw [State.mEntered_core]; exact ⟨rfl, rfl, rfl, rfl, rfl, rfl⟩
  · rw [thread, Thread.entering, if_pos h]
  · rw [thread, Thread.entering, if_neg h]
    exact ⟨_, rfl, rfl, rfl, rfl⟩

/-- An instruction enters the queue, and waits there while no entry may be performed. -/
theorem State.matrix_waits {s : State} {th : ThreadId} {w : Word} {i : Instr} {r : Row} {dst : Nat}
    (he : exec i s = .next { s with m := (s.issuing th).mIssue (ThreadId.key th) w dst }) (hi : s.issues r th w = true) (h : ¬ s.mStays th w)
    (hq : ∀ x ∈ (s.m.core (ThreadId.key th / 8)).mq, x.settled)
    (hn : (s.mEntry th w 0).lane = true ∨ Core.canStart { s.m.core (ThreadId.key th / 8) with
      mq := (s.m.core (ThreadId.key th / 8)).mq ++ [s.mEntry th w 0] } (s.mEntry th w 0) = false) : Completes i s (s.Queued th w dst) := by
  have waits : (s.mEntered th w dst).settleQueue (ThreadId.key th / 8) = s.mEntered th w dst := by
    refine Module.settleQueue_nothing fun x hx => ?_
    rw [State.mEntered_core] at hx ⊢
    rcases List.mem_append.mp hx with old | new
    · exact .inl (hq x old)
    · obtain rfl := List.mem_singleton.mp new
      exact hn.imp (fun lane => .inl lane) fun cannot => (Core.canStart_entering _ _ _ _ _ _).trans cannot
  have run := State.matrix_enters he h
  rw [waits] at run
  exact Completes.of_exec run (s.mEntered_queued hi dst)

/-! ### An instruction that is performed at once -/

/-- An operation of these majors is performed off the lane path. -/
theorem State.mEntry_unsettled {s : State} {th : ThreadId} {w : Word} (dst : Nat) (hm : Word.major w ∈ [0x20, 0x22, 0x23]) :
    ¬ (s.mEntry th w dst).settled := by
  simp only [List.mem_cons, List.not_mem_nil, or_false] at hm
  rcases hm with h | h | h <;> simp [MOp.settled, MOp.lane, MOp.isMwait, State.mEntry, Thread.mEntry, h]

/-- What an instruction that has been performed on an empty queue leaves, beside its effect `p`. -/
def State.Performed (s : State) (th : ThreadId) (w : Word) (dst : Nat) (p : Module → Prop) (m : Module) : Prop :=
  s.goneOn th m ∧ Alone s.m m th ∧ (∃ f, (m.core (ThreadId.key th / 8)).mq = [(s.mEntry th w dst).performed f]) ∧ p m

section
variable {s : State} {th : ThreadId} {w : Word} {i : Instr} {r : Row} {dst : Nat} {x : Module} {c : Core} {f : Flags} {p : Module → Prop}
  (he : exec i s = .next { s with m := (s.issuing th).mIssue (ThreadId.key th) w dst }) (hi : s.issues r th w = true) (h : ¬ s.mStays th w)
  (hq : (s.m.core (ThreadId.key th / 8)).mq = []) (hm : Word.major w ∈ [0x20, 0x22, 0x23])
  (hp : (s.mEntered th w dst).mPerform (ThreadId.key th / 8) (s.mEntry th w dst) = some x)
  (hc : x.core (ThreadId.key th / 8) = { c with mq := [(s.mEntry th w dst).performed f] }) (hx : p x)
include he hi h hq hm hp hc hx

/-- An instruction on an empty queue is performed at once. -/
theorem State.matrix_performs (ht : ∃ os, x.th (ThreadId.key th) = { (s.thread th).entering dst with outst := os })
    (hr : Elsewhere [ThreadId.key th] (s.mEntered th w dst) x) : Completes i s (s.Performed th w dst p) := by
  obtain ⟨os, thread⟩ := ht
  have only : ((s.mEntered th w dst).core (ThreadId.key th / 8)).mq = [s.mEntry th w dst] := by
    rw [State.mEntered_core]
    exact congrArg (· ++ [s.mEntry th w dst]) hq
  have done : ∀ y ∈ (x.core (ThreadId.key th / 8)).mq, y.settled := fun y hy => by
    rw [hc] at hy
    obtain rfl := List.mem_singleton.mp hy
    exact .inr (.inr (.inl rfl))
  have performed := Module.settleQueue_performs only (State.mEntry_unsettled dst hm) hp done
  have run := State.matrix_enters he h
  rw [performed] at run
  refine Completes.of_exec run ⟨State.entering_goneOn hi thread, ?_, ⟨f, by rw [hc]⟩, hx⟩
  exact ((s.mEntered_beside dst).toElsewhere.trans hr).alone fun _ h => h

/-- So is one that leaves the threads alone. -/
theorem State.matrix_performs_apart (hr : Elsewhere [] (s.mEntered th w dst) x) : Completes i s (s.Performed th w dst p) :=
  State.matrix_performs he hi h hq hm hp hc hx ⟨_, (hr.th _ List.not_mem_nil).trans (s.mEntered_th dst)⟩ hr.mono

end

/-! ### The end of an operation off the lane path -/

theorem Module.mDone_beside (m : Module) (core : Nat) (o : MOp) (f : Flags) : Beside [] m (m.mDone core o f) := m.modOp_beside _ _ _

/-- The module in which an operation has left its core as `c` and is done. -/
def Module.finished (m : Module) (core : Nat) (o : MOp) (c : Core) (f : Flags) : Module := (m.setCore core c).mDone core o f

theorem Module.finished_core (m : Module) {core : Nat} {o : MOp} {c : Core} (h : c.mq = [o]) (f : Flags) :
    (m.finished core o c f).core core = { c with mq := [o.performed f] } := by
  have only : ((m.setCore core c).core core).mq = [o] := by rw [Module.core_setCore_self, h]
  rw [Module.finished, Module.core_mDone _ only, Module.core_setCore_self]

theorem Module.finished_beside (m : Module) {core : Nat} (o : MOp) {c : Core} (h : c.grids = (m.core core).grids) (f : Flags) :
    Beside [] m (m.finished core o c f) := (Beside.setCore m core c h).trans (Module.mDone_beside _ _ _ _)

/-! ### The words of the M class (06 Tables 6-1, 6-8, 6-9) -/

/-- The major and minor of the rows whose operations run off the lane path. -/
def Row.mCode : Row → Option (Nat × Nat)
  | .msLd => some (0x20, 0)
  | .msSwap => some (0x20, 1)
  | .mstCfg => some (0x22, 0)
  | .mstSeek => some (0x22, 1)
  | .maccZero => some (0x23, 0)
  | .maccLd => some (0x23, 1)
  | .maccDrain => some (0x23, 2)
  | .maccStat => some (0x23, 3)
  | _ => none

theorem classify_mClass {w : Word} (h : Word.major w ∈ [0x20, 0x21, 0x22, 0x23, 0x24]) : classify w = classifyM w := by
  simp only [List.mem_cons, List.not_mem_nil, or_false] at h
  rcases h with h | h | h | h | h <;> simp [classify, h]

theorem classifyM_mCode {w : Word} {r : Row} {x : Nat × Nat} (h : classifyM w = some r) (hx : Row.mCode r = some x) :
    (Word.major w, Word.minor w) = x := by
  have found : ∀ {b : Bool} {r' : Row} {mj mn : Nat}, Word.major w = mj → Word.minor w = mn → rowIf b r' = some r →
      (∀ y, Row.mCode r' = some y → y = (mj, mn)) → (Word.major w, Word.minor w) = x := by
    intro b r' mj mn hj hn hr hy
    obtain ⟨-, rfl⟩ := (rowIf_eq_some _ _ _).mp hr
    rw [hj, hn, hy x hx]
  unfold classifyM at h
  dsimp only at h
  split at h
  · next major =>
    split_ifs at h with zero one
    · exact found major zero h (by simp [Row.mCode])
    · exact found major one h (by simp [Row.mCode])
  · next major => exact found major rfl h (by simp [Row.mCode])
  · next major =>
    split_ifs at h with zero one
    · exact found major zero h (by simp [Row.mCode])
    · exact found major one h (by simp [Row.mCode])
  · next major =>
    split at h
    · next minor => exact found major minor h (by simp [Row.mCode])
    · next minor => exact found major minor h (by simp [Row.mCode])
    · next minor => exact found major minor h (by simp [Row.mCode])
    · next minor => exact found major minor h (by simp [Row.mCode])
    · cases h
  · next major => exact found major rfl h (by simp [Row.mCode])
  · cases h

/-- The major and the minor of an instruction of such a row. -/
theorem State.issues_mCode {s : State} {th : ThreadId} {w : Word} {r : Row} {mj mn : Nat} (hi : s.issues r th w = true)
    (hx : Row.mCode r = some (mj, mn)) : Word.major w = mj ∧ Word.minor w = mn := by
  have row := State.issues_row hi
  have majors : r.majors = [0x20, 0x21, 0x22, 0x23, 0x24] := by
    cases r with
    | msLd | msSwap | mstCfg | mstSeek | maccZero | maccLd | maccDrain | maccStat => rfl
    | _ => cases hx
  rw [classify_mClass (majors ▸ classify_major w row)] at row
  exact Prod.mk.inj (classifyM_mCode row hx)

end Sys2Proof.Machine
end

section
/-! PROOFS of the matrix family (06_matrix_unit), sixth part: the operations off the lane path that access no memory (06 R136, R139, R140, R142, R145). -/

namespace Sys2Proof.Machine

/-! ### What the queue performs -/

section
variable (m : Module) (core : Nat) {o : MOp}

theorem Module.mPerform_msLd (hj : Word.major o.word = 0x20 ∧ Word.minor o.word = 0) : m.mPerform core o = m.doMsLd core o := by
  simp only [Module.mPerform, hj.1, hj.2]

theorem Module.mPerform_msSwap (hj : Word.major o.word = 0x20 ∧ Word.minor o.word = 1) : m.mPerform core o =
    some (m.finished core o { m.core core with active := !(m.core core).active } fNone) := by
  simp only [Module.mPerform, hj.1, hj.2]
  rfl

theorem Module.mPerform_mstCfg (hj : Word.major o.word = 0x22 ∧ Word.minor o.word = 0) : m.mPerform core o = m.doCfg core o := by
  simp only [Module.mPerform, hj.1, hj.2]

theorem Module.mPerform_mstSeek (hj : Word.major o.word = 0x22 ∧ Word.minor o.word = 1) : m.mPerform core o =
    some (m.finished core o ((m.core core).setChan (Word.rd o.word)
      { (m.core core).chan (Word.rd o.word) with col := o.a.toNat % 2 ^ 32, kap := o.b.toNat % 2 ^ 32 }) fNone) := by
  simp only [Module.mPerform, hj.1, hj.2]
  rfl

theorem Module.mPerform_maccZero (hj : Word.major o.word = 0x23 ∧ Word.minor o.word = 0) : m.mPerform core o =
    some (m.finished core o (((m.core core).tileZero (Word.rd o.word) (tfmtTiles (Word.slice o.word 12 11))).clearSticky (Word.rd o.word)) fNone) := by
  simp only [Module.mPerform, hj.1, hj.2]
  rfl

theorem Module.mPerform_maccLd (hj : Word.major o.word = 0x23 ∧ Word.minor o.word = 1) : m.mPerform core o = m.doLd core o := by
  simp only [Module.mPerform, hj.1, hj.2]

theorem Module.mPerform_maccDrain (hj : Word.major o.word = 0x23 ∧ Word.minor o.word = 2) : m.mPerform core o = m.doDrain core o := by
  simp only [Module.mPerform, hj.1, hj.2]

theorem Module.mPerform_maccStat (hj : Word.major o.word = 0x23 ∧ Word.minor o.word = 3) : m.mPerform core o = some (m.doStat core o) := by
  simp only [Module.mPerform, hj.1, hj.2]

end

section
variable {s : State} {th : ThreadId} {w : Word}

theorem State.mEntered_mq (hq : (s.m.core (ThreadId.key th / 8)).mq = []) (dst : Nat) :
    ((s.mEntered th w dst).core (ThreadId.key th / 8)).mq = [s.mEntry th w dst] := by
  rw [State.mEntered_core]
  exact congrArg (· ++ [s.mEntry th w dst]) hq

theorem State.issues_offLane {r : Row} {mj mn : Nat} (hi : s.issues r th w = true) (hx : Row.mCode r = some (mj, mn)) :
    Word.major w ∈ [0x20, 0x22, 0x23] := by
  rw [(State.issues_mCode hi hx).1]
  cases r with
  | msLd | msSwap | mstCfg | mstSeek | maccZero | maccLd | maccDrain | maccStat => obtain ⟨rfl, -⟩ := Prod.mk.inj (Option.some.inj hx); decide
  | _ => cases hx

section
variable {x : Module} {dst : Nat} (looks : Looks (ThreadId.key th) (s.mEntered th w dst) x)
include looks

/-- The core in which an operation is performed, but for its translations. -/
theorem State.looks_core :
    { x.core (ThreadId.key th / 8) with tlb := [] } =
      { (s.m.core (ThreadId.key th / 8)).entering (s.mEntry th w dst) (ThreadId.key th) with tlb := [] } := by
  rw [looks.core, State.mEntered_core]

theorem State.looks_mq (hq : (s.m.core (ThreadId.key th / 8)).mq = []) : (x.core (ThreadId.key th / 8)).mq = [s.mEntry th w dst] :=
  (looks.mq _).trans (State.mEntered_mq hq dst)

theorem State.looks_unit : (s.m.core (ThreadId.key th / 8)).sameUnit (x.core (ThreadId.key th / 8)) := by
  have e := State.looks_core looks
  simp only [Core.mk.injEq] at e
  obtain ⟨-, -, acc, tstat, set0, set1, active, chans, -⟩ := e
  exact ⟨acc, tstat, set0, set1, active, chans⟩

end

section
variable {i : Instr} {r : Row} {mj mn : Nat} {c : Core} {f : Flags} {p : Module → Prop} {x y : Module} (hin : (i, r, 0) ∈ matrixOps th w)
  (hi : s.issues r th w = true) (hx : Row.mCode r = some (mj, mn)) (ha : s.cfgAligned th w r) (h : ¬ s.mStays th w)
  (hq : (s.m.core (ThreadId.key th / 8)).mq = []) (looks : Looks (ThreadId.key th) (s.mEntered th w 0) x)
include hin hi hx ha h hq looks

section
variable (hp : (s.mEntered th w 0).mPerform (ThreadId.key th / 8) (s.mEntry th w 0) = some y)
  (hb : Beside [] (x.finished (ThreadId.key th / 8) (s.mEntry th w 0) c f) y)
  (hy : y.cores = (x.finished (ThreadId.key th / 8) (s.mEntry th w 0) c f).cores)
  (hc : c.mq = (x.core (ThreadId.key th / 8)).mq) (hg : c.grids = (x.core (ThreadId.key th / 8)).grids)
include hp hb hy hc hg

/-- An operation that changes its core alone, but for its translations and what it counts. -/
theorem State.matrix_ends
    (hpc : ∀ m, m.core (ThreadId.key th / 8) = { c with mq := [(s.mEntry th w 0).performed f] } → SameBytes s.m m → p m) :
    Completes i s (s.Performed th w 0 p) := by
  have made := (Module.core_congr hy _).trans (x.finished_core (core := ThreadId.key th / 8) (hc.trans (State.looks_mq looks hq)) f)
  have beside := (looks.toBeside.trans (x.finished_beside (s.mEntry th w 0) hg f)).trans hb
  exact State.matrix_performs_apart (State.matrix_issues hin hi ha) hi h hq (State.issues_offLane hi hx) hp made
    (hpc _ made ((s.mEntered_beside 0).sameBytes.trans beside.sameBytes)) beside.toElsewhere

/-- So, when its effect is one on tiles, sets and channels. -/
theorem State.matrix_reads (hpc : ∀ m, c.sameUnit (m.core (ThreadId.key th / 8)) → SameBytes s.m m → p m) :
    Completes i s (s.Performed th w 0 p) :=
  State.matrix_ends hin hi hx ha h hq looks hp hb hy hc hg fun m made => hpc m (by rw [made]; exact ⟨rfl, rfl, rfl, rfl, rfl, rfl⟩)

end

end

variable (h : ¬ s.mStays th w) (hq : (s.m.core (ThreadId.key th / 8)).mq = [])
include h hq

/-- ms.swap exchanges the sets (06 R136). -/
theorem State.msSwap_performs (hi : s.issues .msSwap th w = true) : Completes (.msSwap th w) s (s.Performed th w 0 fun m =>
    let c := s.m.core (ThreadId.key th / 8)
    let c' := m.core (ThreadId.key th / 8)
    c'.active = !c.active ∧ c'.set0 = c.set0 ∧ c'.set1 = c.set1 ∧ c'.acc = c.acc ∧ c'.chans = c.chans ∧ SameBytes s.m m) := by
  refine State.matrix_ends (by simp [matrixOps]) hi rfl (fun e => nomatch e) h hq (Looks.refl _ _) (Module.mPerform_msSwap _ _ (State.issues_mCode hi rfl))
    (Beside.refl [] _) rfl rfl rfl fun m hm bytes => ?_
  simp only [hm, State.mEntered_core]
  exact ⟨rfl, rfl, rfl, rfl, rfl, bytes⟩

/-- mst.seek sets the cursors (06 R145). -/
theorem State.mstSeek_performs (hi : s.issues .mstSeek th w = true) : Completes (.mstSeek th w) s (s.Performed th w 0 fun m =>
    let c := s.m.core (ThreadId.key th / 8)
    let c' := m.core (ThreadId.key th / 8)
    c'.chan (Word.rd w) = { c.chan (Word.rd w) with col := (s.mEntry th w 0).a.toNat % 2 ^ 32, kap := (s.mEntry th w 0).b.toNat % 2 ^ 32 } ∧
    (∀ x, x ≠ Word.rd w → c'.chan x = c.chan x) ∧ SameBytes s.m m) := by
  refine State.matrix_ends (by simp [matrixOps]) hi rfl (fun e => nomatch e) h hq (Looks.refl _ _) (Module.mPerform_mstSeek _ _ (State.issues_mCode hi rfl))
    (Beside.refl [] _) rfl rfl rfl fun m hm bytes => ?_
  simp only [hm, State.mEntered_core]
  exact ⟨(Core.chan_setChan _ _ _ _).trans (if_pos rfl), fun x hx => (Core.chan_setChan _ _ _ _).trans (if_neg hx), bytes⟩

/-- macc.zero writes +0 and clears the sticky bits (06 R139, R140). -/
theorem State.maccZero_performs (hi : s.issues .maccZero th w = true) : Completes (.maccZero th w) s (s.Performed th w 0 fun m =>
    let c := s.m.core (ThreadId.key th / 8)
    let c' := m.core (ThreadId.key th / 8)
    let d := Word.rd w
    let nt := tfmtTiles (Word.slice w 12 11)
    (∀ r col, r < 32 → col < 32 → c'.tileBits d nt r col = 0 ∧ ∀ x, x < d ∨ d + nt ≤ x → c'.accWord x r col = c.accWord x r col) ∧
    c'.stat d = (c.stat d &&& 0xFFFFFFFF00000000) ∧ SameBytes s.m m) := by
  refine State.matrix_ends (by simp [matrixOps]) hi rfl (fun e => nomatch e) h hq (Looks.refl _ _) (Module.mPerform_maccZero _ _ (State.issues_mCode hi rfl))
    (Beside.refl [] _) rfl rfl rfl fun m hm bytes => ?_
  simp only [hm, State.mEntered_core]
  refine ⟨fun r col hr hc => ⟨Core.tileBits_zero fun x lo hi => ?_, fun x hx => ?_⟩, Core.stat_setStat _ _ _, bytes⟩
  · exact (Core.accWord_tileZero _ _ _ hr hc x).trans (if_pos ⟨lo, hi⟩)
  · exact (Core.accWord_tileZero _ _ _ hr hc x).trans (if_neg (show ¬ (Word.rd w ≤ x ∧ x < Word.rd w + tfmtTiles (Word.slice w 12 11)) by omega))

end

/-! ### macc.stat (06 R142, R159) -/

/-- An outstanding access that has received one value. -/
def Outst.receive (o : Outst) (g : Got) : Outst := { o with got := [g], left := 0 }

theorem Thread.settled_received {t : Thread} {l : List Outst} {o : Outst} {g : Got} (h : t.outst = l ++ [o.receive g]) (hv : g.viol = false)
    (hs : g.vec = false) (hr : g.reg ≠ 0) : t.settled.getS g.reg = BitVec.ofNat 64 g.val := by
  rw [Thread.settled_last h (by simp [Outst.ready, Outst.receive, hv])]
  exact (Thread.put_scalar _ g hs hr).1

section
variable (m : Module) (core : Nat) (o : MOp) (got : List Got)

theorem Module.mDeliver_cores : (m.mDeliver core o got).cores = m.cores := by
  unfold Module.mDeliver
  cases o.dst <;> rfl

theorem Module.mDeliver_beside : Beside [o.key core] m (m.mDeliver core o got) := by
  unfold Module.mDeliver
  cases o.dst with
  | none => exact Beside.refl _ m
  | some id => exact Beside.setTh m _ _

/-- What the value of an operation changes of its thread. -/
theorem Module.mDeliver_th : ∃ os, (m.mDeliver core o got).th (o.key core) = { m.th (o.key core) with outst := os } := by
  unfold Module.mDeliver
  cases o.dst with
  | none => exact ⟨_, rfl⟩
  | some id => exact ⟨_, Module.th_setTh_self _ _ _⟩

end

/-- A value that is delivered stands in its register as the next instruction issues. -/
theorem Module.mDeliver_settledS {s : State} {th : ThreadId} {w : Word} {dst : Nat} (hd : dst ≠ 0) (v : Nat) :
    (((s.mEntered th w dst).mDeliver (ThreadId.key th / 8) (s.mEntry th w dst) [gotOf false dst 0 64 v none]).th (ThreadId.key th)).settled.getS dst =
      BitVec.ofNat 64 v := by
  have target : (s.mEntry th w dst).dst = some (s.thread th).issued := if_neg hd
  have key := s.mEntry_key (th := th) (w := w) dst
  have opened : ((s.mEntered th w dst).th (ThreadId.key th)).outst =
      (s.thread th).outst ++ [{ (s.thread th).access [] 1 true false [dst] [] 0 0 none false with id := (s.thread th).issued }] := by
    rw [State.mEntered_th, Thread.entering, if_neg hd]
    rfl
  refine Thread.settled_received (g := gotOf false dst 0 64 v none) (l := (s.thread th).outst.map fun x =>
    if x.id = (s.thread th).issued then x.receive (gotOf false dst 0 64 v none) else x)
    (o := { (s.thread th).access [] 1 true false [dst] [] 0 0 none false with id := (s.thread th).issued }) ?_ rfl rfl hd
  simp only [Module.mDeliver, target, key, Module.modOutst, Module.th_setTh_self, opened, List.map_append, List.map_cons, List.map_nil, if_true]
  rfl

/-- macc.stat delivers the status of its tile (06 R142). -/
theorem State.maccStat_performs {s : State} {th : ThreadId} {w : Word} (h : ¬ s.mStays th w) (hq : (s.m.core (ThreadId.key th / 8)).mq = [])
    (hi : s.issues .maccStat th w = true) : Completes (.maccStat th w) s (s.Performed th w (Word.rd w) fun m =>
    let c := s.m.core (ThreadId.key th / 8)
    c.sameUnit (m.core (ThreadId.key th / 8)) ∧ SameBytes s.m m ∧ (Word.rd w ≠ 0 → m.settledS th (Word.rd w) = c.stat (Word.ra w))) := by
  have stat : (((s.mEntered th w (Word.rd w)).core (ThreadId.key th / 8)).stat (Word.ra w)) = (s.m.core (ThreadId.key th / 8)).stat (Word.ra w) := by
    rw [State.mEntered_core]
    rfl
  let got := [gotOf false (Word.rd w) 0 64 (((s.mEntered th w (Word.rd w)).core (ThreadId.key th / 8)).stat (Word.ra w)).toNat none]
  let delivered := (s.mEntered th w (Word.rd w)).mDeliver (ThreadId.key th / 8) (s.mEntry th w (Word.rd w)) got
  have performed : (s.mEntered th w (Word.rd w)).mPerform (ThreadId.key th / 8) (s.mEntry th w (Word.rd w)) =
      some (delivered.mDone (ThreadId.key th / 8) (s.mEntry th w (Word.rd w)) fNone) :=
    Module.mPerform_maccStat _ _ (State.issues_mCode hi rfl)
  have core : delivered.core (ThreadId.key th / 8) = (s.mEntered th w (Word.rd w)).core (ThreadId.key th / 8) :=
    Module.core_congr (Module.mDeliver_cores _ _ _ _) _
  have done := delivered.core_mDone (core.symm ▸ State.mEntered_mq hq _) fNone
  have key := s.mEntry_key (th := th) (w := w) (Word.rd w)
  have beside := delivered.mDone_beside (ThreadId.key th / 8) (s.mEntry th w (Word.rd w)) fNone
  have delivers := Module.mDeliver_beside (s.mEntered th w (Word.rd w)) (ThreadId.key th / 8) (s.mEntry th w (Word.rd w)) got
  obtain ⟨os, thread⟩ := Module.mDeliver_th (s.mEntered th w (Word.rd w)) (ThreadId.key th / 8) (s.mEntry th w (Word.rd w)) got
  rw [key] at thread delivers
  refine State.matrix_performs (State.matrix_issues (by simp [matrixOps]) hi fun e => nomatch e) hi h hq (State.issues_offLane hi rfl) performed done
    ⟨?_, ?_, fun hd => ?_⟩ ⟨os, ?_⟩ (delivers.trans beside.mono).toElsewhere
  · rw [done, core, State.mEntered_core]
    exact ⟨rfl, rfl, rfl, rfl, rfl, rfl⟩
  · exact (s.mEntered_beside _).sameBytes.trans (delivers.trans beside.mono).sameBytes
  · rw [Module.settledS, Module.settle_th, beside.th _ List.not_mem_nil, Module.mDeliver_settledS hd, stat, BitVec.ofNat_toNat, BitVec.setWidth_eq]
  · rw [beside.th _ List.not_mem_nil, thread, State.mEntered_th]

end Sys2Proof.Machine
end

section
/-! PROOFS of the matrix family (06_matrix_unit), seventh part: operations that read memory at open places, and mst.cfg (06 R145, R153). -/

namespace Sys2Proof.Machine

/-! ### Open places of an instruction, seen once it has entered the queue -/

section
variable {s : State} {th : ThreadId} {w : Word} {dst : Nat} {va n : Nat} {acc : Access} {p : Place}

theorem State.openPlace_entered (h : s.openPlace th va acc p) :
    (s.mEntered th w dst).Opens (ThreadId.key th) va acc p ∧ (s.mEntered th w dst).walkHeld (ThreadId.key th) va = false := by
  obtain ⟨⟨lc, place⟩, walk, isOpen⟩ := h
  refine ⟨⟨⟨lc, (Module.entered_answer _ _ _ _ _ _).trans place⟩, fun pc off hp => ?_⟩, (Module.entered_walkHeld _ _ _ _ _).trans walk⟩
  exact ((s.mEntered_beside dst).alike.held pc).trans (isOpen pc off hp)

theorem State.mRead_entered {x : Module} (looks : Looks (ThreadId.key th) (s.mEntered th w dst) x) (ho : s.openPlace th va .load p) (hl : InLine va n)
    (hb : s.m.badPlace p n = false) : x.mRead (ThreadId.key th) va n = (s.m.readPlace p n, false) := by
  obtain ⟨⟨lc, place⟩, -⟩ := (State.openPlace_entered (w := w) (dst := dst) ho).1
  have alike := ((s.mEntered_beside (th := th) (w := w) dst).trans looks.toBeside.mono).alike
  rw [Module.mRead_opens ((looks.answer va .load).trans place) hl ((alike.badPlace p n).trans hb), alike.readPlace]

/-- An operation off the lane path whose addresses are all at open places is performed, in a module in which its core holds their
translations. -/
theorem State.mStart_entered {reads writes : List Nat} {rn wn : Nat} (hr : ∀ a ∈ reads, (∃ p, s.openPlace th a .load p) ∧ InLine a rn)
    (hw : ∀ a ∈ writes, (∃ p, s.openPlace th a .store p) ∧ InLine a wn) :
    ∃ x, Looks (ThreadId.key th) (s.mEntered th w dst) x ∧ ∀ body,
      (s.mEntered th w dst).mStart (ThreadId.key th / 8) (s.mEntry th w dst) reads rn writes wn body = some (body x) := by
  have started := Module.mStart_opens (m := s.mEntered th w dst) (core := ThreadId.key th / 8) (o := s.mEntry th w dst) (reads := reads)
    (writes := writes) (rn := rn) (wn := wn)
  rw [State.mEntry_key] at started
  refine started (fun a ha => ?_) (fun a ha => ?_) (fun a ha => ?_)
  · rcases List.mem_append.mp ha with ha | ha
    · obtain ⟨⟨p, ho⟩, -⟩ := hr a ha
      exact (State.openPlace_entered ho).2
    · obtain ⟨⟨p, ho⟩, -⟩ := hw a ha
      exact (State.openPlace_entered ho).2
  · exact ⟨(hr a ha).1.imp fun p ho => (State.openPlace_entered ho).1, (hr a ha).2⟩
  · exact ⟨(hw a ha).1.imp fun p ho => (State.openPlace_entered ho).1, (hw a ha).2⟩

end

/-- The channel that a descriptor of eight words configures (06 R145). -/
def cfgChan (ws : List Word) : Chan := { configured := true, words := ws, col := 0, kap := 0 }

section
variable {s : State} {th : ThreadId} {w : Word} (h : ¬ s.mStays th w) (hq : (s.m.core (ThreadId.key th / 8)).mq = [])
include h hq

/-- mst.cfg loads its channel from the words of its descriptor (06 R145). -/
theorem State.mstCfg_performs (hi : s.issues .mstCfg th w = true) (ha : ((s.thread th).getS (Word.ra w)).toNat % 64 = 0) (p : Nat → Place)
    (hp : ∀ i, i < 8 → s.openPlace th (((s.thread th).getS (Word.ra w)).toNat + 8 * i) .load (p i) ∧ s.m.badPlace (p i) 8 = false) :
    Completes (.mstCfg th w) s (s.Performed th w 0 fun m =>
      let c := s.m.core (ThreadId.key th / 8)
      let c' := m.core (ThreadId.key th / 8)
      c'.chan (Word.rd w) = cfgChan ((List.range 8).map fun i => BitVec.ofNat 64 (s.m.readPlace (p i) 8)) ∧
      (∀ x, x ≠ Word.rd w → c'.chan x = c.chan x) ∧ SameBytes s.m m) := by
  have aligned : s.cfgAligned th w .mstCfg := fun _ => ha
  generalize hva : ((s.thread th).getS (Word.ra w)).toNat = va at ha hp
  obtain ⟨x, looks, started⟩ := State.mStart_entered (s := s) (th := th) (w := w) (dst := 0) (reads := [va]) (rn := 64) (writes := []) (wn := 1)
    (fun a h => by
      obtain rfl := List.mem_singleton.mp h
      exact ⟨⟨p 0, (hp 0 (by decide)).1⟩, InLine.of_aligned (dvd_refl 64) ha⟩)
    (fun a h => absurd h List.not_mem_nil)
  have words : (List.range 8).map (fun i => x.mRead (ThreadId.key th) (va + 8 * i) 8) = (List.range 8).map (fun i => (s.m.readPlace (p i) 8, false)) := by
    refine List.map_congr_left fun i hi => ?_
    obtain ⟨ho, hb⟩ := hp i (List.mem_range.mp hi)
    exact State.mRead_entered looks ho (InLine.of_aligned (by decide) (by omega)) hb
  have performed : (s.mEntered th w 0).mPerform (ThreadId.key th / 8) (s.mEntry th w 0) =
      some (x.finished (ThreadId.key th / 8) (s.mEntry th w 0) ((x.core (ThreadId.key th / 8)).setChan (Word.rd w)
        (cfgChan ((List.range 8).map fun i => BitVec.ofNat 64 (s.m.readPlace (p i) 8)))) fNone) := by
    have at_ : (s.mEntry th w 0).a.toNat = va := hva
    rw [Module.mPerform_mstCfg _ _ (State.issues_mCode hi rfl), Module.doCfg]
    simp only [at_, State.mEntry_key, started, words]
    rw [if_neg (by simp), List.map_map]
    rfl
  refine State.matrix_reads (by simp [matrixOps]) hi rfl aligned h hq looks performed (Beside.refl [] _) rfl rfl rfl fun m unit bytes => ?_
  obtain ⟨-, -, -, -, -, chans⟩ := unit
  obtain ⟨-, -, -, -, -, kept⟩ := State.looks_unit looks
  have chan := fun i => (Core.chan_congr chans i).trans (Core.chan_setChan _ _ i _)
  exact ⟨(chan _).trans (if_pos rfl), fun i hne => (chan i).trans ((if_neg hne).trans (Core.chan_congr kept i)), bytes⟩

end

end Sys2Proof.Machine
end

section
/-! PROOFS of the matrix family (06_matrix_unit), eighth part: macc.ld, performed from open places (06 R140). -/

namespace Sys2Proof.Machine

/-! ### Addresses of elements (06 R140, R141, R146) -/

theorem addr64_mod {x : Int} {n : Nat} (hn : n ∣ 64) (hx : (n : Int) ∣ x) : addr64 x % n = 0 := by
  have word : (n : Int) ∣ ((2 ^ 64 : Nat) : Int) := Int.natCast_dvd_natCast.mpr (hn.trans (by decide))
  have nonneg : 0 ≤ x % ((2 ^ 64 : Nat) : Int) := Int.emod_nonneg _ (by decide)
  have part : (n : Int) ∣ ((addr64 x : Nat) : Int) := by
    rw [addr64, Int.toNat_of_nonneg nonneg]
    exact Int.dvd_of_emod_eq_zero ((Int.emod_emod_of_dvd _ word).trans (Int.emod_eq_zero_of_dvd hx))
  exact Nat.mod_eq_zero_of_dvd (Int.natCast_dvd_natCast.mp part)

theorem mfmtBytes_dvd (f : Nat) : mfmtBytes f ∣ 64 := by
  unfold mfmtBytes
  split <;> decide

/-- The elements of a tile in memory whose base and pitch are multiples of their size are aligned. -/
theorem tileAddr_inLine {a b : Word} {n : Nat} (hn : n ∣ 64) (ha : a.toNat % n = 0) (hb : intOf true 32 b.toNat % (n : Int) = 0) (r col : Nat) :
    InLine (tileAddr a b n r col) n := by
  refine InLine.of_aligned hn (addr64_mod hn (Int.dvd_add (Int.dvd_add ?_ ?_) ?_))
  · exact Int.natCast_dvd_natCast.mpr (Nat.dvd_of_mod_eq_zero ha)
  · exact Dvd.dvd.mul_left (Int.dvd_of_emod_eq_zero hb) _
  · exact Int.natCast_dvd_natCast.mpr (Dvd.intro_left col rfl)

/-! ### macc.ld (06 R140) -/

/-- An element of a tile in memory, widened, as a thread reads it. -/
def Module.readTile (m : Module) (k : Nat) (w a b : Word) (q : Nat × Nat) : Nat × Flags :=
  let n := mfmtBytes (Word.slice w 16 13)
  let v := m.mRead k (tileAddr a b n q.1 q.2) n
  widenTile (Word.slice w 12 11) (Word.slice w 16 13) v.1 v.2

/-- The core once the elements of a tile have been loaded, with their flags. -/
def Module.loadTile (m : Module) (core k : Nat) (w a b : Word) : Core × Flags :=
  tilePos.foldl (fun r q => (r.1.tilePut (Word.rd w) (tfmtTiles (Word.slice w 12 11)) q.1 q.2 (m.readTile k w a b q).1, r.2 ||| (m.readTile k w a b q).2))
    (m.core core, fNone)

theorem Module.doLd_eq (m : Module) (core : Nat) (o : MOp) : m.doLd core o =
    m.mStart core o (tilePos.map fun q => tileAddr o.a o.b (mfmtBytes (Word.slice o.word 16 13)) q.1 q.2) (mfmtBytes (Word.slice o.word 16 13)) [] 1
      fun m => m.finished core o (((m.loadTile core (o.key core) o.word o.a o.b).1).orStat (Word.rd o.word)
        (m.loadTile core (o.key core) o.word o.a o.b).2) (m.loadTile core (o.key core) o.word o.a o.b).2 := rfl

theorem Module.loadTile_core (m : Module) (core k : Nat) (w a b : Word) : (m.loadTile core k w a b).1 =
    tilePos.foldl (fun c q => c.tilePut (Word.rd w) (tfmtTiles (Word.slice w 12 11)) q.1 q.2 (m.readTile k w a b q).1) (m.core core) :=
  foldl_fst (fun _ _ => rfl) _ _

theorem Module.loadTile_accBut (m : Module) (core k : Nat) (w a b : Word) : (m.core core).AccBut (m.loadTile core k w a b).1 := by
  rw [Module.loadTile_core]
  exact Core.foldl_tilePut_accBut _ _ _

/-- A loaded tile holds its elements, and the other tiles stay. -/
theorem Module.loadTile_tiles (m : Module) (core k : Nat) (w a b : Word) {r col : Nat} (hr : r < 32) (hc : col < 32) :
    (m.loadTile core k w a b).1.tileBits (Word.rd w) (tfmtTiles (Word.slice w 12 11)) r col =
      (m.readTile k w a b (r, col)).1 % 2 ^ (32 * tfmtTiles (Word.slice w 12 11)) ∧
    ∀ x, x < Word.rd w ∨ Word.rd w + tfmtTiles (Word.slice w 12 11) ≤ x →
      (m.loadTile core k w a b).1.accWord x r col = (m.core core).accWord x r col := by
  have inside : ∀ d ∈ tilePos, d.1 < 32 ∧ d.2 < 32 := fun d hd => mem_tilePos.mp hd
  rw [Module.loadTile_core]
  refine ⟨Core.tileBits_foldl_written _ _ _ inside hr hc (fun d _ hrow hcol => ?_) ⟨(r, col), mem_tilePos.mpr ⟨hr, hc⟩, rfl, rfl⟩, fun x hx =>
    Core.accWord_foldl_kept _ _ _ inside hr hc (.inr hx)⟩
  rw [← hrow, ← hcol]

section
variable {s : State} {th : ThreadId} {w : Word} (h : ¬ s.mStays th w) (hq : (s.m.core (ThreadId.key th / 8)).mq = [])
include h hq

/-- macc.ld widens each element of its tile in memory (06 R140). -/
theorem State.maccLd_performs (hi : s.issues .maccLd th w = true) {n : Nat} (hn : n = mfmtBytes (Word.slice w 16 13))
    (ha : (s.mEntry th w 0).a.toNat % n = 0) (hb : intOf true 32 (s.mEntry th w 0).b.toNat % (n : Int) = 0) (p : Nat → Nat → Place)
    (hp : ∀ r col, r < 32 → col < 32 → s.openPlace th (tileAddr (s.mEntry th w 0).a (s.mEntry th w 0).b n r col) .load (p r col) ∧
      s.m.badPlace (p r col) n = false) :
    Completes (.maccLd th w) s (s.Performed th w 0 fun m =>
      let c := s.m.core (ThreadId.key th / 8)
      let c' := m.core (ThreadId.key th / 8)
      let d := Word.rd w
      let nt := tfmtTiles (Word.slice w 12 11)
      (∀ r col, r < 32 → col < 32 →
        c'.tileBits d nt r col = (widenTile (Word.slice w 12 11) (Word.slice w 16 13) (s.m.readPlace (p r col) n) false).1 % 2 ^ (32 * nt) ∧
        ∀ x, x < d ∨ d + nt ≤ x → c'.accWord x r col = c.accWord x r col) ∧ SameBytes s.m m) := by
  subst hn
  have line := tileAddr_inLine (mfmtBytes_dvd _) ha hb
  obtain ⟨x, looks, started⟩ := State.mStart_entered (s := s) (th := th) (w := w) (dst := 0)
    (reads := tilePos.map fun q => tileAddr (s.mEntry th w 0).a (s.mEntry th w 0).b (mfmtBytes (Word.slice w 16 13)) q.1 q.2)
    (rn := mfmtBytes (Word.slice w 16 13)) (writes := []) (wn := 1)
    (fun a ha => by
      obtain ⟨q, hq, rfl⟩ := List.mem_map.mp ha
      obtain ⟨hr, hc⟩ := mem_tilePos.mp hq
      exact ⟨⟨_, (hp q.1 q.2 hr hc).1⟩, line _ _⟩)
    (fun a h => absurd h List.not_mem_nil)
  have read : ∀ r col, r < 32 → col < 32 → (x.readTile (ThreadId.key th) w (s.mEntry th w 0).a (s.mEntry th w 0).b (r, col)) =
      widenTile (Word.slice w 12 11) (Word.slice w 16 13) (s.m.readPlace (p r col) (mfmtBytes (Word.slice w 16 13))) false := by
    intro r col hr hc
    obtain ⟨ho, good⟩ := hp r col hr hc
    simp only [Module.readTile, State.mRead_entered looks ho (line r col) good]
  let loaded := x.loadTile (ThreadId.key th / 8) (ThreadId.key th) w (s.mEntry th w 0).a (s.mEntry th w 0).b
  obtain ⟨acc, only⟩ : ((x.core (ThreadId.key th / 8)).AccBut loaded.1) := Module.loadTile_accBut _ _ _ _ _ _
  have performed : (s.mEntered th w 0).mPerform (ThreadId.key th / 8) (s.mEntry th w 0) =
      some (x.finished (ThreadId.key th / 8) (s.mEntry th w 0) (loaded.1.orStat (Word.rd w) loaded.2) loaded.2) := by
    rw [Module.mPerform_maccLd _ _ (State.issues_mCode hi rfl), Module.doLd_eq, State.mEntry_key]
    exact started _
  refine State.matrix_reads (by simp [matrixOps]) hi rfl (fun e => nomatch e) h hq looks performed (Beside.refl [] _) rfl
    (by rw [only]; rfl) (by rw [only]; rfl) fun m unit bytes => ⟨fun r col hr hc => ?_, bytes⟩
  have same : (m.core (ThreadId.key th / 8)).acc = loaded.1.acc := unit.1.trans (Core.acc_orStat _ _ _)
  obtain ⟨written, kept⟩ := x.loadTile_tiles (ThreadId.key th / 8) (ThreadId.key th) w (s.mEntry th w 0).a (s.mEntry th w 0).b hr hc
  rw [read r col hr hc] at written
  exact ⟨(Core.tileBits_congr same _ _ _ _).trans written, fun y hy => (Core.accWord_congr same y r col).trans ((kept y hy).trans
    (Core.accWord_congr (State.looks_unit looks).1 y r col))⟩

end

end Sys2Proof.Machine
end

section
/-! PROOFS of the matrix family (06_matrix_unit), ninth part: ms.ld, performed from open places (06 R134, R135, R146, R147). -/

namespace Sys2Proof.Machine

/-! ### The elements of a channel (06 R146-R148) -/

theorem Chan.bytes_dvd (ch : Chan) : ch.bytes ∣ 64 := by
  unfold Chan.bytes Chan.fmt
  cases FCode.ofCode ch.src <;> decide

/-- What makes the elements of a valid channel aligned (06 R148). -/
theorem Chan.valid_aligned {ch : Chan} (h : ch.valid = true) :
    ch.w 0 % ch.bytes = 0 ∧ (ch.conv = false → ch.strideK % ch.bytes = 0 ∧ ch.strideN % ch.bytes = 0) := by
  simp only [Chan.valid, Bool.and_eq_true, beq_iff_eq] at h
  obtain ⟨⟨-, base⟩, kind⟩ := h
  refine ⟨base, fun plain => ?_⟩
  rw [plain] at kind
  simp only [Bool.false_eq_true, if_false, Bool.and_eq_true, beq_iff_eq] at kind
  obtain ⟨⟨-, strideK⟩, strideN⟩ := kind
  exact ⟨strideK, strideN⟩

/-- The elements of a valid channel lie in one line. -/
theorem Chan.addr_inLine {ch : Chan} (h : ch.valid = true) {kap col a : Nat} (ha : ch.addr kap col = some a) : InLine a ch.bytes := by
  obtain ⟨base, strides⟩ := Chan.valid_aligned h
  have start : (ch.bytes : Int) ∣ ((ch.w 0 % 2 ^ 48 : Nat) : Int) :=
    Int.natCast_dvd_natCast.mpr ((Nat.dvd_mod_iff (ch.bytes_dvd.trans (by decide))).mpr (Nat.dvd_of_mod_eq_zero base))
  refine InLine.of_aligned ch.bytes_dvd ?_
  unfold Chan.addr at ha
  dsimp only at ha
  split at ha
  · cases ha
  split at ha
  · next plain =>
    obtain ⟨hk, hn⟩ := strides (by simpa using plain)
    rw [← Option.some.inj ha]
    exact addr64_mod ch.bytes_dvd (Int.dvd_add (Int.dvd_add start (Dvd.dvd.mul_left (Int.dvd_of_emod_eq_zero hk) _))
      (Dvd.dvd.mul_left (Int.dvd_of_emod_eq_zero hn) _))
  · split at ha
    · cases ha
    · rw [← Option.some.inj ha]
      exact addr64_mod ch.bytes_dvd (Int.dvd_add start (Dvd.intro_left _ rfl))

/-! ### The set that ms.ld fills (06 R135) -/

/-- The places of a set of elements of `ob` bytes: row and position. -/
def setPos (ob : Nat) : List (Nat × Nat) := (List.range 32).flatMap fun r => (List.range (256 / ob)).map fun i => (r, i)

theorem mem_setPos {ob : Nat} {q : Nat × Nat} : q ∈ setPos ob ↔ q.1 < 32 ∧ q.2 < 256 / ob := by
  obtain ⟨r, i⟩ := q
  simp [setPos]

/-- The bytes of an operand format code. -/
def operandBytes (of : Nat) : Nat := (FCode.fmt (FCode.ofCode of)).width / 8

/-- The address of the element for a place of the set. -/
def Chan.from (ch : Chan) (q : Nat × Nat) : Option Nat := ch.addr (ch.kap + q.2) (ch.col + q.1)

/-- The core once its set has been filled from a channel, with the flags of the elements. -/
def Module.fillFrom (m : Module) (core k : Nat) (ch : Chan) (of : Nat) : Core × Flags :=
  (setPos (operandBytes of)).foldl (fun r q => (r.1.setPut (operandBytes of) q.1 q.2 (m.streamElem k ch of (ch.from q)).1,
    r.2 ||| (m.streamElem k ch of (ch.from q)).2)) (m.core core, fNone)

/-- The cursor of an operation's channel moves when the operation says so. -/
def Core.advance (c : Core) (w : Word) (ch : Chan) : Core :=
  if Word.slice w 0 0 = 1 then c.setChan (Word.ra w) { ch with col := (ch.col + 32) % 2 ^ 32 } else c

theorem Module.doMsLd_eq {m : Module} {core : Nat} {o : MOp} {ch : Chan} (hc : (m.core core).chan (Word.ra o.word) = ch) (hv : ch.valid = true)
    (hw : widens (Word.slice o.word 10 8) ch.src = true) : m.doMsLd core o =
    m.mStart core o (somes ((setPos (operandBytes (Word.slice o.word 10 8))).map ch.from)) ch.bytes [] 1 fun m =>
      (m.finished core o ((m.fillFrom core (o.key core) ch (Word.slice o.word 10 8)).1.advance o.word ch)
        (m.fillFrom core (o.key core) ch (Word.slice o.word 10 8)).2).countPart (o.key core) 7
          ((somes ((setPos (operandBytes (Word.slice o.word 10 8))).map ch.from)).length * ch.bytes) := by
  have fold : ∀ m : Module, ((setPos (operandBytes (Word.slice o.word 10 8))).zip ((setPos (operandBytes (Word.slice o.word 10 8))).map ch.from)).foldl
      (fun (r : Core × Flags) q => let e := m.streamElem (o.key core) ch (Word.slice o.word 10 8) q.2
        (r.1.setPut (operandBytes (Word.slice o.word 10 8)) q.1.1 q.1.2 e.1, r.2 ||| e.2)) (m.core core, fNone) =
      m.fillFrom core (o.key core) ch (Word.slice o.word 10 8) := by
    intro m
    have pairs := List.zip_map' (f := id) (g := ch.from) (l := setPos (operandBytes (Word.slice o.word 10 8)))
    rw [List.map_id] at pairs
    rw [pairs, List.foldl_map]
    rfl
  unfold Module.doMsLd
  dsimp only
  rw [hc]
  simp only [hv, hw, Bool.not_true, Bool.or_self, Bool.false_eq_true, if_false]
  refine congrArg (m.mStart core o _ ch.bytes [] 1) (funext fun x => ?_)
  rw [← fold]
  rfl

theorem Module.fillFrom_core (m : Module) (core k : Nat) (ch : Chan) (of : Nat) : (m.fillFrom core k ch of).1 =
    (m.core core).fill (fillSet (operandBytes of) (fun q => q.1) (fun q => q.2) (fun q => (m.streamElem k ch of (ch.from q)).1)
      (setPos (operandBytes of)) (m.core core).loaded) :=
  (foldl_fst (fun _ _ => rfl) _ _).trans (Core.foldl_setPut (operandBytes of) (fun q : Nat × Nat => q.1) (fun q => q.2)
    (fun q => (m.streamElem k ch of (ch.from q)).1) (setPos (operandBytes of)) (m.core core))

/-- A filled set holds its elements. -/
theorem Module.read_fillFrom (m : Module) (core k : Nat) (ch : Chan) (of : Nat) {r i : Nat} (hr : r < 32) (hi : i < 256 / operandBytes of) :
    Memory.read (m.fillFrom core k ch of).1.loaded (r * 256 + i * operandBytes of) (operandBytes of) =
      (m.streamElem k ch of (ch.from (r, i))).1 % 256 ^ operandBytes of := by
  have fits : ∀ j, j < 256 / operandBytes of → j * operandBytes of + operandBytes of ≤ 256 := fun j hj =>
    (Nat.succ_mul j _).symm.trans_le ((Nat.mul_le_mul_right _ hj).trans (Nat.div_mul_le_self _ _))
  rw [Module.fillFrom_core, Core.loaded_fill]
  refine read_fillSet (fun d hd => fits d.2 (mem_setPos.mp hd).2) (fits i hi) (fun d _ hrow hpos => ?_) ⟨(r, i), mem_setPos.mpr ⟨hr, hi⟩, rfl, rfl⟩
  rw [← hrow, ← hpos]

/-- Two cores are alike but for the set that loads fill, and the channels. -/
def Core.FillBut (c c' : Core) : Prop :=
  c'.active = c.active ∧ c'.acc = c.acc ∧ c'.mq = c.mq ∧ c'.grids = c.grids ∧ if c.active then c'.set1 = c.set1 else c'.set0 = c.set0

theorem Core.fill_fillBut (c : Core) (x : SMap Byte) : c.FillBut (c.fill x) ∧ (c.fill x).chans = c.chans := by
  unfold Core.fill
  split
  · next on => exact ⟨⟨rfl, rfl, rfl, rfl, by rw [if_pos on]⟩, rfl⟩
  · next off => exact ⟨⟨rfl, rfl, rfl, rfl, by rw [if_neg off]⟩, rfl⟩

theorem Module.fillFrom_fillBut (m : Module) (core k : Nat) (ch : Chan) (of : Nat) :
    (m.core core).FillBut (m.fillFrom core k ch of).1 ∧ (m.fillFrom core k ch of).1.chans = (m.core core).chans := by
  rw [Module.fillFrom_core]
  exact Core.fill_fillBut _ _

/-- Moving a cursor changes the channel alone. -/
theorem Core.advance_sets (c : Core) (w : Word) (ch : Chan) : c.FillBut (c.advance w ch) ∧ (c.advance w ch).loaded = c.loaded := by
  have same : c.FillBut c := ⟨rfl, rfl, rfl, rfl, by split <;> rfl⟩
  unfold Core.advance
  split
  · exact ⟨same, rfl⟩
  · exact ⟨same, rfl⟩

theorem Core.chan_advance {c : Core} {w : Word} {ch : Chan} (h : c.chan (Word.ra w) = ch) : (∀ x, x ≠ Word.ra w → (c.advance w ch).chan x = c.chan x) ∧
    (c.advance w ch).chan (Word.ra w) = if Word.slice w 0 0 = 1 then { ch with col := (ch.col + 32) % 2 ^ 32 } else ch := by
  unfold Core.advance
  split
  · exact ⟨fun x hx => (Core.chan_setChan _ _ _ _).trans (if_neg hx), (Core.chan_setChan _ _ _ _).trans (if_pos rfl)⟩
  · exact ⟨fun x _ => rfl, h⟩

theorem Core.FillBut.trans {a b c : Core} (h : a.FillBut b) (g : b.FillBut c) : a.FillBut c := by
  obtain ⟨active, acc, mq, grids, set_⟩ := h
  obtain ⟨active', acc', mq', grids', set_'⟩ := g
  refine ⟨active'.trans active, acc'.trans acc, mq'.trans mq, grids'.trans grids, ?_⟩
  rw [active] at set_'
  split at set_
  · next on =>
    rw [if_pos on] at set_' ⊢
    exact set_'.trans set_
  · next off =>
    rw [if_neg off] at set_' ⊢
    exact set_'.trans set_

/-! ### ms.ld -/

section
variable {s : State} {th : ThreadId} {w : Word}

/-- What a streamed element is when it has an address, and when it has none. -/
theorem State.streamElem_entered {x : Module} (looks : Looks (ThreadId.key th) (s.mEntered th w 0) x) {ch : Chan} (hv : ch.valid = true) (of : Nat)
    {kap col : Nat} {p : Place}
    (hp : ∀ a, ch.addr kap col = some a → s.openPlace th a .load p ∧ s.m.badPlace p ch.bytes = false) :
    (x.streamElem (ThreadId.key th) ch of (ch.addr kap col)).1 =
      match ch.addr kap col with
      | none => 0
      | some _ => (ch.widen of (s.m.readPlace p ch.bytes)).1 := by
  cases ha : ch.addr kap col with
  | none => rfl
  | some a =>
    obtain ⟨ho, good⟩ := hp a ha
    simp only [Module.streamElem, State.mRead_entered looks ho (Chan.addr_inLine hv ha) good]
    rfl

variable (h : ¬ s.mStays th w) (hq : (s.m.core (ThreadId.key th / 8)).mq = [])
include h hq

/-- ms.ld fills the set that is not in use (06 R135). -/
theorem State.msLd_performs (hi : s.issues .msLd th w = true) {ch : Chan} (hch : (s.m.core (ThreadId.key th / 8)).chan (Word.ra w) = ch)
    (hv : ch.valid = true) (hw : widens (Word.slice w 10 8) ch.src = true) (p : Nat → Nat → Place)
    (hp : ∀ r i a, r < 32 → i < 256 / operandBytes (Word.slice w 10 8) → ch.addr (ch.kap + i) (ch.col + r) = some a →
      s.openPlace th a .load (p r i) ∧ s.m.badPlace (p r i) ch.bytes = false) :
    Completes (.msLd th w) s (s.Performed th w 0 fun m =>
      let c := s.m.core (ThreadId.key th / 8)
      let c' := m.core (ThreadId.key th / 8)
      let ob := operandBytes (Word.slice w 10 8)
      c'.active = c.active ∧ c'.acc = c.acc ∧ SameBytes s.m m ∧ (if c.active then c'.set1 = c.set1 else c'.set0 = c.set0) ∧
      (∀ r i, r < 32 → i < 256 / ob → Memory.read (if c.active then c'.set0 else c'.set1) (r * 256 + i * ob) ob =
        match ch.addr (ch.kap + i) (ch.col + r) with
        | none => 0
        | some _ => (ch.widen (Word.slice w 10 8) (s.m.readPlace (p r i) ch.bytes)).1 % 2 ^ (8 * ob)) ∧
      (∀ x, x ≠ Word.ra w → c'.chan x = c.chan x) ∧
      c'.chan (Word.ra w) = if Word.slice w 0 0 = 1 then { ch with col := (ch.col + 32) % 2 ^ 32 } else ch) := by
  obtain ⟨x, looks, started⟩ := State.mStart_entered (s := s) (th := th) (w := w) (dst := 0)
    (reads := somes ((setPos (operandBytes (Word.slice w 10 8))).map ch.from)) (rn := ch.bytes) (writes := []) (wn := 1)
    (fun a ha => by
      obtain ⟨_, hm, rfl⟩ := List.mem_filterMap.mp ha
      obtain ⟨q, hq, at_⟩ := List.mem_map.mp hm
      obtain ⟨hr, hi⟩ := mem_setPos.mp hq
      exact ⟨⟨_, (hp q.1 q.2 a hr hi at_).1⟩, Chan.addr_inLine hv at_⟩)
    (fun a h => absurd h List.not_mem_nil)
  let filled := x.fillFrom (ThreadId.key th / 8) (ThreadId.key th) ch (Word.slice w 10 8)
  have entered : ((s.mEntered th w 0).core (ThreadId.key th / 8)).chan (Word.ra w) = ch := by
    rw [State.mEntered_core]
    exact hch
  have performed : (s.mEntered th w 0).mPerform (ThreadId.key th / 8) (s.mEntry th w 0) =
      some ((x.finished (ThreadId.key th / 8) (s.mEntry th w 0) (filled.1.advance w ch) filled.2).countPart (ThreadId.key th) 7
        ((somes ((setPos (operandBytes (Word.slice w 10 8))).map ch.from)).length * ch.bytes)) := by
    rw [Module.mPerform_msLd _ _ (State.issues_mCode hi rfl), Module.doMsLd_eq entered hv hw, State.mEntry_key]
    exact started _
  have sets : (x.core (ThreadId.key th / 8)).FillBut (filled.1.advance w ch) :=
    (x.fillFrom_fillBut _ _ _ _).1.trans (filled.1.advance_sets w ch).1
  obtain ⟨acc0, -, set00, set10, active0, chans0⟩ := State.looks_unit looks
  have chans : ∀ i, filled.1.chan i = (s.m.core (ThreadId.key th / 8)).chan i := fun i =>
    Core.chan_congr ((x.fillFrom_fillBut _ _ _ _).2.trans chans0) i
  obtain ⟨others, own⟩ := Core.chan_advance (w := w) ((chans (Word.ra w)).trans hch)
  obtain ⟨active, acc, mq, grids, set_⟩ := sets
  refine State.matrix_reads (by simp [matrixOps]) hi rfl (fun e => nomatch e) h hq looks performed (Module.countPart_beside _ _ _ _)
    (Module.countPart_cores _ _ _ _) mq grids fun m unit bytes => ?_
  obtain ⟨acc', -, set0', set1', active', chans'⟩ := unit
  have loaded : (if (s.m.core (ThreadId.key th / 8)).active then (m.core (ThreadId.key th / 8)).set0 else (m.core (ThreadId.key th / 8)).set1) =
      filled.1.loaded := by
    rw [← (filled.1.advance_sets w ch).2, Core.loaded, active, active0, set0', set1']
  refine ⟨active'.trans (active.trans active0), acc'.trans (acc.trans acc0), bytes, ?_, fun r i hr hi => ?_, fun y hy => ?_, ?_⟩
  · rw [active0, set00, set10] at set_
    rw [set0', set1']
    exact set_
  · rw [loaded, Module.read_fillFrom _ _ _ _ _ hr hi, Chan.from, State.streamElem_entered looks hv _ fun a ha => hp r i a hr hi ha, Nat.pow_mul]
    split
    · exact Nat.zero_mod _
    · rfl
  · exact (Core.chan_congr chans' y).trans ((others y hy).trans (chans y))
  · exact (Core.chan_congr chans' _).trans own

end

end Sys2Proof.Machine
end

section
/-! PROOFS of the matrix family (06_matrix_unit), tenth part: macc.drain, performed at open places (06 R141, R552). -/

namespace Sys2Proof.Machine

/-! ### What a drain without an epilogue stores -/

/-- The scaled value of an element that a drain stores. -/
def drainValue (o : MOp) (c : Core) (q : Nat × Nat) : FVal × Flags :=
  let x := tileValue (rdnOf ((Rm.ofCode o.rm).getD .rne)) (Word.slice o.word 12 11)
    (c.tileBits (Word.rd o.word) (tfmtTiles (Word.slice o.word 12 11)) q.1 q.2)
  (x.1.scale (intOf true 8 (o.b.toNat / 2 ^ 32)), x.2)

/-- The bits that a drain stores for an element. -/
def drainBits (seed : Word) (o : MOp) (c : Core) (q : Nat × Nat) : Nat × Flags :=
  drainStore (Word.slice o.word 16 13) ((Rm.ofCode o.rm).getD .rne) (drawOf seed o.c (Word.srtag o.word) (q.1 * 32 + q.2)) (drainValue o c q).1

/-- The address of an element that a drain stores. -/
def drainAddr (o : MOp) (q : Nat × Nat) : Nat := tileAddr o.a o.b (mfmtBytes (Word.slice o.word 16 13)) q.1 q.2

/-- The stores of a drain, with its flags and its values. -/
def drainStores (seed : Word) (o : MOp) (c : Core) : List (Nat × Nat × Nat) × Flags × List FVal :=
  tilePos.foldl (fun r q => (r.1 ++ [(drainAddr o q, mfmtBytes (Word.slice o.word 16 13), (drainBits seed o c q).1)],
    r.2.1 ||| (drainValue o c q).2 ||| (drainBits seed o c q).2, (drainValue o c q).1 :: r.2.2)) ([], fNone, [])

theorem drainStores_eq (seed : Word) (o : MOp) (c : Core) : (drainStores seed o c).1 =
    tilePos.map fun q => (drainAddr o q, mfmtBytes (Word.slice o.word 16 13), (drainBits seed o c q).1) :=
  (foldl_appends (fun _ _ => rfl) _ _).trans (List.nil_append _)

/-- The status of a drained tile, whose largest magnitude is that of the stored values (06 Table 6-5). -/
def amaxStat (v : List FVal) (stat : Word) : Word := BitVec.ofNat 64 (amaxOf v * 2 ^ 32) ||| (stat &&& 0xFFFFFFFF)

/-- The core whose tiles a drain clears where `clr` says so. -/
def Core.drainClear (c : Core) (w : Word) : Core :=
  if Word.slice w 4 4 == 1 then (c.tileZero (Word.rd w) (tfmtTiles (Word.slice w 12 11))).clearSticky (Word.rd w) else c

/-- The core whose status a drain has gathered, where `ns` does not forbid it. -/
def Core.drainStat (c : Core) (w : Word) (f : Flags) (v : List FVal) : Core :=
  if Word.slice w 3 3 == 1 then c
  else (c.orStat (Word.rd w) f).setStat (Word.rd w) (amaxStat v ((c.orStat (Word.rd w) f).stat (Word.rd w)))

theorem Core.acc_setStat (c : Core) (t : Nat) (v : Word) : (c.setStat t v).acc = c.acc := rfl

theorem Core.mq_setStat (c : Core) (t : Nat) (v : Word) : (c.setStat t v).mq = c.mq := rfl

theorem Core.grids_setStat (c : Core) (t : Nat) (v : Word) : (c.setStat t v).grids = c.grids := rfl

theorem Core.inflight_setStat (c : Core) (t : Nat) (v : Word) : (c.setStat t v).inflight = c.inflight := rfl

theorem Core.orStat_eq (c : Core) (t : Nat) (f : Flags) : ∃ v, c.orStat t f = c.setStat t v := ⟨_, rfl⟩

theorem Core.clearSticky_eq (c : Core) (t : Nat) : ∃ v, c.clearSticky t = c.setStat t v := ⟨_, rfl⟩

section
variable (c : Core) (w : Word)

theorem Core.drainStat_rest (f : Flags) (v : List FVal) :
    (c.drainStat w f v).acc = c.acc ∧ (c.drainStat w f v).mq = c.mq ∧ (c.drainStat w f v).grids = c.grids := by
  unfold Core.drainStat
  split
  · exact ⟨rfl, rfl, rfl⟩
  · obtain ⟨x, hx⟩ := c.orStat_eq (Word.rd w) f
    rw [Core.acc_setStat, Core.mq_setStat, Core.grids_setStat, hx]
    exact ⟨rfl, rfl, rfl⟩

theorem Core.drainClear_rest : (c.drainClear w).mq = c.mq ∧ (c.drainClear w).grids = c.grids := by
  unfold Core.drainClear
  split
  · obtain ⟨x, hx⟩ := (c.tileZero (Word.rd w) (tfmtTiles (Word.slice w 12 11))).clearSticky_eq (Word.rd w)
    rw [hx]
    exact ⟨rfl, rfl⟩
  · exact ⟨rfl, rfl⟩

/-- Tiles that a drain clears read +0 afterwards, and all others stay. -/
theorem Core.drainClear_tiles {r col : Nat} (hr : r < 32) (hc : col < 32) :
    (c.drainClear w).tileBits (Word.rd w) (tfmtTiles (Word.slice w 12 11)) r col =
      (if Word.slice w 4 4 = 1 then 0 else c.tileBits (Word.rd w) (tfmtTiles (Word.slice w 12 11)) r col) ∧
    ∀ x, x < Word.rd w ∨ Word.rd w + tfmtTiles (Word.slice w 12 11) ≤ x → (c.drainClear w).accWord x r col = c.accWord x r col := by
  unfold Core.drainClear
  simp only [beq_iff_eq]
  by_cases clr : Word.slice w 4 4 = 1
  · obtain ⟨v, hv⟩ := (c.tileZero (Word.rd w) (tfmtTiles (Word.slice w 12 11))).clearSticky_eq (Word.rd w)
    have words := fun x => (Core.accWord_congr (Core.acc_setStat _ (Word.rd w) v) x r col).trans
      (c.accWord_tileZero (Word.rd w) (tfmtTiles (Word.slice w 12 11)) hr hc x)
    simp only [if_pos clr, hv]
    refine ⟨Core.tileBits_zero fun x lo hi => ?_, fun x hx => ?_⟩
    · rw [words, if_pos ⟨lo, hi⟩]
    · rw [words, if_neg (by omega)]
  · simp only [if_neg clr]
    exact ⟨trivial, fun x _ => trivial⟩

end

/-- The module in which a drain has stored its elements and is done. -/
def Module.drainDone (m : Module) (core k : Nat) (o : MOp) (n : Nat) : Module :=
  let r := drainStores (m.ctx (m.th k).ctx).seed o (m.core core)
  let m1 := m.mWrite k r.1
  (m1.finished core o (((m1.core core).drainClear o.word).drainStat o.word r.2.1 r.2.2) r.2.1).countPart k 7 n

theorem Module.doDrain_eq (m : Module) (core : Nat) (o : MOp) (h : Word.slice o.word 10 7 = 0) :
    ∃ n, m.doDrain core o = m.mStart core o [] 1 (tilePos.map (drainAddr o)) (mfmtBytes (Word.slice o.word 16 13))
      (fun m => m.drainDone core (o.key core) o n) := by
  have useY : epiUsesY 0 = false := rfl
  have none_ : somes (tilePos.map fun _ => (none : Option Nat)) = [] := by simp [somes]
  refine ⟨0 * ((m.core core).chan (Word.slice o.word 6 5)).bytes, ?_⟩
  unfold Module.doDrain
  simp only [h, useY, Bool.false_and, Bool.false_eq_true, if_false, none_, if_true]
  refine congrArg (m.mStart core o [] 1 _ _) (funext fun x => ?_)
  simp only [Module.drainDone, Core.drainClear, Core.drainStat, amaxStat, drainStores, drainValue, drainBits, drainAddr, Module.finished]
  rfl

section
variable {m : Module} {core k : Nat} {o : MOp} {n : Nat} {place : Nat × Nat → Place}
  (hp : ∀ q ∈ tilePos, (∃ lc, (m.thXlat k (drainAddr o q) .store).2 = .ok (place q) lc) ∧ InLine (drainAddr o q) (mfmtBytes (Word.slice o.word 16 13)))
include hp

/-- The core after a drain. -/
theorem Module.drainDone_core (hq : (m.core core).mq = [o]) : ∃ f v, (m.drainDone core k o n).core core =
    { ((m.core core).drainClear o.word).drainStat o.word f v with mq := [o.performed f] } := by
  obtain ⟨-, cores, -⟩ := Module.mWrite_elsewhere (val := fun q => (drainBits (m.ctx (m.th k).ctx).seed o (m.core core) q).1) hp
  have same := Module.core_congr cores core
  obtain ⟨mq, -⟩ := (m.core core).drainClear_rest o.word
  refine ⟨(drainStores (m.ctx (m.th k).ctx).seed o (m.core core)).2.1, (drainStores (m.ctx (m.th k).ctx).seed o (m.core core)).2.2,
    (Module.core_congr (Module.countPart_cores _ _ _ _) core).trans ?_⟩
  rw [drainStores_eq, same]
  obtain ⟨-, mq', -⟩ := ((m.core core).drainClear o.word).drainStat_rest o.word
    (drainStores (m.ctx (m.th k).ctx).seed o (m.core core)).2.1 (drainStores (m.ctx (m.th k).ctx).seed o (m.core core)).2.2
  exact Module.finished_core _ (mq'.trans (mq.trans hq)) _

/-- Beside its stores, a drain changes its core alone. -/
theorem Module.drainDone_beside : Beside [] (m.mWrite k (tilePos.map fun q => (drainAddr o q, mfmtBytes (Word.slice o.word 16 13),
    (drainBits (m.ctx (m.th k).ctx).seed o (m.core core) q).1))) (m.drainDone core k o n) := by
  obtain ⟨-, cores, -⟩ := Module.mWrite_elsewhere (val := fun q => (drainBits (m.ctx (m.th k).ctx).seed o (m.core core) q).1) hp
  have same := Module.core_congr cores core
  obtain ⟨-, grids⟩ := (m.core core).drainClear_rest o.word
  unfold Module.drainDone
  dsimp only
  rw [drainStores_eq]
  refine (Module.finished_beside _ o ?_ _).trans (Module.countPart_beside _ _ _ _)
  rw [same]
  obtain ⟨-, -, grids'⟩ := ((m.core core).drainClear o.word).drainStat_rest o.word
    (drainStores (m.ctx (m.th k).ctx).seed o (m.core core)).2.1 (drainStores (m.ctx (m.th k).ctx).seed o (m.core core)).2.2
  exact grids'.trans grids

end

/-! ### macc.drain -/

section
variable {s : State} {th : ThreadId} {w : Word} (h : ¬ s.mStays th w) (hq : (s.m.core (ThreadId.key th / 8)).mq = [])
include h hq

/-- macc.drain stores each element, then clears its tiles where it says so (06 R141). -/
theorem State.maccDrain_performs (hi : s.issues .maccDrain th w = true) {n : Nat} (hn : n = mfmtBytes (Word.slice w 16 13))
    (ha : (s.mEntry th w 0).a.toNat % n = 0) (hb : intOf true 32 (s.mEntry th w 0).b.toNat % (n : Int) = 0) (he : Word.slice w 10 7 = 0)
    (p : Nat → Nat → Place)
    (hp : ∀ r col, r < 32 → col < 32 → s.fixedPlace th (tileAddr (s.mEntry th w 0).a (s.mEntry th w 0).b n r col) .store (p r col) ∧
      (∀ a, p r col = .host a → s.m.linkUp = true) ∧
      ∀ r' col' x, r' < 32 → col' < 32 → (r, col) ≠ (r', col') → (p r col).covers n x → ¬ (p r' col').covers n x) :
    Completes (.maccDrain th w) s (s.Performed th w 0 fun m =>
      let c := s.m.core (ThreadId.key th / 8)
      let c' := m.core (ThreadId.key th / 8)
      let d := Word.rd w
      let nt := tfmtTiles (Word.slice w 12 11)
      m.ms.flash = s.m.ms.flash ∧
      (∀ r col, r < 32 → col < 32 → c'.tileBits d nt r col = (if Word.slice w 4 4 = 1 then 0 else c.tileBits d nt r col) ∧
        ∀ x, x < d ∨ d + nt ≤ x → c'.accWord x r col = c.accWord x r col) ∧
      ∀ x, ((∀ r col, r < 32 → col < 32 → ¬ (p r col).covers n x) → m.byteAt x = s.m.byteAt x) ∧
        (∀ r col, r < 32 → col < 32 → (p r col).covers n x → m.byteAt x =
          (drainBits (s.m.ctx (s.thread th).ctx).seed (s.mEntry th w 0) c (r, col)).1 / 256 ^ (x.2 - (p r col).cell.2) % 256)) := by
  subst hn
  have line := tileAddr_inLine (mfmtBytes_dvd _) ha hb
  obtain ⟨x, looks, started⟩ := State.mStart_entered (s := s) (th := th) (w := w) (dst := 0) (reads := []) (rn := 1)
    (writes := tilePos.map (drainAddr (s.mEntry th w 0))) (wn := mfmtBytes (Word.slice w 16 13))
    (fun a h => absurd h List.not_mem_nil)
    (fun a ha => by
      obtain ⟨q, hq, rfl⟩ := List.mem_map.mp ha
      obtain ⟨hr, hc⟩ := mem_tilePos.mp hq
      exact ⟨⟨_, (hp q.1 q.2 hr hc).1.1⟩, line _ _⟩)
  obtain ⟨cnt, drains⟩ := Module.doDrain_eq (s.mEntered th w 0) (ThreadId.key th / 8) (s.mEntry th w 0) he
  have performed : (s.mEntered th w 0).mPerform (ThreadId.key th / 8) (s.mEntry th w 0) =
      some (x.drainDone (ThreadId.key th / 8) (ThreadId.key th) (s.mEntry th w 0) cnt) := by
    rw [Module.mPerform_maccDrain _ _ (State.issues_mCode hi rfl), drains, State.mEntry_key]
    exact started _
  have places : ∀ q ∈ tilePos, (∃ lc, (x.thXlat (ThreadId.key th) (drainAddr (s.mEntry th w 0) q) .store).2 = .ok (p q.1 q.2) lc) ∧
      InLine (drainAddr (s.mEntry th w 0) q) (mfmtBytes (Word.slice w 16 13)) := fun q hq => by
    obtain ⟨hr, hc⟩ := mem_tilePos.mp hq
    obtain ⟨⟨lc, found⟩, -⟩ := (State.openPlace_entered (w := w) (dst := 0) (hp q.1 q.2 hr hc).1.1).1
    exact ⟨⟨lc, (looks.answer _ _).trans found⟩, line _ _⟩
  have beside := (s.mEntered_beside (th := th) (w := w) 0).trans looks.toBeside.mono
  have seed : (x.ctx (x.th (ThreadId.key th)).ctx).seed = (s.m.ctx (s.thread th).ctx).seed := by
    rw [looks.th _ List.not_mem_nil, State.mEntered_th, Thread.entering_ctx]
    have same := congrArg (fun c : Context => c.seed) (beside.ctxs (s.thread th).ctx)
    exact same
  have acc := (State.looks_unit looks).1
  have value : ∀ q, drainBits (x.ctx (x.th (ThreadId.key th)).ctx).seed (s.mEntry th w 0) (x.core (ThreadId.key th / 8)) q =
      drainBits (s.m.ctx (s.thread th).ctx).seed (s.mEntry th w 0) (s.m.core (ThreadId.key th / 8)) q := fun q => by
    simp only [seed, drainBits, drainValue, Core.tileBits_congr acc]
  obtain ⟨f, v, made⟩ := Module.drainDone_core (n := cnt) places (State.looks_mq looks hq)
  have ends := Module.drainDone_beside (core := ThreadId.key th / 8) (n := cnt) places
  obtain ⟨written, -, flash⟩ := Module.mWrite_elsewhere (val := fun q => (drainBits (x.ctx (x.th (ThreadId.key th)).ctx).seed (s.mEntry th w 0)
    (x.core (ThreadId.key th / 8)) q).1) places
  refine State.matrix_performs_apart (State.matrix_issues (by simp [matrixOps]) hi fun e => nomatch e) hi h hq (State.issues_offLane hi rfl) performed
    made ⟨?_, fun r col hr hc => ?_, fun y => ⟨fun outside => ?_, fun r col hr hc inside => ?_⟩⟩
    ((looks.toElsewhere.trans written).trans ends.toElsewhere)
  · exact ends.sameBytes.2.trans (flash.trans beside.sameBytes.2)
  · have clear : _ = ((x.core (ThreadId.key th / 8)).drainClear w).acc := (congrArg Core.acc made).trans (Core.drainStat_rest _ w f v).1
    obtain ⟨bits, words⟩ := (x.core (ThreadId.key th / 8)).drainClear_tiles w hr hc
    rw [Core.tileBits_congr acc] at bits
    exact ⟨(Core.tileBits_congr clear _ _ _ _).trans bits, fun y hy => (Core.accWord_congr clear y r col).trans ((words y hy).trans
      (Core.accWord_congr acc y r col))⟩
  · have kept := Module.mWrite_outside (val := fun q => (drainBits (x.ctx (x.th (ThreadId.key th)).ctx).seed (s.mEntry th w 0)
      (x.core (ThreadId.key th / 8)) q).1) places fun q hq => outside q.1 q.2 (mem_tilePos.mp hq).1 (mem_tilePos.mp hq).2
    exact (ends.sameBytes.1 y).trans (kept.trans (beside.sameBytes.1 y))
  · obtain ⟨-, up, apart⟩ := hp r col hr hc
    have stored := Module.mWrite_inside (val := fun q => (drainBits (x.ctx (x.th (ThreadId.key th)).ctx).seed (s.mEntry th w 0)
      (x.core (ThreadId.key th / 8)) q).1) places (mem_tilePos.mpr ⟨hr, hc⟩ : (r, col) ∈ tilePos) inside
      (fun a ha => beside.linkUp.trans (up a ha)) fun q hq covers => by
        obtain ⟨hr', hc'⟩ := mem_tilePos.mp hq
        by_contra differs
        exact apart q.1 q.2 y hr' hc' (Ne.symm differs) inside covers
    rw [value] at stored
    exact (ends.sameBytes.1 y).trans stored

end

end Sys2Proof.Machine
end

section
/-! PROOFS of the matrix family (06_matrix_unit), eleventh part: the alignment trap of mst.cfg, and what enters the queue (06 R145, R150-R152). -/

namespace Sys2Proof.Machine

section
variable {s : State} {th : ThreadId} {w : Word} (hi : s.issues .mstCfg th w = true)
include hi

/-- An mst.cfg, aligned or not, waits for room in the queue (04 R104). -/
theorem State.mstCfg_full (hf : 16 ≤ (s.m.core (ThreadId.key th / 8)).mq.length) : Leaves (.mstCfg th w) s th (s.thread th) := by
  have full : ¬ ((s.issuing th).core (ThreadId.key th / 8)).mq.length < 16 := by
    rw [State.issuing_core]
    omega
  refine State.matrix_stays (w := w) (dst := 0) ?_ (.inl hf)
  rw [State.mstCfg_runs hi, cfgBody, if_neg (by simp [full])]

/-- With room in the queue it traps (06 R145). -/
theorem State.mstCfg_traps (ha : ((s.thread th).getS (Word.ra w)).toNat % 64 ≠ 0) (hf : (s.m.core (ThreadId.key th / 8)).mq.length < 16) 
    (ht : (s.thread th).inTrap = false) (hv : (s.thread th).tvec ≠ 0) :
    Leaves (.mstCfg th w) s th { s.thread th with
      tepc := (s.thread th).ip.setWidth 48, tcause := 4, tval := (s.thread th).getS (Word.ra w), inTrap := true, ip := (s.thread th).tvec } := by
  have trap : cfgBody w (s.issuing th) (ThreadId.key th) =
      (s.issuing th).trapWith (ThreadId.key th) causeAlign ((s.thread th).getS (Word.ra w)) true 0 := by
    have room : ((s.issuing th).core (ThreadId.key th / 8)).mq.length < 16 := by rwa [State.issuing_core]
    have misaligned : (((s.issuing th).th (ThreadId.key th)).getS (Word.ra w)).toNat % 64 ≠ 0 := ha
    rw [cfgBody]
    exact if_pos (by simpa [room] using misaligned)
  have handled := Module.trapWith_handled (s.issuing th) (ThreadId.key th) causeAlign ((s.thread th).getS (Word.ra w)) true 0 ⟨ht, hv⟩
  refine State.leaves s _ th w (cfgBody w) _ _ rfl hi ?_ ?_ <;> rw [trap, handled]
  · exact (Module.issuedOn_same _ _ _).trans (SameBut.setTh _ _ _)
  · rw [Module.th_setTh_self, if_neg (by decide)]
    rfl

end

/-- The entry of an operation that has been performed is the entry with which it issued, done, with some flags. -/
theorem State.Performed.entry {s : State} {th : ThreadId} {w : Word} {i : Instr} {dst : Nat} {p : Module → Prop}
    (h : Completes i s (s.Performed th w dst p)) : Completes i s fun m => s.goneOn th m ∧ Alone s.m m th ∧
      (∃ f, (m.core (ThreadId.key th / 8)).mq = [{ s.mEntry th w dst with done := true, flags := f }]) ∧ p m :=
  h.mono fun _ ⟨next, alone, ⟨_, entry⟩, effect⟩ => ⟨next, alone, ⟨_, entry⟩, effect⟩

/-- Settles O39: an instruction that may enter is appended to the queue as its thread goes on; on an empty queue it is then performed at once, each
operation by its own lemma. -/
theorem matrixInstructionsEnterTheirQueue : Obligations.MatrixInstructionsEnterTheirQueue := by
  intro s th w
  refine ⟨fun i r dst hin hi aligned => ⟨fun stays => State.matrix_stays (State.matrix_issues hin hi aligned) stays,
      fun room apart settled waits => State.matrix_waits (State.matrix_issues hin hi aligned) hi
        (fun stays => stays.elim (fun full => absurd room (not_lt.mpr full)) apart) settled waits⟩,
    fun hi _ full => State.mstCfg_full hi full,
    fun hi misaligned room trap vec => State.mstCfg_traps hi (fun ha => misaligned fun _ => ha) room trap vec, fun hq apart => ?_⟩
  have h : ¬ s.mStays th w := fun stays => stays.elim (fun full => by rw [hq] at full; cases full) apart
  refine ⟨fun hi => State.Performed.entry (State.msSwap_performs h hq hi), fun hi => State.Performed.entry (State.mstSeek_performs h hq hi),
    fun hi => State.Performed.entry (State.maccZero_performs h hq hi), fun hi => State.Performed.entry (State.maccStat_performs h hq hi),
    fun aligned p hp hi => State.Performed.entry (State.mstCfg_performs h hq hi (aligned rfl) p hp),
    fun flat p hp hi => State.Performed.entry (State.maccLd_performs h hq hi rfl flat.1 flat.2 p hp),
    fun valid widens p hp hi => State.Performed.entry (State.msLd_performs h hq hi rfl valid widens p hp),
    fun flat plain p hp hi => State.Performed.entry (State.maccDrain_performs h hq hi rfl flat.1 flat.2 plain p hp)⟩

end Sys2Proof.Machine
end

section
/-! PROOFS of the matrix family (06_matrix_unit), twelfth part: mwait holds its thread (06 R150, R152). -/

namespace Sys2Proof.Machine

/-- Retiring an instruction leaves the matrix queue. -/
theorem Module.retire_mq (m : Module) (k : Nat) (wide : Bool) : ((m.retire k wide).core (k / 8)).mq = (m.core (k / 8)).mq := by
  unfold Module.retire Module.advance
  rw [Module.core_congr (Module.progress_cores _ _), Module.core_congr (Module.countPart_cores _ _ _ _), Module.core_setCore_self]
  cases wide <;> rfl

/-- At most the number of operations that an mwait names has not retired. -/
def Module.waitMet (m : Module) (k : Nat) (w : Word) : Prop := (m.mopsOf k).length ≤ Word.slice w 4 0

/-- The position of a thread's mwait in the queue. -/
def Module.waitPos (m : Module) (k : Nat) : Option MOp := (m.core (k / 8)).mq.find? fun o => o.isMwait && o.thread == keyThread k

/-- No operation of a core is blocked. -/
def Core.unblocked (c : Core) : Prop := ∀ o ∈ c.mq, o.blocked = false

section
variable {m : Module} {k : Nat} {w : Word}

theorem Core.unblocked_iff (c : Core) : (c.mq.all fun o => !o.blocked) = true ↔ c.unblocked := by simp [Core.unblocked]

theorem mwaitBody_full (hp : m.waitPos k = none) (hf : 16 ≤ (m.core (k / 8)).mq.length) : mwaitBody w m k = m := by
  rw [Module.waitPos] at hp
  simp only [mwaitBody, hp, hf, if_true]

theorem mwaitBody_passes (hp : m.waitPos k = none) (hf : (m.core (k / 8)).mq.length < 16) (hm : m.waitMet k w) (hc : (m.core (k / 8)).unblocked) :
    mwaitBody w m k = m.retire k true := by
  rw [Module.waitPos] at hp
  have met : decide ((m.mopsOf k).length ≤ Word.slice w 4 0) = true := decide_eq_true hm
  simp only [mwaitBody, hp, not_le.mpr hf, if_false, met, (Core.unblocked_iff _).mpr hc, Bool.and_self, if_true]

/-- The core in which an mwait has taken its position. -/
def Module.waiting (m : Module) (k : Nat) (w : Word) : Core :=
  { m.core (k / 8) with
    mq := (m.core (k / 8)).mq ++ [(m.th k).mEntry (m.core (k / 8)).nextOp (keyThread k) w none], nextOp := (m.core (k / 8)).nextOp + 1 }

theorem mwaitBody_queues (hp : m.waitPos k = none) (hf : (m.core (k / 8)).mq.length < 16) (h : ¬ (m.waitMet k w ∧ (m.core (k / 8)).unblocked)) :
    mwaitBody w m k = m.setCore (k / 8) (m.waiting k w) := by
  rw [Module.waitPos] at hp
  have waits : (decide ((m.mopsOf k).length ≤ Word.slice w 4 0) && (m.core (k / 8)).mq.all fun o => !o.blocked) ≠ true := fun both => by
    rw [Bool.and_eq_true, decide_eq_true_eq, Core.unblocked_iff] at both
    exact h both
  simp only [mwaitBody, hp, not_le.mpr hf, if_false, waits]
  rfl

theorem mwaitBody_released {o : MOp} (hp : m.waitPos k = some o) (hm : m.waitMet k w) (hs : (m.core (k / 8)).canStart o = true) :
    mwaitBody w m k =
      (m.setCore (k / 8) { m.core (k / 8) with mq := (m.core (k / 8)).mq.filter fun x => x.id != o.id }).retire k true := by
  rw [Module.waitPos] at hp
  have met : decide ((m.mopsOf k).length ≤ Word.slice w 4 0) = true := decide_eq_true hm
  simp only [mwaitBody, hp, met, hs, Bool.and_self, if_true]

theorem mwaitBody_held {o : MOp} (hp : m.waitPos k = some o) (h : ¬ (m.waitMet k w ∧ (m.core (k / 8)).canStart o = true)) : mwaitBody w m k = m := by
  rw [Module.waitPos] at hp
  have held : (decide ((m.mopsOf k).length ≤ Word.slice w 4 0) && (m.core (k / 8)).canStart o) ≠ true := fun both => by
    rw [Bool.and_eq_true, decide_eq_true_eq] at both
    exact h both
  simp only [mwaitBody, hp, held, Bool.false_eq_true, if_false]

end

/-! ### mwait issues -/

section
variable {s : State} {th : ThreadId} {w : Word}

theorem State.issuing_waitMet : (s.issuing th).waitMet (ThreadId.key th) w ↔ s.m.waitMet (ThreadId.key th) w := by
  simp only [Module.waitMet, Module.mopsOf, State.issuing_core]

theorem State.issuing_waitPos : (s.issuing th).waitPos (ThreadId.key th) = s.m.waitPos (ThreadId.key th) := by
  simp only [Module.waitPos, State.issuing_core]

variable (hi : s.issues .mwait th w = true)
include hi

/-- An mwait that leaves everything as it is. -/
theorem State.mwait_leaves (hb : mwaitBody w (s.issuing th) (ThreadId.key th) = s.issuing th) : Leaves (.mwait th w) s th (s.thread th) :=
  State.leaves s _ th w (mwaitBody w) _ _ rfl hi (hb.symm ▸ SameBut.refl _ _) (by rw [hb]; rfl)

theorem State.mwait_full (hp : s.m.waitPos (ThreadId.key th) = none) (hf : 16 ≤ (s.m.core (ThreadId.key th / 8)).mq.length) :
    Leaves (.mwait th w) s th (s.thread th) :=
  State.mwait_leaves hi (mwaitBody_full (State.issuing_waitPos.trans hp) (by rwa [State.issuing_core]))

theorem State.mwait_passes (hp : s.m.waitPos (ThreadId.key th) = none) (hf : (s.m.core (ThreadId.key th / 8)).mq.length < 16)
    (hm : s.m.waitMet (ThreadId.key th) w) (hc : (s.m.core (ThreadId.key th / 8)).unblocked) : Retires (.mwait th w) s th (s.thread th) := by
  have passes := mwaitBody_passes (w := w) (State.issuing_waitPos.trans hp) (by rwa [State.issuing_core]) (State.issuing_waitMet.mpr hm)
    (by rwa [State.issuing_core])
  refine State.leaves s _ th w (mwaitBody w) _ _ rfl hi (passes ▸ Module.retire_same _ _ _) ?_
  rw [passes, Module.retire_th, State.issuing_pilot]
  rfl

theorem State.mwait_queues (hp : s.m.waitPos (ThreadId.key th) = none) (hf : (s.m.core (ThreadId.key th / 8)).mq.length < 16)
    (h : ¬ (s.m.waitMet (ThreadId.key th) w ∧ (s.m.core (ThreadId.key th / 8)).unblocked)) :
    Completes (.mwait th w) s fun m => m.th (ThreadId.key th) = s.thread th ∧ SameBytes s.m m ∧ Alone s.m m th ∧
      ∃ o : MOp, (m.core (ThreadId.key th / 8)).mq = (s.m.core (ThreadId.key th / 8)).mq ++ [o] ∧ o.word = w ∧
        o.thread = keyThread (ThreadId.key th) ∧ o.done = false := by
  have queues := mwaitBody_queues (w := w) (State.issuing_waitPos.trans hp) (by rwa [State.issuing_core])
    (by rwa [State.issuing_waitMet, State.issuing_core])
  have run := State.inst_issues s _ th w (mwaitBody w) hi
  rw [queues] at run
  have beside := (s.issuing_beside th).trans (Beside.setCore (s.issuing th) (ThreadId.key th / 8) ((s.issuing th).waiting (ThreadId.key th) w) rfl).mono
  refine Completes.of_exec run ⟨rfl, beside.sameBytes, beside.alone fun _ h => h,
    (s.thread th).mEntry (s.m.core (ThreadId.key th / 8)).nextOp (keyThread (ThreadId.key th)) w none, ?_, rfl, rfl, rfl⟩
  rw [Module.core_setCore_self, Module.waiting, State.issuing_core]
  rfl

theorem State.mwait_released {o : MOp} (hp : s.m.waitPos (ThreadId.key th) = some o) (hm : s.m.waitMet (ThreadId.key th) w)
    (hs : (s.m.core (ThreadId.key th / 8)).canStart o = true) :
    Completes (.mwait th w) s fun m => SameBytes s.m m ∧ Alone s.m m th ∧
      m.th (ThreadId.key th) = { s.thread th with ip := (s.thread th).ip + 8, retiredAt := s.m.pilot } ∧
      (m.core (ThreadId.key th / 8)).mq = (s.m.core (ThreadId.key th / 8)).mq.filter fun x => x.id != o.id := by
  have released := mwaitBody_released (w := w) (State.issuing_waitPos.trans hp) (State.issuing_waitMet.mpr hm) (by rwa [State.issuing_core])
  have run := State.inst_issues s _ th w (mwaitBody w) hi
  rw [released, State.issuing_core] at run
  have left : Beside [] (s.issuing th) ((s.issuing th).setCore (ThreadId.key th / 8)
      { s.m.core (ThreadId.key th / 8) with mq := (s.m.core (ThreadId.key th / 8)).mq.filter fun x => x.id != o.id }) :=
    Beside.setCore _ _ _ (by rw [State.issuing_core])
  have beside := ((s.issuing_beside th).trans left.mono).trans (Module.retire_beside_self _ _ true)
  refine Completes.of_exec run ⟨beside.sameBytes, beside.alone fun _ h => h, ?_, ?_⟩
  · rw [Module.retire_th, left.th _ List.not_mem_nil, left.pilot, State.issuing_pilot]
    rfl
  · rw [Module.retire_mq, Module.core_setCore_self]

theorem State.mwait_held {o : MOp} (hp : s.m.waitPos (ThreadId.key th) = some o)
    (h : ¬ (s.m.waitMet (ThreadId.key th) w ∧ (s.m.core (ThreadId.key th / 8)).canStart o = true)) : Leaves (.mwait th w) s th (s.thread th) :=
  State.mwait_leaves hi (mwaitBody_held (State.issuing_waitPos.trans hp) (by rwa [State.issuing_waitMet, State.issuing_core]))

end

end Sys2Proof.Machine
end

section
/-! PROOFS of the matrix family (06_matrix_unit), thirteenth part: a slot enters, or its operation ends on an invalid channel (06 R130, R131, R137, R148). -/

namespace Sys2Proof.Machine

/-! ### What a slot reads does not depend on what was sent -/

theorem Module.fresh_beside (m : Module) : Beside [] m m.fresh := { Beside.refl [] m with pilot := rfl }

theorem Module.mPieces_xlates {k : Nat} {m m' : Module} (h : Xlates k m m') (acc : Access) (a n : Nat) : m'.mPieces k acc a n = m.mPieces k acc a n := by
  simp only [Module.mPieces, h.answer]

theorem Module.mRead_xlates {k : Nat} {m m' : Module} (h : Xlates k m m') (a n : Nat) : m'.mRead k a n = m.mRead k a n := by
  simp only [Module.mRead, Module.mPieces_xlates h, h.toBeside.readPlace, h.toBeside.badPlace]

theorem Module.streamElem_xlates {k : Nat} {m m' : Module} (h : Xlates k m m') (ch : Chan) (of : Nat) (a : Option Nat) :
    m'.streamElem k ch of a = m.streamElem k ch of a := by
  simp only [Module.streamElem, Module.mRead_xlates h]

theorem Module.slotOperands_fresh (m : Module) (core : Nat) (o : MOp) (kk j : Nat) : m.fresh.slotOperands core o kk j = m.slotOperands core o kk j := by
  have h : Xlates (o.key core) m m.fresh := Xlates.of_cores m.fresh_beside rfl
  simp only [Module.slotOperands, Module.streamElem_xlates h]
  rfl

/-! ### The slot of an mma -/

/-- Does the slot write from +0, the first on its element (06 R133)? -/
def MOp.fromZero (o : MOp) : Bool :=
  Word.slice o.word 1 1 == 1 && decide (o.slots / (o.kc * o.n) = 0) && decide (o.slots % (o.kc * o.n) / o.n = 0)

/-- What an mma's next slot gives for each row. -/
def Module.slotResults (m : Module) (core : Nat) (o : MOp) : List (Nat × Flags) :=
  let x := m.slotOperands core o (o.k0 + o.slots % (o.kc * o.n) / o.n) (o.slots % o.n)
  x.1.zipIdx.map fun y => slotElem o.mode (o.slots / (o.kc * o.n))
    (if o.fromZero then 0 else (m.core core).tileBits (Word.rd o.word) o.laneTiles y.2 (o.slots % o.n)) y.1 x.2.1

/-- The flags of an mma's next slot. -/
def Module.slotFlags (m : Module) (core : Nat) (o : MOp) : Flags :=
  (m.slotResults core o).foldl (fun f x => f ||| x.2) (m.slotOperands core o (o.k0 + o.slots % (o.kc * o.n) / o.n) (o.slots % o.n)).2.2

/-- The core once the slot that begins an mma with zi has dropped what its tile gathered (06 R133, R139). -/
def Core.begun (c : Core) (o : MOp) : Core :=
  if Word.slice o.word 1 1 = 1 ∧ o.slots = 0 then (c.clearSticky (Word.rd o.word)).dropFlags (Word.rd o.word) else c

/-- The core once the last slot of an mma has moved its channel's cursor (06 R130). -/
def Core.movedOn (c : Core) (o : MOp) : Core :=
  if o.slots + 1 = o.total ∧ Word.slice o.word 0 0 = 1 then
    c.setChan (Word.ra o.word) { c.chan (Word.ra o.word) with col := ((c.chan (Word.ra o.word)).col + o.n) % 2 ^ 32 }
  else c

/-- The core in which one more slot of an operation is in flight. -/
def Core.flies (c : Core) (o : MOp) (f : Inflight) : Core :=
  Core.modOp { c with inflight := c.inflight ++ [f] } o.id fun o => { o with slots := o.slots + 1 }

/-- The slot in flight of an mma. -/
def Module.slotFlight (m : Module) (core : Nat) (o : MOp) : Inflight :=
  { op := o.id, tile := Word.rd o.word, ntiles := o.laneTiles, col := o.slots % o.n, vals := (m.slotResults core o).map fun x => x.1, flags := m.slotFlags core o,
    stat := true }

/-- The core in which the next slot of an mma has entered. -/
def Module.slotIn (m : Module) (core : Nat) (o : MOp) : Core := (((m.core core).begun o).movedOn o).flies o (m.slotFlight core o)

section
variable {m : Module} {core : Nat} {o : MOp} (hm : Word.major o.word = 0x21)
include hm

theorem Module.enterSlot_busy (hb : (m.core core).columnBusy (Word.rd o.word) o.laneTiles (o.slots % o.n) = true) :
    m.enterSlot core o = m.countPart (o.key core) 5 1 := by
  have slotted : o.slotted = true := by simp [MOp.slotted, hm]
  simp only [Module.enterSlot, slotted, if_true, hb]

theorem Module.enterSlot_free (hb : (m.core core).columnBusy (Word.rd o.word) o.laneTiles (o.slots % o.n) = false) :
    m.enterSlot core o = ((m.setCore core (m.slotIn core o)).countPart (o.key core) 4 1).settleQueue core := by
  have slotted : o.slotted = true := by simp [MOp.slotted, hm]
  simp only [Module.enterSlot, slotted, if_true, hb, Bool.false_eq_true, if_false, hm, beq_self_eq_true, Bool.true_and, Bool.and_true,
    Module.slotIn, Core.begun, Core.movedOn, Core.flies, Module.slotFlight, Module.slotFlags, Module.slotResults, MOp.fromZero, Bool.and_eq_true, beq_iff_eq,
    decide_eq_true_eq]

end

/-! ### What the slot leaves of its core -/

/-- Nothing differs between two cores but the status of tiles, channels, and what is in flight. -/
def Core.SlotBut (c c' : Core) : Prop := ∃ tstat chans inflight, c' = { c with tstat := tstat, chans := chans, inflight := inflight }

theorem Core.begun_slotBut (c : Core) (o : MOp) : c.SlotBut (c.begun o) := by
  unfold Core.begun
  split
  · obtain ⟨v, hv⟩ := c.clearSticky_eq (Word.rd o.word)
    rw [hv]
    exact ⟨_, _, _, rfl⟩
  · exact ⟨_, _, _, rfl⟩

theorem Core.begun_inflight (c : Core) (o : MOp) : (c.begun o).inflight = if Word.slice o.word 1 1 = 1 ∧ o.slots = 0 then
    c.inflight.map fun y => if y.tile = Word.rd o.word then { y with stat := false } else y else c.inflight := by
  unfold Core.begun
  split
  · obtain ⟨v, hv⟩ := c.clearSticky_eq (Word.rd o.word)
    rw [hv]
    rfl
  · rfl

theorem Core.movedOn_slotBut (c : Core) (o : MOp) : c.SlotBut (c.movedOn o) := by
  unfold Core.movedOn
  split <;> exact ⟨_, _, _, rfl⟩

theorem Core.movedOn_inflight (c : Core) (o : MOp) : (c.movedOn o).inflight = c.inflight := by
  unfold Core.movedOn
  split <;> rfl

theorem Module.slotIn_core (m : Module) (core : Nat) (o : MOp) : (m.slotIn core o).acc = (m.core core).acc ∧
    (m.slotIn core o).grids = (m.core core).grids ∧
    (m.slotIn core o).mq = (m.core core).mq.map (fun x => if x.id = o.id then { x with slots := x.slots + 1 } else x) ∧
    (m.slotIn core o).inflight = ((m.core core).begun o).inflight ++ [m.slotFlight core o] := by
  have inflight := ((m.core core).begun o).movedOn_inflight o
  obtain ⟨_, _, _, same⟩ := (m.core core).begun_slotBut o
  obtain ⟨_, _, _, same'⟩ := ((m.core core).begun o).movedOn_slotBut o
  unfold Module.slotIn Core.flies Core.modOp
  rw [inflight]
  refine ⟨?_, ?_, ?_, rfl⟩ <;> rw [same', same]

section
variable (m : Module) (core : Nat) {o : MOp}

/-- The operands of an mma have a chunk for each row. -/
theorem Module.slotOperands_rows (hm : Word.major o.word = 0x21) (kk j : Nat) : (m.slotOperands core o kk j).1.length = 32 := by
  simp [Module.slotOperands, hm]

theorem Module.slotResults_length (hm : Word.major o.word = 0x21) : (m.slotResults core o).length = 32 := by
  simp [Module.slotResults, m.slotOperands_rows core hm]

/-- A row of a slot's results. -/
theorem Module.slotResults_row (hm : Word.major o.word = 0x21) {r : Nat} (hr : r < 32) :
    ((m.slotResults core o).map fun x => x.1).getD r 0 = (slotElem o.mode (o.slots / (o.kc * o.n))
      (if o.fromZero then 0 else (m.core core).tileBits (Word.rd o.word) o.laneTiles r (o.slots % o.n))
      ((m.slotOperands core o (o.k0 + o.slots % (o.kc * o.n) / o.n) (o.slots % o.n)).1.getD r [])
      (m.slotOperands core o (o.k0 + o.slots % (o.kc * o.n) / o.n) (o.slots % o.n)).2.1).1 := by
  have rows := m.slotOperands_rows core hm (o.k0 + o.slots % (o.kc * o.n) / o.n) (o.slots % o.n)
  simp [Module.slotResults, List.getD_eq_getElem?_getD, rows, hr]

end

/-- A row of the slot in flight. -/
theorem Module.slotFlight_row (m : Module) (core : Nat) {o : MOp} (hm : Word.major o.word = 0x21) {r : Nat} (hr : r < 32) :
    (m.fresh.slotFlight core o).vals.getD r 0 = (slotElem o.mode (o.slots / (o.kc * o.n))
      (if Word.slice o.word 1 1 = 1 ∧ o.slots / (o.kc * o.n) = 0 ∧ o.slots % (o.kc * o.n) / o.n = 0 then 0
        else (m.core core).tileBits (Word.rd o.word) o.laneTiles r (o.slots % o.n))
      ((m.slotOperands core o (o.k0 + o.slots % (o.kc * o.n) / o.n) (o.slots % o.n)).1.getD r [])
      (m.slotOperands core o (o.k0 + o.slots % (o.kc * o.n) / o.n) (o.slots % o.n)).2.1).1 := by
  refine (m.fresh.slotResults_row core hm hr).trans ?_
  rw [Module.slotOperands_fresh]
  simp only [MOp.fromZero, Bool.and_eq_true, beq_iff_eq, decide_eq_true_eq, and_assoc]
  rfl

/-! ### mma.slot -/

section
variable {m : Module} {core : Nat} {o : MOp} (hq : (m.core core).mq = [o]) (hm : Word.major o.word = 0x21)
include hq hm

/-- A queue that holds an mma alone has nothing to perform. -/
theorem Module.settleQueue_mma : m.settleQueue core = m := by
  refine Module.settleQueue_settled fun x hx => ?_
  rw [hq] at hx
  exact .inl (List.mem_singleton.mp hx ▸ by simp [MOp.lane, hm])

variable (hd : o.done = false) (hs : o.slots < o.total) (hb : o.blocked = false)
include hd hs

theorem mmaSlot_found : (m.core core).mq.find? (fun o => o.lane && !o.done && decide (o.slots < o.total)) = some o := by
  rw [hq]
  simp [MOp.lane, hm, hd, hs]

include hb

/-- The next slot of a started mma enters. -/
theorem mmaSlot_started (ho : o.started = true) : mmaSlot core m = m.enterSlot core o := by
  simp only [mmaSlot, Module.settleQueue_mma hq hm, mmaSlot_found hq hm hd hs, hb, Core.canStart_only hq, Bool.not_true, Bool.or_self,
    Bool.false_eq_true, if_false, ho, if_true]

/-- An mma that cannot start ends. -/
theorem mmaSlot_ends (ho : o.started = false) {m1 : Module} (h1 : m.laneStart core o = some m1) {x : MOp} (hx : (m1.core core).mq = [x])
    (hid : x.id = o.id) (hn : x.started = false) : mmaSlot core m = m1.settleQueue core := by
  have again : (m1.core core).mq.find? (fun x => x.id == o.id) = some x := by
    rw [hx]
    simp [hid]
  simp only [mmaSlot, Module.settleQueue_mma hq hm, mmaSlot_found hq hm hd hs, hb, Core.canStart_only hq, Bool.not_true, Bool.or_self,
    Bool.false_eq_true, if_false, ho, h1, again, hn]

end

/-- An mma on an invalid channel ends at once (06 R148). -/
theorem Module.laneStart_invalid {m : Module} {core : Nat} {o : MOp} (hm : Word.major o.word = 0x21)
    (hc : ((m.core core).chan (Word.ra o.word)).valid = false) : m.laneStart core o = some (m.mInvalid core o (some (Word.rd o.word))) := by
  simp only [Module.laneStart, hm, hc, Bool.not_false, Bool.true_or, if_true]

theorem Module.thViol_cores (m : Module) (k addr n : Nat) : (m.thViol k addr n).cores = m.cores := by
  unfold Module.thViol
  split
  · rfl
  · rw [Module.countPart_cores]
    unfold Module.violateN
    split <;> rfl

section
variable {m : Module} {core : Nat} {o : MOp} (hq : (m.core core).mq = [o]) (tile : Nat)
include hq

/-- The core in which an operation has ended on an invalid channel: nv in its tile's status, and in its flags. -/
theorem Module.mInvalid_core : (m.mInvalid core o (some tile)).core core =
    { (m.core core).orStat tile fNV with mq := [o.performed fNV] } := by
  have made := m.finished_core (core := core) (c := (m.core core).orStat tile fNV) hq fNV
  exact (Module.core_congr (Module.thViol_cores _ _ _ _) core).trans made

omit hq in
/-- Beside that, one violation at the operation's instruction. -/
theorem Module.mInvalid_violates (hn : (m.th (o.key core)).ctx < 64) : SameBytes m (m.mInvalid core o (some tile)) ∧
    Violates m (m.mInvalid core o (some tile)) (m.th (o.key core)).ctx 1 o.ip.toNat := by
  have beside : Beside [] m (m.finished core o ((m.core core).orStat tile fNV) fNV) := m.finished_beside o (c := (m.core core).orStat tile fNV) rfl fNV
  have ctx : ((m.finished core o ((m.core core).orStat tile fNV) fNV).th (o.key core)).ctx = (m.th (o.key core)).ctx := by
    rw [beside.th _ List.not_mem_nil]
  have violates := Module.thViol_violates (m.finished core o ((m.core core).orStat tile fNV) fNV) (o.key core) o.ip.toNat (by rwa [ctx])
  rw [ctx] at violates
  exact ⟨beside.sameBytes.trans (SameBytes.of_ms (Module.thViol_ms _ _ _ _)),
    Violates.beside hn beside.toElsewhere violates (Elsewhere.refl [] _)⟩

end

/-! ### The command -/

section
variable {s : State} {core : Fin 2048} {o : MOp} (hq : (s.m.core core.val).mq = [o]) (hm : Word.major o.word = 0x21) (hd : o.done = false)
  (hb : o.blocked = false) (hs : o.slots < o.total)
include hq hm hd hb hs

/-- A slot enters in order, with what its mode computes for each row (06 R130, R131). -/
theorem State.mmaSlot_enters (ho : o.started = true)
    (hf : (s.m.core core.val).columnBusy (Word.rd o.word) o.laneTiles (o.slots % o.n) = false) :
    Completes (.mmaSlot core) s fun m => SameBytes s.m m ∧ (m.core core.val).acc = (s.m.core core.val).acc ∧
      (m.core core.val).mq = [{ o with slots := o.slots + 1 }] ∧
      (m.core core.val).inflight = ((s.m.core core.val).begun o).inflight ++ [s.m.fresh.slotFlight core.val o] := by
  have run : exec (.mmaSlot core) s = .next { s with m := mmaSlot core.val s.m.fresh } := State.go_eq s _
  obtain ⟨acc, grids, mq, inflight⟩ := s.m.fresh.slotIn_core core.val o
  have entered := Module.enterSlot_free (m := s.m.fresh) hm hf
  have queue : (s.m.fresh.slotIn core.val o).mq = [{ o with slots := o.slots + 1 }] := by
    rw [mq, show (s.m.fresh.core core.val).mq = [o] from hq]
    simp
  have core' : ((s.m.fresh.setCore core.val (s.m.fresh.slotIn core.val o)).countPart (o.key core.val) 4 1).core core.val =
      s.m.fresh.slotIn core.val o := (Module.core_congr (Module.countPart_cores _ _ _ _) _).trans (Module.core_setCore_self _ _ _)
  rw [mmaSlot_started (m := s.m.fresh) hq hm hd hs hb ho, entered,
    Module.settleQueue_mma (o := { o with slots := o.slots + 1 }) ((congrArg Core.mq core').trans queue) hm] at run
  have beside := (s.m.fresh_beside.trans (Beside.setCore s.m.fresh core.val _ grids)).trans (Module.countPart_beside _ (o.key core.val) 4 1)
  refine Completes.of_exec run ⟨beside.sameBytes, ?_, ?_, ?_⟩
  · exact (congrArg Core.acc core').trans acc
  · exact (congrArg Core.mq core').trans queue
  · exact (congrArg Core.inflight core').trans inflight

/-- A slot waits while a result in flight holds its column (06 R137). -/
theorem State.mmaSlot_waits (ho : o.started = true)
    (hf : (s.m.core core.val).columnBusy (Word.rd o.word) o.laneTiles (o.slots % o.n) = true) :
    Completes (.mmaSlot core) s fun m => SameBytes s.m m ∧ m.core core.val = s.m.core core.val := by
  have run : exec (.mmaSlot core) s = .next { s with m := mmaSlot core.val s.m.fresh } := State.go_eq s _
  rw [mmaSlot_started (m := s.m.fresh) hq hm hd hs hb ho, Module.enterSlot_busy (m := s.m.fresh) hm hf] at run
  exact Completes.of_exec run ⟨(s.m.fresh_beside.trans (Module.countPart_beside _ _ _ _)).sameBytes,
    Module.core_congr (Module.countPart_cores _ _ _ _) _⟩

/-- An mma on an invalid channel ends with nv and one violation (06 R148). -/
theorem State.mmaSlot_invalid (ho : o.started = false) (hc : ((s.m.core core.val).chan (Word.ra o.word)).valid = false)
    (hn : (s.m.th (o.key core.val)).ctx < 64) :
    Completes (.mmaSlot core) s fun m => SameBytes s.m m ∧ (m.core core.val).acc = (s.m.core core.val).acc ∧
      (m.core core.val).mq = [o.performed fNV] ∧ (m.core core.val).stat (Word.rd o.word) = ((s.m.core core.val).stat (Word.rd o.word) ||| 1) ∧
      Violates s.m m (s.m.th (o.key core.val)).ctx 1 o.ip.toNat := by
  have run : exec (.mmaSlot core) s = .next { s with m := mmaSlot core.val s.m.fresh } := State.go_eq s _
  have made := Module.mInvalid_core (m := s.m.fresh) hq (Word.rd o.word)
  obtain ⟨bytes, violates⟩ := Module.mInvalid_violates (m := s.m.fresh) (Word.rd o.word) hn
  have queue := congrArg Core.mq made
  rw [mmaSlot_ends (m := s.m.fresh) hq hm hd hs hb ho (Module.laneStart_invalid hm hc) queue rfl ho, Module.settleQueue_mma queue hm] at run
  refine Completes.of_exec run ⟨s.m.fresh_beside.sameBytes.trans bytes, ?_, queue, ?_,
    Violates.beside hn s.m.fresh_beside.toElsewhere violates (Elsewhere.refl [] _)⟩
  · exact (congrArg Core.acc made).trans (Core.acc_orStat (s.m.core core.val) (Word.rd o.word) fNV)
  · have stat := congrArg (fun c : Core => c.stat (Word.rd o.word)) made
    exact stat.trans (Core.stat_setStat _ _ _)

end

end Sys2Proof.Machine
end

section
/-! PROOFS of the matrix family (06_matrix_unit), fourteenth part: a result lands in its tile (06 R137, R139; 09 R215). -/

namespace Sys2Proof.Machine

/-! ### The queue as a result lands -/

/-- The queue entry of an operation with flags of a result. -/
def MOp.gather (o : MOp) (f : Flags) : MOp := { o with flags := o.flags ||| f }

/-- The queue entry of an operation one more of whose results has landed. -/
def MOp.lands (o : MOp) : MOp := { o with landed := o.landed + 1, done := o.landed + 1 == o.total }

/-- The module in which the oldest result is no longer in flight. -/
def Module.unfly (m : Module) (core : Nat) (rest : List Inflight) : Module := m.setCore core { m.core core with inflight := rest }

/-- The core in which the values of a slot's result stand in its column. -/
def Core.putColumn (c : Core) (f : Inflight) : Core := f.vals.zipIdx.foldl (fun c x => c.tilePut f.tile f.ntiles x.2 f.col x.1) c

/-- The core in which a slot's result has landed, its flags kept in the tile's status. -/
def Core.column (c : Core) (f : Inflight) : Core := if f.stat then (c.putColumn f).orStat f.tile f.flags else c.putColumn f

/-- The module in which a slot's result has landed. -/
def Module.columnLands (m : Module) (core : Nat) (f : Inflight) (o : MOp) : Module :=
  m.setCore core (((m.core core).column f).modOp o.id fun o => o.gather f.flags)

/-- The oldest result lands, of a slot in its column, of a Q operation as a whole. -/
theorem slotResultLand_oldest {m : Module} {core : Nat} {f : Inflight} {rest : List Inflight} {o : MOp} (hi : (m.core core).inflight = f :: rest)
    (ho : (m.core core).mq.find? (fun x => x.id == f.op) = some o) :
    slotResultLand core m = ((if f.col = 32 then (m.unfly core rest).qEffect core o else (m.unfly core rest).columnLands core f o).modOp core
      o.id MOp.lands).settleQueue core := by
  simp only [slotResultLand, hi, ho]
  rfl

section
variable {m : Module} {core : Nat} {o : MOp} {f : Flags} {l : List MOp}
  (hl : (m.core core).mq = l.map fun y => if y.id = o.id then y.gather f else y)
include hl

theorem Module.lands_core : (m.modOp core o.id MOp.lands).core core =
    { m.core core with mq := l.map fun y => if y.id = o.id then (y.gather f).lands else y } := by
  have both : ((fun y : MOp => if y.id = o.id then y.lands else y) ∘ fun y => if y.id = o.id then y.gather f else y) =
      fun y => if y.id = o.id then (y.gather f).lands else y := funext fun y => by
    by_cases same : y.id = o.id
    · simp [same, MOp.gather]
    · simp [same]
  rw [Module.core_modOp, hl, List.map_map, both]

/-- Nothing in the queue may be performed for a result of a lane operation. -/
theorem Module.lands_settles (hs : ∀ y ∈ l, y.settled) (ho : ∀ y ∈ l, y.id = o.id → y.lane = true) :
    (m.modOp core o.id MOp.lands).settleQueue core = m.modOp core o.id MOp.lands := by
  refine Module.settleQueue_settled fun z hz => ?_
  rw [Module.lands_core hl] at hz
  obtain ⟨y, hy, rfl⟩ := List.mem_map.mp hz
  split
  · next same => exact .inl (ho y hy same)
  · exact hs y hy

end

/-- The only operation of an id in a queue. -/
theorem only_of_id {l : List MOp} {id : Nat} {o : MOp} (h : l.filter (fun x => x.id == id) = [o]) :
    l.find? (fun x => x.id == id) = some o ∧ o ∈ l ∧ ∀ y ∈ l, y.id = o.id → y = o := by
  have inside : o ∈ l ∧ (o.id == id) = true := List.mem_filter.mp (h ▸ List.mem_singleton_self o)
  refine ⟨by rw [← List.head?_filter, h]; rfl, inside.1, fun y hy same => ?_⟩
  have found : y ∈ l.filter (fun x => x.id == id) := List.mem_filter.mpr ⟨hy, by rw [same]; exact inside.2⟩
  rw [h] at found
  exact List.mem_singleton.mp found

/-! ### The result of a slot -/

section
variable (c : Core) (f : Inflight)

theorem Core.column_acc : (c.column f).acc = (c.putColumn f).acc := by
  unfold Core.column
  split
  · exact Core.acc_orStat _ _ _
  · rfl

theorem Core.putColumn_accBut : c.AccBut (c.putColumn f) :=
  Core.foldl_tilePut_accBut (l := f.vals.zipIdx) (row := fun x => x.2) (column := fun _ => f.col) (value := fun x => x.1) c f.tile f.ntiles

theorem Core.column_rest : (c.column f).mq = c.mq ∧ (c.column f).grids = c.grids ∧ (c.column f).inflight = c.inflight ∧
    (c.column f).stat f.tile = if f.stat then c.stat f.tile ||| (f.flags.setWidth 64 &&& 0x3D) else c.stat f.tile := by
  obtain ⟨acc, only⟩ := c.putColumn_accBut f
  unfold Core.column
  rw [only]
  split
  · exact ⟨rfl, rfl, rfl, Core.stat_setStat _ _ _⟩
  · exact ⟨rfl, rfl, rfl, rfl⟩

variable (hc : f.col < 32) (hv : f.vals.length = 32) {r col : Nat} (hr : r < 32) (hcol : col < 32)
include hc hv hr hcol

/-- The column of a slot's result holds its values. -/
theorem Core.column_written (h : col = f.col) : (c.column f).tileBits f.tile f.ntiles r col = f.vals.getD r 0 % 2 ^ (32 * f.ntiles) := by
  refine (Core.tileBits_congr (c.column_acc f) _ _ _ _).trans ?_
  refine Core.tileBits_foldl_written (l := f.vals.zipIdx) (row := fun x => x.2) (column := fun _ => f.col) (value := fun x => x.1) c f.tile f.ntiles
    (fun _ hd => ⟨hv ▸ List.snd_lt_of_mem_zipIdx hd, hc⟩) hr hcol (fun d hd row _ => ?_) ⟨(f.vals[r], r), ?_, rfl, h.symm⟩
  · rw [List.getD_eq_getElem?_getD, ← row, List.mem_zipIdx_iff_getElem?.mp hd, Option.getD_some]
  · exact List.mk_mem_zipIdx_iff_getElem?.mpr (List.getElem?_eq_getElem (by omega))

/-- Its other words stay. -/
theorem Core.column_kept {x : Nat} (h : col ≠ f.col ∨ x < f.tile ∨ f.tile + f.ntiles ≤ x) : (c.column f).accWord x r col = c.accWord x r col :=
  (Core.accWord_congr (c.column_acc f) _ _ _).trans
    (Core.accWord_foldl_kept (l := f.vals.zipIdx) (row := fun x => x.2) (column := fun _ => f.col) (value := fun x => x.1) c f.tile f.ntiles
      (fun _ hd => ⟨hv ▸ List.snd_lt_of_mem_zipIdx hd, hc⟩) hr hcol (h.imp (fun ne _ _ e => ne e.2.symm) id))

end

section
variable {s : State} {core : Fin 2048} {f : Inflight} {rest : List Inflight} {o : MOp}
  (hs : ∀ x ∈ (s.m.core core.val).mq, x.settled) (hi : (s.m.core core.val).inflight = f :: rest)
  (ho : (s.m.core core.val).mq.filter (fun x => x.id == f.op) = [o]) (hl : o.lane = true)
include hs hi ho hl

/-- A slot's result lands in its column (06 R137). -/
theorem State.slotResult_lands (hc : f.col < 32) (hv : f.vals.length = 32) :
    Completes (.slotResultLand core) s fun m => SameBytes s.m m ∧ (m.core core.val).inflight = rest ∧
      (m.core core.val).mq = (s.m.core core.val).mq.map (fun x => if x.id = o.id then
        { x with flags := x.flags ||| f.flags, landed := x.landed + 1, done := decide (o.landed + 1 = o.total) } else x) ∧
      (m.core core.val).stat f.tile = (if f.stat then (s.m.core core.val).stat f.tile ||| (f.flags.setWidth 64 &&& 0x3D)
        else (s.m.core core.val).stat f.tile) ∧
      ∀ r col, r < 32 → col < 32 →
        (col = f.col → (m.core core.val).tileBits f.tile f.ntiles r col = f.vals.getD r 0 % 2 ^ (32 * f.ntiles)) ∧
        ∀ x, (col ≠ f.col ∨ x < f.tile ∨ f.tile + f.ntiles ≤ x) → (m.core core.val).accWord x r col = (s.m.core core.val).accWord x r col := by
  obtain ⟨found, -, only⟩ := only_of_id ho
  have run : exec (.slotResultLand core) s = .next { s with m := slotResultLand core.val s.m.fresh } := State.go_eq s _
  let c : Core := { s.m.core core.val with inflight := rest }
  let m1 := (s.m.fresh.unfly core.val rest).columnLands core.val f o
  have core1 : m1.core core.val = (c.column f).modOp o.id fun o => o.gather f.flags := by
    have unfly : (s.m.fresh.unfly core.val rest).core core.val = c := Module.core_setCore_self _ _ _
    exact (Module.core_setCore_self _ _ _).trans (by rw [unfly])
  obtain ⟨mq, -, inflight, stat⟩ := c.column_rest f
  have queue : (m1.core core.val).mq = (s.m.core core.val).mq.map fun y => if y.id = o.id then y.gather f.flags else y := by
    rw [core1]
    exact congrArg (List.map _) mq
  have lands := Module.lands_core queue
  rw [slotResultLand_oldest (m := s.m.fresh) hi found, if_neg (by omega),
    Module.lands_settles queue hs fun y hy same => only y hy same ▸ hl] at run
  have beside : Beside [] s.m (m1.modOp core.val o.id MOp.lands) := by
    have unfly : Beside [] s.m.fresh (s.m.fresh.unfly core.val rest) := Beside.setCore _ _ _ rfl
    obtain ⟨-, grids, -⟩ := ((s.m.fresh.unfly core.val rest).core core.val).column_rest f
    have written : Beside [] (s.m.fresh.unfly core.val rest) m1 := Beside.setCore _ _ _ grids
    exact ((s.m.fresh_beside.trans unfly).trans written).trans (Module.modOp_beside _ _ _ _)
  have acc : ((m1.modOp core.val o.id MOp.lands).core core.val).acc = (c.column f).acc := by
    rw [lands, core1]
    rfl
  refine Completes.of_exec run ⟨beside.sameBytes, ?_, ?_, ?_, fun r col hr hcol => ⟨fun here => ?_, fun x hx => ?_⟩⟩
  · rw [lands, core1]
    exact inflight
  · rw [lands]
    refine List.map_congr_left fun y hy => ?_
    split
    · next same =>
      obtain rfl := only y hy same
      rfl
    · rfl
  · rw [lands, core1]
    exact stat
  · exact (Core.tileBits_congr acc _ _ _ _).trans (c.column_written f hc hv hr hcol here)
  · exact (Core.accWord_congr acc _ _ _).trans (c.column_kept f hc hv hr hcol hx)

end

end Sys2Proof.Machine
end

section
/-! PROOFS of the matrix family (06_matrix_unit), fifteenth part: the result of q.chol.tile lands as a whole (09 R215). -/

namespace Sys2Proof.Machine

theorem Core.putRows_accBut (c : Core) (t n : Nat) (rows : List (List Nat)) : c.AccBut (c.putRows t n rows) :=
  Core.foldl_tilePut_accBut (l := tilePos) (row := fun q => q.1) (column := fun q => q.2) (value := fun q => at2 rows q.1 q.2) c t n

/-- Rows that are written stand in their tile. -/
theorem Core.putRows_written (c : Core) (t n : Nat) (rows : List (List Nat)) {r col : Nat} (hr : r < 32) (hc : col < 32) :
    (c.putRows t n rows).tileBits t n r col = at2 rows r col % 2 ^ (32 * n) := by
  refine Core.tileBits_foldl_written (l := tilePos) (row := fun q => q.1) (column := fun q => q.2) (value := fun q => at2 rows q.1 q.2) c t n
    (fun q hq => mem_tilePos.mp hq) hr hc (fun q _ row column => ?_) ⟨(r, col), mem_tilePos.mpr ⟨hr, hc⟩, rfl, rfl⟩
  rw [← row, ← column]

/-- The factor that q.chol.tile computes from its tile, with its flags and its count. -/
def Core.factor (c : Core) (o : MOp) : (List (List Nat) × Flags) × Nat :=
  cholesky false (floorOf o.a.toNat) (c.tileRows (Word.rd o.word) 2) 32

/-- The core in which the factor stands in its tile. -/
def Core.putFactor (c : Core) (o : MOp) : Core := (c.tileZero (Word.rd o.word) 2).putRows (Word.rd o.word) 2 (c.factor o).1.1

/-- The core in which the flags of the factor have been kept in its tile's status, too. -/
def Core.factored (c : Core) (o : MOp) : Core := (c.putFactor o).orStat (Word.rd o.word) (c.factor o).1.2

/-- The count of a factor, as its scalar register receives it. -/
def Core.factorCount (c : Core) (o : MOp) : Got := gotOf false (Word.slice o.word 5 0) 0 64 (c.factor o).2 none

theorem Core.putFactor_core (c : Core) (o : MOp) :
    (c.putFactor o).mq = c.mq ∧ (c.putFactor o).grids = c.grids ∧ (c.putFactor o).inflight = c.inflight := by
  obtain ⟨acc, only⟩ := (c.tileZero (Word.rd o.word) 2).putRows_accBut (Word.rd o.word) 2 (c.factor o).1.1
  unfold Core.putFactor
  rw [only]
  exact ⟨rfl, rfl, rfl⟩

theorem Core.factored_core (c : Core) (o : MOp) :
    (c.factored o).mq = c.mq ∧ (c.factored o).grids = c.grids ∧ (c.factored o).inflight = c.inflight := by
  obtain ⟨v, hv⟩ := (c.putFactor o).orStat_eq (Word.rd o.word) (c.factor o).1.2
  rw [Core.factored, hv, Core.mq_setStat, Core.grids_setStat, Core.inflight_setStat]
  exact c.putFactor_core o

theorem Core.factored_tile (c : Core) (o : MOp) {r col : Nat} (hr : r < 32) (hc : col < 32) :
    (c.factored o).tileBits (Word.rd o.word) 2 r col = at2 (c.factor o).1.1 r col % 2 ^ 64 :=
  (Core.tileBits_congr (Core.acc_orStat _ _ _) _ _ _ _).trans (Core.putRows_written _ _ _ _ hr hc)

/-- The module in which the factor has been written and its count delivered. -/
def Module.factorDelivered (m : Module) (core : Nat) (o : MOp) : Module :=
  ((m.setCore core ((m.core core).putFactor o)).setCore core ((m.core core).factored o)).mDeliver core o [(m.core core).factorCount o]

/-- The result of q.chol.tile, when it lands. -/
theorem Module.qEffect_chol (m : Module) (core : Nat) {o : MOp} (hj : Word.major o.word = 0x28) (hn : Word.minor o.word = 0) :
    m.qEffect core o = (m.factorDelivered core o).modOp core o.id fun x => x.gather ((m.core core).factor o).1.2 := by
  have plain : (0 == 1) = false := rfl
  simp only [Module.qEffect, hj, hn, plain, Bool.false_eq_true, if_false, Module.core_setCore_self]
  rfl

section
variable (m : Module) (core : Nat) (o : MOp)

theorem Module.factorDelivered_core : (m.factorDelivered core o).core core = (m.core core).factored o :=
  (Module.core_congr (Module.mDeliver_cores _ _ _ _) core).trans (Module.core_setCore_self _ _ _)

/-- Beside its core, landing a factor changes the thread that waits for its count. -/
theorem Module.factorDelivered_beside : Beside [o.key core] m (m.factorDelivered core o) := by
  obtain ⟨-, put, -⟩ := (m.core core).putFactor_core o
  obtain ⟨-, kept, -⟩ := (m.core core).factored_core o
  have first : Beside [] m (m.setCore core ((m.core core).putFactor o)) := Beside.setCore _ _ _ put
  have second : Beside [] (m.setCore core ((m.core core).putFactor o))
      ((m.setCore core ((m.core core).putFactor o)).setCore core ((m.core core).factored o)) :=
    Beside.setCore _ _ _ (by rw [Module.core_setCore_self, kept, put])
  exact (first.trans second).mono.trans (Module.mDeliver_beside _ _ _ _)

/-- The count of a factor is what the thread's next instruction reads from its register (06 R159). -/
theorem Module.factorDelivered_settled {q : Outst} (hq : (m.th (o.key core)).outst = [q]) (hd : o.dst = some q.id) :
    ((m.factorDelivered core o).th (o.key core)).settled =
      ({ m.th (o.key core) with outst := [] }).setSN (Word.slice o.word 5 0) ((m.core core).factor o).2 := by
  have received : (m.factorDelivered core o).th (o.key core) =
      { m.th (o.key core) with outst := [q.receive ((m.core core).factorCount o)] } := by
    simp only [Module.factorDelivered, Module.mDeliver, hd, Module.modOutst, Module.th_setTh_self, Module.th_setCore, hq, List.map_cons,
      List.map_nil, if_true]
    rfl
  rw [received, Thread.settled_last (l := []) (o := q.receive ((m.core core).factorCount o)) rfl rfl]
  rfl

end

section
variable {s : State} {core : Fin 2048} {f : Inflight} {rest : List Inflight} {o : MOp}
  (hs : ∀ x ∈ (s.m.core core.val).mq, x.settled) (hi : (s.m.core core.val).inflight = f :: rest)
  (ho : (s.m.core core.val).mq.filter (fun x => x.id == f.op) = [o]) (hl : o.lane = true)
include hs hi ho hl

/-- The result of q.chol.tile is the factor of its tile, and its count is delivered (09 R215). -/
theorem State.factorResult_lands (hc : f.col = 32) (hj : Word.major o.word = 0x28) (hn : Word.minor o.word = 0) :
    Completes (.slotResultLand core) s fun m => SameBytes s.m m ∧ (m.core core.val).inflight = rest ∧
      (∀ r col, r < 32 → col < 32 →
        (m.core core.val).tileBits (Word.rd o.word) 2 r col = at2 ((s.m.core core.val).factor o).1.1 r col % 2 ^ 64) ∧
      ∀ q : Outst, (s.m.th (o.key core.val)).outst = [q] → o.dst = some q.id → Word.slice o.word 5 0 ≠ 0 →
        (m.settle (o.key core.val)).th (o.key core.val) =
          ({ s.m.th (o.key core.val) with outst := [] }).setSN (Word.slice o.word 5 0) ((s.m.core core.val).factor o).2 := by
  obtain ⟨found, -, only⟩ := only_of_id ho
  have run : exec (.slotResultLand core) s = .next { s with m := slotResultLand core.val s.m.fresh } := State.go_eq s _
  let m0 := s.m.fresh.unfly core.val rest
  have core0 : m0.core core.val = { s.m.core core.val with inflight := rest } := Module.core_setCore_self _ _ _
  have factor : (m0.core core.val).factor o = (s.m.core core.val).factor o := by rw [core0]; rfl
  obtain ⟨mq, -, inflight⟩ := (m0.core core.val).factored_core o
  let m1 := (m0.factorDelivered core.val o).modOp core.val o.id fun x => x.gather ((m0.core core.val).factor o).1.2
  have made := Module.core_modOp (m0.factorDelivered core.val o) core.val o.id fun x => x.gather ((m0.core core.val).factor o).1.2
  rw [Module.factorDelivered_core] at made
  have queue : (m1.core core.val).mq = (s.m.core core.val).mq.map fun y =>
      if y.id = o.id then y.gather ((m0.core core.val).factor o).1.2 else y := by
    have mq0 : (m0.core core.val).mq = (s.m.core core.val).mq := by rw [core0]
    rw [made]
    dsimp only
    rw [mq, mq0]
  have lands := Module.lands_core queue
  rw [slotResultLand_oldest (m := s.m.fresh) hi found, if_pos hc, Module.qEffect_chol _ _ hj hn,
    Module.lands_settles queue hs fun y hy same => only y hy same ▸ hl] at run
  have unfly : Beside [] s.m m0 := s.m.fresh_beside.trans (Beside.setCore _ _ _ rfl)
  have marked := Module.modOp_beside (m0.factorDelivered core.val o) core.val o.id fun x => x.gather ((m0.core core.val).factor o).1.2
  have landed := Module.modOp_beside m1 core.val o.id MOp.lands
  have beside := (unfly.mono.trans (m0.factorDelivered_beside core.val o)).trans (marked.trans landed).mono
  refine Completes.of_exec run ⟨beside.sameBytes, ?_, fun r col hr hcol => ?_, fun q hq hd _ => ?_⟩
  · rw [lands, made]
    dsimp only
    rw [inflight, core0]
  · have acc : ((m1.modOp core.val o.id MOp.lands).core core.val).acc = ((m0.core core.val).factored o).acc := by
      rw [lands, made]
    exact (Core.tileBits_congr acc _ _ _ _).trans ((Core.factored_tile _ _ hr hcol).trans (by rw [factor]))
  · rw [Module.settle_th, (marked.trans landed).th _ List.not_mem_nil, Module.factorDelivered_settled _ _ _ (by rw [unfly.th _ List.not_mem_nil, hq]) hd,
      unfly.th _ List.not_mem_nil, factor]

end

end Sys2Proof.Machine
end

section
/-! PROOFS of the matrix family (06_matrix_unit), sixteenth part: a completed operation retires, and how slots enter, land and retire (06 R152; 03 R72; 16 R400). -/

namespace Sys2Proof.Machine

/-- The context makes progress now (16 R399). -/
theorem Module.progress_wdSince (m : Module) (n : Nat) : ((m.progress n).ctx n).wdSince = m.pilot := by
  have since : ((m.setCtx n { m.ctx n with wdSince := m.pilot }).ctx n).wdSince = m.pilot := by rw [Module.ctx_setCtx_self]
  unfold Module.progress
  dsimp only
  split <;> exact since

/-- The core without a completed operation, its clock running. -/
def Core.without (c : Core) (o : MOp) : Core := { c with mq := c.mq.filter (fun x => x.id != o.id), clockOn := true }

/-- The module in which a completed operation has retired. -/
def Module.opRetired (m : Module) (core : Nat) (o : MOp) : Module :=
  let k := o.key core
  (((m.setCore core ((m.core core).without o)).setTh k { (m.th k).orFlags o.flags with retiredAt := m.pilot }).countPart k 3 1).progress (m.th k).ctx

section
variable {m : Module} {core : Nat} (hs : ∀ x ∈ (m.core core).mq, x.settled)
include hs

theorem mOpRetire_none (h : ∀ x ∈ (m.core core).mq, x.done = false) : mOpRetire core m = m := by
  have none_ : (m.core core).mq.find? (fun o => o.done) = none := List.find?_eq_none.mpr fun x hx => by rw [h x hx]; decide
  simp only [mOpRetire, Module.settleQueue_settled hs, none_]

theorem mOpRetire_first {o : MOp} (h : (m.core core).mq.find? (fun x => x.done) = some o) : mOpRetire core m = m.opRetired core o := by
  simp only [mOpRetire, Module.settleQueue_settled hs, h]
  rfl

end

section
variable (m : Module) (core : Nat) (o : MOp)

theorem Module.opRetired_core : (m.opRetired core o).core core = (m.core core).without o := by
  unfold Module.opRetired
  dsimp only
  rw [Module.core_congr (Module.progress_cores _ _), Module.core_congr (Module.countPart_cores _ _ _ _), Module.core_setTh, Module.core_setCore_self]

theorem Module.opRetired_beside :
    Beside [] ((m.setCore core ((m.core core).without o)).setTh (o.key core) { (m.th (o.key core)).orFlags o.flags with retiredAt := m.pilot })
      (m.opRetired core o) :=
  (Module.countPart_beside _ _ _ _).trans (Module.progress_beside _ _)

theorem Module.opRetired_beside_self : Beside [o.key core] m (m.opRetired core o) :=
  ((Beside.setCore m core ((m.core core).without o) rfl).mono.trans (Beside.setTh _ _ _)).trans (m.opRetired_beside core o).mono

theorem Module.opRetired_th :
    (m.opRetired core o).th (o.key core) = { (m.th (o.key core)).orFlags o.flags with retiredAt := m.pilot } :=
  ((m.opRetired_beside core o).th _ List.not_mem_nil).trans (Module.th_setTh_self _ _ _)

theorem Module.opRetired_wdSince : ((m.opRetired core o).ctx (m.th (o.key core)).ctx).wdSince = m.pilot :=
  (Module.progress_wdSince _ _).trans (Module.countPart_beside _ _ _ _).pilot

end

/-! ### The commands -/

section
variable {s : State} {core : Fin 2048} (hs : ∀ x ∈ (s.m.core core.val).mq, x.settled)
include hs

theorem State.mOpRetire_idle (h : ∀ x ∈ (s.m.core core.val).mq, x.done = false) : Does (.mOpRetire core) s [] (fun _ => True) :=
  Does.nothing ((State.go_eq s _).trans (by rw [mOpRetire_none (m := s.m.fresh) hs h]))

/-- The first completed operation retires, and its flags reach its thread (03 R72). -/
theorem State.mOpRetire_retires {o : MOp} (h : (s.m.core core.val).mq.find? (fun x => x.done) = some o) :
    Completes (.mOpRetire core) s fun m => SameBytes s.m m ∧ m.core core.val = (s.m.core core.val).without o ∧
      m.th (o.key core.val) = { (s.m.th (o.key core.val)).orFlags o.flags with retiredAt := s.m.pilot } ∧
      (m.ctx (s.m.th (o.key core.val)).ctx).wdSince = s.m.pilot ∧ (∀ f : Fld, sideField f.key = false → m.getF f = s.m.getF f) ∧
      ∀ j, j ≠ o.key core.val → m.th j = s.m.th j := by
  have run : exec (.mOpRetire core) s = .next { s with m := mOpRetire core.val s.m.fresh } := State.go_eq s _
  rw [mOpRetire_first (m := s.m.fresh) hs h] at run
  have beside := s.m.fresh_beside.mono.trans (s.m.fresh.opRetired_beside_self core.val o)
  exact Completes.of_exec run ⟨beside.sameBytes, s.m.fresh.opRetired_core core.val o, s.m.fresh.opRetired_th core.val o,
    s.m.fresh.opRetired_wdSince core.val o, beside.fields, fun j hj => beside.th j fun hk => hj (List.mem_singleton.mp hk)⟩

end

/-- Settles O40: each command on a queue that has nothing to perform off the lane path does what its own lemma says; mwait by whether it holds a
position. -/
theorem slotsEnterLandAndRetire : Obligations.SlotsEnterLandAndRetire := by
  intro s
  refine ⟨fun th w hi => ⟨fun free full => State.mwait_full hi free full, fun free room met clear => State.mwait_passes hi free room met clear,
    fun free room waits => State.mwait_queues hi free room waits, fun o pos => ⟨fun met start => State.mwait_released hi pos met start,
      fun held => State.mwait_held hi pos held⟩⟩, fun core hs => ⟨fun o hq hm hd hb slots => ⟨fun ho free => ?_, fun ho busy => ?_, fun ho invalid live => ?_⟩,
    fun f rest o hf only lane => ⟨fun hc hv => ?_, fun hc hj hn _ => ?_⟩, fun idle => ?_, fun o first => ?_⟩⟩
  · refine (State.mmaSlot_enters hq hm hd hb slots ho free).mono fun m ⟨bytes, acc, mq, inflight⟩ => ⟨bytes, acc, mq, _, rfl, rfl, ?_, rfl, rfl, rfl,
      ?_, fun r hr => s.m.slotFlight_row core.val hm hr⟩
    · rw [inflight, Core.begun_inflight]
    · exact (List.length_map _).trans (s.m.fresh.slotResults_length core.val hm)
  · exact State.mmaSlot_waits hq hm hd hb slots ho busy
  · exact State.mmaSlot_invalid hq hm hd hb slots ho invalid live
  · exact State.slotResult_lands hs hf only lane hc hv
  · exact State.factorResult_lands hs hf only lane hc hj hn
  · exact State.mOpRetire_idle hs idle
  · exact State.mOpRetire_retires hs first

end Sys2Proof.Machine
end
